-- ==== Sys2Proof/Word.lean ====
section
/-! DEFINITION. Word.lean: the word types of the Volwaz and their plainest arithmetic (R4, R5). -/

namespace Sys2Proof

/-- A 64-bit register or address (R119). -/
abbrev Word := BitVec 64
/-- A byte of memory (R5). -/
abbrev Byte := BitVec 8
/-- A 32-bit instruction word or memory word (R5, R102). -/
abbrev Word32 := BitVec 32
/-- A vector register of one slot: 32 lanes of 32 bits, lane 0 lowest (R146). -/
abbrev VReg := BitVec 1024

/-- Number of a general register x0 to x31. -/
abbrev XReg := Fin 32
/-- Number of a vector register v0 to v31. -/
abbrev VNum := Fin 32
/-- Number of a predicate p0 to p31. -/
abbrev PReg := Fin 32
/-- Number of a mask register k0 to k7. -/
abbrev KReg := Fin 8
/-- A guard field G: 0 unguarded, 1 to 7 names p1 to p7 (R106). -/
abbrev Guard := Fin 8

end Sys2Proof
end

