-- ==== Sys2Proof/Config.lean ====
section
/-! DEFINITION. Config.lean: what the spec leaves open, as free values without a body, and constants of the LQM-8201. -/

namespace Sys2Proof.Config

/-- Which of several possible moves happens next, where the spec fixes no order (R206, R248, R413). -/
opaque order : Nat → Nat
/-- Signature bit of a physical line number (R241). [log 82 DESIGN CHOICE] -/
opaque sigBit : Nat → Fin 1024
/-- Whether a sampler line is still held at a fetch; lines are also evicted silently (R198). [log 82 DESIGN CHOICE] -/
opaque samplerKept : Nat → Bool
/-- Whether a translation changed without a request is still taken from a TLB (R195). [log 82 DESIGN CHOICE] -/
opaque tlbKept : Nat → Bool
/-- A nonce of Anvil's random source (R405). [log 78 DESIGN CHOICE] -/
opaque nonce : Nat → List Byte
/-- Anvil's certificate chain and its digest (R405). [log 78 DESIGN CHOICE] -/
opaque certificate : List Byte
opaque certDigest : List Byte
/-- Anvil's signature over a response (R405). [log 78 DESIGN CHOICE] -/
opaque signature : List Byte → List Byte
/-- The module's serial number (R405). [log 78 DESIGN CHOICE] -/
opaque serial : List Byte

/-- A scale byte that an MMA cannot read, by its place in the scale array: R168 to R177 state no outcome. [log 24 DESIGN
CHOICE] -/
opaque scaleByte : Nat → Byte

/-- Snapped value of a coordinate that is NaN, infinite or outside 32 bits: R352 states none. [log 47 DESIGN CHOICE] -/
opaque snapped : Word32 → BitVec 32

/-- Whether a bound of a plane block's box that lies between two pixels takes the upper one: R351 does not say. [log 47
DESIGN CHOICE] -/
opaque boxUp : Fin 4 → Bool

/-- Depth of a plane block whose area is zero, by depths and edge values: R354 states none. [log 47 DESIGN CHOICE] -/
opaque flatDepth : List Word32 → List Int → Word32

/-- Energy in nJ of a piece of work, and units of a budget's resource that an activity uses: R325, R360 state none. [log 58
DESIGN CHOICE] -/
opaque energy : Nat → Nat
opaque cost : Nat → Nat

/-- What bits 31:0 of `trval2` hold for a deadlocked thread with no party to wait for: R264 states none. [log 51 DESIGN
CHOICE] -/
opaque noParty : Nat → BitVec 32

/-- Number that stands for the wired barrier of a gang in a deadlock record: R264 gives it none. [log 51 DESIGN CHOICE] -/
opaque wiredBarrier : Fin 4

/-- A field of a trace record that R407 does not define for its kind, and the session's last sequence number, by the records
the session has written: R407 does not say how it is counted. [log 66 DESIGN CHOICE] -/
opaque traceField : Nat → Word
opaque traceSeq : Nat → BitVec 56

/-- How ROW0 and ROWS share their word: R408 does not say. [log 66 DESIGN CHOICE] -/
opaque rowsField : Nat → Nat → BitVec 32

/-- What the operands of management operations 5 and 6 ask for: R401 gives no encoding. Operation 5: 0 open, 1 close, 2
step, else outside its limits; the thread that a step names, by its `loc`. Operation 6: the core's `loc`, the counter, and
the select to set, none to read it. [log 68 DESIGN CHOICE] -/
opaque sessionOp : Word → Word → Nat
opaque sessionThread : Word → Word → Word
opaque counterCore : Word → Word → Word
opaque counterIndex : Word → Word → Nat
opaque counterSet : Word → Word → Option (BitVec 8)

/-- The budget table entries that Nolmon writes at boot: period, budget, resource, account (R325). [log 73 DEDUCED] -/
opaque bootBudget : Fin 7 → Nat × Nat × Nat × Nat

/-- Relarn's ML-DSA-87 public key, and how the bytes that boot reads divide into the Nolmon image and its signature: the
spec gives neither (R398, R405). [log 122 DESIGN CHOICE] -/
opaque relarnKey : List Byte
opaque imageParts : List Byte → List Byte × List Byte

/-- What Anvil answers to a request whose answer R405 does not give, by request. [log 78 DESIGN CHOICE] -/
opaque spdmAnswer : Nat → List Byte

/-- A voltage, in steps from that of the 1.05 GHz clock, is safe at a divider: the spec gives no voltages (R404). [log 77
DEDUCED] -/
opaque voltSafe : Int → Nat → Bool

/-- Dies, rows of a die, columns of a row (R11, R12). -/
def dies : Nat := 8
def rows : Nat := 32
def cols : Nat := 16
/-- Cores of the module (R18). -/
def cores : Nat := 4096
/-- Scratchpad bytes of a core (R19). -/
def spadBytes : Nat := 0x60000
/-- Lane slice bytes of a core (R19). -/
def laneBytes : Nat := 0x20000
/-- Slate bytes of a die (R19). -/
def slateBytes : Nat := 2 ^ 27

end Sys2Proof.Config
end

