-- ==== Sys2Proof/Syntax.lean ====
section
/-! DEFINITION. Syntax.lean: the steps of the Volwaz as one inductive, one constructor per row of the opcode table:
the 71 base instructions (R105), the 166 own instructions (R113 to R116) and the steps of the device that no word encodes. -/

namespace Sys2Proof

/-- Vector element type (R109). -/
inductive VType where
  | f32 | bf16 | f16 | i32 | i8 | u8 | c32
  deriving DecidableEq, Repr

/-- One step of the machine. An instruction is executed by the thread whose turn it is; any other
constructor is a step of the device, named by the row of the opcode table it stands for; its subject (which core,
slot, partition, value ...) stands in the state, in the field named subject. -/
inductive Instr where
  /-- LUI (R130): Loads an upper immediate into rd as RV64I defines. -/
  | lui (rd : XReg) (imm : BitVec 20)
  /-- AUIPC (R130): Adds an upper immediate to pc into rd as RV64I defines. -/
  | auipc (rd : XReg) (imm : BitVec 20)
  /-- JAL (R134): Jumps and links; a misaligned target raises cause 0 and leaves rd unwritten; ends an active repeat. -/
  | jal (rd : XReg) (imm : BitVec 20)
  /-- JALR (R134): Jumps to register plus offset with bit 0 cleared and links; a misaligned target raises cause 0. -/
  | jalr (rd : XReg) (rs1 : XReg) (imm : BitVec 12)
  /-- BEQ (R134): Branches if equal; a taken misaligned target raises cause 0; a taken branch ends an active repeat. -/
  | beq (rs1 : XReg) (rs2 : XReg) (imm : BitVec 12)
  /-- BNE (R134): Branches if not equal. -/
  | bne (rs1 : XReg) (rs2 : XReg) (imm : BitVec 12)
  /-- BLT (R134): Branches if signed less than. -/
  | blt (rs1 : XReg) (rs2 : XReg) (imm : BitVec 12)
  /-- BGE (R134): Branches if signed greater or equal. -/
  | bge (rs1 : XReg) (rs2 : XReg) (imm : BitVec 12)
  /-- BLTU (R134): Branches if unsigned less than. -/
  | bltu (rs1 : XReg) (rs2 : XReg) (imm : BitVec 12)
  /-- BGEU (R134): Branches if unsigned greater or equal. -/
  | bgeu (rs1 : XReg) (rs2 : XReg) (imm : BitVec 12)
  /-- LB (R132): Loads a sign-extended byte from the space its address selects, parking unless local. -/
  | lb (rd : XReg) (rs1 : XReg) (imm : BitVec 12)
  /-- LH (R132): Loads a sign-extended half; misalignment raises cause 4. -/
  | lh (rd : XReg) (rs1 : XReg) (imm : BitVec 12)
  /-- LW (R132): Loads a sign-extended word from the selected space. -/
  | lw (rd : XReg) (rs1 : XReg) (imm : BitVec 12)
  /-- LBU (R132): Loads a zero-extended byte. -/
  | lbu (rd : XReg) (rs1 : XReg) (imm : BitVec 12)
  /-- LHU (R132): Loads a zero-extended half. -/
  | lhu (rd : XReg) (rs1 : XReg) (imm : BitVec 12)
  /-- LWU (R132): Loads a zero-extended word. -/
  | lwu (rd : XReg) (rs1 : XReg) (imm : BitVec 12)
  /-- LD (R132): Loads a doubleword. -/
  | ld (rd : XReg) (rs1 : XReg) (imm : BitVec 12)
  /-- SB (R132): Stores a byte: logged locally, buffered globally or posted remotely. -/
  | sb (rs2 : XReg) (rs1 : XReg) (imm : BitVec 12)
  /-- SH (R132): Stores a half; misalignment raises cause 6. -/
  | sh (rs2 : XReg) (rs1 : XReg) (imm : BitVec 12)
  /-- SW (R132): Stores a word. -/
  | sw (rs2 : XReg) (rs1 : XReg) (imm : BitVec 12)
  /-- SD (R132): Stores a doubleword. -/
  | sd (rs2 : XReg) (rs1 : XReg) (imm : BitVec 12)
  /-- ADDI (R130): Adds a sign-extended immediate, wrapping modulo 2^64. -/
  | addi (rd : XReg) (rs1 : XReg) (imm : BitVec 12)
  /-- SLTI (R130): Sets rd if rs1 is signed less than the immediate. -/
  | slti (rd : XReg) (rs1 : XReg) (imm : BitVec 12)
  /-- SLTIU (R130): Sets rd if rs1 is unsigned less than the immediate. -/
  | sltiu (rd : XReg) (rs1 : XReg) (imm : BitVec 12)
  /-- XORI (R130): XOR with an immediate. -/
  | xori (rd : XReg) (rs1 : XReg) (imm : BitVec 12)
  /-- ORI (R130): OR with an immediate. -/
  | ori (rd : XReg) (rs1 : XReg) (imm : BitVec 12)
  /-- ANDI (R130): AND with an immediate. -/
  | andi (rd : XReg) (rs1 : XReg) (imm : BitVec 12)
  /-- SLLI (R130): Shifts left by an immediate. -/
  | slli (rd : XReg) (rs1 : XReg) (sh : Fin 64)
  /-- SRLI (R130): Shifts right logically by an immediate. -/
  | srli (rd : XReg) (rs1 : XReg) (sh : Fin 64)
  /-- SRAI (R130): Shifts right arithmetically by an immediate. -/
  | srai (rd : XReg) (rs1 : XReg) (sh : Fin 64)
  /-- ADD (R130): Adds two registers, wrapping. -/
  | add (rd : XReg) (rs1 : XReg) (rs2 : XReg)
  /-- SUB (R130): Subtracts two registers, wrapping. -/
  | sub (rd : XReg) (rs1 : XReg) (rs2 : XReg)
  /-- SLL (R130): Shifts left by a register. -/
  | sll (rd : XReg) (rs1 : XReg) (rs2 : XReg)
  /-- SLT (R130): Signed set-less-than. -/
  | slt (rd : XReg) (rs1 : XReg) (rs2 : XReg)
  /-- SLTU (R130): Unsigned set-less-than. -/
  | sltu (rd : XReg) (rs1 : XReg) (rs2 : XReg)
  /-- XOR (R130): Bitwise XOR. -/
  | xor (rd : XReg) (rs1 : XReg) (rs2 : XReg)
  /-- SRL (R130): Logical right shift by a register. -/
  | srl (rd : XReg) (rs1 : XReg) (rs2 : XReg)
  /-- SRA (R130): Arithmetic right shift by a register. -/
  | sra (rd : XReg) (rs1 : XReg) (rs2 : XReg)
  /-- OR (R130): Bitwise OR. -/
  | or (rd : XReg) (rs1 : XReg) (rs2 : XReg)
  /-- AND (R130): Bitwise AND. -/
  | and (rd : XReg) (rs1 : XReg) (rs2 : XReg)
  /-- ADDIW (R130): 32-bit add immediate, sign-extended. -/
  | addiw (rd : XReg) (rs1 : XReg) (imm : BitVec 12)
  /-- SLLIW (R130): 32-bit shift left immediate. -/
  | slliw (rd : XReg) (rs1 : XReg) (sh : Fin 32)
  /-- SRLIW (R130): 32-bit logical right shift immediate. -/
  | srliw (rd : XReg) (rs1 : XReg) (sh : Fin 32)
  /-- SRAIW (R130): 32-bit arithmetic right shift immediate. -/
  | sraiw (rd : XReg) (rs1 : XReg) (sh : Fin 32)
  /-- ADDW (R130): 32-bit add, sign-extended. -/
  | addw (rd : XReg) (rs1 : XReg) (rs2 : XReg)
  /-- SUBW (R130): 32-bit subtract, sign-extended. -/
  | subw (rd : XReg) (rs1 : XReg) (rs2 : XReg)
  /-- SLLW (R130): 32-bit shift left. -/
  | sllw (rd : XReg) (rs1 : XReg) (rs2 : XReg)
  /-- SRLW (R130): 32-bit logical right shift. -/
  | srlw (rd : XReg) (rs1 : XReg) (rs2 : XReg)
  /-- SRAW (R130): 32-bit arithmetic right shift. -/
  | sraw (rd : XReg) (rs1 : XReg) (rs2 : XReg)
  /-- MUL (R133): Fixed-latency multiply, low 64 bits. -/
  | mul (rd : XReg) (rs1 : XReg) (rs2 : XReg)
  /-- MULH (R133): Signed multiply, high bits. -/
  | mulh (rd : XReg) (rs1 : XReg) (rs2 : XReg)
  /-- MULHSU (R133): Signed-unsigned multiply, high bits. -/
  | mulhsu (rd : XReg) (rs1 : XReg) (rs2 : XReg)
  /-- MULHU (R133): Unsigned multiply, high bits. -/
  | mulhu (rd : XReg) (rs1 : XReg) (rs2 : XReg)
  /-- DIV (R133): Signed divide on the core divider; parks 36 cycles, no trap on zero or overflow. -/
  | div (rd : XReg) (rs1 : XReg) (rs2 : XReg)
  /-- DIVU (R133): Unsigned divide; parks. -/
  | divu (rd : XReg) (rs1 : XReg) (rs2 : XReg)
  /-- REM (R133): Signed remainder; parks. -/
  | rem (rd : XReg) (rs1 : XReg) (rs2 : XReg)
  /-- REMU (R133): Unsigned remainder; parks. -/
  | remu (rd : XReg) (rs1 : XReg) (rs2 : XReg)
  /-- MULW (R133): 32-bit multiply, sign-extended. -/
  | mulw (rd : XReg) (rs1 : XReg) (rs2 : XReg)
  /-- DIVW (R133): 32-bit signed divide; parks 20 cycles. -/
  | divw (rd : XReg) (rs1 : XReg) (rs2 : XReg)
  /-- DIVUW (R133): 32-bit unsigned divide; parks. -/
  | divuw (rd : XReg) (rs1 : XReg) (rs2 : XReg)
  /-- REMW (R133): 32-bit signed remainder; parks. -/
  | remw (rd : XReg) (rs1 : XReg) (rs2 : XReg)
  /-- REMUW (R133): 32-bit unsigned remainder; parks. -/
  | remuw (rd : XReg) (rs1 : XReg) (rs2 : XReg)
  /-- CSRRW (R137): Reads the CSR into rd (unless rd is x0) and writes rs1. -/
  | csrrw (rd : XReg) (csr : BitVec 12) (rs1 : XReg)
  /-- CSRRS (R137): Reads the CSR and sets the bits in rs1; no write with rs1 = x0. -/
  | csrrs (rd : XReg) (csr : BitVec 12) (rs1 : XReg)
  /-- CSRRC (R137): Reads the CSR and clears the bits in rs1. -/
  | csrrc (rd : XReg) (csr : BitVec 12) (rs1 : XReg)
  /-- CSRRWI (R137): Reads the CSR and writes a 5-bit immediate. -/
  | csrrwi (rd : XReg) (csr : BitVec 12) (uimm : Fin 32)
  /-- CSRRSI (R137): Reads the CSR and sets immediate bits. -/
  | csrrsi (rd : XReg) (csr : BitVec 12) (uimm : Fin 32)
  /-- CSRRCI (R137): Reads the CSR and clears immediate bits. -/
  | csrrci (rd : XReg) (csr : BitVec 12) (uimm : Fin 32)
  /-- LDX (R201): KM load with optional posted-counter wait, zero-extending into rd. -/
  | ldx (g : Guard) (w : Fin 4) (size : Fin 4) (off3 : Fin 8) (rd : XReg) (rs1 : XReg)
  /-- LDX_F (R203): Full/empty load: waits until the word is full, bounded by qlimit, then reads it. -/
  | ldxF (g : Guard) (w : Fin 4) (dbl : Bool) (off3 : Fin 8) (rd : XReg) (rs1 : XReg)
  /-- STX (R201): KM store with optional posted-counter wait. -/
  | stx (g : Guard) (w : Fin 4) (size : Fin 4) (off3 : Fin 8) (rs2 : XReg) (rs1 : XReg)
  /-- STX_F (R203): Writes the word and sets its full bit indivisibly at the owner. -/
  | stxF (g : Guard) (w : Fin 4) (dbl : Bool) (off3 : Fin 8) (rs2 : XReg) (rs1 : XReg)
  /-- AADD (R204): Atomic add at the location's owner, returning the old value. -/
  | aadd (aq : Bool) (rl : Bool) (dbl : Bool) (rd : XReg) (rs2 : XReg) (rs1 : XReg)
  /-- ASWP (R204): Atomic swap. -/
  | aswp (aq : Bool) (rl : Bool) (dbl : Bool) (rd : XReg) (rs2 : XReg) (rs1 : XReg)
  /-- AAND (R204): Atomic AND. -/
  | aand (aq : Bool) (rl : Bool) (dbl : Bool) (rd : XReg) (rs2 : XReg) (rs1 : XReg)
  /-- AOR (R204): Atomic OR. -/
  | aor (aq : Bool) (rl : Bool) (dbl : Bool) (rd : XReg) (rs2 : XReg) (rs1 : XReg)
  /-- AXOR (R204): Atomic XOR. -/
  | axor (aq : Bool) (rl : Bool) (dbl : Bool) (rd : XReg) (rs2 : XReg) (rs1 : XReg)
  /-- AMAX (R204): Atomic signed maximum. -/
  | amax (aq : Bool) (rl : Bool) (dbl : Bool) (rd : XReg) (rs2 : XReg) (rs1 : XReg)
  /-- AMIN (R204): Atomic signed minimum. -/
  | amin (aq : Bool) (rl : Bool) (dbl : Bool) (rd : XReg) (rs2 : XReg) (rs1 : XReg)
  /-- AMAXU (R204): Atomic unsigned maximum. -/
  | amaxu (aq : Bool) (rl : Bool) (dbl : Bool) (rd : XReg) (rs2 : XReg) (rs1 : XReg)
  /-- AMINU (R204): Atomic unsigned minimum. -/
  | aminu (aq : Bool) (rl : Bool) (dbl : Bool) (rd : XReg) (rs2 : XReg) (rs1 : XReg)
  /-- ACAS (R204): Atomic compare-and-swap with the expected value in rd. -/
  | acas (aq : Bool) (rl : Bool) (dbl : Bool) (rd : XReg) (rs2 : XReg) (rs1 : XReg)
  /-- AFADD (R204): Atomic FP32 add rounded RNE at the owner. -/
  | afadd (aq : Bool) (rl : Bool) (rd : XReg) (rs2 : XReg) (rs1 : XReg)
  /-- AFMAX (R204): Atomic FP32 maximum. -/
  | afmax (aq : Bool) (rl : Bool) (rd : XReg) (rs2 : XReg) (rs1 : XReg)
  /-- AINCW (R204): Atomic wrapping increment against a bound. -/
  | aincw (aq : Bool) (rl : Bool) (dbl : Bool) (rd : XReg) (rs2 : XReg) (rs1 : XReg)
  /-- PSEQ (R138): Sets predicate pd to x[rs1] == x[rs2]. -/
  | pseq (g : Guard) (pd : PReg) (rs1 : XReg) (rs2 : XReg)
  /-- PSNE (R138): Sets pd to inequality. -/
  | psne (g : Guard) (pd : PReg) (rs1 : XReg) (rs2 : XReg)
  /-- PSLT (R138): Sets pd to signed less than. -/
  | pslt (g : Guard) (pd : PReg) (rs1 : XReg) (rs2 : XReg)
  /-- PSGE (R138): Sets pd to signed greater or equal. -/
  | psge (g : Guard) (pd : PReg) (rs1 : XReg) (rs2 : XReg)
  /-- PSLTU (R138): Sets pd to unsigned less than. -/
  | psltu (g : Guard) (pd : PReg) (rs1 : XReg) (rs2 : XReg)
  /-- PSGEU (R138): Sets pd to unsigned greater or equal. -/
  | psgeu (g : Guard) (pd : PReg) (rs1 : XReg) (rs2 : XReg)
  /-- PAND (R138): Predicate AND. -/
  | pand (g : Guard) (pd : PReg) (pa : PReg) (pb : PReg)
  /-- POR (R138): Predicate OR. -/
  | por (g : Guard) (pd : PReg) (pa : PReg) (pb : PReg)
  /-- PANDN (R138): Predicate AND NOT. -/
  | pandn (g : Guard) (pd : PReg) (pa : PReg) (pb : PReg)
  /-- PXOR (R138): Predicate XOR. -/
  | pxor (g : Guard) (pd : PReg) (pa : PReg) (pb : PReg)
  /-- PRD (R138): Reads the predicate word into rd. -/
  | prd (g : Guard) (rd : XReg)
  /-- PWR (R139): Writes the predicates selected by a mask; p0 stays 1. -/
  | pwr (g : Guard) (rs1 : XReg) (rs2 : XReg)
  /-- LIMM (R141): Loads a sign-extended 32-bit literal word that follows the instruction; pc advances by 8. -/
  | limm (g : Guard) (rd : XReg) (lit : Word32)
  /-- FENCER (R208): Commits the chunk and orders posted, engine or sampler accesses to a range at a scope. -/
  | fencer (g : Guard) (kinds : Fin 8) (scope : Fin 4) (rs1 : XReg) (rs2 : XReg)
  /-- LDRO (R209): Loads through the cluster sampler cache, filling a line on a miss. -/
  | ldro (g : Guard) (rd : XReg) (rs1 : XReg) (size : Fin 4)
  /-- FECLR (R210): Sets every full/empty bit of a range to empty. -/
  | feclr (g : Guard) (rs1 : XReg) (rs2 : XReg)
  /-- FESET (R210): Sets every full/empty bit of a range to full. -/
  | feset (g : Guard) (rs1 : XReg) (rs2 : XReg)
  /-- FETEST (R211): Writes a word's full bit into a predicate. -/
  | fetest (g : Guard) (pd : PReg) (rs1 : XReg)
  /-- CNTWAIT (R212): Parks until every named posted counter reads zero. -/
  | cntwait (g : Guard) (mask : Fin 8)
  /-- STNIB_LO (R213): Replaces the low nibble of a scratchpad byte. -/
  | stnibLo (g : Guard) (rs1 : XReg) (rs2 : XReg)
  /-- STNIB_HI (R213): Replaces the high nibble of a scratchpad byte. -/
  | stnibHi (g : Guard) (rs1 : XReg) (rs2 : XReg)
  /-- LOCKR (R214): Claims the core's scratchpad lock for a range, parking while another holds it. -/
  | lockr (g : Guard) (rs1 : XReg) (rs2 : XReg)
  /-- CHUNK (R216): Commits the open chunk, sets the chunk limit and returns chunkstat. -/
  | chunk (g : Guard) (rd : XReg) (rs1 : XReg)
  /-- PFETCH (R217): Prefetch hint for a range into L2 owners or the sampler cache. -/
  | pfetch (g : Guard) (kind : Fin 3) (rs1 : XReg) (rs2 : XReg)
  /-- SPAWN (R270): Binds a new resident thread in a free user slot of the core, or returns the own handle. -/
  | spawn (g : Guard) (rd : XReg) (rs1 : XReg) (rs2 : XReg)
  /-- MSPAWN (R272): Sends a new migrant packet to the owner of a target address. -/
  | mspawn (g : Guard) (rd : XReg) (rs1 : XReg) (rs2 : XReg)
  /-- MIGR (R272): Sends the issuing thread as a migrant packet to a target's owner. -/
  | migr (g : Guard) (rs1 : XReg)
  /-- RETIRE (R273): Ends the issuing thread and empties its slot. -/
  | retire (g : Guard)
  /-- WAITEV (R274): Parks until an event in evmask is pending and returns the pending events. -/
  | waitev (g : Guard) (rd : XReg)
  /-- PAIRON (R275): Joins an even and odd slot into one paired thread. -/
  | pairon (g : Guard) (rd : XReg)
  /-- PAIROFF (R276): Splits a pair into two threads. -/
  | pairoff (g : Guard)
  /-- REP (R142): Sets up a repeat of the following body without branches. -/
  | rep (g : Guard) (rs1 : XReg) (rs2 : XReg)
  /-- QPUSH (R277): Pushes a value to a local or cluster queue, parking if no entry is free. -/
  | qpush (g : Guard) (rs1 : XReg) (rs2 : XReg)
  /-- QPOP (R277): Commits the chunk and pops a queue, holding the pop if empty. -/
  | qpop (g : Guard) (rd : XReg) (rs1 : XReg)
  /-- QWAIT (R278): Parks until a queue's held or free count reaches a threshold. -/
  | qwait (g : Guard) (rd : XReg) (rs1 : XReg) (rs2 : XReg)
  /-- QSTAT (R279): Reads the state of a queue, mailbox or inbox. -/
  | qstat (g : Guard) (rd : XReg) (rs1 : XReg)
  /-- MSEND (R281): Posts a tagged message to a thread's inbox through the outbound buffer. -/
  | msend (g : Guard) (tag : Fin 32) (rs1 : XReg) (rs2 : XReg)
  /-- MRECV (R282): Takes the oldest message held for the thread, parking if none. -/
  | mrecv (g : Guard) (rd : XReg) (rh : XReg)
  /-- BARSET (R365): Configures or disarms a barrier register. -/
  | barset (g : Guard) (b : Fin 4) (rs2 : XReg)
  /-- BARRIVE (R367): Records the slot's arrival at a barrier. -/
  | barrive (g : Guard) (rd : XReg) (b : Fin 4)
  /-- BARWAIT (R368): Parks until the barrier generation passes the given one. -/
  | barwait (g : Guard) (b : Fin 4) (rs2 : XReg)
  /-- BARSTAT (R369): Reads a barrier register without waiting. -/
  | barstat (g : Guard) (rd : XReg) (b : Fin 4)
  /-- QMAP (R280): Maps x28-x31 to a queue and sets the thread's registration. -/
  | qmap (g : Guard) (n : Fin 4) (reg : Fin 4) (rs1 : XReg)
  /-- QREG (R280): Changes only the thread's registration on a queue. -/
  | qreg (g : Guard) (reg : Fin 4) (rs1 : XReg)
  /-- MBXPUT (R284): Writes a mailbox and sets its full bit, holding if full. -/
  | mbxput (g : Guard) (rs1 : XReg) (rs2 : XReg)
  /-- MBXGET (R284): Takes a mailbox value and clears its full bit, holding if empty. -/
  | mbxget (g : Guard) (rd : XReg) (rs1 : XReg)
  /-- CPYISS (R285): Reads a copy descriptor and queues one transfer on a channel. -/
  | cpyiss (g : Guard) (rd : XReg) (rs1 : XReg) (rs2 : XReg)
  /-- CPYWAIT (R362): Parks until a channel's cpydone reaches an ID. -/
  | cpywait (g : Guard) (rs1 : XReg) (rs2 : XReg)
  /-- CPYDONE (R362): Reads a channel's cpydone. -/
  | cpydone (g : Guard) (rd : XReg) (rs1 : XReg)
  /-- TRPOP (R288): Removes the oldest trap record, parking while the queue is empty. -/
  | trpop (g : Guard) (rd : XReg)
  /-- XRDT (R289): Reads state of a parked, trapped or swapped thread by number. -/
  | xrdt (g : Guard) (rd : XReg) (rs1 : XReg) (rs2 : XReg)
  /-- XWRT (R289): Writes state of a trapped or stopped thread by number. -/
  | xwrt (g : Guard) (rv : XReg) (rs1 : XReg) (rs2 : XReg)
  /-- XRESUME (R290): Makes a trapped thread runnable at trpc, or resumes a faulted engine. -/
  | xresume (g : Guard) (rs1 : XReg)
  /-- XKILL (R291): Ends a thread in any state, or abandons a faulted engine job. -/
  | xkill (g : Guard) (rs1 : XReg)
  /-- TCSWAP (R292): Exchanges a slot's context with a swapped thread. -/
  | tcswap (g : Guard) (rd : XReg) (rs1 : XReg) (rs2 : XReg)
  /-- DBRK (R293): Program breakpoint: stops the thread in a session or traps with cause 37. -/
  | dbrk (g : Guard) (rs1 : XReg)
  /-- STAMP (R294): Returns a stamp from the core's stamp source. -/
  | stamp (g : Guard) (rd : XReg)
  /-- VADD (R155): Lane-wise add. -/
  | vadd (t : VType) (vd : VNum) (vs1 : VNum) (vs2 : VNum)
  /-- VSUB (R155): Lane-wise subtract. -/
  | vsub (t : VType) (vd : VNum) (vs1 : VNum) (vs2 : VNum)
  /-- VMUL (R155): Lane-wise multiply. -/
  | vmul (t : VType) (vd : VNum) (vs1 : VNum) (vs2 : VNum)
  /-- VFMA (R155): Fused a*b + d. -/
  | vfma (t : VType) (vd : VNum) (vs1 : VNum) (vs2 : VNum)
  /-- VFMS (R155): Fused a*b - d. -/
  | vfms (t : VType) (vd : VNum) (vs1 : VNum) (vs2 : VNum)
  /-- VMIN (R155): Lane-wise minimum. -/
  | vmin (t : VType) (vd : VNum) (vs1 : VNum) (vs2 : VNum)
  /-- VMAX (R155): Lane-wise maximum. -/
  | vmax (t : VType) (vd : VNum) (vs1 : VNum) (vs2 : VNum)
  /-- VABS (R155): Lane-wise absolute value. -/
  | vabs (t : VType) (vd : VNum) (vs1 : VNum)
  /-- VNEG (R155): Lane-wise negation. -/
  | vneg (t : VType) (vd : VNum) (vs1 : VNum)
  /-- VCEQ (R155): Writes equality into a mask register. -/
  | vceq (t : VType) (kd : KReg) (vs1 : VNum) (vs2 : VNum)
  /-- VCLT (R155): Writes less-than into a mask register. -/
  | vclt (t : VType) (kd : KReg) (vs1 : VNum) (vs2 : VNum)
  /-- VCLE (R155): Writes less-or-equal into a mask register. -/
  | vcle (t : VType) (kd : KReg) (vs1 : VNum) (vs2 : VNum)
  /-- VSEL (R155): Selects lanes by the mask register. -/
  | vsel (t : VType) (vd : VNum) (vs1 : VNum) (vs2 : VNum)
  /-- VDIV (R156): Correctly rounded FP32 division. -/
  | vdiv (vd : VNum) (vs1 : VNum) (vs2 : VNum)
  /-- VSQRT (R156): Correctly rounded square root. -/
  | vsqrt (vd : VNum) (vs1 : VNum)
  /-- VRSQRT (R156): Correctly rounded reciprocal square root. -/
  | vrsqrt (vd : VNum) (vs1 : VNum)
  /-- VRCP (R156): Correctly rounded reciprocal. -/
  | vrcp (vd : VNum) (vs1 : VNum)
  /-- VEXP2 (R156): Correctly rounded 2^x. -/
  | vexp2 (vd : VNum) (vs1 : VNum)
  /-- VLOG2 (R156): Correctly rounded log2. -/
  | vlog2 (vd : VNum) (vs1 : VNum)
  /-- VSIN (R156): Correctly rounded sin(pi x). -/
  | vsin (vd : VNum) (vs1 : VNum)
  /-- VCOS (R156): Correctly rounded cos(pi x). -/
  | vcos (vd : VNum) (vs1 : VNum)
  /-- VAND (R157): Lane-wise AND. -/
  | vand (t : VType) (vd : VNum) (vs1 : VNum) (vs2 : VNum)
  /-- VOR (R157): Lane-wise OR. -/
  | vor (t : VType) (vd : VNum) (vs1 : VNum) (vs2 : VNum)
  /-- VXOR (R157): Lane-wise XOR. -/
  | vxor (t : VType) (vd : VNum) (vs1 : VNum) (vs2 : VNum)
  /-- VSHL (R157): Lane-wise left shift. -/
  | vshl (t : VType) (vd : VNum) (vs1 : VNum) (vs2 : VNum)
  /-- VSHR (R157): Lane-wise logical right shift. -/
  | vshr (t : VType) (vd : VNum) (vs1 : VNum) (vs2 : VNum)
  /-- VSRA (R157): Lane-wise arithmetic right shift. -/
  | vsra (t : VType) (vd : VNum) (vs1 : VNum) (vs2 : VNum)
  /-- VCADD (R158): Complex add. -/
  | vcadd (vd : VNum) (vs1 : VNum) (vs2 : VNum)
  /-- VCSUB (R158): Complex subtract. -/
  | vcsub (vd : VNum) (vs1 : VNum) (vs2 : VNum)
  /-- VCMUL (R158): Complex multiply, each part rounded once. -/
  | vcmul (vd : VNum) (vs1 : VNum) (vs2 : VNum)
  /-- VCFMA (R158): Complex fused multiply-add. -/
  | vcfma (vd : VNum) (vs1 : VNum) (vs2 : VNum)
  /-- VCCONJ (R158): Complex conjugate. -/
  | vcconj (vd : VNum) (vs1 : VNum)
  /-- VCMAG2 (R158): Squared complex magnitude. -/
  | vcmag2 (vd : VNum) (vs1 : VNum)
  /-- VCEXPJ (R158): cos(pi theta) + j sin(pi theta). -/
  | vcexpj (vd : VNum) (vs1 : VNum)
  /-- VLD (R160): Unit-stride vector load. -/
  | vld (t : VType) (vd : VNum) (rs1 : XReg)
  /-- VLDS (R160): Strided vector load. -/
  | vlds (t : VType) (vd : VNum) (rs1 : XReg) (rs2 : XReg)
  /-- VST (R160): Unit-stride vector store. -/
  | vst (t : VType) (vs : VNum) (rs1 : XReg)
  /-- VSTS (R160): Strided vector store. -/
  | vsts (t : VType) (vs : VNum) (rs1 : XReg) (rs2 : XReg)
  /-- VGATH (R160): Indexed vector gather. -/
  | vgath (t : VType) (vd : VNum) (rs1 : XReg) (vi : VNum)
  /-- VSCAT (R160): Indexed vector scatter. -/
  | vscat (t : VType) (vs : VNum) (rs1 : XReg) (vi : VNum)
  /-- VLDL (R159): Loads whole lanes from the lane slices. -/
  | vldl (t : VType) (vd : VNum) (rs1 : XReg)
  /-- VSTL (R159): Stores whole lanes to the lane slices. -/
  | vstl (t : VType) (vs : VNum) (rs1 : XReg)
  /-- VBCAST (R159): Broadcasts a scalar to active lanes. -/
  | vbcast (t : VType) (vd : VNum) (rs1 : XReg)
  /-- VMVX (R159): Moves one lane to an x register, parking until it is complete. -/
  | vmvx (t : VType) (rd : XReg) (rs1 : XReg) (vs2 : VNum)
  /-- VINS (R159): Inserts a scalar into one lane. -/
  | vins (t : VType) (vd : VNum) (rs1 : XReg) (rs2 : XReg)
  /-- VCFG (R161): Sets VL and optionally the other vctl fields. -/
  | vcfg (rd : XReg) (rs1 : XReg) (rs2 : XReg)
  /-- VREDADD (R162): Exact sum reduction into lane 0 with one rounding. -/
  | vredadd (t : VType) (vd : VNum) (vs1 : VNum)
  /-- VREDMAX (R162): Maximum reduction into lane 0. -/
  | vredmax (t : VType) (vd : VNum) (vs1 : VNum)
  /-- VREDMIN (R162): Minimum reduction into lane 0. -/
  | vredmin (t : VType) (vd : VNum) (vs1 : VNum)
  /-- VCVT (R163): Converts lanes from DTYPE into the instruction type. -/
  | vcvt (t : VType) (vd : VNum) (vs1 : VNum)
  /-- VPACK (R164): Packs 32 FP32 lanes into an 8-bit, MX or TX format. -/
  | vpack (vd : VNum) (vs1 : VNum) (fc : Fin 10)
  /-- VUNPK (R164): Unpacks an 8-bit, MX or TX block to FP32 lanes. -/
  | vunpk (vd : VNum) (vs1 : VNum) (fc : Fin 10)
  /-- VPERM (R165): Permutes lanes by an index vector. -/
  | vperm (t : VType) (vd : VNum) (vs1 : VNum) (vs2 : VNum)
  /-- VSLIDE (R165): Slides lanes by a signed scalar amount. -/
  | vslide (t : VType) (vd : VNum) (vs1 : VNum) (rs2 : XReg)
  /-- VKOP_AND (R166): Mask AND. -/
  | vkopAnd (kd : KReg) (ka : KReg) (kb : KReg)
  /-- VKOP_OR (R166): Mask OR. -/
  | vkopOr (kd : KReg) (ka : KReg) (kb : KReg)
  /-- VKOP_XOR (R166): Mask XOR. -/
  | vkopXor (kd : KReg) (ka : KReg) (kb : KReg)
  /-- VKOP_NOT (R166): Mask NOT. -/
  | vkopNot (kd : KReg) (ka : KReg)
  /-- VKOP_FROMX (R166): Writes a mask register from an x register. -/
  | vkopFromx (kd : KReg) (rs1 : XReg)
  /-- VKOP_TOX (R166): Copies a mask register to an x register. -/
  | vkopTox (rd : XReg) (ka : KReg)
  /-- VKOP_COUNT (R166): Counts the 1 bits of a mask register into an x register. -/
  | vkopCount (rd : XReg) (ka : KReg)
  /-- VSTAT (R167): Parks as VFENCE, then reads vstat. -/
  | vstat (rd : XReg)
  /-- MCFG (R174): Loads fmtsh and the scale pointers from a work packet. -/
  | mcfg (g : Guard) (rs1 : XReg)
  /-- MGANG (R175): Queues a gang join or leave command. -/
  | mgang (g : Guard) (rd : XReg) (rs1 : XReg) (rs2 : XReg)
  /-- MBLD (R176): Queues a load of the current B latch. -/
  | mbld (g : Guard) (rs1 : XReg) (rs2 : XReg)
  /-- MMA (R177): Queues a ganged multiply-accumulate into a tile. -/
  | mma (g : Guard) (acc : Fin 4) (rs1 : XReg) (rs2 : XReg)
  /-- MZERO (R178): Queues zeroing of a tile. -/
  | mzero (g : Guard) (acc : Fin 4)
  /-- MSTORE (R178): Queues a store of a tile to scratchpad memory. -/
  | mstore (g : Guard) (acc : Fin 4) (rs1 : XReg)
  /-- MSTAT (R180): Reads the matrix engine status. -/
  | mstat (g : Guard) (rd : XReg)
  /-- MWAIT (R181): Parks until the matrix engine is idle and MSTORE writes are performed. -/
  | mwait (g : Guard)
  /-- PTCFG (R299): Writes a pair descriptor entry, or the spill ring control for index 16, into every die's Tongs. -/
  | ptcfg (g : Guard) (rs1 : XReg) (rs2 : XReg)
  /-- PTSERVE (R301): Makes the thread a task thread for a descriptor mask and waits for a packet. -/
  | ptserve (g : Guard) (rs1 : XReg)
  /-- PTENQ (R304): Pushes one pair task packet into the cluster's Tongs. -/
  | ptenq (g : Guard) (rs1 : XReg)
  /-- TOPEN (R303): Reads two node records and returns the acceptance or split decision code. -/
  | topen (g : Guard) (rd : XReg) (rs1 : XReg) (rs2 : XReg)
  /-- PFORK (R304): Pushes the child pairs named by a code as one indivisible batch. -/
  | pfork (g : Guard) (rc : XReg) (rs1 : XReg) (rs2 : XReg)
  /-- PDONE (R301): Ends the current task and parks for the next packet. -/
  | pdone (g : Guard)
  /-- NACC (R309): Adds 32 lanes into a node's accumulator row as one SADD. -/
  | nacc (g : Guard) (vs : VNum) (rs1 : XReg) (rs2 : XReg)
  /-- NDOWN (R310): Adds a parent row's snapshot into each child row. -/
  | ndown (g : Guard) (rs1 : XReg) (rs2 : XReg)
  /-- NDOWN_UP (R310): Adds each child row's snapshot into its parent row. -/
  | ndownUp (g : Guard) (rs1 : XReg) (rs2 : XReg)
  /-- SACFG (R225): Configures or frees a Crucible region. -/
  | sacfg (g : Guard) (rd : XReg) (rs1 : XReg)
  /-- SADD_F32 (R226): Adds FP32 lanes into 32 elements of a row at its bank. -/
  | saddF32 (g : Guard) (vs : VNum) (rs1 : XReg)
  /-- SADD_BF16 (R226): Adds BF16 lanes into 32 elements of a row at its bank. -/
  | saddBf16 (g : Guard) (vs : VNum) (rs1 : XReg)
  /-- SNORM_RMS (R228): Reads 32 RMS-normalised elements from a row snapshot. -/
  | snormRms (g : Guard) (vd : VNum) (rs1 : XReg)
  /-- SNORM_LAYER (R228): Reads 32 layer-normalised elements. -/
  | snormLayer (g : Guard) (vd : VNum) (rs1 : XReg)
  /-- SNORM_UNIT (R228): Reads 32 elements rounded without statistics. -/
  | snormUnit (g : Guard) (vd : VNum) (rs1 : XReg)
  /-- SSQ (R229): Returns the row's sum of squares as FP64. -/
  | ssq (g : Guard) (rd : XReg) (rs1 : XReg)
  /-- SZERO (R230): Zeroes rows of a region. -/
  | szero (g : Guard) (rs1 : XReg) (rs2 : XReg)
  /-- SEVICT (R231): Snapshots and zeroes a row and writes its exact image. -/
  | sevict (g : Guard) (rs1 : XReg) (rs2 : XReg)
  /-- SLOAD (R232): Checks a row image and adds it back into a row. -/
  | sload (g : Guard) (rs1 : XReg) (rs2 : XReg)
  /-- SEXPORT (R233): Writes the lossy form of a row snapshot. -/
  | sexport (g : Guard) (rs1 : XReg) (rs2 : XReg)
  /-- TRACE (R342): Starts a ray in the traversal unit after a hint lookup. -/
  | trace (g : Guard) (rd : XReg) (rs1 : XReg)
  /-- TRESUME (R344): Answers an INTERSECT suspension, retries a fault, or continues a drained ray. -/
  | tresume (g : Guard) (rs1 : XReg) (rs2 : XReg)
  /-- TWAIT (R343): Takes the oldest ray event, parking until one is posted. -/
  | twait (g : Guard) (rd : XReg) (rs1 : XReg)
  /-- TACCEPT (R344): Accepts an any-hit candidate. -/
  | taccept (g : Guard) (rs1 : XReg)
  /-- TIGNORE (R344): Discards an any-hit candidate. -/
  | tignore (g : Guard) (rs1 : XReg)
  /-- TTERM (R344): Accepts the candidate and ends the ray HIT. -/
  | tterm (g : Guard) (rs1 : XReg)
  /-- TSPAWN (R345): Queues a child ray of an any-hit-suspended parent. -/
  | tspawn (g : Guard) (rd : XReg) (rs1 : XReg) (rs2 : XReg)
  /-- TRSAVE (R346): Drains a ray to a node boundary and writes its record with DRAINED set. -/
  | trsave (g : Guard) (rs1 : XReg)
  /-- HHTINV (R347): Invalidates hint entries of a context, or a context and generation, in every cluster. -/
  | hhtinv (g : Guard) (mode : Fin 2) (rs1 : XReg) (rs2 : XReg)
  /-- RSETUP (R352): Snaps triangle vertices and writes a plane block. -/
  | rsetup (g : Guard) (rs1 : XReg) (rs2 : XReg)
  /-- RCOVER (R353): Returns the 8x8 coverage mask of a tile. -/
  | rcover (g : Guard) (rd : XReg) (rs1 : XReg) (rs2 : XReg)
  /-- RDEPTH (R354): Depth-tests covered pixels against a depth tile. -/
  | rdepth (g : Guard) (rd : XReg) (rs1 : XReg) (rs2 : XReg)
  /-- FENCE (R135): Commits the chunk, then parks until posted counters, engine writes, vector strips and mapped pushes are
  complete. -/
  | fence
  /-- ECALL (R136): Traps to the supervisor slot with cause 8. -/
  | ecall
  /-- EBREAK (R136): Traps to the supervisor slot with cause 3. -/
  | ebreak
  /-- UNLOCKR (R215): UNLOCKR unguarded (the seven guarded forms follow; one constructor each). Releases the scratchpad
  lock, letting a waiting claimant take it. -/
  | unlockr
  /-- UNLOCKR (R215): UNLOCKR guarded by p1. Releases the scratchpad lock, letting a waiting claimant take it. -/
  | unlockrP1
  /-- UNLOCKR (R215): UNLOCKR guarded by p2. Releases the scratchpad lock, letting a waiting claimant take it. -/
  | unlockrP2
  /-- UNLOCKR (R215): UNLOCKR guarded by p3. Releases the scratchpad lock, letting a waiting claimant take it. -/
  | unlockrP3
  /-- UNLOCKR (R215): UNLOCKR guarded by p4. Releases the scratchpad lock, letting a waiting claimant take it. -/
  | unlockrP4
  /-- UNLOCKR (R215): UNLOCKR guarded by p5. Releases the scratchpad lock, letting a waiting claimant take it. -/
  | unlockrP5
  /-- UNLOCKR (R215): UNLOCKR guarded by p6. Releases the scratchpad lock, letting a waiting claimant take it. -/
  | unlockrP6
  /-- UNLOCKR (R215): UNLOCKR guarded by p7. Releases the scratchpad lock, letting a waiting claimant take it. -/
  | unlockrP7
  /-- VFENCE (R167): Parks until strips and vector memory accesses are complete. -/
  | vfence
  /-- CSR_WRITE (R137): Write to a CSR that has no behaviour of its own, following its field table. -/
  | csrWrite
  /-- VSTAT_CSR_WRITE (R121): A write to vstat parks until VBUSY is 0 and then takes effect. -/
  | vstatCsrWrite
  /-- REPEAT_CSR_WRITE (R415): A write to repcnt or repbody leaving COUNT non-zero computes the repeat end and makes it the
  active repeat, or ends the repeat. -/
  | repeatCsrWrite
  /-- DLDET_CSR_WRITE (R264): A write of supctl changing DLDET from 0 to 1 starts a deadlock detector pass. -/
  | dldetCsrWrite
  /-- STRIP_EXECUTE (R61): Each strip cycle executes the owner's pending strip or lends the cycle to a lend-enabled slot. -/
  | stripExecute
  /-- STRIP_COMPLETE (R153): A strip's results complete, ORing flags into vstat and trapping with cause 34 on enabled flags.
  -/
  | stripComplete
  /-- MGANG_EXECUTE (R175): An MGANG at the queue head forms the gang when its span is complete or completes with status 1.
  -/
  | mgangExecute
  /-- MBLD_EXECUTE (R176): The engine replaces the current latch with the tile, scales and tags. -/
  | mbldExecute
  /-- MMA_EXECUTE (R177): When every member's head is an MMA, the engine checks and runs the ring steps or aborts. -/
  | mmaExecute
  /-- MZERO_EXECUTE (R178): The engine writes +0 to a tile and clears POISON. -/
  | mzeroExecute
  /-- MSTORE_EXECUTE (R178): The engine writes the tile row-major, setting each word full after its data. -/
  | mstoreExecute
  /-- MMA_OPERAND_ERROR (R182): An uncorrectable operand error aborts the MMA after the current step, poisons tiles and
  records cause 31. -/
  | mmaOperandError
  /-- TASK_DELIVERY (R302): Tongs chooses an eligible packet for a parked task thread and writes it into a0-a3. -/
  | taskDelivery
  /-- TASK_STEAL (R306): An idle Tongs unit moves the older half of another cluster's eligible packets into its frontier. -/
  | taskSteal
  /-- FRONTIER_REFILL (R305): A cluster below 1,024 packets takes packets from the spill ring head. -/
  | frontierRefill
  /-- TASKS_EXHAUSTED (R307): When no task of a launch remains, every parked task thread completes PDONE as RETIRE. -/
  | tasksExhausted
  /-- TONGS_SPILL_FAULT (R308): A fault on a spill write or refill read holds the packets and sends a record. -/
  | tongsSpillFault
  /-- HELD_SEED_ENTRY (R304): A seed held for want of room enters its cluster once room frees. -/
  | heldSeedEntry
  /-- SADD_BANK_UPDATE (R234): A posted SADD, SZERO or whole-row addition is performed indivisibly at the row's bank and
  acknowledged. -/
  | saddBankUpdate
  /-- CRUCIBLE_ROW_ERROR (R237): An uncorrectable error in a row sets INV and records cause 31. -/
  | crucibleRowError
  /-- CHILD_RAY_START (R345): A queued child ray or waiting TRACE starts when a unit slot frees. -/
  | childRayStart
  /-- RAY_CANDIDATE (R336): A considered candidate is accepted or suspends the ray with INTERSECT or ANYHIT. -/
  | rayCandidate
  /-- STACK_RESTART (R340): An emptied stack with a non-zero trail restarts the walk from the root. -/
  | stackRestart
  /-- RAY_END (R336): A ray ends HIT or MISS, its record is written and a DONE event posted. -/
  | rayEnd
  /-- RAY_FAULT (R348): A fetch fault or error parks the ray FAULTED and records it to slot 0. -/
  | rayFault
  /-- REPLY_ARRIVAL (R49): A reply to a parked thread arrives and the thread resumes at its next turn. -/
  | replyArrival
  /-- TIMING_ERROR_REPLAY (R80): A detected timing error cancels the instruction's results and reissues it at the next turn.
  -/
  | timingErrorReplay
  /-- REPLAY_RATE_REPORT (R80): More than 4 replays in 1,024 cycles make Bellows raise the row voltage one step. -/
  | replayRateReport
  /-- LAUNCH_ENTRY_READ (R74): A die dispatcher reads a published launch queue entry and checks it. -/
  | launchEntryRead
  /-- LAUNCH_PLACEMENT (R75): The dispatcher places the eligible launch of highest effective priority on its die in one
  step. -/
  | launchPlacement
  /-- PRIORITY_PROMOTION (R76): Each full 1 ms of eligible waiting on a die raises the launch's effective priority there. -/
  | priorityPromotion
  /-- LAUNCH_COMPLETION (R73): When all threads, tasks, copies and counters are done, the completion record is written as a
  release. -/
  | launchCompletion
  /-- MIGRANT_ARRIVAL (R68): A migrant packet arrives at a core and enters the run queue, spill ring or global ring. -/
  | migrantArrival
  /-- SPILL_REFILL (R68): A freed run-queue or spill-ring entry is refilled from the next tier. -/
  | spillRefill
  /-- PACKET_ACCEPTANCE (R256): A packet or record held at its source enters a queue once space frees. -/
  | packetAcceptance
  /-- MIGRANT_PARK_SWAP (R69): A migrant parked 1,024 cycles with packets waiting is swapped out and re-enters as a
  stand-in. -/
  | migrantParkSwap
  /-- SLOT_REMOVAL (R79): Bellows removes a user slot, swapping its thread out. -/
  | slotRemoval
  /-- SLOT_RETURN (R79): Bellows returns a removed slot, which is filled under R414. -/
  | slotReturn
  /-- WAIT_LIMIT_EXPIRY (R263): A queue, mailbox, inbox or LDX.F wait exceeding qlimit abandons the wait with cause 24. -/
  | waitLimitExpiry
  /-- BARRIER_TIMEOUT (R368): A barrier wait longer than BARTO traps with cause 26. -/
  | barrierTimeout
  /-- GANG_TIMEOUT (R175): A gang wait longer than BARTO traps with cause 26 and removes the MGANG. -/
  | gangTimeout
  /-- DEFERRED_TRAP (R372): A pending cause 29, 30 or 33 is taken before the thread's next issue. -/
  | deferredTrap
  /-- DEADLOCK_PASS (R264): The die detector builds the waits-for relation and traps every member of a deadlocked set. -/
  | deadlockPass
  /-- PREFECT_SAMPLE (R265): Prefect samples stage queues and picks a donor and receiver. -/
  | prefectSample
  /-- CHUNK_LIMIT_CLOSE (R240): A chunk reaching its instruction limit closes without holding the thread. -/
  | chunkLimitClose
  /-- CHUNK_COMMIT (R242): A commit arbiter judges a closed chunk against recorded write signatures and accepts it. -/
  | chunkCommit
  /-- COMMIT_TOKEN_GRANT (R245): The module commit token is granted to a thread entering solo mode. -/
  | commitTokenGrant
  /-- POSTED_OP_ARRIVAL (R248): A posted store or operation is performed at its destination in issue order. -/
  | postedOpArrival
  /-- POSTED_ACK (R247): A destination's acknowledgement decrements the thread's posted counter. -/
  | postedAck
  /-- QUEUE_PUSH_PERFORM (R262): A sent push is performed at the queue owner or handed to the oldest held pop. -/
  | queuePushPerform
  /-- MESSAGE_DEPART (R281): A message leaves the outbound buffer when the destination inbox has a free entry. -/
  | messageDepart
  /-- MESSAGE_ARRIVAL (R283): A message enters the inbox and is held, delivered or orphaned by the destination's state. -/
  | messageArrival
  /-- COPY_JOB_START (R286): A channel starts its next job in ID order and transfers its rows. -/
  | copyJobStart
  /-- COPY_JOB_COMPLETE (R361): Completion of a transfer advances cpydone in each core's copy and latches WAITEV bit 3. -/
  | copyJobComplete
  /-- BARRIER_ARRIVAL_SIGNAL (R366): An arrival signal from a neighbour reaches a core's sweep and may be forwarded. -/
  | barrierArrivalSignal
  /-- BARRIER_RELEASE_SIGNAL (R366): A release increments GEN, clears ARR, latches WAITEV bit 7 and is forwarded. -/
  | barrierReleaseSignal
  /-- PAGE_WALK (R192): A TLB miss walks both stages, updating A and D bits or stopping with a fault. -/
  | pageWalk
  /-- STAGE2_REPAIR (R193): Nolmon repairs the stage-2 entry and releases the parked access. -/
  | stage2Repair
  /-- STAGE2_REFUSAL (R193): Nolmon refuses, and the supervisor receives a page or access fault with trval2 bit 2 set. -/
  | stage2Refusal
  /-- TLB_INVALIDATE_RANGE (R195): Kind 0 request removes translations of a range and reports the done sequence. -/
  | tlbInvalidateRange
  /-- TLB_INVALIDATE_ALL (R195): Kind 1 request removes every translation of the partition. -/
  | tlbInvalidateAll
  /-- TLB_INVALIDATE_NONGLOBAL (R195): Kind 2 request removes every translation except G = 1. -/
  | tlbInvalidateNonglobal
  /-- ROOT_REREAD_INVALIDATE (R195): Kind 3 request re-reads the stage-1 root, then invalidates all. -/
  | rootRereadInvalidate
  /-- LINE_MIGRATION (R197): Four consecutive accesses from one cluster migrate a line to that cluster's slice. -/
  | lineMigration
  /-- MIGRATED_LINE_EVICTION (R197): Eviction of a migrated line writes it back and removes its forwarding entry. -/
  | migratedLineEviction
  /-- SAMPLER_INVALIDATE (R208): A cluster removes the fenced lines from its sampler cache and confirms. -/
  | samplerInvalidate
  /-- SH_OWNERSHIP_REQUEST (R199): The home module grants line ownership after invalidating other modules' copies. -/
  | shOwnershipRequest
  /-- SH_INVALIDATION_RECEIVE (R255): A module acknowledges an invalidation from the home module and applies it later. -/
  | shInvalidationReceive
  /-- PAGE_CONSOLIDATION (R200): Bellows moves a stage-2 page onto a kept channel in five steps. -/
  | pageConsolidation
  /-- PATROL_SCRUB (R188): Patrol scrub rewrites corrected lines under its budget. -/
  | patrolScrub
  /-- BUDGET_PERIOD (R325): A new activity budget period begins and stopped activities resume. -/
  | budgetPeriod
  /-- MODE_TABLE_REQUEST (R327): A mode table request is checked and applied whole, with STATUS and done sequence written.
  -/
  | modeTableRequest
  /-- MGMT_SLOT0_RESUME (R401): Operation 1 resumes the partition's trapped slot 0 on a core. -/
  | mgmtSlot0Resume
  /-- MGMT_SLOT0_KILL (R401): Operation 2 kills slot 0 and restarts the supervisor at the image entry. -/
  | mgmtSlot0Kill
  /-- LAUNCH_QUEUE_RESET (R402): Operation 3 stops dispatch and ends every running and queued launch KILLED. -/
  | launchQueueReset
  /-- PARTITION_RESET (R402): Operation 4 resets the launch queue, tables and hint ways, and restarts every slot 0. -/
  | partitionReset
  /-- DEBUG_SESSION_OPEN (R401): Operation 5 opens a partition-level debug session given an accepted grant. -/
  | debugSessionOpen
  /-- DEBUG_SESSION_CLOSE (R406): Operation 5 closes a session, leaving stopped threads runnable. -/
  | debugSessionClose
  /-- DEBUG_SESSION_STEP (R401): Operation 5 steps a stopped thread in an open session. -/
  | debugSessionStep
  /-- EVENT_COUNTER_SELECT (R358): Operation 6 reads or sets an event counter select. -/
  | eventCounterSelect
  /-- PORT_CONTROL_REQUEST (R393): A port control request is checked and applied whole once prior work completes. -/
  | portControlRequest
  /-- UE_MESSAGE_RECEIVE (R395): An arriving message fills buffers, advances TAKEN and writes a completion entry. -/
  | ueMessageReceive
  /-- UE_DELIVERY_FAILURE (R394): An undeliverable message is reported and clears EN of its send queue. -/
  | ueDeliveryFailure
  /-- HOST_WRITE (R389): A host write through a virtual function is performed as an engine write. -/
  | hostWrite
  /-- HOST_READ (R388): A host read through a virtual function observes committed chunks. -/
  | hostRead
  /-- CXL_MEM_ACCESS (R390): A CXL.mem access reaches the host-assigned part of the second tier. -/
  | cxlMemAccess
  /-- LINK_PORT_FAILURE (R397): A failed mesh port's peer moves onto port 7 and traffic is replayed. -/
  | linkPortFailure
  /-- MODULE_LOSS (R397): A lost module leaves the domain and its scene-shared lines return cause 31. -/
  | moduleLoss
  /-- DOMAIN_FORMATION (R396): Nolmon forms a domain, assigns module numbers and sets module time. -/
  | domainFormation
  /-- MODULE_RESET (R398): Module reset starts boot: Anvil verifies Nolmon and starts it. -/
  | moduleReset
  /-- PARTITION_CREATE (R399): Nolmon creates a partition, fixes its resources and starts its verified image. -/
  | partitionCreate
  /-- TIME_SLICE_EXPIRY (R399): The end of a quantum on shared rows starts a partition switch. -/
  | timeSliceExpiry
  /-- PARTITION_SWITCH (R386): Nolmon halts the rows' partition, saves its state exactly and restores another. -/
  | partitionSwitch
  /-- THERMAL_LIMIT (R403): A die reaching 105 degrees C makes Bellows remove slots in every partition. -/
  | thermalLimit
  /-- THERMAL_RECOVERY (R403): The temperature falling below 100 degrees C ends thermal slot removal. -/
  | thermalRecovery
  /-- POWER_CAP_EXCEEDED (R403): Power over 1 ms above the cap makes Bellows raise dividers row by row. -/
  | powerCapExceeded
  /-- EFFICIENCY_DIVIDER_STEP (R403): A core issuing below one half for 65,536 cycles doubles its divider. -/
  | efficiencyDividerStep
  /-- STALL_MAP_CAPTURE (R359): Every 2^SMK rots the die captures and clears its link counters into a frame. -/
  | stallMapCapture
  /-- STAMP_HOLD_RELEASE (R356): A record or STAMP held past eight draws or a wrap draws its stamp in the next rot. -/
  | stampHoldRelease
  /-- GET_VERSION (R405): Anvil answers the SPDM GET_VERSION request. -/
  | getVersion
  /-- GET_CAPABILITIES (R405): Anvil answers GET_CAPABILITIES. -/
  | getCapabilities
  /-- NEGOTIATE_ALGORITHMS (R405): Anvil negotiates ML-DSA-87 and SHA3-512. -/
  | negotiateAlgorithms
  /-- GET_DIGESTS (R405): Anvil answers GET_DIGESTS. -/
  | getDigests
  /-- GET_CERTIFICATE (R405): Anvil answers GET_CERTIFICATE. -/
  | getCertificate
  /-- CHALLENGE (R405): Anvil answers CHALLENGE with a nonce. -/
  | challenge
  /-- GET_MEASUREMENTS (R405): Anvil returns recorded measurements. -/
  | getMeasurements
  /-- KEY_EXCHANGE (R405): Anvil performs KEY_EXCHANGE for a secured session. -/
  | keyExchange
  /-- FINISH (R405): Anvil completes session establishment. -/
  | finish
  /-- END_SESSION (R405): Anvil ends the secured session. -/
  | endSession
  /-- DEBUG_UNLOCK (R405): A vendor-defined request carrying a signed grant is checked and accepted or refused. -/
  | debugUnlock
  /-- DEBUG_STOP (R406): A session stops a thread, making it STOPPED. -/
  | debugStop
  /-- DEBUG_RESUME (R406): A session resumes a stopped thread. -/
  | debugResume
  /-- DEBUG_SINGLE_STEP (R183): A session single-steps a thread; engine commands complete at issue. -/
  | debugSingleStep
  /-- DEBUG_STEP_TO_IDLE (R183): A session resumes a thread until the matrix engine is idle. -/
  | debugStepToIdle
  /-- DEBUG_GANG_STOP (R183): A session stops every gang member's engine at the next step boundary. -/
  | debugGangStop
  /-- DEBUG_STATE_READ (R406): A session reads thread state as XRDT does. -/
  | debugStateRead
  /-- DEBUG_COUNTER_ACCESS (R406): A session reads or writes event counters. -/
  | debugCounterAccess
  /-- DEBUG_TRACE_CONTROL (R406): A session starts or stops trace record writing. -/
  | debugTraceControl
  /-- DEBUG_SESSION_EXPIRY (R406): A session ends at its grant's expiry, leaving stopped threads runnable. -/
  | debugSessionExpiry
  /-- ROW_POWER_OFF (R319): Bellows powers off a cluster's row, losing its hint table entries. -/
  | rowPowerOff
  /-- ROW_POWER_ON (R319): A powered-off row is powered up again, every hint entry of its clusters reading V = 0. -/
  | rowPowerOn
  /-- IDLE_ROW_VOLTAGE_DROP (R403): Under the efficiency policy, Bellows drops the voltage of an idle row. -/
  | idleRowVoltageDrop
  /-- IN_FIELD_TEST (R28): The device runs in-field test under its activity budget, charging device overhead. -/
  | inFieldTest
  /-- BALLAST (R325): The device runs its ballast activity under its budget, charged to device overhead. -/
  | ballast
  /-- SH_INVALIDATION_APPLY (R255): A module applies a pending scene-shared invalidation some time after acknowledging it.
  -/
  | shInvalidationApply
  /-- TIME_SYNCHRONISATION (R396): Time-synchronisation traffic on Henrok Link keeps module time within 2 rots across a
  domain. -/
  | timeSynchronisation
  /-- LINK_RETRANSMISSION (R410): A link error makes the link retransmit flits from its replay buffer, and an error record
  is logged. -/
  | linkRetransmission
  /-- TRACE_HELD_RECORD_DRAIN (R407): Trace records held in a core are written once the trace ring has room again. -/
  | traceHeldRecordDrain
  deriving DecidableEq, Repr

end Sys2Proof
end

