-- ==== Sys2Proof/Machine/State.lean ====
section
/-! DEFINITION. State.lean: every piece of state the spec gives the module, as plain data, and the module right after
reset. Cores are numbered die * 512 + row * 16 + column, which is `loc`[14:3] (R12, R23); clusters are core / 8 (R14).
Tables list only what has left its reset value. -/

namespace Sys2Proof.Machine

/-- Numbers with values; a number not listed holds the reset value its accessor names. -/
abbrev Table (α : Type) := List (Nat × α)
/-- A core of the module (R12). -/
abbrev CoreId := Nat
/-- A thread slot (R17). -/
abbrev SlotN := Fin 8
/-- A memory: the bytes that differ from an unlisted byte, addresses rising. -/
abbrev Memory := List Host.Cell

/-- What Nolmon fixes when it creates a partition, with the verified image's entries (R398, R399). -/
structure PartCfg where
  part : Nat
  /-- Whole rows, as (die, row). -/
  rows : List (Nat × Nat)
  /-- Intermediate address of the partition control page (R400). -/
  ctlPage : Nat
  /-- Physical address of the stage-2 level-0 table (R190). -/
  s2root : Nat
  /-- First byte and size of the share in each scratchpad (R186). -/
  spadBase : Nat
  spadBytes : Nat
  /-- The lane slices of its rows belong to this partition (R186). -/
  lanes : Bool
  /-- Slate allotments: (die, first byte, bytes) (R186). -/
  slate : List (Nat × Nat × Nat)
  /-- Hit hint table way mask (R314). -/
  ways : BitVec 8
  /-- Intermediate address of the context area (R385). -/
  ctxArea : Nat
  /-- Policies granted beside performance (R399). -/
  capped : Bool
  efficiency : Bool
  /-- Time-slice quantum in ms (R399). -/
  quantum : Nat
  /-- Power cap, in microjoules per ms (R403). -/
  powerCap : Nat
  /-- Ultra Ethernet grants: (port, send queues, receive queues) (R393). -/
  ueGrant : List (Nat × Nat × Nat)
  /-- Ultra Ethernet job IDs (R391). -/
  jobs : List (BitVec 32)
  /-- The owner key and the debug keys, ML-DSA-87 public keys (R399), and the system image with its signature (R398). -/
  ownerKey : List Byte
  debugKeys : List (List Byte)
  image : List Byte
  imageSig : List Byte
  /-- Entry pc of the image's threads in slots 0 and 1 (R54, R398). -/
  entry0 : Word
  entry1 : Word
  deriving DecidableEq, Repr

/-- The subject of a device step: which core, slot, partition, message ... it acts on. Each step reads the fields its
meaning names. The model's own: the opcode table's rows for device steps have no operands of their own. [log 5 DESIGN
CHOICE] -/
structure Subject where
  core : Nat := 0
  slot : SlotN := 0
  cluster : Nat := 0
  die : Nat := 0
  row : Nat := 0
  part : Nat := 0
  launch : BitVec 32 := 0
  idx : Nat := 0
  addr : Nat := 0
  val : Word := 0
  num : Nat := 0
  flag : Bool := false
  bytes : List Byte := []
  cfg : Option PartCfg := none
  deriving DecidableEq, Repr

/-- A thread by the core it belongs to and its serial (R267). -/
structure TRef where
  core : Nat
  serial : Nat
  deriving DecidableEq, Repr

/-- The user CSRs 0x800 to 0x809 (R120). VBUSY is computed from the vector queue and not held here. -/
structure UserCsrs where
  vctl : Word
  vstat : Word
  qmap : Word
  qlimit : Word
  fmtsh : Word
  scalea : Word
  scaleb : Word
  repcnt : Word
  repbody : Word
  evmask : Word
  deriving DecidableEq, Repr

/-- The registers a squash restores (R119, R244): those of one thread, with the odd slot's vector file of a pair (R58)
and the repeat end of R415. -/
structure Arch where
  pc : Word
  x : Vector Word 32
  pw : BitVec 32
  v : Vector VReg 32
  vOdd : Vector VReg 32
  k : Vector Word 8
  csr : UserCsrs
  repEnd : Word
  endPend : Bool
  deriving DecidableEq, Repr

/-- The trap registers (R125). -/
structure TrapRegs where
  trcause : Word
  trval : Word
  trpc : Word
  trval2 : Word
  deriving DecidableEq, Repr

/-- A trap record, field by field (R374). -/
structure TrapRec where
  stamp : Word
  flags : BitVec 16
  source : BitVec 8
  cause : BitVec 8
  loc : BitVec 32
  trpc : Word
  trval : Word
  trval2 : Word
  trval3 : Word
  role : BitVec 4
  word : Word32
  handle : Word
  deriving DecidableEq, Repr

/-- A register that an instruction writes when it completes. -/
inductive RegWrite where
  /-- x register; a mapped one pushes (R57). -/
  | x (r : XReg) (val : Word)
  /-- v register of the even or only slot, or of the odd slot of a pair (R58). -/
  | v (odd : Bool) (r : VNum) (val : VReg)
  | k (r : KReg) (val : Word)
  | p (r : PReg) (val : Bool)
  /-- A push of QPUSH (R277). -/
  | push (h val : Word)
  /-- `repcnt`, `repbody` and repeat end that a CSR write sets, in force from the next instruction (R137, R144, R415). -/
  | rep (cnt body fin : Word)
  deriving DecidableEq, Repr

/-- What an instruction does to its own thread when it completes: its register writes, where it redirects the pc
(a taken transfer, which ends no pass, R143), and its length in bytes. -/
structure Completion where
  ws : List RegWrite := []
  next : Option Word := none
  len : Nat := 4
  deriving DecidableEq, Repr

/-- Conditions a thread waits for having performed nothing. When one holds, the instruction completes or is performed
again. -/
inductive Cond where
  /-- CNTWAIT: every counter of the mask reads zero (R212). -/
  | counters (mask : Nat)
  /-- A W wait, or a wait for `psc1` of a Crucible read: counter i reads zero (R202, R228). -/
  | wclass (i : Nat)
  /-- rl, MIGR, MSPAWN, a move: all three counters read zero (R204, R253). -/
  | drained
  /-- Posted counter i has room (R122). -/
  | room (i : Nat)
  /-- FENCE (R135). -/
  | fence
  /-- FENCER: kinds and range (R208). -/
  | fencer (kinds : Nat) (base len : Nat)
  /-- The thread's posted operations to a destination are performed (R248). -/
  | dest (d : Nat)
  /-- A range held under another slot's LOCKR: core, scratchpad offset, bytes (R214). -/
  | range (core off n : Nat)
  /-- VBUSY = 0 (R121, R151). -/
  | strips
  /-- Every store of the thread's chunks may commit: its vector stores are performed and its scene-shared lines owned; every
  pending vector access that meets a range is performed (R151, R204, R255). -/
  | stores
  | overlap (key n : Nat)
  /-- Every strip that writes the v or k register has completed (R151). -/
  | vreg (r : VNum)
  | kreg (r : KReg)
  /-- Room for n strips in the vector queue (R150). -/
  | stripRoom (n : Nat)
  /-- `migr`.OUT below 255, or zero (R66, R272). -/
  | outRoom
  | outZero
  /-- QWAIT: quantity FREE or held at least n (R278). -/
  | qwait (h : Word) (free : Bool) (n : Nat) (rd : XReg)
  /-- Room in the outbound message buffer (R281). -/
  | outbox
  /-- WAITEV (R274). -/
  | event (rd : XReg)
  /-- PAIRON waits for its partner (R275). -/
  | partner (rd : XReg)
  /-- TRPOP (R288). -/
  | trapq (rd : XReg)
  /-- CPYWAIT (R362). -/
  | copy (ch : Nat) (id : Word)
  /-- Room in the copy job queue (R285). -/
  | jobRoom
  /-- BARWAIT (R368). -/
  | barwait (b : Fin 4) (g : Word)
  /-- Room in the matrix command queue; MWAIT (R171, R181). -/
  | matrixRoom
  | matrixIdle
  /-- PTSERVE, PDONE (R301). -/
  | task
  /-- A Tongs batch held by a spill fault (R308). -/
  | spill
  /-- A slot in the traversal unit, TWAIT (R342, R343). -/
  | rayRoom
  | rayEvent (h : Word) (rd : XReg)
  /-- The module commit token (R245). -/
  | token
  /-- A stamp of a later rot (R356). -/
  | stamp
  /-- Every strip of another thread of the core has completed (R151, R292). -/
  | peer (serial : Nat)
  /-- XRESUME of this thread: its repeat end is being computed, held by a stage-2 failure (R193, R415). -/
  | resume (ipn : Nat)
  /-- A departing packet held at its sender: MSPAWN, MIGR, a move (R256). -/
  | packet
  /-- A stage-2 failure of an intermediate page, or a page being moved (R193, R200). -/
  | stage2 (ipn : Nat)
  | moving (ipn : Nat)
  /-- A stage-2 failure of the fetch of the next instruction (R193). -/
  | fetch (ipn : Nat)
  /-- The fetch of the next instruction faulted while strips issued earlier go on; it is fetched again after them (R154,
  R371). -/
  | refetch
  /-- Another thread's solo chunk covers the line (R245). -/
  | solo (line : Nat)
  /-- The earlier closed chunk can be judged, before a close; the same between two instructions (R242). -/
  | judged
  | limit
  /-- This module owns a scene-shared line (R199). -/
  | own (line : Nat)
  /-- No mesh port to a module is being moved (R397). -/
  | port (m : Nat)
  /-- The bank that holds a row holds no record for its stamp (R356). -/
  | bank (key : Nat)
  /-- Every invalidation that the thread's stores to scene-shared lines caused is acknowledged (R255). -/
  | shAcks
  /-- Fewer than 32 threads are SWAPPED at a core (R77, R78). -/
  | coldRoom (core : Nat)
  /-- SACFG freeing a region with operations in flight (R225). -/
  | region (die r : Nat)
  deriving DecidableEq, Repr

/-- What a PARKED thread waits for (R49, R51). -/
inductive Wait where
  | none
  /-- The request is sent and never repeated; the reply, due at a cycle, completes the instruction. -/
  | reply (due : Nat) (exact : Bool) (fin : Completion)
  /-- Nothing has been performed; withdrawn by a swap, as are the waits below. -/
  | cond (c : Cond)
  /-- A pop held at its queue, for mapped register 28 + i or for the rd of QPOP (R262, R269). -/
  | pop (h : Word) (mapped : Bool) (r : XReg)
  /-- A popped value is on its way; it is held already, and the instruction is performed when it is due (R417). -/
  | given (due : Nat)
  /-- A push parked before it was sent. With the flag its instruction has performed nothing and is performed again; else the
  push ends a reply, and the rest of the completion follows it (R51, R262). -/
  | push (h val : Word) (fin : Completion) (again : Bool)
  /-- A mailbox access held at the holding core (R284). -/
  | mbxPut (core : Nat) (idx : Fin 4) (val : Word)
  | mbxGet (core : Nat) (idx : Fin 4) (rd : XReg)
  /-- A receipt held at the inbox (R282). -/
  | recv (rd rh : XReg)
  /-- A waiting LDX.F: key, bytes, address (R203). -/
  | full (key n : Nat) (addr : Word) (rd : XReg)
  /-- LOCKR while another holds the lock (R214). -/
  | lock (base len : Nat)
  /-- A repeated BARRIVE (R367). -/
  | barrive (b : Fin 4) (rd : XReg)
  /-- Under VFPEN: the strips of a vector instruction; flags raised so far with the lanes that raised them (R153). -/
  | vec (flags : BitVec 5) (lanes : List (Option Nat))
  /-- An MGANG in the matrix command queue (R175). -/
  | gang (g id : Nat) (rd : XReg)
  deriving DecidableEq, Repr

/-- The states of R51; EMPTY and SWAPPED are places, not states of a thread here. -/
inductive TState where
  | runnable | parked | trapped | stopped
  deriving DecidableEq, Repr

/-- The kinds of thread (R62). -/
inductive Kind where
  | resident | task | migrant
  deriving DecidableEq, Repr

/-- An open or closed chunk (R240, R241). -/
structure Chunk where
  /-- The thread when the chunk opened, and the popped values it then held. -/
  start : Arch
  startHeld : Vector (Option Word) 4
  /-- Commits and one-line records of the module before it opened (R242). -/
  openSeq : Nat
  insns : Nat
  /-- Physical line numbers of the read and write signatures. -/
  reads : List Nat
  writes : List Nat
  /-- Scene-shared lines among the written ones that this module does not own (R199, R255). -/
  shared : List Nat
  /-- Buffered global stores, by physical address, newest first. -/
  buf : List Host.Cell
  /-- Undo log of local stores: old bytes, newest entry first (R241). -/
  undo : List (List Host.Cell)
  solo : Bool
  /-- Instruction limit, fixed when it opens (R216, R240); its number among the thread's chunks. -/
  limit : Nat
  no : Nat
  deriving DecidableEq, Repr

/-- Where an element of a vector memory instruction lies (R160). -/
inductive VPlace where
  | lane | own
  | remote (core : Nat)
  | slate
  | global (shared : Bool)
  deriving DecidableEq, Repr

/-- An active lane of a vector memory instruction: lane, key and bytes of its place, value loaded at issue (R160). -/
structure VEl where
  lane : Nat
  key : Nat
  n : Nat
  place : VPlace
  val : Option Nat
  deriving DecidableEq, Repr

/-- A strip of a vector instruction in its thread's vector queue (R60, R150). -/
structure Strip where
  instr : Instr
  /-- Lanes 32 to 63 of a pair. -/
  odd : Bool
  /-- `vctl` and the scalar operand, sampled at issue (R121). -/
  vctl : Word
  scalar : Word
  scalar2 : Word
  pc : Word
  word : Word32
  /-- Cycle of issue, and the thread's chunks opened by then (R154). -/
  issued : Nat
  no : Nat
  /-- Executed in this cycle, flags raised, lowest lane that raised each flag (bits NX to NV). -/
  done : Option Nat
  flags : BitVec 5
  lanes : List (Option Nat)
  /-- The last strip of its instruction. -/
  last : Bool
  /-- The elements of a memory instruction in this strip; whether its local stores are logged, and whether its global
  stores commit by themselves (R160). -/
  els : List VEl
  logged : Bool
  alone : Bool
  /-- A load some of whose elements, of either strip, come from elsewhere than the lane slices and the own scratchpad
  (R160). -/
  away : Bool
  deriving DecidableEq, Repr

/-- A deferred trap that a thread has pending (R372). -/
structure Deferred where
  cause : BitVec 8
  source : BitVec 8
  flags : BitVec 16
  stamp : Word
  trval : Word
  trval2 : Word
  deriving DecidableEq, Repr

/-- `migr` beside OUT (R122). -/
structure MigrInfo where
  out : Nat
  migrant : Bool
  spawned : Bool
  hops : Nat
  origin : BitVec 32
  /-- The spawning thread as it goes by now, after moves and joins (R65, R78, R122). -/
  spawner : TRef
  /-- Target of the packet it was bound from, for a stand-in (R69). -/
  target : Word
  deriving DecidableEq, Repr

/-- Counts of `chunkstat` (R122). -/
structure ChunkCounts where
  commit : Nat
  squash : Nat
  solo : Nat
  deriving DecidableEq, Repr

/-- A snapshot of a Crucible row kept by SEVICT or SEXPORT: key and elements of the row, whether SEVICT zeroed it, and the
bytes to be written (R231, R233). -/
structure Snap where
  row : Nat
  n : Nat
  evicted : Bool
  bytes : List Byte
  deriving DecidableEq, Repr

/-- A thread with everything that belongs to it (R119 to R126, R384). -/
structure Thread where
  a : Arch
  serial : Nat
  launch : BitVec 32
  kind : Kind
  role : Nat
  prio : Nat
  paired : Bool
  st : TState
  wait : Wait
  /-- Cycle in which the present wait began, and in which the last reply arrived. -/
  parkedAt : Nat
  resumedAt : Nat
  tr : TrapRegs
  deferred : List Deferred
  psc0 : Nat
  psc1 : Nat
  psc2 : Nat
  instret : Nat
  /-- The instruction at the pc is in `instret` already: it trapped, or was withdrawn, after it issued. -/
  counted : Bool
  /-- The instruction last completed gave the pc itself (R143, R407). -/
  jumped : Bool
  chunk : Option Chunk
  closed : Option Chunk
  cc : ChunkCounts
  /-- Chunks opened since binding: the model's own number for each. -/
  chunkNo : Nat
  /-- Chunk limit code (R216). -/
  clim : Fin 4
  /-- pc of the last squashed chunk and how often in succession (R245). -/
  squashPc : Word
  squashRun : Nat
  /-- WAITEV edge latches (R274). -/
  evl : BitVec 8
  /-- Values popped from x28 to x31 and held, and the address of the instruction that popped them (R417). -/
  held : Vector (Option Word) 4
  heldPc : Word
  /-- The wait has ended, and the instruction that waited is performed before anything else happens (R49); its word, as
  it was fetched. -/
  redo : Bool
  word : Word32
  migr : MigrInfo
  vq : List Strip
  /-- A v register was written since binding; and since its image was last written to its block (R384, R385). -/
  vimg : Bool
  dirty : Bool
  /-- Descriptors a task thread serves (R301). -/
  serve : BitVec 16
  /-- The last binding placed it outside its launch's masks (R414). -/
  outside : Bool
  /-- Its block in the context area, from its first swap on (R385). -/
  block : Option Nat
  /-- Image or lossy form kept with a fault of SEVICT or SEXPORT (R231, R233). -/
  snap : Option Snap
  /-- Registrations on queues: (handle, producer, consumer); and those of the odd slot of a pair (R260). -/
  regs : List (Word × Bool × Bool)
  regsOdd : List (Word × Bool × Bool)
  /-- An entry is kept at the queue of this handle for the push of its instruction, which is performed again (R262). -/
  owed : Option Word
  /-- Single step or step-to-idle of a debug session in progress (R406). -/
  stepping : Option Bool
  deriving DecidableEq, Repr

/-- A slot of a core: empty, holding a thread, or the odd half of the pair in the slot below (R58). -/
inductive Slot where
  | empty
  | thread (t : Thread)
  | odd
  deriving DecidableEq, Repr

/-- A thread SWAPPED from a core, earliest first (R382). -/
structure Swapped where
  t : Thread
  part : Nat
  /-- The slot it left, for registrations (R260). -/
  slot : SlotN
  /-- TCSWAP swapped it out and alone restores it (R292). -/
  heldForSwap : Bool
  /-- A stand-in packet represents it in a run-queue tier (R69). -/
  standin : Bool
  /-- Moving under R78: it may bind to any user slot. -/
  moving : Bool
  /-- Written to the context area (R382), and its message area (R283). -/
  inArea : Bool
  msgs : List (List Word)
  /-- The wait that the swap withdrew, as the blocked-state register shows it (R264). -/
  blocked : Wait
  deriving DecidableEq, Repr

/-- A migrant packet (R64). -/
structure Packet where
  pc : Word
  pw : BitVec 32
  origin : BitVec 32
  launch : BitVec 32
  hops : Nat
  spawned : Bool
  standin : Bool
  a : List Word
  target : Word
  /-- The spawning thread as it goes by now (R65, R78). -/
  spawner : TRef
  /-- Core it goes to (R271), and while it is held at its sender: the thread that waits for its acceptance, and whether
  that thread departs with it (R256). -/
  dest : Nat
  sender : Option TRef
  departs : Bool
  /-- Rot in which it was first refused for want of room, if it was (R256). -/
  since : Option Nat
  deriving DecidableEq, Repr

/-- A message in an inbox or outbound buffer (R281 to R283). -/
structure Msg where
  dst : TRef
  src : Word
  sender : TRef
  tag : Fin 32
  payload : Word
  launch : BitVec 32
  orphan : Bool
  deriving DecidableEq, Repr

/-- A local queue, or an active cluster queue, at its owner (R259, R262). -/
structure Queue where
  /-- Entries of a local queue; those of a cluster queue lie in memory. -/
  entries : List Word
  head : BitVec 16
  tail : BitVec 16
  base : Nat
  size : Nat
  sen : Bool
  stage : Nat
  /-- Entries kept for pushes sent and not yet performed. -/
  kept : Nat
  /-- Held pops, and parked pushes, oldest first. -/
  pops : List TRef
  pushes : List TRef
  producers : Word
  consumers : Word
  active : Bool
  /-- Key of its descriptor, as read when it became active (R259, R323). -/
  desc : Option Nat
  deriving DecidableEq, Repr

/-- A mailbox with its held accesses, oldest first; a put carries its thread's launch (R284). -/
structure Mailbox where
  val : Option Word
  puts : List (TRef × Word × BitVec 32)
  gets : List TRef
  deriving DecidableEq, Repr

/-- The scratchpad lock of a core (R214). -/
structure Lock where
  holder : SlotN
  base : Nat
  len : Nat
  deriving DecidableEq, Repr

/-- A barrier register of a core with the sweep state of its generation (R363, R366). -/
structure Barrier where
  armed : Bool
  row0 : Nat
  rows : Nat
  col0 : Nat
  cols : Nat
  slots : BitVec 8
  arr : BitVec 8
  gen : BitVec 16
  /-- Arrivals that have reached the sweep; signals received from east and south; signals sent west and north. -/
  swept : BitVec 8
  east : Nat
  south : Nat
  sentWest : Bool
  sentNorth : Bool
  deriving DecidableEq, Repr

/-- A barrier signal on the wires, due at a cycle of its receiver, or held by an unarmed register (R365, R366). -/
structure BarSignal where
  core : Nat
  b : Fin 4
  /-- 0 own arrival, 1 from the east, 2 from the south, 3 release. -/
  kind : Fin 4
  slot : SlotN
  rect : List Nat
  due : Nat
  deriving DecidableEq, Repr

/-- Commands of the matrix engine, with the registers sampled at issue, and the places of what MBLD reads and of scales:
keys and bytes, page by page (R171). -/
inductive MOp where
  | gang (g id : Nat)
  | bld (src : Word) (kb fmt : Nat) (scale : Word) (data scales : List (Nat × Nat))
  | mma (acc : Fin 4) (base : Word) (kb fa fb : Nat) (scale : Word) (scales : List (Nat × Nat))
  | zero (acc : Fin 4)
  | store (acc : Fin 4) (dst : Word)
  deriving DecidableEq, Repr

/-- An engine command with the thread, slot and pc that issued it. -/
structure MCmd where
  op : MOp
  by_ : TRef
  slot : SlotN
  pc : Word
  deriving DecidableEq, Repr

/-- A B latch: its tag (format, K_b), its bytes and its scales, LPOISON with the address of the error (R176, R182). -/
structure Latch where
  tag : Option (Nat × Nat)
  bytes : List Byte
  scales : List Byte
  poison : Option Word
  deriving DecidableEq, Repr

/-- The matrix engine of a core (R127, R168 to R182). -/
structure Matrix where
  /-- Commands in order, the one that executes or waits at a gang barrier first. -/
  queue : List MCmd
  /-- Ring steps that the MMA at the head has done, once it has started (R177, R386). -/
  ring : Option Nat
  /-- Tile words by 64 i + j; unlisted words are 0. -/
  acc : Vector (Table Word32) 4
  poison : BitVec 4
  current : Latch
  incoming : Latch
  err : Nat
  gsize : Nat
  gid : Nat
  gpos : Nat
  /-- Held by a gang stop, and whether that found the command at the head started (R180, R183). -/
  stopped : Bool
  begun : Bool
  deriving DecidableEq, Repr

/-- The space a ray walks at one instance level: structure base, ray origin and direction there, instance index, addresses
of the instance records it lies below, offset of its own one (R330, R335). -/
structure RayFrame where
  base : Nat
  org : List Word32
  dir : List Word32
  inst : Word32
  recs : List Nat
  off : Nat
  deriving DecidableEq, Repr

/-- An entry of a ray's stack (R331): 0 a node, 1 a leaf with its count, 2 an instance to enter, or a marker at which the
walk goes on in other frames. -/
structure StackEntry where
  level : Nat
  kind : Nat
  offset : Nat
  count : Nat
  frames : Option (List RayFrame)
  deriving DecidableEq, Repr

/-- A hit or candidate of a ray: key (t, instance, geometry, primitive), u, v, kind, attributes (R335). -/
structure RayHit where
  t : Word32
  inst : Word32
  geom : Word32
  prim : Word32
  u : Word32
  v : Word32
  kind : Nat
  attrs : List Word32
  /-- The unit of the top-level structure that holds it: offset and count (R317). -/
  unit : Nat
  count : Nat
  deriving DecidableEq, Repr

/-- A ray held by a traversal unit (R331 to R340). -/
structure Ray where
  handle : Word
  owner : TRef
  part : Nat
  /-- State code of R333. -/
  status : Nat
  flags : Word32
  tmin : Word32
  tmax : Word32
  cull : Nat
  sbtoff : Nat
  sbtstride : Nat
  miss : Nat
  desc : Nat
  /-- The descriptor has been read: shader binding table, counts, generation. -/
  opened : Bool
  /-- The hint lookup has been made (R412). -/
  looked : Bool
  sbt : Nat
  nh : Nat
  nm : Nat
  gen : Nat
  /-- Hint outcome (3 while a prediction is in use), context and ways, key, predicted unit (R313 to R316). -/
  hint : Nat
  hctx : Nat
  /-- Hint context field of its descriptor (R328). -/
  hidx : Fin 4
  ways : BitVec 8
  key : Option (Nat × Nat)
  pred : Option (Nat × Nat)
  /-- The predicted unit is being tested (R338). -/
  predicting : Bool
  ahcount : Nat
  frames : List RayFrame
  stack : List StackEntry
  spilled : List StackEntry
  spill : Nat
  trail : BitVec 32
  /-- Entries dropped and not yet walked, with their frames, and those that the restart in progress has still to reach
  (R340). -/
  dropped : List (List RayFrame × StackEntry)
  todo : List (List RayFrame × StackEntry)
  /-- Primitive records left of the leaf in progress; that leaf's offset and count. -/
  prims : List Nat
  leaf : Nat × Nat
  cur : Nat
  /-- Primitives tested: instance records above, record (R339). -/
  tested : List (List Nat × Nat)
  best : Option RayHit
  cand : Option RayHit
  candOpaque : Bool
  /-- Ended at a hit before its closest one was known (R317). -/
  term : Bool
  deriving DecidableEq, Repr

/-- A traversal unit of an equipped core (R15, R345, R358). -/
structure Traversal where
  rays : List Ray
  children : List (Word × TRef)
  /-- Events posted and not taken, oldest first: owner, handle, event code (R343). -/
  events : List (TRef × Word × Nat)
  deriving DecidableEq, Repr

/-- Draws of a stamp source: last sequence value, rot of the last stamp, draws in that rot (R356). -/
structure StampSrc where
  seq : Nat
  rot : Nat
  drawn : Nat
  deriving DecidableEq, Repr

/-- A 32-byte trace record (R407). -/
structure TraceRec where
  kind : Nat
  slot : Nat
  core : Nat
  pc : Word
  data : Word
  stamp : Word
  deriving DecidableEq, Repr

/-- A record that its source holds for a stamp of a later rot (R356): a trap record for a core's supervisor slot or for the
system image, a trace record of a core for a partition, an entry of Nolmon's error log. -/
inductive HeldRec where
  | trap (core : Nat) (image : Bool) (r : TrapRec)
  | trace (core part : Nat) (r : TraceRec)
  | error (kind unit addr count : Nat) (owner : Option Nat)
  deriving DecidableEq, Repr

/-- A held record with its source: the core by whose `loc` the unit goes, and the unit code (R356, R357). -/
structure Unstamped where
  core : Nat
  unit : Nat
  what : HeldRec
  deriving DecidableEq, Repr

/-- The migrant spill path of a core: its descriptor as last read, indices, packets by tier, faults pending (R68,
R261). -/
structure SpillState where
  en : Bool
  base : Nat
  gbase : Nat
  glog : Nat
  head : Nat
  tail : Nat
  ghead : Nat
  gtail : Nat
  ring : List Packet
  global : List Packet
  writeFault : Bool
  readFault : Bool
  deriving DecidableEq, Repr

/-- Everything a partition switch saves of a core (R386). -/
structure CoreCtx where
  slots : Vector Slot 8
  trapQ : List TrapRec
  trapSeq : Nat
  heldRecs : List TrapRec
  inbox : List Msg
  outbox : List Msg
  mbx : Vector Mailbox 4
  lq : Vector Queue 8
  runQ : List Packet
  /-- Cycle since which the run queue has held a packet (R69). -/
  runQSince : Nat
  heldPackets : List Packet
  bars : Vector Barrier 4
  heldSignals : List BarSignal
  mx : Matrix
  cpydone : Vector Word 8
  tv : Traversal
  trqbase : Word
  supctl : Word
  lock : Option Lock
  spill : SpillState
  deriving DecidableEq, Repr

/-- A cached translation (R194): page number in 64 KiB units and size, frame, permissions and levels of both leaves. -/
structure TlbEntry where
  part : Nat
  vpn : Nat
  pages : Nat
  pfn : Nat
  ipn : Nat
  perm1 : BitVec 4
  lvl1 : Nat
  perm2 : BitVec 4
  lvl2 : Nat
  global : Bool
  shared : Bool
  /-- D of both leaves (R192). -/
  dirty : Bool
  /-- Struck by an uncorrectable error (R188). -/
  bad : Bool
  deriving DecidableEq, Repr

/-- A core (R17, R127). -/
structure Core where
  c : CoreCtx
  /-- The partition whose context it holds. -/
  part : Option Nat
  cycle : Nat
  /-- Clock divider and the module periods left of the present cycle (R404). -/
  divider : Nat
  wait : Nat
  /-- Divider from the next rot boundary on (R404). -/
  nextDivider : Nat
  /-- Issue and strip of the present cycle are over. -/
  turnDone : Bool
  stripDone : Bool
  /-- A cycle in which every slot has stopped issuing (R386). -/
  halted : Bool
  /-- Slots removed by Bellows, cycle of the last return (R79). -/
  removed : BitVec 8
  lastReturn : Nat
  /-- Threads SWAPPED from the core, earliest first (R382). -/
  swapped : List Swapped
  lastSerial : Nat
  stamps : StampSrc
  /-- Stamp source of the traversal unit (R357). -/
  tvStamps : StampSrc
  /-- Event selects and counts (R358). -/
  evSel : Vector (BitVec 8) 4
  evCnt : Vector (BitVec 48) 4
  /-- Counters of the core's traversal unit: rays started, children started, restarts, outcome 3, outcome 4, entries
  spilled; a partition switch leaves them (R355, R358). -/
  rayCnt : Vector (BitVec 32) 6
  /-- Cycles of recent timing-error replays; one is to strike the next turn after its pops (R80, R417). -/
  replays : List Nat
  strikes : Bool
  /-- Trace records held while a ring is full, each with its partition, and the partitions some of whose records here were
  dropped since (R407). -/
  traceHeld : List (Nat × TraceRec)
  traceDropped : List Nat
  /-- Link counters: flits and stalls by link and channel (R359). -/
  flits : Table (BitVec 32)
  stalls : Table (BitVec 32)
  /-- Energy of the core's work in the present ms of its partition (R360, R403). -/
  msEnergy : Nat
  /-- Issued turns of the present efficiency window, and its start (R403). -/
  issued : Nat
  windowStart : Nat
  /-- Cycle of the last Prefect move (R265). -/
  movedAt : Option Nat
  /-- The core's micro-TLB, newest entry first (R17, R194). -/
  utlb : List TlbEntry
  deriving DecidableEq, Repr

/-- A copy job (R285, R286). -/
structure CopyJob where
  id : Word
  ch : Fin 8
  src : Word
  dst : Word
  rowBytes : Nat
  rows : Nat
  sstride : Word
  dstride : Word
  setFull : Bool
  toPort : Bool
  by_ : TRef
  slot : SlotN
  launch : BitVec 32
  deriving DecidableEq, Repr

/-- A copy channel: last ID given, job in progress with the bytes it has written, a fault pending, the channel's
completion value (R287, R361). -/
structure Channel where
  last : Word
  job : Option CopyJob
  pos : Nat
  fault : Bool
  done : Word
  deriving DecidableEq, Repr

/-- A queued pair task: its four doublewords and the launch it carries (R297). -/
structure Task where
  w : List Word
  launch : BitVec 32
  deriving DecidableEq, Repr

/-- A Tongs unit (R302 to R308). -/
structure Tongs where
  heap : List Task
  front : List Task
  /-- A FIFO frontier switched to LIFO (R305). -/
  lifo : Bool
  /-- Task threads parked, oldest first. -/
  parked : List TRef
  /-- A batch held at a spill write: pusher and packets; whether its fault has been recorded (R308). -/
  batch : Option (TRef × List Task)
  batchFault : Bool
  refillFault : Bool
  /-- The spill write of the first held seed has failed (R308). -/
  seedFault : Bool
  /-- Seeds held for want of room (R304). -/
  seeds : List Task
  deriving DecidableEq, Repr

/-- A hit hint table entry in its set and way (R313). -/
structure Hint where
  set_ : Nat
  way : Nat
  tag : Nat
  ctx : Nat
  gen : Nat
  leaf : Nat
  conf : Nat
  count : Nat
  deriving DecidableEq, Repr

/-- A line of a sampler cache (R198). -/
structure SamplerLine where
  part : Nat
  line : Nat
  bytes : List Byte
  /-- 64-bit words of the line struck by an uncorrectable error (R188). -/
  struck : List Nat
  deriving DecidableEq, Repr

/-- What the eight cores of a cluster share (R14). -/
structure Cluster where
  cq : Table Queue
  /-- Base of the queue descriptor area as the cluster's queue map table entry was last read; none: EN = 0 (R323). -/
  area : Option Nat
  jobs : List CopyJob
  /-- Core-in-cluster last admitted to the job queue (R285). -/
  rr : Nat
  chans : Vector Channel 8
  copyStamps : StampSrc
  tongs : Tongs
  tongsStamps : StampSrc
  tlb : List TlbEntry
  sampler : List SamplerLine
  hints : List Hint
  deriving DecidableEq, Repr

/-- A Crucible region of a partition on a die (R220, R225). -/
structure Region where
  die : Nat
  idx : Nat
  base : Nat
  rows : Nat
  n : Nat
  q : Int
  eps : Word32
  gamma : Word
  ofmt : Nat
  /-- The launch whose reservation it was drawn from, and bytes drawn (R225). -/
  drawn : Option (BitVec 32 × Nat)
  deriving DecidableEq, Repr

/-- A die: line migration, stamps of its dispatcher and router, periods of its detector and Prefect (R16). -/
structure Die where
  /-- Migrated lines, oldest first: line, holding cluster, partition whose accesses moved it (R197). -/
  moved : List (Nat × Nat × Nat)
  /-- Consecutive accesses at an owner: line, cluster, its partition, count (R197, R326). -/
  runs : List (Nat × Nat × Nat × Nat)
  dispStamps : StampSrc
  bankStamps : StampSrc
  routerStamps : StampSrc
  lastPass : Nat
  /-- A pass that a write of DLDET asked for (R264). -/
  passDue : Bool
  lastSample : Nat
  hot : Bool
  deriving DecidableEq, Repr

/-- A launch read from the queue, until it ends (R70 to R77). -/
structure Launch where
  id : BitVec 32
  /-- The sixteen doublewords of the descriptor. -/
  d : List Word
  /-- Its index in the launch queue. -/
  order : Nat
  /-- Dies that have taken it, and on which it is placed. -/
  taken : List Nat
  placed : List Nat
  /-- Predecessors not yet resolved (R75). -/
  preds : List (BitVec 32)
  /-- Effective priority and start of the wait at its level, by die (R76). -/
  eff : List (Nat × Nat × Nat)
  /-- Its seeds, as read (R304). -/
  seeds : List Task
  /-- The status it ends with once its completion record is written (R73). -/
  ending : Option Nat
  deriving DecidableEq, Repr

/-- A pair descriptor table entry (R295). -/
structure PairDesc where
  rootA : Word
  rootB : Word
  theta : Word32
  policy : Bool
  nfmt : Nat
  pc : Word
  region : Word
  deriving DecidableEq, Repr

/-- A hint context of the mode table (R326). -/
structure HintCtx where
  ctx : Nat
  en : Bool
  c : Int
  ways : BitVec 8
  deriving DecidableEq, Repr

/-- The mode table in force (R326). -/
structure ModeTable where
  clen : Nat
  cruc : Nat
  smk : Nat
  bpol : Nat
  flifo : Bool
  l2mig : Bool
  lend : Bool
  e4nan : Bool
  hints : Vector HintCtx 4
  deriving DecidableEq, Repr

/-- A port control entry in force (R393). -/
structure PortCfg where
  sbase : Nat
  sen : Bool
  rbase : Nat
  ren : Bool
  nsq : Nat
  nrq : Nat
  deriving DecidableEq, Repr

/-- A partition-level debug session (R405, R406). -/
structure Session where
  expiry : Nat
  level : Nat
  trace : Bool
  /-- Trace records written in it. -/
  written : Nat
  deriving DecidableEq, Repr

/-- A debug grant that Anvil accepted (R405). -/
structure Grant where
  level : Nat
  part : Nat
  expiry : Nat
  deriving DecidableEq, Repr

/-- Nolmon's translation control block for stage 2 of a partition: range, kind, request and done sequence; while a request
is performed, the chunks and engine commands that used translations from before it (R195). -/
structure S2Block where
  base : Nat
  len : Nat
  kind : Nat
  req : Nat
  done : Nat
  waits : Option (List (TRef × Nat) × List (Nat × MCmd))
  deriving DecidableEq, Repr

/-- A stamped error record of Nolmon's log (R410). -/
structure ErrRec where
  stamp : Word
  kind : Nat
  unit : Nat
  addr : Nat
  count : Nat
  deriving DecidableEq, Repr

/-- A partition (R399). -/
structure Part where
  cfg : PartCfg
  /-- Stage-1 root last read, and the done sequence of the translation block (R195). -/
  s1root : Nat
  /-- An invalidation request performed and not yet reported: its sequence, and the chunks and engine commands that used
  translations from before it (R195). -/
  inval : Option (Nat × List (TRef × Nat) × List (Nat × MCmd))
  /-- Nolmon's block for stage 2 (R195). -/
  s2 : S2Block
  mode : ModeTable
  pairs : Vector PairDesc 16
  /-- Pair spill ring: base, log2 of its size, indices and packets (R300). -/
  ringBase : Nat
  ringLog : Nat
  ringHead : Nat
  ringTail : Nat
  ring : List Task
  regions : List Region
  launches : List Launch
  /-- Next queue index to be read by each die, and launches of the ring that have ended, by index (R74). -/
  readIdx : Vector Nat 8
  endedIdx : List Nat
  ports : Vector PortCfg 8
  session : Option Session
  /-- Codes delivered to the debug unit by DBRK: loc, pc, code (R293). -/
  dbrks : List (BitVec 32 × Word × Word)
  /-- Error records of its own memory that Nolmon has passed to it (R410). -/
  memErrors : List ErrRec
  /-- Records of traps of slot 0, for the system image (R376). -/
  mgmtTraps : List TrapRec
  energy : Nat
  energyRem : Nat
  /-- Rot of the last stall-map capture of each die (R359). -/
  lastFrame : Vector Nat 8
  /-- A switch of its rows has been asked for; clock at which its time slice began (R386, R399). -/
  switchAsked : Bool
  sliceStart : Nat
  /-- Clock and energy account at the start of the present ms (R403). -/
  msStart : Nat
  msEnergy : Nat
  /-- A launch queue reset (3) or partition reset (4) in progress, with its request sequence (R402, R416). -/
  resetting : Option (Nat × Nat)
  deriving DecidableEq, Repr

/-- Who waits for Nolmon at a stage-2 failure (R193). -/
structure S2Wait where
  who : TRef
  va : Word
  cause : Nat
  trval2 : Word
  ipa : Nat
  part : Nat
  deriving DecidableEq, Repr

/-- What a posted operation does at its destination (R247, R248). -/
inductive POp where
  /-- Bytes at a key; set the full bits of the words; a nibble. -/
  | store (key : Nat) (bytes : List Byte) (full : Bool)
  | nib (key : Nat) (hi : Bool) (v : BitVec 4)
  /-- Bytes of one line, of a vector store (R160). -/
  | cells (cs : List Host.Cell)
  /-- FECLR, FESET (R210). -/
  | fe (key len : Nat) (set : Bool)
  /-- SADD of the active lanes: row key and address, elements of the row, first element, addends by lane (R226). -/
  | sadd (row n : Nat) (base : Word) (i : Nat) (q : Int) (adds : List (Nat × Word32)) (bf : Bool)
  | szero (row n rows : Nat)
  /-- Whole-row addition of NDOWN (R310). -/
  | rowAdd (row n : Nat) (base : Word) (xs : List Int) (inv : Bool)
  | push (core : Nat) (h val : Word)
  | mbx (core idx : Nat) (val : Word)
  | msg (m : Msg)
  deriving DecidableEq, Repr

/-- A posted operation on its way (R247). -/
structure Posted where
  src : TRef
  /-- Counter it is counted in. -/
  cls : Fin 3
  /-- Destination: operations of one thread to one destination keep their order. -/
  dest : Nat
  op : POp
  launch : BitVec 32
  deriving DecidableEq, Repr

/-- An acknowledgement on its way back (R247). -/
structure Ack where
  dst : TRef
  cls : Fin 3
  launch : BitVec 32
  /-- Keys and bytes of what the operation wrote (R208). -/
  at_ : List (Nat × Nat)
  /-- Address of the lowest saturated element and row base of an SADD whose thread is to take cause 33 (R227). -/
  sat : Option (Word × Word)
  deriving DecidableEq, Repr

/-- An activity of the budget table (R325, R360). -/
structure Budget where
  period : Nat
  budget : Nat
  resource : Nat
  account : Nat
  used : Nat
  start : Nat
  overruns : Nat
  deriving DecidableEq, Repr

/-- A message that a port has taken from a send queue: what the entry named, and its bytes (R391, R394). -/
structure UeMsg where
  port : Nat
  sq : Nat
  part : Nat
  remote : Nat
  job : Nat
  rq : Nat
  mode : Nat
  bytes : List Byte
  deriving DecidableEq, Repr

/-- A Henrok Link port (R396, R397): in service, module it reaches, flits of its replay buffer sent again. -/
structure LinkPort where
  up : Bool
  peer : Option Nat
  resent : Nat
  deriving DecidableEq, Repr

/-- The management complex: Anvil, Nolmon and the power controller (R11, R398, R403, R405). -/
structure Mgmt where
  /-- The Nolmon image verified and started (R398); measurement 1 and the partitions' measurements. -/
  booted : Bool
  digest : List Byte
  measured : List (Nat × List Byte)
  /-- Partitions whose verified image runs on a share of the management cores (R398). -/
  images : List Nat
  /-- SPDM: algorithms negotiated, keys exchanged, session secured; last nonce, nonces used, last response by request. -/
  negotiated : Bool
  keyed : Bool
  secured : Bool
  nonce : List Byte
  usedNonces : List (List Byte)
  lastResponse : Nat × List Byte
  grants : List Grant
  stamps : StampSrc
  errors : List ErrRec
  budgets : Vector Budget 7
  overhead : Nat
  overheadRem : Nat
  /-- Rows powered off, and voltage steps by row (R403). -/
  rowsOff : List (Nat × Nat)
  voltage : List (Nat × Nat × Int)
  links : Vector LinkPort 8
  /-- Peers being moved onto port 7: module, flits in flight, clock at the failure (R397). -/
  moving : List (Nat × Nat × Nat)
  /-- Modules removed from the domain (R397). -/
  lost : List Nat
  /-- HBM5 channels emptied by consolidation, in self-refresh: stack, channel (R200). -/
  asleep : List (Nat × Nat)
  /-- Host range of the second tier: first byte and bytes (R390). -/
  cxl : Nat × Nat
  /-- Failed ports and modules fenced and reported to the host (R410): module, port 8 for a whole module. -/
  reported : List (Nat × Nat)
  /-- Host accesses completed with Completer Abort and reported (R388): partition, intermediate address. -/
  aborts : List (Nat × Nat)
  deriving DecidableEq, Repr

/-- What happens next where the spec fixes no order: the turn or the strip cycle of a core, a step of the device, the next
external input, a storage error that strikes a unit, the next clock cycle. The model's own. [log 4 DESIGN CHOICE; 126 DESIGN
CHOICE] -/
inductive Choice where
  | turn (core : Nat)
  | strip (core : Nat)
  | event (i : Instr) (u : Subject)
  | input
  | strike (key : Nat)
  | strikeLine (cl idx word : Nat)
  | strikeHint (cl set_ way : Nat)
  | strikeTlb (cl idx : Nat)
  | strikeMicro (core idx : Nat)
  | setWays (part : Nat) (ways : BitVec 8)
  | setBudget (act period budget resource account : Nat)
  | flit (core link vc : Nat)
  | stall (core link vc : Nat)
  | tick
  deriving DecidableEq, Repr, Inhabited

/-- The module with all it holds. [log 5 DESIGN CHOICE] -/
structure State where
  /-- The thread whose instruction is performed, the word it was fetched as, and the subject of a device step: the
  model's own (they name what exec acts on). -/
  cur : CoreId × SlotN
  curWord : Word32
  subject : Subject
  /-- Undivided clock cycles since module reset; module time is this div 8 plus the base set at domain formation
  (R356). -/
  clock : Nat
  timeBase : Nat
  domain : BitVec 14
  modnum : Fin 8
  inDomain : Bool
  cores : Table Core
  clusters : Table Cluster
  dies : Table Die
  parts : Table Part
  /-- Contexts of partitions that share rows and are switched out: (partition, core) (R386). -/
  shadow : List (Nat × Nat × CoreCtx)
  /-- Their clusters' copy jobs and channels, Tongs units and queues: (partition, cluster) (R386). -/
  shadowCl : List (Nat × Nat × Cluster)
  mem : Memory
  /-- Keys of the words whose full/empty bit is full, rising (R187). -/
  full : List Nat
  /-- Protection units marked uncorrectable (R188). -/
  bad : List Nat
  /-- Commit order: number of records, and the records with their lines, newest first (R242). -/
  commitSeq : Nat
  records : List (Nat × List Nat)
  /-- The commit token, its holder and its queue (R245). -/
  token : Option TRef
  tokenQ : List TRef
  posted : List Posted
  acks : List Ack
  signals : List BarSignal
  /-- Records that wait for their stamps, oldest first (R356). -/
  unstamped : List Unstamped
  s2waits : List S2Wait
  /-- Scene-shared lines this module owns, and invalidations received and not applied with the lines' new bytes
  (R199, R255). -/
  shOwned : List Nat
  /-- Owned lines whose invalidations elsewhere are not all acknowledged, with the threads that have stored to them (R255).
  -/
  shUnacked : List (Nat × List TRef)
  shPending : List (Nat × List Byte)
  /-- Directory of scene-shared lines homed on this module: line, owner module, modules with a copy (R199). -/
  shDir : List (Nat × Nat × List Nat)
  /-- Home module of the frame of a scene-shared page, by 64 KiB frame number; this module for one not listed (R199, R397).
  -/
  shHome : Table Nat
  /-- Pages being moved by Bellows: partition, intermediate page number (R200). -/
  movingPages : List (Nat × Nat)
  /-- Pages whose repair Nolmon has refused to an engine that waits: partition, intermediate page number (R193). -/
  refusedPages : List (Nat × Nat)
  /-- FENCER confirmations outstanding: thread, cluster, partition, lines (R208). -/
  samplerReqs : List (TRef × Nat × Nat × List Nat)
  mgmt : Mgmt
  /-- What units knew of the rays they drained beyond the records, each with the bytes of its record that a unit writes
  (R346). -/
  drained : List (Ray × List Byte)
  /-- Messages handed to the Ultra Ethernet ports: port, send queue, partition, bytes (R286, R394). -/
  ueOut : List UeMsg
  /-- Last bytes the host read (R389). -/
  hostRead : List Byte
  /-- External inputs still to come, in order, with their subjects: the model's own (the outside world). -/
  inputs : List (Instr × Subject)
  /-- Choices still to be used where the spec fixes no order; then the free values decide: the model's own. -/
  choices : List Nat
  /-- Choices of what happens next, likewise: the model's own. -/
  moves : List Choice
  /-- Free values taken so far: the model's own. -/
  freeN : Nat
  deriving DecidableEq, Repr

/-- Why the model stops. -/
inductive Fault where
  /-- Raised by `step` when the state names a core the module does not have (R12): no run from reset reaches it. Safe. -/
  | noSuchCore
  deriving DecidableEq, Repr

/-- Why the model gives no next state. -/
inductive Refusal where
  /-- Raised by `exec` for a constructor whose meaning is not written; no arm raises it. Safe. -/
  | notModelled (mnemonic : String)
  deriving DecidableEq, Repr

/-- User CSRs after module reset (R120, R129). -/
def UserCsrs.reset : UserCsrs := ⟨0, 0, 0, 0, 0, 0, 0, 0, 0, 0⟩

/-- Thread registers after module reset: all zero but p0 (R119, R129). -/
def Arch.reset : Arch :=
  { pc := 0, x := Vector.replicate 32 0, pw := 1, v := Vector.replicate 32 0, vOdd := Vector.replicate 32 0,
    k := Vector.replicate 8 0, csr := .reset, repEnd := 0, endPend := false }

/-- A thread as binding finds it before it writes any register (R129). -/
def Thread.reset : Thread :=
  { a := .reset, serial := 0, launch := 0, kind := .resident, role := 0, prio := 0, paired := false, st := .runnable,
    wait := .none, parkedAt := 0, resumedAt := 0, tr := ⟨0, 0, 0, 0⟩, deferred := [], psc0 := 0, psc1 := 0, psc2 := 0,
    instret := 0, counted := false, jumped := false, chunk := none, closed := none, cc := ⟨0, 0, 0⟩, chunkNo := 0, clim := 0, squashPc := 0, squashRun := 0, evl := 0,
    held := Vector.replicate 4 none, heldPc := 0, redo := false, word := 0, migr := ⟨0, false, false, 0, 0, ⟨0, 0⟩, 0⟩, vq := [],
    vimg := false, dirty := false,
    serve := 0, outside := false, block := none, snap := none, regs := [], regsOdd := [], owed := none, stepping := none }

/-- A local queue after reset: 16 entries, empty (R256, R259). -/
def Queue.reset : Queue :=
  { entries := [], head := 0, tail := 0, base := 0, size := 16, sen := false, stage := 0, kept := 0, pops := [],
    pushes := [], producers := 0, consumers := 0, active := false, desc := none }

/-- An unarmed barrier register (R363). -/
def Barrier.reset : Barrier :=
  { armed := false, row0 := 0, rows := 0, col0 := 0, cols := 0, slots := 0, arr := 0, gen := 0, swept := 0, east := 0,
    south := 0, sentWest := false, sentNorth := false }

/-- A latch with no tag (R127). -/
def Latch.reset : Latch := ⟨none, [], [], none⟩

/-- The matrix engine after reset: tiles 0, solo gang (R127, R175). -/
def Matrix.reset : Matrix :=
  { queue := [], ring := none, acc := Vector.replicate 4 [], poison := 0, current := .reset, incoming := .reset, err := 0, gsize := 1,
    gid := 0, gpos := 0, stopped := false, begun := false }

/-- A stamp source that has drawn nothing (R356). -/
def StampSrc.reset : StampSrc := ⟨0, 0, 0⟩

/-- An empty migrant spill path (R261). -/
def SpillState.reset : SpillState :=
  { en := false, base := 0, gbase := 0, glog := 0, head := 0, tail := 0, ghead := 0, gtail := 0, ring := [],
    global := [], writeFault := false, readFault := false }

/-- The context of a core after reset: DLDET is 1, everything else zero or empty (R124, R127). -/
def CoreCtx.reset : CoreCtx :=
  { slots := Vector.replicate 8 .empty, trapQ := [], trapSeq := 0, heldRecs := [], inbox := [], outbox := [],
    mbx := Vector.replicate 4 ⟨none, [], []⟩, lq := Vector.replicate 8 .reset, runQ := [], runQSince := 0, heldPackets := [],
    bars := Vector.replicate 4 .reset, heldSignals := [], mx := .reset, cpydone := Vector.replicate 8 0,
    tv := ⟨[], [], []⟩, trqbase := 0, supctl := 1, lock := none, spill := .reset }

/-- A core after reset. [log 1 DESIGN CHOICE] -/
def Core.reset : Core :=
  { c := .reset, part := none, cycle := 0, divider := 1, wait := 0, nextDivider := 1, turnDone := false, stripDone := false,
    halted := false, removed := 0, lastReturn := 0, swapped := [], lastSerial := 0, stamps := .reset, tvStamps := .reset,
    evSel := Vector.replicate 4 0, evCnt := Vector.replicate 4 0, rayCnt := Vector.replicate 6 0, replays := [], strikes := false, traceHeld := [], traceDropped := [], msEnergy := 0,
    flits := [], stalls := [], issued := 0, windowStart := 0, movedAt := none, utlb := [] }

/-- A Tongs unit with nothing queued. -/
def Tongs.reset : Tongs :=
  { heap := [], front := [], lifo := false, parked := [], batch := none, batchFault := false, refillFault := false, seedFault := false,
    seeds := [] }

/-- A cluster after reset. [log 1 DESIGN CHOICE] -/
def Cluster.reset : Cluster :=
  { cq := [], area := none, jobs := [], rr := 7, chans := Vector.replicate 8 ⟨0, none, 0, false, 0⟩, copyStamps := .reset,
    tongs := .reset, tongsStamps := .reset, tlb := [], sampler := [], hints := [] }

/-- A die after reset. [log 1 DESIGN CHOICE] -/
def Die.reset : Die :=
  { moved := [], runs := [], dispStamps := .reset, bankStamps := .reset, routerStamps := .reset, lastPass := 0, passDue := false,
    lastSample := 0, hot := false }

/-- A mode table at its reset values (R326). -/
def ModeTable.reset : ModeTable :=
  { clen := 0, cruc := 0, smk := 14, bpol := 0, flifo := false, l2mig := true, lend := true, e4nan := false,
    hints := Vector.replicate 4 ⟨0, false, 0, 0⟩ }

/-- A cleared pair descriptor: entry pc 0 marks it invalid (R295, R322). -/
def PairDesc.reset : PairDesc := ⟨0, 0, 0, false, 0, 0, 0⟩

/-- A partition as Nolmon creates it (R399). [log 1 DESIGN CHOICE] -/
def Part.create (cfg : PartCfg) : Part :=
  { cfg := cfg, s1root := 0, inval := none, s2 := ⟨0, 0, 0, 0, 0, none⟩, mode := .reset, pairs := Vector.replicate 16 .reset, ringBase := 0, ringLog := 10,
    ringHead := 0, ringTail := 0, ring := [], regions := [], launches := [],
    readIdx := Vector.replicate 8 0, endedIdx := [], ports := Vector.replicate 8 ⟨0, false, 0, false, 0, 0⟩,
    session := none, dbrks := [], memErrors := [], mgmtTraps := [], energy := 0, energyRem := 0, lastFrame := Vector.replicate 8 0,
    switchAsked := false, sliceStart := 0, msStart := 0, msEnergy := 0, resetting := none }

/-- The management complex after module reset, before Anvil has verified an image (R398). [log 1 DESIGN CHOICE] -/
def Mgmt.reset : Mgmt :=
  { booted := false, digest := [], measured := [], images := [], negotiated := false, keyed := false, secured := false, nonce := [], usedNonces := [],
    lastResponse := (0, []), grants := [], stamps := .reset, errors := [],
    budgets := Vector.replicate 7 ⟨0, 0, 0, 0, 0, 0, 0⟩, overhead := 0, overheadRem := 0, rowsOff := [], voltage := [],
    links := Vector.replicate 8 ⟨false, none, 0⟩, moving := [], lost := [], asleep := [], cxl := (0, 0), reported := [], aborts := [] }

/-- The module right after reset: nothing bound, memory with nothing listed. [log 1 DESIGN CHOICE] -/
def State.reset : State :=
  { cur := (0, 0), curWord := 0, subject := {}, clock := 0, timeBase := 0, domain := 0, modnum := 0, inDomain := false,
    cores := [], clusters := [], dies := [], parts := [], shadow := [], shadowCl := [], mem := [], full := [], bad := [],
    commitSeq := 0, records := [], token := none, tokenQ := [], posted := [], acks := [], signals := [], unstamped := [], s2waits := [],
    shOwned := [], shUnacked := [], shPending := [], shDir := [], shHome := [], movingPages := [],
    refusedPages := [], samplerReqs := [], mgmt := .reset, drained := [], ueOut := [], hostRead := [], inputs := [], choices := [], moves := [], freeN := 0 }

end Sys2Proof.Machine
end

