-- ==== Sys2Proof/Machine/Mem.lean ====
section
/-! DEFINITION. Mem.lean: the one flat memory of the module in canonical form, its address keys, its full/empty bits and
marked units, and the tables of State. -/

namespace Sys2Proof.Machine

/-! ### Tables -/

/-- The value at a number, or the default. -/
def Table.getD {α : Type} (t : Table α) (n : Nat) (d : α) : α :=
  match t with
  | [] => d
  | (k, v) :: r => if k = n then v else Table.getD r n d

/-- The value at a number, if listed. -/
def Table.get? {α : Type} (t : Table α) (n : Nat) : Option α :=
  match t with
  | [] => none
  | (k, v) :: r => if k = n then some v else Table.get? r n

/-- Sets the value at a number, keeping the numbers rising. -/
def Table.set {α : Type} (t : Table α) (n : Nat) (v : α) : Table α :=
  match t with
  | [] => [(n, v)]
  | (k, w) :: r => if k < n then (k, w) :: Table.set r n v else if k = n then (n, v) :: r else (n, v) :: (k, w) :: r

/-- Removes a number. -/
def Table.del {α : Type} (t : Table α) (n : Nat) : Table α := t.filter fun e => e.1 != n

/-! ### Memory -/

namespace Memory

/-- What a byte reads; an unlisted byte reads 0 (log entry 2). [log 2 DESIGN CHOICE] -/
def read : Memory → Nat → Byte
  | [], _ => 0
  | (k, b) :: r, a => if k = a then b else read r a

/-- Lists a byte in its place. -/
def insert : Memory → Nat → Byte → Memory
  | [], a, b => [(a, b)]
  | (k, c) :: r, a, b =>
    if k < a then (k, c) :: insert r a b else if k = a then (a, b) :: r else (a, b) :: (k, c) :: r

/-- Writes a byte; a byte that an unlisted address reads as is not listed. -/
def write (m : Memory) (a : Nat) (b : Byte) : Memory :=
  if b = 0 then m.filter fun e => e.1 != a else insert m a b

/-- Writes bytes at rising addresses. -/
def writeBytes (m : Memory) (a : Nat) : List Byte → Memory
  | [] => m
  | b :: bs => writeBytes (m.write a b) (a + 1) bs

/-- Reads n bytes at rising addresses. -/
def readBytes (m : Memory) (a : Nat) : Nat → List Byte
  | 0 => []
  | n + 1 => m.read a :: readBytes m (a + 1) n

/-- Addresses above a bound rise strictly and no listed byte is 0. -/
def wfFrom (lo : Nat) : Memory → Bool
  | [] => true
  | (k, b) :: r => lo ≤ k && b != 0 && wfFrom (k + 1) r

/-- The canonical form: addresses rise strictly and no entry equals what an unlisted address reads as. [log 2 DESIGN CHOICE]
-/
def wf (m : Memory) : Bool := wfFrom 0 m

end Memory

/-- Little-endian value of bytes (R5). -/
def leNat : List Byte → Nat
  | [] => 0
  | b :: bs => b.toNat + 256 * leNat bs

/-- The n bytes of a value, least significant first (R5). -/
def leBytes : Nat → Nat → List Byte
  | 0, _ => []
  | n + 1, v => BitVec.ofNat 8 v :: leBytes n (v / 256)

/-- Key of a byte of a core's scratchpad; the physical addresses are the keys below 2^52 (R184, R189). -/
def spadKey (core off : Nat) : Nat := 2 ^ 60 + core * 2 ^ 19 + off
/-- Key of a byte of a core's lane slices. -/
def laneKey (core off : Nat) : Nat := 2 ^ 61 + core * 2 ^ 17 + off
/-- Key of a byte of a die's Slate. -/
def slateKey (die off : Nat) : Nat := 2 ^ 62 + die * 2 ^ 27 + off

/-! ### Full/empty bits and marked units -/

/-- Puts a number into a rising list without repeats. -/
def insertNat : List Nat → Nat → List Nat
  | [], a => [a]
  | k :: r, a => if k < a then k :: insertNat r a else if k = a then a :: r else a :: k :: r

/-- Takes a number out of a list. -/
def eraseNat (l : List Nat) (a : Nat) : List Nat := l.filter fun k => k != a

/-- The aligned words of a range of bytes. -/
def wordsOf (key n : Nat) : List Nat :=
  (List.range ((key + n + 3) / 4 - key / 4)).map fun i => (key / 4 + i) * 4

/-- Protection unit of a byte: the 64-byte line in DRAM, the 64-bit word elsewhere (R188). -/
def unitOf (key : Nat) : Nat := if key < 2 ^ 60 then key / 64 * 64 else key / 8 * 8

/-- First byte of a marked unit: a 64-bit word of a line in the L2 is marked by its address plus 2^63 (R188). -/
def unitStart (u : Nat) : Nat := if 2 ^ 63 ≤ u then u - 2 ^ 63 else u

/-- Size of a marked unit. -/
def unitSize (u : Nat) : Nat := if u < 2 ^ 60 then 64 else 8

/-- A marked unit meets n bytes. -/
def unitMeets (u key n : Nat) : Bool := unitStart u < key + n && key < unitStart u + unitSize u

/-- First byte of the first marked unit that n bytes meet. -/
def badIn (bad : List Nat) (key n : Nat) : Option Nat := (bad.find? fun u => unitMeets u key n).map unitStart

/-- A byte of memory. [log 2 DESIGN CHOICE] -/
def State.byte (s : State) (key : Nat) : Byte := s.mem.read key

/-- n bytes of memory. -/
def State.bytes (s : State) (key n : Nat) : List Byte := s.mem.readBytes key n

/-- n bytes of memory as a number. -/
def State.num (s : State) (key n : Nat) : Nat := leNat (s.bytes key n)

/-- Writes bytes: a marked unit written whole loses its mark, one written in part keeps it (R188). -/
def State.poke (s : State) (key : Nat) (bs : List Byte) : State :=
  { s with
    mem := s.mem.writeBytes key bs
    bad := s.bad.filter fun u => !(key ≤ unitStart u && unitStart u + unitSize u ≤ key + bs.length) }

/-- Writes a list of cells, where of two cells with one address the earlier in the list stands. -/
def Memory.writeCells (m : Memory) : List Host.Cell → Memory
  | [] => m
  | (a, b) :: r => (writeCells m r).write a b

/-- Writes cells to memory; a marked unit all of whose bytes are written loses its mark (R188). -/
def State.pokeCells (s : State) (cs : List Host.Cell) : State :=
  { s with
    mem := s.mem.writeCells cs
    bad := s.bad.filter fun u => !(List.range (unitSize u)).all fun i => cs.any fun e => e.1 == unitStart u + i }

/-- The full/empty bit of the word at a key (R187). -/
def State.isFull (s : State) (key : Nat) : Bool := s.full.contains (key / 4 * 4)

/-- Sets or clears the full/empty bits of the words of a range (R187, R210). -/
def State.setFull (s : State) (key n : Nat) (v : Bool) : State :=
  { s with full := (wordsOf key n).foldl (fun l w => if v then insertNat l w else eraseNat l w) s.full }

end Sys2Proof.Machine
end

