-- ==== Sys2Proof/Machine/Ops.lean ====
section
/-! DEFINITION. Ops.lean: the named operations over the state: places and registers, stamps and records, taking a trap and
returning from one, chunks, parking and completing an instruction. -/

namespace Sys2Proof.Machine

/-! ### Places -/

namespace State

/-- A core; an unlisted core is as after reset, its cycle count that of the undivided clock (R358, R404). -/
def core (s : State) (c : Nat) : Core := s.cores.getD c { Core.reset with cycle := s.clock }
/-- Replaces a core. -/
def setCore (s : State) (c : Nat) (k : Core) : State := { s with cores := s.cores.set c k }
/-- Changes a core. -/
def modCore (s : State) (c : Nat) (f : Core → Core) : State := s.setCore c (f (s.core c))
/-- Changes what a partition switch saves of a core. -/
def modCtx (s : State) (c : Nat) (f : CoreCtx → CoreCtx) : State := s.modCore c fun k => { k with c := f k.c }
/-- A cluster. -/
def cluster (s : State) (n : Nat) : Cluster := s.clusters.getD n .reset
/-- Changes a cluster. -/
def modCluster (s : State) (n : Nat) (f : Cluster → Cluster) : State :=
  { s with clusters := s.clusters.set n (f (s.cluster n)) }
/-- A die. -/
def die (s : State) (d : Nat) : Die := s.dies.getD d .reset
/-- Changes a die. -/
def modDie (s : State) (d : Nat) (f : Die → Die) : State := { s with dies := s.dies.set d (f (s.die d)) }
/-- A partition, if it exists. -/
def part? (s : State) (p : Nat) : Option Part := s.parts.get? p
/-- Changes a partition, if it exists. -/
def modPart (s : State) (p : Nat) (f : Part → Part) : State :=
  match s.part? p with
  | some q => { s with parts := s.parts.set p (f q) }
  | none => s
/-- The partition that runs on a core. -/
def partOf (s : State) (c : Nat) : Option Part := (s.core c).part.bind s.part?

/-- A slot of a core. -/
def slot (s : State) (c : Nat) (k : SlotN) : Slot := (s.core c).c.slots[k]
/-- Replaces a slot. -/
def setSlot (s : State) (c : Nat) (k : SlotN) (v : Slot) : State :=
  s.modCtx c fun x => { x with slots := x.slots.set k v }

end State

/-- The thread in a slot. -/
def Slot.thread? : Slot → Option Thread
  | .thread t => some t
  | _ => none

/-- The slot holds nothing. -/
def Slot.isEmpty : Slot → Bool
  | .empty => true
  | _ => false

/-- The even slot of the pair for a pair's odd slot, else the slot itself (R58). -/
def State.home (s : State) (c : Nat) (k : SlotN) : SlotN :=
  match s.slot c k with
  | .odd => k - 1
  | _ => k

namespace State

/-- The thread that issues in a slot's turns. -/
def thread? (s : State) (c : Nat) (k : SlotN) : Option Thread := (s.slot c (s.home c k)).thread?
/-- The thread in a slot, where one is known to be. -/
def thr (s : State) (c : Nat) (k : SlotN) : Thread := ((s.slot c k).thread?).getD .reset
/-- Replaces the thread in a slot. -/
def setThr (s : State) (c : Nat) (k : SlotN) (t : Thread) : State := s.setSlot c k (.thread t)
/-- Changes the thread in a slot. -/
def modThr (s : State) (c : Nat) (k : SlotN) (f : Thread → Thread) : State := s.setThr c k (f (s.thr c k))

end State

/-- The reference of a thread of a core. -/
def Thread.ref (t : Thread) (c : Nat) : TRef := ⟨c, t.serial⟩

/-- Changes the thread of a slot if it has the serial. -/
def Slot.modSerial (f : Thread → Thread) (n : Nat) : Slot → Slot
  | .thread t => if t.serial = n then .thread (f t) else .thread t
  | x => x

/-- Changes the thread with the serial in a saved or running context. -/
def CoreCtx.modSerial (f : Thread → Thread) (n : Nat) (x : CoreCtx) : CoreCtx :=
  { x with slots := x.slots.map (Slot.modSerial f n) }

/-- Changes a thread wherever it stands: in a slot, SWAPPED, or in a partition switched out (R129, R387).
-/
def State.modRef (s : State) (r : TRef) (f : Thread → Thread) : State :=
  let s1 := s.modCore r.core fun k =>
    { k with
      c := k.c.modSerial f r.serial
      swapped := k.swapped.map fun w => if w.t.serial = r.serial then { w with t := f w.t } else w }
  { s1 with shadow := s1.shadow.map fun e => if e.2.1 = r.core then (e.1, e.2.1, e.2.2.modSerial f r.serial) else e }

/-- The matrix engine of a core. -/
def State.mx (s : State) (c : Nat) : Matrix := (s.core c).c.mx

/-- Changes the matrix engine of a core; an MGANG that comes to its head begins to wait at the wired barrier (R175). -/
def State.modMx (s : State) (c : Nat) (f : Matrix → Matrix) : State :=
  let old := (s.mx c).queue.head?
  let s1 := s.modCtx c fun x => { x with mx := f x.mx }
  match (s1.mx c).queue.head? with
  | some m =>
    match m.op with
    | .gang _ _ => if old = some m then s1 else s1.modRef m.by_ fun t => { t with parkedAt := (s.core c).cycle }
    | _ => s1
  | none => s1

/-- The thread latches edge events (R274). -/
def Thread.latch (t : Thread) (b : BitVec 8) : Thread := { t with evl := t.evl ||| b }

/-- Every thread of the partition on a core latches edge events, bound or SWAPPED (R51, R274). -/
def State.latch (s : State) (c : Nat) (b : BitVec 8) : State :=
  s.modCore c fun k =>
    { k with
      c := { k.c with slots := k.c.slots.map fun w => match w with
        | .thread t => .thread (t.latch b)
        | w => w }
      swapped := k.swapped.map fun w => if some w.part = k.part then { w with t := w.t.latch b } else w }

/-- The thread is SWAPPED from its core (R51). [log 93 DEDUCED] -/
def State.isSwapped (s : State) (r : TRef) : Bool := (s.core r.core).swapped.any fun w => w.t.serial == r.serial

/-- Changes every bound thread. -/
def State.mapThreads (s : State) (f : Thread → Thread) : State :=
  { s with cores := s.cores.map fun e => (e.1, { e.2 with c := { e.2.c with slots := e.2.c.slots.map fun w =>
      match w with
      | .thread t => .thread (f t)
      | w => w } }) }

/-- The slot of a core that holds the thread with a serial. -/
def Core.slotOf (k : Core) (n : Nat) : Option SlotN :=
  (List.finRange 8).find? fun i =>
    match k.c.slots[i] with
    | .thread t => t.serial == n
    | _ => false

/-- The slots of a context that hold a thread with a serial. -/
def CoreCtx.withSerial (x : CoreCtx) (n : Nat) : Option Thread :=
  (List.finRange 8).findSome? fun i => (x.slots[i]).thread?.filter fun t => t.serial == n

/-- The partition whose thread a reference names: that of its SWAPPED entry, that of the switched-out context which holds
it, or else the one on its core (R73, R387). -/
def State.partOfRef (s : State) (r : TRef) : Option Nat :=
  match (s.core r.core).swapped.find? fun w => w.t.serial == r.serial with
  | some w => some w.part
  | none =>
    match s.shadow.find? fun e => e.2.1 == r.core && (e.2.2.withSerial r.serial).isSome with
    | some e => some e.1
    | none => (s.core r.core).part

/-- The thread of a core with a serial: bound, SWAPPED, or in a partition switched out (R267, R387). -/
def State.findRef (s : State) (r : TRef) : Option Thread :=
  match (s.core r.core).c.withSerial r.serial with
  | some t => some t
  | none =>
    match (s.core r.core).swapped.find? fun w => w.t.serial == r.serial with
    | some w => some w.t
    | none => s.shadow.findSome? fun e => if e.2.1 = r.core then e.2.2.withSerial r.serial else none

/-- Every thread of a core with its slot. -/
def Core.threads (k : Core) : List (SlotN × Thread) :=
  (List.finRange 8).filterMap fun i => (k.c.slots[i]).thread?.map fun t => (i, t)

/-- The listed cores' threads. -/
def State.allThreads (s : State) : List (Nat × SlotN × Thread) :=
  s.cores.flatMap fun e => e.2.threads.map fun p => (e.1, p.1, p.2)

/-! ### Coordinates -/

/-- Die, row, column, cluster and core-in-cluster of a core (R12, R14). -/
def dieOf (c : Nat) : Nat := c / 512
/-- Row in the die. -/
def rowOf (c : Nat) : Nat := c / 16 % 32
/-- Column. -/
def colOf (c : Nat) : Nat := c % 16
/-- Cluster of the module. -/
def clusterOf (c : Nat) : Nat := c / 8
/-- Core-in-cluster. -/
def cicOf (c : Nat) : Nat := c % 8
/-- Columns 3, 7, 11 and 15 (R15). -/
def equipped (c : Nat) : Bool := c % 4 == 3

/-- `loc` of a slot (R23). -/
def State.loc (s : State) (c : Nat) (k : SlotN) : Word :=
  BitVec.ofNat 64 (s.domain.toNat * 2 ^ 18 + s.modnum * 2 ^ 15 + c * 2 ^ 3 + k)

/-- The core that a `loc` names, if it lies in this module (R23). -/
def State.coreOfLoc (s : State) (l : Nat) : Option Nat :=
  if l / 2 ^ 18 % 2 ^ 14 = s.domain.toNat ∧ l / 2 ^ 15 % 8 = s.modnum then some (l / 8 % 4096) else none

/-- The handle of a thread (R267). -/
def State.handle (s : State) (c : Nat) (k : SlotN) (t : Thread) : Word :=
  BitVec.ofNat 64 (t.serial % 2 ^ 16 * 2 ^ 32) ||| s.loc c k

/-- The core and serial a handle names, by LOC[31:3] and SERIAL; bit 63 marks an engine handle, which names no thread, and
the other reserved bits are ignored (R8, R10, R267, R380). -/
def State.refOf (s : State) (h : Word) : Option TRef :=
  if h.getLsbD 63 then none else (s.coreOfLoc (h.toNat % 2 ^ 32)).map fun c => ⟨c, h.toNat / 2 ^ 32 % 2 ^ 16⟩

/-- The serial held by some thread of the core: bound, SWAPPED or in a partition switched out. -/
def State.serialHeld (s : State) (c n : Nat) : Bool :=
  (s.core c).threads.any (fun p => p.2.serial == n) || (s.core c).swapped.any (fun w => w.t.serial == n) ||
  s.shadow.any fun e => e.2.1 == c && (List.finRange 8).any fun i =>
    match e.2.2.slots[i] with
    | .thread t => t.serial == n
    | _ => false

/-- The next serial a core gives: one more than the last, past 0 and serials held (R267). -/
def State.nextSerial (s : State) (c : Nat) : Nat :=
  let rec go : Nat → Nat → Nat
    | 0, n => n
    | f + 1, n => let m := if n = 65535 then 1 else n + 1
                  if s.serialHeld c m then go f m else m
  go (8 + (s.core c).swapped.length + 8 * s.shadow.length + 1) (s.core c).lastSerial

/-! ### Registers -/

/-- x0 reads 0 (R119). -/
def Arch.xr (a : Arch) (r : XReg) : Word := if r = 0 then 0 else a.x[r]
/-- Writes to x0 are discarded (R119). -/
def Arch.setX (a : Arch) (r : XReg) (v : Word) : Arch := if r = 0 then a else { a with x := a.x.set r v }
/-- A predicate; p0 reads 1 (R119). -/
def Arch.p (a : Arch) (r : PReg) : Bool := r == 0 || a.pw.getLsbD r
/-- Writes one predicate; a write to p0 is discarded (R119). -/
def Arch.setP (a : Arch) (r : PReg) (v : Bool) : Arch :=
  if r = 0 then a else
  { a with pw := if v then a.pw ||| BitVec.ofNat 32 (2 ^ r.val) else a.pw &&& ~~~(BitVec.ofNat 32 (2 ^ r.val)) }
/-- Writes a v register of the even or the odd slot. -/
def Arch.setV (a : Arch) (odd : Bool) (r : VNum) (v : VReg) : Arch :=
  if odd then { a with vOdd := a.vOdd.set r v } else { a with v := a.v.set r v }
/-- Writes a mask register. -/
def Arch.setK (a : Arch) (r : KReg) (v : Word) : Arch := { a with k := a.k.set r v }

/-- Bits [lo+len-1:lo] of a value. -/
def bits (w lo len : Nat) : Nat := w / 2 ^ lo % 2 ^ len

namespace UserCsrs
/-- VL, MIDX, MEN, DTYPE, RM and LEND of `vctl` (R120). -/
def vl (u : UserCsrs) : Nat := bits u.vctl.toNat 0 7
/-- Rounding mode field. -/
def rm (u : UserCsrs) : Nat := bits u.vctl.toNat 16 2
/-- COUNT, LEN of `repcnt` and start of `repbody` (R120). -/
def count (u : UserCsrs) : Nat := bits u.repcnt.toNat 0 32
/-- Body length. -/
def replen (u : UserCsrs) : Nat := bits u.repcnt.toNat 32 16
/-- LIMIT of `qlimit`. -/
def limit (u : UserCsrs) : Nat := bits u.qlimit.toNat 0 32
/-- Sets COUNT. -/
def setCount (u : UserCsrs) (n : Nat) : UserCsrs :=
  { u with repcnt := BitVec.ofNat 64 (u.replen * 2 ^ 32 + n % 2 ^ 32) }
end UserCsrs

/-- Mapping of x28 + i: 8 bits of `qmap` (R120). -/
def Arch.mapByte (a : Arch) (i : Nat) : Nat := bits a.csr.qmap.toNat (8 * i) 8

/-- The mapped register is mapped: bit 7 of its field (R120). -/
def Arch.mapped (a : Arch) (r : XReg) : Bool := 28 ≤ r.val && a.mapByte (r.val - 28) / 128 == 1

/-- The queue handle of a mapped register on a core (R57, R257). -/
def Arch.mapHandle (a : Arch) (c : Nat) (r : XReg) : Word :=
  let m := a.mapByte (r.val - 28)
  BitVec.ofNat 64 (if m / 64 % 2 = 0 then cicOf c * 2 ^ 8 + m % 64 else 2 ^ 6 + m % 64)

/-- The thread holds a value that the instruction at its pc popped for a mapped register (R417). [log 115 DEDUCED] -/
def Thread.holds (t : Thread) (r : XReg) : Bool := t.heldPc == t.a.pc && (t.held[r.val % 4]).isSome

/-- Holds a popped value with the thread; values that an instruction at another address popped give way (R417). [log 115
DEDUCED] -/
def Thread.hold (t : Thread) (r : XReg) (v : Word) : Thread :=
  let old := if t.heldPc = t.a.pc then t.held else Vector.replicate 4 none
  { t with held := old.set (r.val % 4) (some v) (Nat.mod_lt _ (by decide)), heldPc := t.a.pc }

/-- A source register of an instruction: a mapped one reads the value popped for it (R57, R417). -/
def Thread.xv (t : Thread) (r : XReg) : Word :=
  if 28 ≤ r.val && t.a.mapped r then (t.held[r.val % 4]).getD 0 else t.a.xr r

/-! ### CSRs -/

/-- `vctl` as a write stores it (R120). -/
def vctlField (paired : Bool) (v : Word) : Word :=
  let n := v.toNat
  let vl := min (bits n 0 7) (if paired then 64 else 32)
  let dt := bits n 12 3
  BitVec.ofNat 64 (vl + bits n 8 4 * 2 ^ 8 + (if dt = 7 then 0 else dt) * 2 ^ 12 + bits n 16 3 * 2 ^ 16)

/-- `qmap` as a write stores it: a local index above 7 is stored with EN = 0 (R120). -/
def qmapField (v : Word) : Word :=
  let f (i : Nat) : Nat :=
    let m := bits v.toNat (8 * i) 8
    (if m / 64 % 2 = 0 ∧ 8 ≤ m % 64 then m % 128 else m) * 2 ^ (8 * i)
  BitVec.ofNat 64 (f 0 + f 1 + f 2 + f 3)

/-- A CSR field table's store of a value into the user CSRs (R120); reserved bits read zero (R8). -/
def UserCsrs.write (u : UserCsrs) (paired : Bool) (n : Nat) (v : Word) : UserCsrs :=
  match n with
  | 0x800 => { u with vctl := vctlField paired v }
  | 0x801 => { u with vstat := BitVec.ofNat 64 (bits v.toNat 0 5) }
  | 0x802 => { u with qmap := qmapField v }
  | 0x803 => { u with qlimit := BitVec.ofNat 64 (bits v.toNat 0 32) }
  | 0x804 => { u with fmtsh := BitVec.ofNat 64 (bits v.toNat 0 16) }
  | 0x805 => { u with scalea := v }
  | 0x806 => { u with scaleb := v }
  | 0x807 => { u with repcnt := BitVec.ofNat 64 (bits v.toNat 0 48) }
  | 0x808 => { u with repbody := BitVec.ofNat 64 (v.toNat / 4 * 4) }
  | 0x809 => { u with evmask := BitVec.ofNat 64 (bits v.toNat 0 8) }
  | _ => u

/-- A user CSR by number, VBUSY included (R120). [log 101 DEDUCED] -/
def Thread.userCsr (t : Thread) (n : Nat) : Word :=
  match n with
  | 0x800 => t.a.csr.vctl
  | 0x801 => if t.vq.isEmpty then t.a.csr.vstat else t.a.csr.vstat ||| 256
  | 0x802 => t.a.csr.qmap
  | 0x803 => t.a.csr.qlimit
  | 0x804 => t.a.csr.fmtsh
  | 0x805 => t.a.csr.scalea
  | 0x806 => t.a.csr.scaleb
  | 0x807 => t.a.csr.repcnt
  | 0x808 => t.a.csr.repbody
  | 0x809 => t.a.csr.evmask
  | _ => 0

/-- `chunkstat` (R122). -/
def Thread.chunkstat (t : Thread) : Word :=
  let op := match t.chunk with
    | some c => 2 ^ 63 + c.undo.length * 2 ^ 57 + c.insns * 2 ^ 48
    | none => 0
  BitVec.ofNat 64 (op + t.cc.solo % 2 ^ 16 * 2 ^ 32 + t.cc.squash % 2 ^ 16 * 2 ^ 16 + t.cc.commit % 2 ^ 16)

/-- `migr` (R122). -/
def Thread.migrCsr (t : Thread) : Word :=
  BitVec.ofNat 64 (t.migr.origin.toNat * 2 ^ 32 + t.migr.hops % 2 ^ 16 * 2 ^ 16 + t.migr.spawned.toNat * 2 ^ 9 +
    t.migr.migrant.toNat * 2 ^ 8 + t.migr.out % 2 ^ 8)

/-- A read-only CSR of a thread (R122). -/
def State.roCsr (s : State) (c : Nat) (k : SlotN) (t : Thread) (n : Nat) : Word :=
  match n with
  | 0xCC0 => s.loc c k
  | 0xCC1 => BitVec.ofNat 64 (t.psc0 % 2 ^ 16)
  | 0xCC2 => BitVec.ofNat 64 (t.psc1 % 2 ^ 16)
  | 0xCC3 => BitVec.ofNat 64 (t.psc2 % 2 ^ 16)
  | 0xCC4 => t.chunkstat
  | 0xCC6 => t.migrCsr
  | _ => 0

/-- `lockstat` (R124). [log 113 DESIGN CHOICE] -/
def State.lockstat (s : State) (c : Nat) : Word :=
  match (s.core c).c.lock with
  | none => 0
  | some l =>
    let parked (t : Thread) : Bool :=
      match t.st, t.wait with
      | .parked, .lock _ _ => true
      | .parked, .cond (.range c' _ _) => c' == c
      | _, _ => false
    let ws := ((s.core c).threads.filter fun p => parked p.2).foldl (fun n p => n + 2 ^ p.1.val) 0
    BitVec.ofNat 64 (l.len * 2 ^ 32 + ws * 2 ^ 24 + l.holder * 2 ^ 20 + 2 ^ 19 + l.base)

/-- A supervisor CSR (R124). [log 118 DESIGN CHOICE] -/
def State.supCsr (s : State) (c : Nat) (n : Nat) : Word :=
  let k := s.core c
  match n with
  | 0x5C0 => k.c.trqbase
  | 0x5C1 => k.c.supctl
  | 0x5C2 => BitVec.ofNat 64 (min k.swapped.length 63 * 2 ^ 8 + k.removed.toNat)
  | 0x5C3 => s.lockstat c
  | _ => 0

/-- A CSR as an instruction of a thread reads it (R120 to R124). -/
def State.readCsr (s : State) (c : Nat) (k : SlotN) (n : Nat) : Word :=
  let t := s.thr c k
  if n = 0xC00 then BitVec.ofNat 64 (s.core c).cycle
  else if n = 0xC02 then BitVec.ofNat 64 (t.instret - t.counted.toNat)
  else if 0xCC0 ≤ n then s.roCsr c k t n
  else if 0x800 ≤ n then t.userCsr n
  else s.supCsr c n

/-- `supctl` fields (R124). -/
def Core.supBit (k : Core) (i : Nat) : Bool := k.c.supctl.getLsbD i
/-- BARTO. -/
def Core.barto (k : Core) : Nat := k.c.supctl.toNat / 2 ^ 32

/-! ### Stamps -/

/-- Module time in rots (R355, R356). -/
def State.rot (s : State) : Nat := (s.clock / 8 + s.timeBase) % 2 ^ 48

/-- A source may draw a stamp in a rot: at most 8, and a wrap only in a rot later than its last (R356). -/
def StampSrc.ready (x : StampSrc) (rot : Nat) : Bool :=
  x.rot ≤ rot && !(x.rot == rot && (8 ≤ x.drawn || (x.seq == 0 && 0 < x.drawn)))

/-- The stamp a source draws in a rot, and the source after it (R356). -/
def StampSrc.draw (x : StampSrc) (rot : Nat) : Word × StampSrc :=
  (BitVec.ofNat 64 (rot * 2 ^ 16 + x.seq),
   ⟨(x.seq + 1) % 2 ^ 16, rot, if x.rot = rot then x.drawn + 1 else 1⟩)

/-- The stamp source of a unit code, for a core of it: 1 copy and 2 Tongs of its cluster, 3 its traversal unit, 4 the banks
and 5 the router of its die, 7 its dispatcher, 0 the core (R357). [log 39 DEDUCED] -/
def State.source (s : State) (c unit : Nat) : StampSrc :=
  match unit with
  | 1 => (s.cluster (clusterOf c)).copyStamps
  | 2 => (s.cluster (clusterOf c)).tongsStamps
  | 3 => (s.core c).tvStamps
  | 4 => (s.die (dieOf c)).bankStamps
  | 5 => (s.die (dieOf c)).routerStamps
  | 6 => s.mgmt.stamps
  | 7 => (s.die (dieOf c)).dispStamps
  | _ => (s.core c).stamps

/-- Replaces the stamp source of a unit code. -/
def State.setSource (s : State) (c unit : Nat) (x : StampSrc) : State :=
  match unit with
  | 1 => s.modCluster (clusterOf c) fun k => { k with copyStamps := x }
  | 2 => s.modCluster (clusterOf c) fun k => { k with tongsStamps := x }
  | 3 => s.modCore c fun k => { k with tvStamps := x }
  | 4 => s.modDie (dieOf c) fun k => { k with bankStamps := x }
  | 5 => s.modDie (dieOf c) fun k => { k with routerStamps := x }
  | 6 => { s with mgmt := { s.mgmt with stamps := x } }
  | 7 => s.modDie (dieOf c) fun k => { k with dispStamps := x }
  | _ => s.modCore c fun k => { k with stamps := x }

/-- The core by whose `loc` the source of a unit code of a core goes: copy and Tongs are units of its cluster, banks, router
and dispatcher of its die, the management complex of the module (R357). -/
def homeOf (c unit : Nat) : Nat :=
  match unit with
  | 1 => c / 8 * 8
  | 2 => c / 8 * 8
  | 4 => c / 512 * 512
  | 5 => c / 512 * 512
  | 6 => 0
  | 7 => c / 512 * 512
  | _ => c

/-- The first record that a source holds for its stamp (R356). -/
def State.heldStamp (s : State) (c unit : Nat) : Option Unstamped :=
  s.unstamped.find? fun e => e.core == homeOf c unit && e.unit == unit

/-- A source may draw a stamp now: it holds no record, and its rot has one left (R356). [log 40 DEDUCED] -/
def State.mayStamp (s : State) (c unit : Nat) : Bool := (s.heldStamp c unit).isNone && (s.source c unit).ready s.rot

/-- A source holds a record for the stamp of a later rot (R356). [log 40 DEDUCED] -/
def State.holdRec (s : State) (c unit : Nat) (w : HeldRec) : State :=
  { s with unstamped := s.unstamped ++ [⟨homeOf c unit, unit, w⟩] }

/-- Unit code of the source code of a record (R357, R374). -/
def unitOfSource (source : Nat) : Nat :=
  match source with
  | 2 => 1
  | 3 => 2
  | 4 => 3
  | 5 => 4
  | 8 => 7
  | _ => 0

/-! ### Trap records -/

/-- The 64 bytes of a record (R374). -/
def TrapRec.bytes (r : TrapRec) : List Byte :=
  leBytes 8 r.stamp.toNat ++
  leBytes 8 (r.flags.toNat * 2 ^ 48 + r.source.toNat * 2 ^ 40 + r.cause.toNat * 2 ^ 32 + r.loc.toNat) ++
  leBytes 8 r.trpc.toNat ++ leBytes 8 r.trval.toNat ++ leBytes 8 r.trval2.toNat ++ leBytes 8 r.trval3.toNat ++
  leBytes 8 (r.role.toNat * 2 ^ 32 + r.word.toNat) ++ leBytes 8 r.handle.toNat

/-- First scratchpad byte and size of the share of the partition on a core (R186). -/
def State.share (s : State) (c : Nat) : Nat × Nat :=
  match s.partOf c with
  | some p => (p.cfg.spadBase, p.cfg.spadBytes)
  | none => (0, 0)

/-- A record of an engine or unit: it names no thread's instruction, and is no deferred trap of a thread (R372, R374, R379).
-/
def TrapRec.ofEngine (r : TrapRec) : Bool := !r.flags.getLsbD 1 && r.trpc == 0 && r.word == 0

/-- The source ID of a record: `loc`[31:3] × 8 plus the unit code; a record of a thread, whatever source its cause names, is
its core's (R357, R372). -/
def TrapRec.sourceId (r : TrapRec) : Nat :=
  r.loc.toNat / 8 * 8 + if r.ofEngine then unitOfSource r.source.toNat else 0

/-- A record is ordered before another, or has its place: by stamp, then by source ID (R357). -/
def TrapRec.before (a b : TrapRec) : Bool :=
  a.stamp.toNat < b.stamp.toNat || a.stamp == b.stamp && a.sourceId ≤ b.sourceId

/-- Puts a record into a list in the order of R357. [log 39 DEDUCED] -/
def insertRec (r : TrapRec) : List TrapRec → List TrapRec
  | [] => [r]
  | x :: xs => if x.before r then x :: insertRec r xs else r :: x :: xs

/-- Puts a record into the trap queue in stamp order, with its copy at `trqbase`; those of later stamps move up one number
with their copies (R124, R357, R375). -/
def State.enterRec (s : State) (c : Nat) (r : TrapRec) : State :=
  let x := (s.core c).c
  let q := insertRec r x.trapQ
  let s1 := s.modCtx c fun x => { x with trapQ := q, trapSeq := (x.trapSeq + 1) % 2 ^ 16 }
  let base := x.trqbase.toNat / 2 ^ 10 * 2 ^ 10
  let win := 0xFFFFFFFE00000000
  let (lo, n) := s.share c
  let first := (q.takeWhile fun e => e != r).length
  if base ≠ 0 ∧ win ≤ base ∧ base + 1024 ≤ win + n then
    ((q.zipIdx).drop first).foldl (fun s e =>
      s.poke (spadKey c (lo + (base - win) + 64 * ((x.trapSeq + 2 ^ 16 - x.trapQ.length + e.2) % 16))) e.1.bytes) s1
  else s1

/-- Queues a stamped record, or holds it at its source with HELD set while the queue is full (R375). -/
def State.queueRec (s : State) (c : Nat) (r : TrapRec) : State :=
  let x := (s.core c).c
  if x.trapQ.length < 16 ∧ x.heldRecs = [] then s.enterRec c r
  else s.modCtx c fun x => { x with heldRecs := insertRec { r with flags := r.flags ||| 4 } x.heldRecs }

/-- Delivers a stamped record: to the core's trap queue, or for slot 0 to the system image (R375, R376). -/
def State.sendRec (s : State) (c : Nat) (image : Bool) (r : TrapRec) : State :=
  if image then
    match (s.core c).part with
    | some q => s.modPart q fun y => { y with mgmtTraps := y.mgmtTraps ++ [r] }
    | none => s
  else s.queueRec c r

/-- Stamps a record for core c with the source of a unit of core d and delivers it; one past the eighth of a rot waits for
its stamp (R356). -/
def State.stampAt (s : State) (c d unit : Nat) (image : Bool) (r : TrapRec) : State :=
  if s.mayStamp d unit then
    let (v, x) := (s.source d unit).draw s.rot
    (s.setSource d unit x).sendRec c image { r with stamp := v }
  else s.holdRec d unit (.trap c image r)

/-- Stamps a record of a core with a source of its own and delivers it (R356). -/
def State.stampRec (s : State) (c unit : Nat) (image : Bool) (r : TrapRec) : State :=
  s.stampAt c c unit image r

/-- The core by whose `loc` the unit of a source code goes, for the engines of a core's cluster or die (R357, R374). [log 60
DEDUCED] -/
def unitCore (c source : Nat) : Nat :=
  match source with
  | 2 => c / 8 * 8
  | 3 => c / 8 * 8
  | 5 => c / 512 * 512
  | 8 => c / 512 * 512
  | _ => c

/-- A record for core c of a unit of core d, which names no instruction (R374, R379). [log 39 DEDUCED; 60 DEDUCED] -/
def State.unitRec (s : State) (c d : Nat) (cause source : Nat) (trval trval2 trval3 handle : Word) : State :=
  s.stampAt c d (unitOfSource source) false
    { stamp := 0, flags := 0, source := BitVec.ofNat 8 source, cause := BitVec.ofNat 8 cause,
      loc := (s.loc (unitCore d source) 0).setWidth 32, trpc := 0, trval := trval, trval2 := trval2, trval3 := trval3, role := 0,
      word := 0, handle := handle }

/-- A record of an engine of a core, for that core. [log 39 DEDUCED; 60 DEDUCED] -/
def State.engineRec (s : State) (c : Nat) (cause source : Nat) (trval trval2 trval3 handle : Word) : State :=
  s.unitRec c c cause source trval trval2 trval3 handle

/-! ### Registrations and locks -/

/-- The lock of a core is released when a slot holds it; the waiting claimant next in slot order from the former holder
onward takes it, and its LOCKR completes (R214, R215). -/
def State.releaseLock (s : State) (c : Nat) (k : SlotN) : State :=
  match (s.core c).c.lock with
  | none => s
  | some l =>
    if l.holder ≠ k then s else
    let claim (i : SlotN) : Option (SlotN × Nat × Nat) :=
      match (s.slot c i).thread? with
      | some t =>
        match t.st, t.wait with
        | .parked, .lock b n => some (i, b, n)
        | _, _ => none
      | none => none
    match ((List.finRange 8).map fun i => k + 1 + i).findSome? claim with
    | none => s.modCtx c fun x => { x with lock := none }
    | some (i, b, n) =>
      (s.modCtx c fun x => { x with lock := some ⟨i, b, n⟩ }).modThr c i fun t =>
        { t with wait := .reply (s.core c).cycle true {} }

/-! ### Chunks -/

/-- Two lists of lines share a signature bit (R241, R242). [log 82 DESIGN CHOICE; 92 DEDUCED] -/
def linesMeet (xs ys : List Nat) : Bool :=
  xs.any fun a => ys.any fun b => a == b || Config.sigBit a == Config.sigBit b

/-- Chunk limit in instructions that the code and the mode table give (R216, R326). -/
def chunkLimit (clen : Nat) (clim : Fin 4) : Nat :=
  let m := match clen with | 1 => 96 | 2 => 192 | _ => 384
  match clim with
  | 0 => m
  | 1 => min m 96
  | 2 => min m 192
  | 3 => min m 384

/-- Adds a line to a list of lines once. -/
def addLine (ls : List Nat) (l : Nat) : List Nat := if l ∈ ls then ls else l :: ls

/-- Home die of a line (R189). -/
def homeDie (pa : Nat) : Nat := if pa < 2 ^ 44 then pa / 2 ^ 36 % 16 / 2 else pa / 2 ^ 16 % 8
/-- Home slice of a line within its die (R189). -/
def homeSlice (pa : Nat) : Nat := (pa / 64 % 64) ^^^ (pa / 4096 % 64)

/-- Counts an access of a cluster to a line at its owner; one that comes while the line is to move is served after the move
(R197). [log 99 DEDUCED] -/
def State.noteLine (s : State) (cl line : Nat) : State :=
  let d := homeDie (line * 64)
  match s.partOf (cl * 8) with
  | none => s
  | some p =>
    if cl / 64 ≠ d ∨ !p.mode.l2mig then s else
    let x := s.die d
    let owner := ((x.moved.find? fun e => e.1 == line).map (·.2.1)).getD (d * 64 + homeSlice (line * 64))
    let rest := x.runs.filter fun e => e.1 != line
    let run := x.runs.find? fun e => e.1 == line
    let same := run.filter fun e => e.2.1 == cl && e.2.2.1 == p.cfg.part
    if (run.map fun e => e.2.2.2).getD 0 = 4 then s
    else s.modDie d fun x =>
      { x with runs := if cl = owner then rest else (line, cl, p.cfg.part, (same.map fun e => e.2.2.2).getD 0 + 1) :: rest }

/-- Enters lines in the arbiters' record (R242). -/
def State.record (s : State) (lines : List Nat) : State :=
  if lines = [] then s
  else { s with commitSeq := s.commitSeq + 1, records := (s.commitSeq + 1, lines) :: s.records }

/-- The solo chunk of a thread: its open chunk, or the closed one that awaits judgement (R245). -/
def Thread.soloChunk (t : Thread) : Option Chunk := ((t.closed.toList ++ t.chunk.toList).find? fun ch => ch.solo)

/-- The lines of the solo chunk that holds the commit token, if any (R245). -/
def State.soloLines (s : State) : Option (TRef × List Nat) :=
  match s.token with
  | none => none
  | some r => ((s.findRef r).bind Thread.soloChunk).map fun ch => (r, ch.reads ++ ch.writes)

/-- The arbiters squash a chunk: a later record meets its signatures, or its writes meet the solo chunk (R242, R245). [log
92 DEDUCED] -/
def State.mustSquash (s : State) (r : TRef) (ch : Chunk) : Bool :=
  !ch.solo &&
  (s.records.any (fun e => ch.openSeq < e.1 && linesMeet (ch.reads ++ ch.writes) e.2) ||
    match s.soloLines with
    | some (r', ls) => r' != r && linesMeet ch.writes ls
    | none => false)

/-- Adds to the event counters of a core that select an event (R358). -/
def Core.countEv (x : Core) (ev : Nat) : Core :=
  { x with evCnt := Vector.ofFn fun i => if (x.evSel[i]).toNat = ev then x.evCnt[i] + 1 else x.evCnt[i] }

/-- Releases the commit token if the thread holds it (R245). [log 90 DEDUCED] -/
def State.dropToken (s : State) (r : TRef) : State :=
  { s with token := if s.token = some r then none else s.token, tokenQ := s.tokenQ.filter fun q => q != r }

/-- A thread's stores to scene-shared lines whose invalidations are outstanding come to wait for them (R255). -/
def State.shStored (s : State) (r : TRef) (lines : List Nat) : State :=
  { s with shUnacked := s.shUnacked.map fun e => if lines.contains e.1 ∧ !e.2.contains r then (e.1, r :: e.2) else e }

/-- Accepts a chunk, whose scene-shared lines the module owns: its buffered stores are performed as one step and enter
commit order (R199, R242, R255). -/
def State.accept (s : State) (c : Nat) (k : SlotN) (ch : Chunk) : State :=
  let s0 := ((s.pokeCells ch.buf).record ch.writes).shStored ((s.thr c k).ref c) ch.writes
  let s1 := ch.writes.foldl (fun s l => s.noteLine (clusterOf c) l) s0
  let s2 := if ch.solo then s1.dropToken ((s.thr c k).ref c) else s1
  (s2.modCore c fun x => x.countEv 6).modThr c k fun t =>
    { t with
      cc := { t.cc with commit := t.cc.commit + 1, solo := if ch.solo then t.cc.solo + 1 else t.cc.solo }
      squashRun := if t.squashPc = ch.start.pc then 0 else t.squashRun }

/-- Squashes a chunk and any later one of the thread: registers restored, undo log written back, strips of the chunk
discarded; the thread re-executes from the chunk's first instruction (R154, R244). [log 111 DESIGN CHOICE; 112 DESIGN
CHOICE] -/
def State.squash (s : State) (c : Nat) (k : SlotN) (ch : Chunk) : State :=
  let t := s.thr c k
  let late := match t.closed, t.chunk with
    | some cl, some op => if cl.no = ch.no then op.undo.flatten else []
    | _, _ => []
  let old := ch.undo.flatten.reverse ++ late.reverse
  let s1 := s.pokeCells old
  let s2 := { s1.dropToken (t.ref c) with s2waits := s1.s2waits.filter fun w => w.who != t.ref c }
  (s2.modCore c fun x => x.countEv 7).modThr c k fun t =>
    { t with
      a := ch.start, held := ch.startHeld, chunk := none, closed := none, redo := false, counted := false
      st := (match t.st with | .stopped => .stopped | _ => .runnable), wait := .none
      vq := t.vq.filter fun p => p.no < ch.no
      cc := { t.cc with squash := t.cc.squash + 1 }
      squashPc := ch.start.pc
      squashRun := if t.squashPc = ch.start.pc ∧ t.squashRun ≠ 0 then t.squashRun + 1 else 1 }

/-- Judges the closed chunk that awaits judgement: the state after, and whether it was accepted (R242). [log 92 DEDUCED] -/
def State.judgeClosed (s : State) (c : Nat) (k : SlotN) : State × Bool :=
  let t := s.thr c k
  match t.closed with
  | none => (s, true)
  | some ch =>
    if s.mustSquash (t.ref c) ch then (s.squash c k ch, false)
    else ((s.accept c k ch).modThr c k fun t => { t with closed := none }, true)

/-- Closes and commits the thread's chunks: the state after, and whether every one was accepted; a squash has restored
the thread (R240, R242, R244). -/
def State.commit (s : State) (c : Nat) (k : SlotN) : State × Bool :=
  match s.judgeClosed c k with
  | (s1, false) => (s1, false)
  | (s1, true) =>
    let t := s1.thr c k
    match t.chunk with
    | none => (s1, true)
    | some ch =>
      if s1.mustSquash (t.ref c) ch then (s1.squash c k ch, false)
      else ((s1.accept c k ch).modThr c k fun t => { t with chunk := none }, true)

/-! ### Instructions that may stop -/

/-- The outcome of part of an instruction: it goes on with a value, or the instruction is over for this turn, because
the thread has trapped, parked, been squashed or left its slot. -/
inductive Got (α : Type) where
  | ok (s : State) (v : α)
  | stop (s : State)

/-- Goes on with the next part. -/
def Got.bind {α β : Type} (g : Got α) (f : State → α → Got β) : Got β :=
  match g with
  | .ok s v => f s v
  | .stop s => .stop s

/-- Parks the thread on a condition; nothing has been performed (R49). [log 7 DEDUCED] -/
def State.park (s : State) (c : Nat) (k : SlotN) (w : Wait) : State :=
  s.modThr c k fun t => { t with st := .parked, wait := w, parkedAt := (s.core c).cycle, word := s.curWord }

/-- Parks on a condition that does not hold. -/
def waitFor (s : State) (c : Nat) (k : SlotN) (w : Cond) (holds : Bool) : Got Unit :=
  if holds then .ok s () else .stop (s.park c k (.cond w))

/-- A vector store. -/
def isVstore (i : Instr) : Bool :=
  match i with
  | .vst _ _ _ => true
  | .vsts _ _ _ _ => true
  | .vscat _ _ _ _ => true
  | .vstl _ _ _ => true
  | _ => false

/-- The strip stores to memory. -/
def Strip.isStore (p : Strip) : Bool := isVstore p.instr

/-- A store of the thread's chunks cannot commit yet: a vector store is issued and not yet performed, or the module does not
own a scene-shared line (R240, R255). [log 8 DEDUCED] -/
def Thread.storesPending (t : Thread) : Bool :=
  (t.vq.any fun p => p.done.isNone && p.isStore) ||
  [t.chunk, t.closed].any fun ch => match ch with
    | some ch => ch.shared != []
    | none => false

/-- The stores of one chunk are performed and its scene-shared lines owned, so that it can be judged (R242, R255). -/
def Thread.judgeable (t : Thread) (ch : Chunk) : Bool :=
  !(t.vq.any fun p => p.done.isNone && p.isStore && p.no == ch.no) && ch.shared == []

/-- The open chunk may close without holding the thread: the earlier closed one can be judged (R242). -/
def Thread.closable (t : Thread) : Bool :=
  match t.closed with
  | some ch => t.judgeable ch
  | none => true

/-- Closes and commits the chunk before an instruction (R240), its vector stores performed. [log 8 DEDUCED] -/
def commitFirst (s : State) (c : Nat) (k : SlotN) : Got Unit :=
  if (s.thr c k).storesPending then .stop (s.park c k (.cond .stores)) else
  match s.commit c k with
  | (s1, true) => .ok s1 ()
  | (s1, false) => .stop s1

/-! ### Taking a trap and returning from one -/

/-- What a trap carries (R373, R374). -/
structure Trap where
  cause : Nat
  val : Word := 0
  val2 : Word := 0
  val3 : Word := 0
  source : Nat := 0
  flags : BitVec 16 := 0
  /-- The word at trpc: false when its fetch failed. -/
  hasWord : Bool := true
  /-- The instruction at trpc had issued. -/
  issued : Bool := true
  deriving DecidableEq, Repr

/-- VL above 32 is reduced to 32 (R59). -/
def clampVl (u : UserCsrs) : UserCsrs :=
  if 32 < u.vl then { u with vctl := BitVec.ofNat 64 (u.vctl.toNat / 128 * 128 + 32) } else u

/-- The odd half of a pair that splits: a thread of its own with a new serial, counters of posted operations 0 (R59, R129,
R267). [log 110 DESIGN CHOICE; 133 DESIGN CHOICE] -/
def oddHalf (t : Thread) (serial : Nat) : Thread :=
  { t with
    serial := serial, paired := false, psc0 := 0, psc1 := 0, psc2 := 0, migr := { t.migr with out := 0 }
    a := { t.a with v := t.a.vOdd, vOdd := Vector.replicate 32 0, csr := clampVl t.a.csr }
    vq := (t.vq.filter (·.odd)).map fun p => { p with odd := false }
    chunk := none, closed := none, deferred := [], redo := false, snap := none, regs := t.regsOdd, regsOdd := []
    block := none, dirty := t.vimg, owed := none }

/-- The even half of a pair that splits (R59). [log 110 DESIGN CHOICE] -/
def evenHalf (t : Thread) : Thread :=
  { t with
    paired := false
    a := { t.a with vOdd := Vector.replicate 32 0, csr := clampVl t.a.csr }
    vq := t.vq.filter fun p => !p.odd
    regsOdd := [] }

/-- Splits the pair in an even slot; an unpaired thread is left as it is (R59). -/
def State.split (s : State) (c : Nat) (k : SlotN) : State :=
  let t := s.thr c k
  if t.paired then
    let n := s.nextSerial c
    (((s.setThr c k (evenHalf t)).setThr c (k + 1) (oddHalf t n))).modCore c fun x => { x with lastSerial := n }
  else s

/-- The instruction at the pc counts as issued, once (R123). [log 112 DESIGN CHOICE] -/
def Thread.count (t : Thread) : Thread :=
  if t.counted then t else { t with instret := t.instret + 1, counted := true }

/-- A wait of an instruction that has issued, and not one before the next. -/
def Wait.issued (w : Wait) : Bool :=
  match w with
  | .none => false
  | .cond (.fetch _) => false
  | .cond .refetch => false
  | .cond .limit => false
  | .cond (.resume _) => false
  | _ => true

/-- An instruction that waits counts as issued as its wait is withdrawn (R123). [log 112 DESIGN CHOICE] -/
def Thread.countWait (t : Thread) : Thread := if t.st == .parked && t.wait.issued then t.count else t

/-- The thread becomes TRAPPED with its four trap registers written in one step, an instruction that issued counted (R123,
R125, R371). -/
def Thread.trapped (t : Thread) (p : Trap) (paired : Bool) : Thread :=
  { (if p.issued && p.hasWord then t.count else t) with
    st := .trapped, wait := .none, redo := false
    tr := ⟨BitVec.ofNat 64 (p.cause % 256 + p.source % 256 * 2 ^ 8 + paired.toNat * 2 ^ 16), p.val, t.a.pc, p.val2⟩ }

/-- Takes a trap of the thread in a slot, its chunk already committed: a pair splits with both halves TRAPPED, and one
record is queued for the even slot; a trap of slot 0 goes to the system image (R59, R125, R371, R375, R376). -/
def State.trapNow (s : State) (c : Nat) (k : SlotN) (p : Trap) : State :=
  let t := s.thr c k
  let pr := t.paired
  let s1 := s.split c k
  let s2 := s1.modThr c k fun t => t.trapped p pr
  let s3 := if pr then s2.modThr c (k + 1) fun t => t.trapped p pr else s2
  let r : TrapRec :=
    { stamp := 0, flags := p.flags ||| (if pr then 1 else 0), source := BitVec.ofNat 8 p.source,
      cause := BitVec.ofNat 8 p.cause, loc := (s.loc c k).setWidth 32, trpc := t.a.pc, trval := p.val,
      trval2 := p.val2, trval3 := p.val3, role := BitVec.ofNat 4 t.role,
      word := if p.hasWord then s.curWord else 0, handle := s.handle c k t }
  s3.stampRec c 0 (k == 0) r

/-- Takes a trap of an instruction: the chunk closes and commits first; a squash restores the thread and takes no
trap (R240, R371). -/
def State.takeTrap (s : State) (c : Nat) (k : SlotN) (p : Trap) : State :=
  match s.commit c k with
  | (s1, true) => s1.trapNow c k p
  | (s1, false) => s1

/-- The thread may take a trap: its vector stores are performed, and a pair that is to split has no strips (R154). [log 8
DEDUCED] -/
def Thread.trapReady (t : Thread) : Bool := !t.storesPending && (!t.paired || t.vq == [])

/-- The instruction traps, once strips issued earlier allow it. -/
def trap {α : Type} (s : State) (c : Nat) (k : SlotN) (p : Trap) : Got α :=
  if (s.thr c k).trapReady then .stop (s.takeTrap c k p)
  else .stop (s.park c k (.cond (if (s.thr c k).paired then .strips else .stores)))

/-- Illegal instruction: cause 2 with the word, and the value its entry names (R118, R373). -/
def illegal {α : Type} (s : State) (c : Nat) (k : SlotN) (val2 : Word := 0) : Got α :=
  trap s c k { cause := 2, val := s.curWord.setWidth 64, val2 := val2 }

/-- Return from a trap by XRESUME: the thread issues next at trpc; inside an active repeat, at its end the pass ends, and
outside [start, end) the repeat ends (R143, R144, R290). [log 133 DESIGN CHOICE] -/
def Thread.resumeAt (t : Thread) : Thread :=
  let pc := t.tr.trpc
  let n := t.a.csr.count
  let a := t.a
  let a' : Arch :=
    if n = 0 then { a with pc := pc }
    else if pc = a.repEnd then
      { a with csr := a.csr.setCount (n - 1), pc := if n - 1 ≠ 0 then a.csr.repbody else pc }
    else if a.csr.repbody.toNat ≤ pc.toNat ∧ pc.toNat < a.repEnd.toNat then { a with pc := pc }
    else { a with csr := a.csr.setCount 0, pc := pc }
  { t with
    a := a', st := .runnable, wait := .none
    counted := t.counted && pc == t.a.pc
    snap := if pc = t.a.pc then t.snap else none
    held := if pc = t.heldPc then t.held else Vector.replicate 4 none }

/-! ### Scene-shared lines -/

/-- This module is the home of a scene-shared line (R199). -/
def State.homeHere (s : State) (line : Nat) : Bool := s.shHome.getD (line / 1024) s.modnum.val == s.modnum.val

/-- A module takes a shared copy of a line: the directory of a home here notes it (R199). -/
def State.shCopy (s : State) (line m : Nat) : State :=
  if !s.inDomain ∨ !s.homeHere line then s
  else if s.shDir.any fun e => e.1 == line then
    { s with shDir := s.shDir.map fun e => if e.1 = line then (e.1, e.2.1, addLine e.2.2 m) else e }
  else { s with shDir := (line, s.modnum.val, addLine [s.modnum.val] m) :: s.shDir }

/-- This module may store to a scene-shared line (R199). -/
def State.ownsLine (s : State) (line : Nat) : Bool := !s.inDomain || s.shOwned.contains line

/-- The owner of a scene-shared line so far as this module knows: itself, the owner in its directory, or else the home
(R199). -/
def State.lineOwner (s : State) (line : Nat) : Nat :=
  if s.shOwned.contains line then s.modnum.val
  else if s.homeHere line then ((s.shDir.find? fun e => e.1 == line).map (·.2.1)).getD s.modnum.val
  else s.shHome.getD (line / 1024) s.modnum.val

/-- The owner of a line lies across a port that is being moved (R397). -/
def State.acrossMove (s : State) (line : Nat) : Option Nat :=
  if s.inDomain && s.mgmt.moving.any (fun e => e.1 == s.lineOwner line) then some (s.lineOwner line) else none

/-- This module comes to own a scene-shared line: a pending invalidation of its copy is applied first, so that no later
store is lost, and its chunks wait for it no longer; with the flag, acknowledgements of other modules are outstanding (R199,
R255). [log 55 DEDUCED] -/
def State.takeLine (s : State) (line : Nat) (unacked : Bool) : State :=
  let s1 := (s.shPending.filter fun e => e.1 == line).foldl (fun s e => s.poke (e.1 * 64) e.2) s
  let drop (ch : Chunk) : Chunk := { ch with shared := ch.shared.filter fun l => l != line }
  { s1.mapThreads fun t => { t with chunk := t.chunk.map drop, closed := t.closed.map drop } with
    shPending := s.shPending.filter fun e => e.1 != line
    shOwned := addLine s.shOwned line
    shUnacked := if unacked then (line, []) :: s.shUnacked.filter fun e => e.1 != line else s.shUnacked
    shDir := if s.homeHere line then (line, s.modnum.val, [s.modnum.val]) :: s.shDir.filter fun e => e.1 != line else s.shDir }

/-- No other module owns a scene-shared line, so far as its home here knows (R199). -/
def State.ownerHere (s : State) (line : Nat) : Bool :=
  s.homeHere line && match s.shDir.find? fun e => e.1 == line with
    | some e => e.2.1 == s.modnum.val
    | none => true

/-- Other modules hold copies of a line homed here (R199). -/
def State.copied (s : State) (line : Nat) : Bool :=
  match s.shDir.find? fun e => e.1 == line with
  | some e => e.2.2.any fun m => m != s.modnum.val
  | none => false

/-- A store obtains scene-shared lines: of those homed here, which no other module owns, ownership comes at once (R199). -/
def State.obtain (s : State) (lines : List Nat) : State :=
  lines.foldl (fun s l => if s.inDomain && s.ownerHere l && !s.shOwned.contains l then s.takeLine l (s.copied l) else s) s

end Sys2Proof.Machine
end

