-- ==== Sys2Proof/Machine/Translate.lean ====
section
/-! DEFINITION. Translate.lean: which space an address selects, the two-stage walk and the TLBs (R184 to R195). -/

namespace Sys2Proof.Machine

/-! ### Spaces -/

/-- The place an address selects (R184, R185). -/
inductive Place where
  /-- Lane slices of the issuing core. -/
  | lane (key : Nat)
  /-- Own scratchpad: offset in the share, key. -/
  | own (off key : Nat)
  /-- Another core's part of the cluster memory. -/
  | remote (core off key : Nat)
  /-- A Slate byte outside the Crucible, and one inside. -/
  | slate (die key : Nat)
  | crucible (die key : Nat)
  /-- Translated memory. -/
  | global (va : Nat)
  /-- Refused. -/
  | refused
  deriving DecidableEq, Repr

/-- First byte of the partition's Slate allotment on a die, its size, and the size of its Crucible there (R186). -/
def Part.slateOf (p : Part) (d : Nat) : Nat × Nat × Nat :=
  match p.cfg.slate.find? fun e => e.1 == d with
  | some e => (e.2.1, e.2.2, p.mode.cruc * 2 ^ 20)
  | none => (0, 0, 0)

/-- A Slate byte of a die by its offset in the partition's allotment (R186). -/
def slatePlace (p : Part) (d off : Nat) : Place :=
  let (lo, n, cr) := p.slateOf d
  if n ≤ off then .refused
  else if n - cr ≤ off then .crucible d (slateKey d (lo + off)) else .slate d (slateKey d (lo + off))

/-- The place of a data address for a core whose partition is p (R184 to R186). -/
def placeOf (p : Part) (c a : Nat) : Place :=
  if a < 2 ^ 56 then .global a
  else if 0xFFFFFFFF00000000 ≤ a ∧ a < 0xFFFFFFFF00020000 then
    if p.cfg.lanes then .lane (laneKey c (a - 0xFFFFFFFF00000000)) else .refused
  else if 0xFFFFFFFE00000000 ≤ a ∧ a < 0xFFFFFFFE00060000 then
    let off := a - 0xFFFFFFFE00000000
    if off < p.cfg.spadBytes then .own off (spadKey c (p.cfg.spadBase + off)) else .refused
  else if 0xFFFFFFFD00000000 ≤ a ∧ a < 0xFFFFFFFD00400000 then
    let r := a - 0xFFFFFFFD00000000
    let c' := c / 8 * 8 + r / 2 ^ 19
    let off := r % 2 ^ 19
    if off < p.cfg.spadBytes ∧ off < Config.spadBytes then
      if c' = c then .own off (spadKey c (p.cfg.spadBase + off)) else .remote c' off (spadKey c' (p.cfg.spadBase + off))
    else .refused
  else if 0xFFFFFFC000000000 ≤ a ∧ a < 0xFFFFFFC008000000 then slatePlace p (dieOf c) (a - 0xFFFFFFC000000000)
  else if 0xFFFFFF8000000000 ≤ a ∧ a < 0xFFFFFF8040000000 then
    let r := a - 0xFFFFFF8000000000
    slatePlace p (r / 2 ^ 27) (r % 2 ^ 27)
  else .refused

/-- The place of a data address for the threads of a core. -/
def State.place (s : State) (c : Nat) (a : Nat) : Place :=
  match s.partOf c with
  | some p => placeOf p c a
  | none => .refused

/-! ### Walks -/

/-- A physical address exists: HBM5 or the second tier (R189). -/
def physical (pa : Nat) : Bool := pa < 2 ^ 40 || (2 ^ 44 ≤ pa && pa < 2 ^ 44 + 3 * 2 ^ 39)

/-- Index of an address at a level: first bit and length (R190). -/
def levelField : Nat → Nat × Nat
  | 0 => (43, 13)
  | 1 => (30, 13)
  | 2 => (21, 9)
  | _ => (16, 5)

/-- Fields of a page table entry (R191). -/
def pteV (e : Nat) : Bool := e.testBit 0
/-- Read, write, execute and sampler permissions as bits 0 to 3. -/
def ptePerm (e : Nat) : BitVec 4 := BitVec.ofNat 4 (bits e 1 4)
/-- Frame number. -/
def ptePfn (e : Nat) : Nat := bits e 16 36
/-- A leaf: R, W or X set. -/
def pteLeaf (e : Nat) : Bool := bits e 1 3 != 0

/-- An entry at which a walk stops with a page fault (R192). -/
def pteStops (e lvl : Nat) : Bool :=
  !pteV e || (e.testBit 2 && !e.testBit 1) || bits e 10 6 != 0 || bits e 52 12 != 0 ||
  (pteLeaf e && (lvl == 0 || (lvl == 2 && bits e 16 5 != 0) || (lvl == 1 && bits e 16 14 != 0))) ||
  (!pteLeaf e && lvl == 3)

/-- A leaf found by a walk: its level, the entry, where the entry lies. -/
structure Leaf where
  lvl : Nat
  pte : Nat
  at_ : Nat
  deriving DecidableEq, Repr

/-- A failure of a walk: code of R193 without its store bit, whether a page fault (else a permission failure or a refused
address), the intermediate address of a stage-2 failure, or an uncorrectable error. -/
structure WalkFail where
  code : Nat
  page : Bool
  ipa : Nat
  stage2 : Bool
  ecc : Bool
  deriving DecidableEq, Repr

/-- Reads one page table entry at a physical address. -/
def State.readPte (s : State) (pa : Nat) : Option Nat :=
  match badIn s.bad pa 8 with
  | some _ => none
  | none => some (s.num pa 8)

/-- Bytes of a leaf page at a level (R190). -/
def pageBytes (lvl : Nat) : Nat := 2 ^ (levelField lvl).1

/-- A physical address that a partition may reach: one that exists and that the host does not hold (R189, R390). -/
def State.mappable (s : State) (pa : Nat) : Bool :=
  physical pa && !(s.mgmt.cxl.1 ≤ pa && pa < s.mgmt.cxl.1 + s.mgmt.cxl.2)

/-- The stage-2 walk of an intermediate address: the physical address, the leaf, and the leaves used (R190, R192). -/
def State.walk2 (s : State) (root ipa : Nat) : Except WalkFail (Nat × Leaf) :=
  let fail (lvl : Nat) (page ecc : Bool) : Except WalkFail (Nat × Leaf) := .error ⟨lvl + 4, page, ipa, true, ecc⟩
  let rec go : Nat → Nat → Nat → Except WalkFail (Nat × Leaf)
    | 0, _, _ => fail 3 true false
    | f + 1, lvl, tbl =>
      let (lo, n) := levelField lvl
      let at_ := tbl + 8 * bits (ipa % 2 ^ 52) lo n
      if !s.mappable at_ then fail (lvl - 1) false false else
      match s.readPte at_ with
      | none => fail lvl false true
      | some e =>
        if pteStops e lvl then fail lvl true false
        else if pteLeaf e then
          let pa := (if e.testBit 9 then 2 ^ 44 else 0) + ptePfn e * 2 ^ 16 + ipa % pageBytes lvl
          if s.mappable pa then .ok (pa, ⟨lvl, e, at_⟩) else fail lvl false false
        else go f (lvl + 1) (ptePfn e * 2 ^ 16)
  go 4 0 root

/-- A translation: physical address, leaves of both stages, intermediate address, entries whose A bit is to be set
(R190 to R192). -/
structure Trans where
  pa : Nat
  ipa : Nat
  l1 : Leaf
  l2 : Leaf
  touched : List Nat
  deriving DecidableEq, Repr

/-- What an access needs: bit 0 read, 1 write, 2 execute, 3 sampler (R191). -/
inductive Need where
  | load | store | fetch | sampler
  deriving DecidableEq, Repr

/-- Permission bits an access needs of a leaf (R191). -/
def Need.mask : Need → BitVec 4
  | .load => 1
  | .store => 2
  | .fetch => 4
  | .sampler => 9

/-- The whole walk of a virtual address: every read of a stage-1 entry passes stage 2; a stage-1 leaf that lacks the
permission is the failure, whatever stage 2 makes of its address (R192, R193). [log 124 DESIGN CHOICE] -/
def State.walk (s : State) (p : Part) (va : Nat) (need : Need) : Except WalkFail Trans :=
  let rec go : Nat → Nat → Nat → List Nat → Except WalkFail Trans
    | 0, _, _, _ => .error ⟨3, true, 0, false, false⟩
    | f + 1, lvl, tbl, acc =>
      let (lo, n) := levelField lvl
      match s.walk2 p.cfg.s2root ((tbl + 8 * bits va lo n) % 2 ^ 52) with
      | .error e => .error e
      | .ok (at_, l) =>
        match s.readPte at_ with
        | none => .error ⟨lvl, false, 0, false, true⟩
        | some e =>
          if pteStops (e &&& 0xFFFFFFFFFFFFFCFF) lvl then .error ⟨lvl, true, 0, false, false⟩
          else if pteLeaf e && ptePerm e &&& need.mask != need.mask then .error ⟨lvl, false, 0, false, false⟩
          else if pteLeaf e then
            let ipa := (ptePfn e * 2 ^ 16 + va % pageBytes lvl) % 2 ^ 52
            match s.walk2 p.cfg.s2root ipa with
            | .error x => .error x
            | .ok (pa, l2) => .ok ⟨pa, ipa, ⟨lvl, e, at_⟩, l2, l.at_ :: acc⟩
          else go f (lvl + 1) (ptePfn e * 2 ^ 16) (l.at_ :: acc)
  go 4 0 p.s1root []

/-- Causes by kind of access: page fault and permission failure (R193). -/
def Need.causes : Need → Nat × Nat
  | .load => (13, 5)
  | .store => (15, 7)
  | .fetch => (12, 1)
  | .sampler => (13, 5)

/-- The cached form of a translation (R194). -/
def tlbOf (p va : Nat) (t : Trans) : TlbEntry :=
  let sz := min (pageBytes t.l1.lvl) (pageBytes t.l2.lvl)
  { part := p, vpn := va / sz * sz / 2 ^ 16, pages := sz / 2 ^ 16, pfn := t.pa / sz * sz / 2 ^ 16,
    ipn := t.ipa / sz * sz / 2 ^ 16, perm1 := ptePerm t.l1.pte, lvl1 := t.l1.lvl, perm2 := ptePerm t.l2.pte,
    lvl2 := t.l2.lvl, global := t.l1.pte.testBit 7, shared := t.l2.pte.testBit 8,
    dirty := t.l1.pte.testBit 6 && t.l2.pte.testBit 6, bad := false }

/-- Whether an entry translates an address of a partition. -/
def TlbEntry.hits (e : TlbEntry) (p va : Nat) : Bool :=
  e.part == p && e.vpn ≤ va / 2 ^ 16 && va / 2 ^ 16 < e.vpn + e.pages

/-- Judges permission on each stage's leaf: a failure by stage-1 leaf first, then by stage 2 (R193). -/
def TlbEntry.denied (e : TlbEntry) (need : Need) (ipa : Nat) : Option WalkFail :=
  if e.perm1 &&& need.mask ≠ need.mask then some ⟨e.lvl1, false, 0, false, false⟩
  else if e.perm2 &&& need.mask ≠ need.mask then some ⟨e.lvl2 + 4, false, ipa, true, false⟩
  else none

/-- ORs bits into a page table entry at its owner (R192). -/
def State.orPte (s : State) (at_ v : Nat) : State := s.poke at_ (leBytes 8 (s.num at_ 8 ||| v))

/-- A translated physical address with what the access must know of its page. -/
structure Phys where
  pa : Nat
  ipa : Nat
  shared : Bool
  deriving DecidableEq, Repr

/-- Sets the A bits of the entries a walk used, and the D bits of its leaves for a store (R192). [log 124 DESIGN CHOICE] -/
def State.touch (s : State) (t : Trans) (store : Bool) : State :=
  let v := if store then 0x60 else 0x20
  let s1 := t.touched.foldl (fun s a => if (s.num a 8).testBit 5 then s else s.orPte a 0x20) s
  let upd (s : State) (l : Leaf) : State := if s.num l.at_ 8 &&& v = v then s else s.orPte l.at_ v
  upd (upd s1 t.l1) t.l2

/-- Enters a translation in a TLB: entries it overlaps leave, and of the entries it shares a set with the oldest beyond the
ways (R194). [log 82 DESIGN CHOICE] -/
def fillTlb (ways : Nat) (set : TlbEntry → Bool) (e : TlbEntry) (es : List TlbEntry) : List TlbEntry :=
  let rec keep : Nat → List TlbEntry → List TlbEntry
    | _, [] => []
    | n, x :: xs => if !set x then x :: keep n xs else match n with
      | 0 => keep 0 xs
      | n + 1 => x :: keep n xs
  e :: keep (ways - 1) (es.filter fun x => !(x.part == e.part && x.vpn < e.vpn + e.pages && e.vpn < x.vpn + x.pages))

/-- Set of a cluster TLB of 2,048 entries in 8 ways (R194). [log 82 DESIGN CHOICE] -/
def tlbSet (e : TlbEntry) : Nat := e.vpn / e.pages % 256

/-- A translation enters the micro-TLB of a core, for an access of its threads (R194). -/
def State.fillMicro (s : State) (c : Nat) (micro : Bool) (e : TlbEntry) : State :=
  if micro && !e.bad then s.modCore c fun k => { k with utlb := fillTlb 32 (fun _ => true) e k.utlb } else s

/-- The table lines that a walk read are accesses at their owners (R194, R197). -/
def State.noteWalk (s : State) (cl : Nat) (t : Trans) : State :=
  (t.l1.at_ :: t.l2.at_ :: t.touched).foldl (fun s a => s.noteLine cl (a / 64)) s

/-- Translates for a partition at a core: its micro-TLB, for an access of its threads; its cluster's TLB; a walk, also for a
store whose cached leaves lack D. A walk sets A, and D for a store, of an access that has its permission, and only then
enters its translation. A translation cached before a change that no request has yet removed may still serve (R192 to R195).
An entry struck by an uncorrectable error is met as an error of the walk that it stands for, until it leaves (R188). [log 82
DESIGN CHOICE; 124 DESIGN CHOICE; 126 DESIGN CHOICE] -/
def State.translate (s : State) (p : Part) (c : Nat) (micro : Bool) (va : Nat) (need : Need) :
    State × Except WalkFail Phys :=
  let n := p.cfg.part
  let cl := clusterOf c
  let fresh := s.walk p va need
  let use (s : State) (e : TlbEntry) : State × Except WalkFail Phys :=
    let off := va - e.vpn * 2 ^ 16
    if e.bad then (s, .error ⟨e.lvl1, false, 0, false, true⟩) else
    match e.denied need (e.ipn * 2 ^ 16 + off) with
    | some f => (s, .error f)
    | none => (s, .ok ⟨e.pfn * 2 ^ 16 + off, e.ipn * 2 ^ 16 + off, e.shared⟩)
  let walked (s : State) : State × Except WalkFail Phys :=
    match fresh with
    | .error f => (s, .error f)
    | .ok t =>
      let s1 := s.noteWalk cl t
      match (tlbOf n va t).denied need t.ipa with
      | some f => (s1, .error f)
      | none =>
        let e := { tlbOf n va t with dirty := need == .store || (tlbOf n va t).dirty }
        let s2 := (s1.modCluster cl fun k =>
          { k with tlb := fillTlb 8 (fun x => tlbSet x == tlbSet e) e k.tlb }).fillMicro c micro e
        use (s2.touch t (need == .store)) e
  let same (e : TlbEntry) : Bool := match fresh with
    | .ok t => decide ({ tlbOf n va t with dirty := e.dirty, bad := e.bad } = e)
    | .error _ => false
  let serves (e : TlbEntry) : Bool := e.hits n va && (need != .store || e.dirty)
  let inCluster (s : State) : State × Except WalkFail Phys :=
    match (s.cluster cl).tlb.find? serves with
    | none => walked s
    | some e =>
      if same e then use (s.fillMicro c micro e) e
      else if Config.tlbKept s.freeN then use ({ s with freeN := s.freeN + 1 }.fillMicro c micro e) e
      else walked { s with freeN := s.freeN + 1 }
  match if micro then (s.core c).utlb.find? serves else none with
  | none => inCluster s
  | some e =>
    if same e then use s e
    else if Config.tlbKept s.freeN then use { s with freeN := s.freeN + 1 } e
    else inCluster { s with freeN := s.freeN + 1 }

/-! ### The partition control page -/

/-- Physical address of an intermediate address of a partition, through stage 2 only (R388, R400). -/
def State.ipaAddr (s : State) (p : Part) (ipa : Nat) (store : Bool) : Option Nat :=
  match s.walk2 p.cfg.s2root ipa with
  | .ok (pa, l) =>
    let m := if store then 2 else 1
    if ptePerm l.pte &&& m = m then some pa else none
  | .error _ => none

/-- The trap of a failed walk (R188, R193). -/
def WalkFail.trapOf (f : WalkFail) (need : Need) (va : Nat) : Trap :=
  { cause := if f.ecc then 31 else if f.page then need.causes.1 else need.causes.2
    val := BitVec.ofNat 64 va
    val2 := BitVec.ofNat 64 (f.code + (if need = .store then 8 else 0))
    val3 := BitVec.ofNat 64 (if f.stage2 then f.ipa else 0) }

/-- What stops an access at an intermediate address in stage 2, as R193 reports it; none if nothing does. -/
def State.ipaTrap (s : State) (p : Part) (ipa : Nat) (store : Bool) : Option Trap :=
  let need : Need := if store then .store else .load
  let f : Option WalkFail := match s.walk2 p.cfg.s2root ipa with
    | .ok (_, l) => if ptePerm l.pte &&& need.mask = need.mask then none else some ⟨l.lvl + 4, false, ipa, true, false⟩
    | .error f => some f
  f.map fun f => f.trapOf need ipa

/-- The first of n bytes at an intermediate address that stage 2 stops, and why (R193). -/
def State.ipaStop (s : State) (p : Part) (ipa n : Nat) (store : Bool) : Option (Nat × Trap) :=
  ((List.range (n / 2 ^ 16 + 2)).map fun i => if i = 0 then ipa else (ipa / 2 ^ 16 + i) * 2 ^ 16).findSome? fun a =>
    if a < ipa + n then (s.ipaTrap p a store).map fun t => (a, t) else none

/-- A failure in stage 2 of an engine or a port of a partition is reported to Nolmon, by a core of it (R193). -/
def State.ipaReport (s : State) (c : Nat) (p : Part) (e : Nat × Trap) : State :=
  let w : S2Wait := ⟨⟨c, 0⟩, e.2.val, e.2.cause, e.2.val2, e.1, p.cfg.part⟩
  { s with s2waits := if w ∈ s.s2waits then s.s2waits else s.s2waits ++ [w] }

/-- Reads n bytes (within one page) at an intermediate address as a number. -/
def State.ipaRead (s : State) (p : Part) (ipa n : Nat) : Option Nat := (s.ipaAddr p ipa false).map fun a => s.num a n

/-- The page of an intermediate address is scene-shared (R191). -/
def State.ipaShared (s : State) (p : Part) (ipa : Nat) : Bool :=
  match s.walk2 p.cfg.s2root ipa with
  | .ok (_, l) => l.pte.testBit 8
  | .error _ => false

/-- Writes bytes (within one page) at an intermediate address as the device writes: the write enters commit order, and
obtains scene-shared lines (R199, R242, R389). -/
def State.ipaWrite (s : State) (p : Part) (ipa : Nat) (bs : List Byte) : Option State :=
  (s.ipaAddr p ipa true).map fun a =>
    let lines := (List.range ((a % 64 + bs.length + 63) / 64)).map fun i => a / 64 + i
    ((if s.ipaShared p ipa then s.obtain lines else s).poke a bs).record lines

/-- A doubleword of the partition control page (R400). -/
def State.ctl (s : State) (p : Part) (off : Nat) : Nat := (s.ipaRead p (p.cfg.ctlPage + off) 8).getD 0

/-- Writes a doubleword of the partition control page. -/
def State.setCtl (s : State) (p : Part) (off v : Nat) : State :=
  (s.ipaWrite p (p.cfg.ctlPage + off) (leBytes 8 v)).getD s

end Sys2Proof.Machine
end

