-- ==== Sys2Proof/Machine/Queues.lean ====
section
/-! DEFINITION. Queues.lean: local and cluster queues, mailboxes and inboxes at their owners: handles, registration, pushes
and pops in arrival order (R256 to R263, R281 to R284). -/

namespace Sys2Proof.Machine

/-! ### Locked ranges -/

/-- The lock of a core covers bytes of its share and is held by a slot other than the one that accesses (R214). -/
def State.lockHolds (s : State) (core off n : Nat) (by_ : Option (Nat × SlotN)) : Bool :=
  match (s.core core).c.lock with
  | none => false
  | some l => by_ != some (core, l.holder) && off < l.base + l.len && l.base < off + n

/-- The core and share offset of a key of a scratchpad (R186). -/
def State.spadOf (s : State) (key : Nat) : Option (Nat × Nat) :=
  if 2 ^ 60 ≤ key ∧ key < 2 ^ 61 then
    let c := (key - 2 ^ 60) / 2 ^ 19
    some (c, (key - 2 ^ 60) % 2 ^ 19 - (s.share c).1)
  else none

/-- A lock in a switched-out context of a core covers bytes of its scratchpad (R214, R386). -/
def State.outLocked (s : State) (c off n : Nat) : Bool :=
  s.shadow.any fun e => e.2.1 == c && match e.2.2.lock, s.part? e.1 with
    | some l, some p => off < p.cfg.spadBase + l.base + l.len && p.cfg.spadBase + l.base < off + n
    | _, _ => false

/-- A piece that a lock held by another slot covers: core, offset, bytes (R214). -/
def State.spanLock (s : State) (xs : List (Nat × Nat)) (by_ : Option (Nat × SlotN)) : Option (Nat × Nat × Nat) :=
  xs.findSome? fun e =>
    match s.spadOf e.1 with
    | some (c, off) =>
      let raw := (e.1 - 2 ^ 60) % 2 ^ 19
      if (s.share c).1 ≤ raw && s.lockHolds c off e.2 by_ || s.outLocked c raw e.2 then some (c, off, e.2) else none
    | none => none

/-! ### Handles -/

/-- What a queue handle names (R257). -/
inductive QRef where
  | lq (core : Nat) (q : Fin 8)
  | cq (cluster : Nat) (q : Fin 64)
  | mbx (core : Nat) (i : Fin 4)
  | inbox (core : Nat)
  deriving DecidableEq, Repr

/-- The queue a handle names in the cluster of a core; none for an invalid index or a reserved bit set (R257). -/
def qref (c : Nat) (h : Word) : Option QRef :=
  let n := h.toNat
  let i := n % 64
  let c' := c / 8 * 8 + bits n 8 3
  if n / 2 ^ 11 ≠ 0 then none else
  match bits n 6 2 with
  | 0 => if g : i < 8 then some (.lq c' ⟨i, g⟩) else none
  | 1 => if g : i < 64 then some (.cq (clusterOf c) ⟨i, g⟩) else none
  | 2 => if g : i < 4 then some (.mbx c' ⟨i, g⟩) else none
  | _ => if i = 0 then some (.inbox c') else none

/-- The one handle a registration keeps for a queue (R257). -/
def QRef.handle : QRef → Word
  | .lq c q => BitVec.ofNat 64 (cicOf c * 2 ^ 8 + q)
  | .cq _ q => BitVec.ofNat 64 (2 ^ 6 + q)
  | .mbx c i => BitVec.ofNat 64 (cicOf c * 2 ^ 8 + 2 ^ 7 + i)
  | .inbox c => BitVec.ofNat 64 (cicOf c * 2 ^ 8 + 3 * 2 ^ 6)

/-! ### Descriptors -/

/-- Key of a byte at a cluster-memory window address, for a cluster's own partition (R186, R258). -/
def State.clusterKey (s : State) (cl a : Nat) : Option Nat :=
  match s.place (cl * 8) a with
  | .own _ key => some key
  | .remote _ _ key => some key
  | _ => none

/-- Key of a byte of the queue descriptor area of a cluster, from its queue map table entry as it stands (R258, R323). -/
def State.areaKey (s : State) (cl off : Nat) : Option Nat :=
  match s.partOf (cl * 8) with
  | none => none
  | some p =>
    let e := s.ctl p (0x2000 + 16 * cl)
    if e % 2 = 1 then s.clusterKey cl (e / 64 * 64 + off) else none

/-- Reads a cluster's queue map table entry: its area as the device uses it until the next read (R323). [log 34 DEDUCED] -/
def State.readMap (s : State) (cl : Nat) : State :=
  match s.partOf (cl * 8) with
  | none => s
  | some p =>
    let e := s.ctl p (0x2000 + 16 * cl)
    s.modCluster cl fun q => { q with area := if e % 2 = 1 then some (e / 64 * 64) else none }

/-- Key of a byte of the area of a cluster as its entry was last read (R258, R323). [log 34 DEDUCED] -/
def State.heldArea (s : State) (cl off : Nat) : Option Nat := (s.cluster cl).area.bind fun a => s.clusterKey cl (a + off)

/-- Offset of a queue's descriptor in the area (R258). -/
def QRef.descOff : QRef → Nat
  | .lq c q => 32 * (8 * cicOf c + q)
  | .cq _ q => 0x800 + 32 * q
  | _ => 0

/-- Cluster of a queue. -/
def QRef.cluster : QRef → Nat
  | .lq c _ => clusterOf c
  | .cq cl _ => cl
  | .mbx c _ => clusterOf c
  | .inbox c => clusterOf c

/-- The queue at its owner. -/
def State.queue (s : State) : QRef → Queue
  | .lq c q => (s.core c).c.lq[q]
  | .cq cl q => (s.cluster cl).cq.getD q .reset
  | _ => .reset

/-- Replaces a queue. -/
def State.setQueue (s : State) (r : QRef) (q : Queue) : State :=
  match r with
  | .lq c i => s.modCtx c fun x => { x with lq := x.lq.set i q }
  | .cq cl i => s.modCluster cl fun k => { k with cq := k.cq.set i q }
  | _ => s

/-- Entries held (R259). -/
def Queue.count (q : Queue) : Nat := (q.tail - q.head).toNat
/-- Entries free (R259). -/
def Queue.free (q : Queue) : Nat := q.size - q.count

/-- The descriptor doubleword at 0x08: SIZE, FREE, TAIL, HEAD (R259). -/
def Queue.word (q : Queue) : Nat := q.size * 2 ^ 48 + q.free * 2 ^ 32 + q.tail.toNat * 2 ^ 16 + q.head.toNat

/-- Key of a queue's descriptor: of a cluster queue where it was read at activation, of a local queue in the cluster's area
as its entry was last read (R258, R259, R323). -/
def State.descKey (s : State) (r : QRef) : Option Nat :=
  match r with
  | .cq _ _ => (s.queue r).desc
  | _ => s.heldArea r.cluster r.descOff

/-- Writes HEAD, TAIL and FREE back to the descriptor; SIZE stays as software left it, and reads 16 for a local queue
(R259). -/
def State.writeBack (s : State) (r : QRef) : State :=
  match s.descKey r with
  | some key => s.poke (key + 8) (leBytes (match r with | .lq _ _ => 8 | _ => 6) (s.queue r).word)
  | none => s

/-- The core that owns a queue: the holding core, or the core whose part holds the base (R262). -/
def State.ownerOf (s : State) : QRef → Nat
  | .lq c _ => c
  | .mbx c _ => c
  | .inbox c => c
  | .cq cl q => cl * 8 + ((s.cluster cl).cq.getD q .reset).base % 2 ^ 22 / 2 ^ 19

/-- A local queue of this core, whose values come within the instruction (R258, R262). -/
def QRef.ownLocal (q : QRef) (c : Nat) : Bool :=
  match q with
  | .lq c' _ => c' == c
  | _ => false

/-- A queue takes pushes and pops: a local one always, a cluster queue while it is active (R259). -/
def State.queueOpen (s : State) : QRef → Bool
  | .lq _ _ => true
  | .cq cl q => ((s.cluster cl).cq.getD q .reset).active
  | _ => false

/-- Key of entry j of a queue held in cluster memory (R259). -/
def State.entryKey (s : State) (r : QRef) (j : BitVec 16) : Option Nat :=
  let q := s.queue r
  s.clusterKey r.cluster (q.base + 8 * (j.toNat % q.size))

/-- What refuses a push or pop of a handle at issue: no local or cluster queue, an inactive queue, or a base or an
entry outside the partition's shares, the one at TAIL for a push and at HEAD for a pop (R257, R259, R277). -/
def State.queueTrap (s : State) (c : Nat) (h : Word) (push : Bool) : Option Trap :=
  match qref c h with
  | some (.lq _ _) => none
  | some (.cq cl q) =>
    let r := QRef.cq cl q
    if !s.queueOpen r then some { cause := 2, val := s.curWord.setWidth 64, val2 := h }
    else
      let q := s.queue r
      let j := if push then q.tail else q.head
      match s.clusterKey cl q.base, s.entryKey r j with
      | some _, some _ => none
      | _, _ => some { cause := 5, val := BitVec.ofNat 64 (q.base + 8 * (j.toNat % q.size)) }
  | _ => some { cause := 2, val := s.curWord.setWidth 64, val2 := h }

/-! ### Posted counters -/

/-- Posted counter i of a thread (R122). -/
def Thread.psc (t : Thread) (i : Nat) : Nat := match i with | 0 => t.psc0 | 1 => t.psc1 | _ => t.psc2

/-- Adds to a posted counter. -/
def Thread.addPsc (t : Thread) (i : Nat) : Thread :=
  match i with
  | 0 => { t with psc0 := t.psc0 + 1 }
  | 1 => { t with psc1 := t.psc1 + 1 }
  | _ => { t with psc2 := t.psc2 + 1 }

/-- Takes an acknowledgement off a posted counter (R247). [log 93 DEDUCED] -/
def Thread.subPsc (t : Thread) (i : Nat) : Thread :=
  match i with
  | 0 => { t with psc0 := t.psc0 - 1 }
  | 1 => { t with psc1 := t.psc1 - 1 }
  | _ => { t with psc2 := t.psc2 - 1 }

/-- Sends a posted operation: counted as it leaves the gate (R247). -/
def State.post (s : State) (r : TRef) (cls : Fin 3) (dest : Nat) (op : POp) (launch : BitVec 32) : State :=
  let s1 := s.modRef r fun t => t.addPsc cls
  { s1 with posted := s1.posted ++ [⟨r, cls, dest, op, launch⟩] }

/-! ### Pushes and pops at the owner -/

/-- Completes a thread's wait with register writes; the reply from another core takes a cycle or more. -/
def Thread.answer (t : Thread) (now : Nat) (local_ : Bool) (fin : Completion) : Thread :=
  { t with wait := .reply (if local_ then now else now + 1) local_ fin }

/-- Gives a value to a held pop: of a mapped register it is held with the thread and the instruction is performed, of QPOP
it is written (R57, R262, R417). -/
def Thread.givePop (t : Thread) (now : Nat) (local_ : Bool) (v : Word) : Thread :=
  match t.wait with
  | .pop _ true r => { t.hold r v with wait := .given (if local_ then now else now + 1) }
  | .pop _ false r => t.answer now local_ { ws := [.x r v] }
  | _ => t

/-- Performs a push at the owner: the oldest held pop takes the value, which then never enters the queue. Pops held at a
cluster queue that has become inactive go on waiting, and the value enters the queue (R259, R262). -/
def State.performPush (s : State) (r : QRef) (v : Word) : State :=
  let q := s.queue r
  match if s.queueOpen r then q.pops else [] with
  | w :: ws => (s.setQueue r { q with pops := ws }).modRef w fun t =>
      t.givePop (s.core w.core).cycle (w.core == s.ownerOf r) v
  | [] =>
    match r with
    | .lq _ _ => (s.setQueue r { q with entries := q.entries ++ [v], tail := q.tail + 1 }).writeBack r
    | _ =>
      let s1 := match s.entryKey r q.tail with
        | some key => s.poke key (leBytes 8 v.toNat)
        | none => s
      (s1.setQueue r { q with tail := q.tail + 1 }).writeBack r

/-- A lock held by another slot covers what a push writes at its queue's owner or a pop reads and writes there: the entry,
and the descriptor's indices (R214, R377). -/
def State.queueLocked (s : State) (r : QRef) (push : Bool) (by_ : Option (Nat × SlotN)) : Option (Nat × Nat × Nat) :=
  let q := s.queue r
  let entry := match r with
    | .lq _ _ => []
    | _ => (s.entryKey r (if push then q.tail else q.head)).toList
  s.spanLock ((entry ++ ((s.descKey r).map (· + 8)).toList).map fun a => (a, 8)) by_

/-- Some held pop takes the value of a push, which then writes nothing (R262). -/
def State.popWaits (s : State) (r : QRef) : Bool := s.queueOpen r && (s.queue r).pops != []

/-- Sends a push for which an entry is free: to the thread's own core it is performed at once, unless a lock holds it; else
it is posted and the entry kept (R214, R247, R262). -/
def State.sendPush (s : State) (w : TRef) (launch : BitVec 32) (r : QRef) (h v : Word) : State :=
  let q := s.queue r
  let o := s.ownerOf r
  let by_ := ((s.core w.core).slotOf w.serial).map fun k => (w.core, k)
  if o = w.core ∧ s.queueOpen r ∧ (s.popWaits r ∨ (s.queueLocked r true by_).isNone) then s.performPush r v
  else (s.setQueue r { q with kept := q.kept + 1 }).post w 2 o (.push o h v) launch

/-- A queue has an entry for a push: free entries less those kept, and no older push parked (R262). -/
def Queue.room (q : Queue) : Bool := q.kept < q.free && q.pushes.isEmpty

/-- A freed entry of an active queue goes to the oldest parked push: a push that ends a reply is sent, and its instruction
completes; for any other the entry is kept, and its instruction is performed (R259, R262). [log 102 DEDUCED] -/
def State.servePush (s : State) (r : QRef) : State :=
  let q := s.queue r
  match q.pushes with
  | [] => s
  | w :: ws =>
    if q.free ≤ q.kept ∨ !s.queueOpen r then s else
    let s1 := s.setQueue r { q with pushes := ws }
    match s1.findRef w with
    | some t =>
      let now := (s.core w.core).cycle
      let here := w.core == s.ownerOf r
      match t.wait with
      | .push h v fin false => (s1.sendPush w t.launch r h v).modRef w fun t => t.answer now here fin
      | .push h _ _ true => (s1.setQueue r { q with pushes := ws, kept := q.kept + 1 }).modRef w fun t =>
          { t with owed := some h, wait := .given (if here then now else now + 1) }
      | _ => s1
    | none => s1

/-- Takes the oldest entry of a queue, if it holds one, and serves the oldest parked push (R262). -/
def State.takePop (s : State) (r : QRef) : Option (Word × State) :=
  let q := s.queue r
  if q.count = 0 then none else
  match r with
  | .lq _ _ =>
    match q.entries with
    | [] => none
    | v :: vs => some (v, ((s.setQueue r { q with entries := vs, head := q.head + 1 }).writeBack r).servePush r)
  | _ =>
    let v := match s.entryKey r q.head with
      | some key => BitVec.ofNat 64 (s.num key 8)
      | none => 0
    some (v, ((s.setQueue r { q with head := q.head + 1 }).writeBack r).servePush r)

/-- A queue that has become active serves its waits, oldest first: held pops take the entries it holds, and parked pushes
its free entries (R259, R262). [log 105 DEDUCED] -/
def State.serveQueue (s : State) (r : QRef) : Nat → State
  | 0 => s
  | f + 1 =>
    let q := s.queue r
    match q.pops with
    | [] => (s.servePush r).serveQueue r f
    | w :: ws =>
      match (s.setQueue r { q with pops := ws }).takePop r with
      | some (v, s1) =>
        (s1.modRef w fun t => t.givePop (s.core w.core).cycle (w.core == s.ownerOf r) v).serveQueue r f
      | none => (s.servePush r).serveQueue r f

/-- Waits that a queue may hold, for `serveQueue`. -/
def Queue.fuel (q : Queue) : Nat := q.pops.length + q.pushes.length

/-- Removes a thread's held pop or parked push from every queue it may stand at: the wait is withdrawn, it performed
nothing (R51, R262). -/
def Queue.forget (q : Queue) (w : TRef) : Queue :=
  { q with pops := q.pops.filter fun x => x != w, pushes := q.pushes.filter fun x => x != w }

/-- Removes the last of a list that meets a test. -/
def eraseLast {α : Type} (f : α → Bool) (xs : List α) : List α := (xs.reverse.eraseP f).reverse

/-- The posted operation is a put of a thread for a mailbox (R284). -/
def Posted.isPut (p : Posted) (w : TRef) (c : Nat) (i : Fin 4) : Bool :=
  p.src == w && match p.op with
    | .mbx c' i' _ => c' == c && i' == i.val
    | _ => false

/-- Withdraws the put a thread waits with, its last: on its way, or held at the mailbox; it counts no more (R51, R284). [log
33 DEDUCED] -/
def State.forgetPut (s : State) (w : TRef) (c : Nat) (i : Fin 4) : State :=
  let s1 := if s.posted.any fun p => p.isPut w c i then { s with posted := eraseLast (fun p => p.isPut w c i) s.posted }
    else s.modCtx c fun y =>
      { y with mbx := y.mbx.set i { y.mbx[i] with puts := eraseLast (fun x => x.1 == w) (y.mbx[i]).puts } }
  s1.modRef w fun t => t.subPsc 2

/-- Gives up the entry kept for the push of a thread whose instruction does not use it (R262). [log 88 DEDUCED] -/
def State.release (s : State) (w : TRef) : State :=
  match (s.findRef w).bind (·.owed) with
  | none => s
  | some h =>
    let s1 := s.modRef w fun t => { t with owed := none }
    match qref w.core h with
    | some r => (s1.setQueue r { s1.queue r with kept := (s1.queue r).kept - 1 }).servePush r
    | none => s1

/-- A thread's MGANG leaves the queue; the command behind it has not begun (R175, R180). -/
def Matrix.without (m : Matrix) (w : TRef) : Matrix :=
  let q := m.queue.filter fun x => !(x.by_ == w && match x.op with | .gang _ _ => true | _ => false)
  { m with queue := q, begun := m.begun && q.head? == m.queue.head? }

/-- Withdraws whatever a parked thread has held at a queue or mailbox of its cluster (R262). -/
def State.withdrawAt (s : State) (w : TRef) (x : Wait) : State :=
  let at_ (h : Word) : State :=
    match qref w.core h with
    | some r => s.setQueue r ((s.queue r).forget w)
    | none => s
  match x with
  | .pop h _ _ => at_ h
  | .push h _ _ _ => at_ h
  | .mbxPut c i _ => s.forgetPut w c i
  | .mbxGet c i _ => s.modCtx c fun y => { y with mbx := y.mbx.set i (
      { y.mbx[i] with gets := (y.mbx[i]).gets.filter fun x => x != w }) }
  | .gang _ _ _ => s.modMx w.core fun m => m.without w
  | .cond (.stage2 _) => { s with s2waits := s.s2waits.filter fun q => q.who != w }
  | .cond (.fetch _) => { s with s2waits := s.s2waits.filter fun q => q.who != w }
  | .cond (.token) => { s with tokenQ := s.tokenQ.filter fun q => q != w }
  | .cond .task => s.modCluster (clusterOf w.core) fun k =>
      { k with tongs := { k.tongs with parked := k.tongs.parked.filter fun q => q != w } }
  | _ => s

/-! ### Registrations -/

/-- Withdraws what a bound thread waits with, and an entry kept for it (R51, R262). -/
def State.withdraw (s : State) (c : Nat) (k : SlotN) : State :=
  let t := s.thr c k
  (s.withdrawAt (t.ref c) (match t.st with | .parked => t.wait | _ => .none)).release (t.ref c)

/-- Bit of a slot of a core in a queue's masks (R259). -/
def regBit (c : Nat) (k : SlotN) : Word := BitVec.ofNat 64 (2 ^ (8 * cicOf c + k))

/-- Reads a cluster queue's descriptor at activation: base, SIZE, SEN, STAGE, HEAD and TAIL; none if it is refused (R259).
[log 34 DEDUCED] -/
def State.readDesc (s : State) (r : QRef) (q : Queue) : Option Queue :=
  match s.areaKey r.cluster r.descOff with
  | none => none
  | some key =>
    let w0 := s.num key 8
    let w1 := s.num (key + 8) 8
    let size := bits w1 48 16
    if size < 16 ∨ 4096 < size ∨ size &&& (size - 1) ≠ 0 ∨ bits w0 4 2 ≠ 0 then none
    else some { q with
      desc := some key, base := w0 / 64 * 64, size := size, sen := w0.testBit 3, stage := bits w0 0 3,
      head := BitVec.ofNat 16 w1, tail := BitVec.ofNat 16 (w1 / 2 ^ 16), active := true }

/-- Writes the masks back to the descriptor (R259, R280). -/
def State.writeMasks (s : State) (r : QRef) : State :=
  match s.descKey r with
  | some key => s.poke (key + 16) (leBytes 8 (s.queue r).producers.toNat ++ leBytes 8 (s.queue r).consumers.toNat)
  | none => s

/-- Sets a slot's registration on a queue; a cluster queue becomes active with its first bit, and inactive with its last
(R259, R260). None when activation is refused. [log 105 DEDUCED] -/
def State.register (s : State) (r : QRef) (bit : Word) (prod cons : Bool) : Option State :=
  let q := s.queue r
  let f (m : Word) (b : Bool) : Word := if b then m ||| bit else m &&& ~~~bit
  let p' := f q.producers prod
  let c' := f q.consumers cons
  let was := q.producers ||| q.consumers ≠ 0
  let is := p' ||| c' ≠ 0
  -- the cluster's entry of the queue map table is read with a descriptor
  let s := if is && !was then s.readMap r.cluster else s
  match r with
  | .cq _ _ =>
    if is && !was then
      match s.readDesc r q with
      | none => none
      | some q' => some (((s.setQueue r { q' with producers := p', consumers := c' }).writeMasks r).serveQueue r q.fuel)
    else some ((s.setQueue r { q with producers := p', consumers := c', active := q.active && is }).writeMasks r)
  | _ => some ((s.setQueue r { q with producers := p', consumers := c' }).writeMasks r)

/-- Clears registrations of a slot of a core (R260). -/
def State.dropRegs (s : State) (c : Nat) (k : SlotN) (regs : List (Word × Bool × Bool)) : State :=
  regs.foldl (fun s e =>
    match qref c e.1 with
    | some r => (s.register r (regBit c k) false false).getD s
    | none => s) s

/-- Moves registrations from one slot of the cluster to another (R260). -/
def State.moveRegs (s : State) (c : Nat) (k : SlotN) (c' : Nat) (k' : SlotN) (regs : List (Word × Bool × Bool)) : State :=
  if c = c' ∧ k = k' then s else
  regs.foldl (fun s e =>
    match qref c e.1 with
    | some r => (((s.register r (regBit c' k') e.2.1 e.2.2).getD s).register r (regBit c k) false false).getD s
    | none => s) s

/-- Clears every registration of the thread in a slot, of both slots for a pair (R260). -/
def State.unregister (s : State) (c : Nat) (k : SlotN) : State :=
  let t := s.thr c k
  ((s.dropRegs c k t.regs).dropRegs c (k + 1) t.regsOdd).modThr c k fun t => { t with regs := [], regsOdd := [] }

/-! ### Inboxes -/

/-- Header that MRECV writes (R282). -/
def Msg.header (m : Msg) : Word :=
  BitVec.ofNat 64 (m.orphan.toNat * 2 ^ 55 + m.tag * 2 ^ 48) ||| (m.src &&& 0x0000FFFFFFFFFFFF#64)

/-- A message is held for a thread of the inbox's core: its own, and in slot 0 an orphan (R282, R283). [log 106 DEDUCED] -/
def Msg.heldFor (m : Msg) (k : SlotN) (serial : Nat) : Bool := (!m.orphan && m.dst.serial == serial) || (m.orphan && k == 0)

/-- The oldest message a slot may take (R282). -/
def CoreCtx.nextMsg (x : CoreCtx) (k : SlotN) (serial : Nat) : Option Msg := x.inbox.find? fun m => m.heldFor k serial

/-- Gives the oldest takeable message to a thread parked in MRECV (R283). [log 102 DEDUCED] -/
def State.serveRecv (s : State) (c : Nat) (k : SlotN) : State :=
  match (s.slot c k).thread? with
  | none => s
  | some t =>
    match t.st, t.wait with
    | .parked, .recv rd rh =>
      match (s.core c).c.nextMsg k t.serial with
      | some m =>
        (s.modCtx c fun x => { x with inbox := x.inbox.erase m }).modThr c k fun t =>
          t.answer (s.core c).cycle true { ws := [.x rd m.payload, .x rh m.header] }
      | none => s
    | _, _ => s

/-- Messages of a thread that ended become orphans, held for slot 0, which may be parked in MRECV for one (R283). -/
def State.orphan (s : State) (c n : Nat) : State :=
  (s.modCtx c fun x =>
    { x with inbox := x.inbox.map fun m => if m.dst.serial = n then { m with orphan := true } else m }).serveRecv c 0

/-! ### Mailboxes -/

/-- A put has been performed and is acknowledged, at once on its own core; a parked one completes (R247, R284). [log 33
DEDUCED] -/
def State.putDone (s : State) (c : Nat) (i : Fin 4) (w : TRef) (launch : BitVec 32) : State :=
  let parked : Bool := match s.findRef w with
    | some t => match t.wait with
      | .mbxPut c' i' _ => c' == c && i' == i && !(((s.core c).c.mbx[i]).puts.any fun x => x.1 == w) &&
          !s.posted.any fun p => p.isPut w c i
      | _ => false
    | none => false
  let s1 := if parked then s.modRef w fun t => t.answer (s.core w.core).cycle (w.core == c) {} else s
  if w.core = c then s1.modRef w fun t => t.subPsc 2 else { s1 with acks := s1.acks ++ [⟨w, 2, launch, [], none⟩] }

/-- Performs what a mailbox allows: the oldest held put fills it when it is empty, and the oldest held get empties it when
it is full (R284). [log 102 DEDUCED] -/
def State.serveMbx (s : State) (c : Nat) (i : Fin 4) : Nat → State
  | 0 => s
  | f + 1 =>
    let m := (s.core c).c.mbx[i]
    let set (m : Mailbox) : State := s.modCtx c fun x => { x with mbx := x.mbx.set i m }
    match m.val, m.gets, m.puts with
    | some v, w :: ws, _ =>
      ((set { m with val := none, gets := ws }).modRef w fun t =>
        match t.wait with
        | .mbxGet _ _ rd => t.answer (s.core w.core).cycle (w.core == c) { ws := [.x rd v] }
        | _ => t).serveMbx c i f
    | none, _, (w, v, l) :: ps => ((set { m with val := some v, puts := ps }).putDone c i w l).serveMbx c i f
    | _, _, _ => s

/-- Puts and gets that a mailbox may hold at most, for `serveMbx`. -/
def Mailbox.fuel (m : Mailbox) : Nat := 2 * (m.puts.length + m.gets.length) + 2

/-- Performs a put at the holding core, or holds it behind a full mailbox (R284). -/
def State.putMbx (s : State) (c : Nat) (i : Fin 4) (w : TRef) (v : Word) (launch : BitVec 32) : State :=
  let m := (s.core c).c.mbx[i]
  (s.modCtx c fun x => { x with mbx := x.mbx.set i { m with puts := m.puts ++ [(w, v, launch)] } }).serveMbx c i (m.fuel + 2)

end Sys2Proof.Machine
end

