-- ==== Sys2Proof/Machine/Access.lean ====
section
/-! DEFINITION. Access.lean: loads and stores of threads and engines in every space: checks and translation, chunks, undo
log and store buffer, posted stores, full/empty answers (R132, R184 to R205, R238 to R248). -/

namespace Sys2Proof.Machine

/-! ### Where an access goes, or what stops it -/

/-- Where a checked access goes. -/
inductive Target where
  | lane (key : Nat)
  | own (off key : Nat)
  | remote (core off key : Nat)
  | slate (die key : Nat)
  | global (p : Phys)
  deriving DecidableEq, Repr

/-- What stops an access: a trap; an uncorrectable error in a stage-1 entry of the walk; a stage-2 failure, with the trap of
its refusal; a page being moved. -/
inductive AccErr where
  | trap (p : Trap)
  | table (p : Trap)
  | stage2 (p : Trap) (ipa : Nat)
  | moving (ipn : Nat)
  /-- A write of an engine to a scene-shared line that its home has still to give to this module (R199). -/
  | unowned (line : Nat)
  /-- A line whose owner lies across a port that is being moved (R397). -/
  | across (m : Nat)
  deriving DecidableEq, Repr

/-- Causes of a refused window address (R184). -/
def Need.refusedCause : Need → Nat
  | .store => 7
  | .fetch => 1
  | _ => 5

/-- Checks an address for an access and translates it, through the core's micro-TLB for its threads (R132, R184, R186, R190
to R194, R200, R397). -/
def State.resolve (s : State) (c a : Nat) (need : Need) (micro : Bool := true) : State × Except AccErr Target :=
  let val := BitVec.ofNat 64 a
  match s.place c a with
  | .lane key => (s, .ok (.lane key))
  | .own off key => (s, .ok (.own off key))
  | .remote c' off key => (s, .ok (.remote c' off key))
  | .slate d key => (s, .ok (.slate d key))
  | .crucible _ _ => (s, .error (.trap { cause := 32, val := val, val2 := 1 }))
  | .refused => (s, .error (.trap { cause := need.refusedCause, val := val }))
  | .global va =>
    match s.partOf c with
    | none => (s, .error (.trap { cause := need.refusedCause, val := val }))
    | some p =>
      match s.translate p c micro va need with
      | (s1, .error f) =>
        (s1, .error (if f.stage2 then .stage2 (f.trapOf need va) f.ipa
          else if f.ecc then .table (f.trapOf need va) else .trap (f.trapOf need va)))
      | (s1, .ok ph) =>
        if ph.shared && s1.mgmt.lost.contains (s1.shHome.getD (ph.pa / 2 ^ 16) s1.modnum.val) then
          (s1, .error (.trap { cause := 31, val := val }))
        else if ph.shared && (s1.acrossMove (ph.pa / 64)).isSome then (s1, .error (.across ((s1.acrossMove (ph.pa / 64)).getD 0)))
        else if need = .store ∧ (p.cfg.part, ph.ipa / 2 ^ 16) ∈ s1.movingPages then (s1, .error (.moving (ph.ipa / 2 ^ 16)))
        else (s1, .ok (.global ph))

/-- Key of the first byte of a checked access. -/
def Target.key : Target → Nat
  | .lane k => k
  | .own _ k => k
  | .remote _ _ k => k
  | .slate _ k => k
  | .global p => p.pa

/-- The access is performed before the thread's next turn (R49). -/
def Target.isLocal : Target → Bool
  | .lane _ => true
  | .own _ _ => true
  | _ => false

/-- Destination code of a posted operation: the owning core, or the Slate line (R248). -/
def Target.dest : Target → Nat
  | .remote c _ _ => c
  | .slate _ k => k / 64 * 64
  | _ => 0

/-- Class of its posted counter (R247). -/
def Target.cls : Target → Fin 3
  | .slate _ _ => 1
  | _ => 0

/-- Stops the thread's instruction at a failed access (R193, R200). [log 87 DEDUCED] -/
def accStop {α : Type} (s : State) (c : Nat) (k : SlotN) (e : AccErr) : Got α :=
  match e with
  | .trap p => trap s c k p
  | .table p => trap s c k p
  | .moving ipn => .stop (s.park c k (.cond (.moving ipn)))
  | .unowned line => .stop (s.park c k (.cond (.own line)))
  | .across m => .stop (s.park c k (.cond (.port m)))
  | .stage2 p ipa =>
    let w : S2Wait := ⟨(s.thr c k).ref c, p.val, p.cause, p.val2, ipa, ((s.core c).part).getD 0⟩
    .stop ({ s with s2waits := s.s2waits ++ [w] }.park c k (.cond (.stage2 (ipa / 2 ^ 16))))

/-- Lifts a checked access into an instruction. -/
def resolveFor (s : State) (c : Nat) (k : SlotN) (a : Nat) (need : Need) : Got Target :=
  match s.resolve c a need with
  | (s1, .ok t) => .ok s1 t
  | (s1, .error e) => accStop s1 c k e

/-! ### Locks -/

/-- A thread's access waits while the lock of another slot covers it (R49, R214). -/
def lockWait (s : State) (c : Nat) (k : SlotN) (t : Target) (n : Nat) : Got Unit :=
  match t with
  | .own off _ => waitFor s c k (.range c off n) (!s.lockHolds c off n (some (c, k)))
  | .remote c' off _ => waitFor s c k (.range c' off n) (!s.lockHolds c' off n (some (c, k)))
  | _ => .ok s ()

/-- Lines that n bytes at a key meet, by their first key. -/
def linesAt (key n : Nat) : List Nat := (List.range ((key + n - 1) / 64 - key / 64 + 1)).map fun i => (key / 64 + i) * 64

/-- The destinations of a posted operation: its core; the Slate lines, or the Crucible rows, that it acts on (R234, R248).
-/
def Posted.dests (p : Posted) : List Nat :=
  match p.op with
  | .szero row n rows => (List.range rows).map fun i => row + i * (12 * n + 64)
  | .fe key n _ => if p.cls = 1 then linesAt key n else [p.dest]
  | .store key bs _ => if p.cls = 1 then linesAt key bs.length else [p.dest]
  | _ => [p.dest]

/-- Some posted operation of a thread is on its way to a destination (R248). -/
def State.sentTo (s : State) (r : TRef) (d : Nat) : Bool := s.posted.any fun p => p.src == r && p.dests.contains d

/-- A later access waits for the thread's posted operations to its destination (R248). -/
def destWait (s : State) (c : Nat) (k : SlotN) (t : Target) : Got Unit :=
  let r := (s.thr c k).ref c
  match t with
  | .remote _ _ _ => waitFor s c k (.dest t.dest) (!s.sentTo r t.dest)
  | .slate _ _ => waitFor s c k (.dest t.dest) (!s.sentTo r t.dest)
  | _ => .ok s ()

/-! ### Opening and closing chunks -/

/-- Instruction limit of the next chunk of a thread of a core (R216, R326). [log 91 DEDUCED] -/
def State.chunkMax (s : State) (c : Nat) (t : Thread) : Nat :=
  match s.partOf c with
  | some p => chunkLimit p.mode.clen t.clim
  | none => chunkLimit 0 t.clim

/-- The next chunk from this pc runs solo (R245). -/
def Thread.soloNext (t : Thread) : Bool := t.squashPc == t.a.pc && 2 ≤ t.squashRun

/-- Opens a chunk at the first access to a translated address; a solo one needs the commit token (R240, R245). [log 91
DEDUCED] -/
def ensureChunk (s : State) (c : Nat) (k : SlotN) : Got Unit :=
  let t := s.thr c k
  match t.chunk with
  | some _ => .ok s ()
  | none =>
    let solo := t.soloNext && t.soloChunk.isNone
    let r := t.ref c
    if solo ∧ s.token ≠ some r then
      .stop ({ s with tokenQ := if r ∈ s.tokenQ then s.tokenQ else s.tokenQ ++ [r] }.park c k (.cond .token))
    else
      .ok (s.modThr c k fun t =>
        { t with
          chunkNo := t.chunkNo + 1
          chunk := some
            { start := t.a, startHeld := t.held, openSeq := s.commitSeq, insns := 0, reads := [], writes := [], shared := [], buf := [],
              undo := [], solo := solo, limit := if solo then 16 else s.chunkMax c t, no := t.chunkNo + 1 } }) ()

/-- Closes the open chunk without holding the thread: an earlier closed one is judged first, and a solo one commits at
once if its stores are performed. False when a squash has restored the thread (R242, R245). -/
def State.softClose (s : State) (c : Nat) (k : SlotN) : State × Bool :=
  match s.judgeClosed c k with
  | (s1, false) => (s1, false)
  | (s1, true) =>
    match (s1.thr c k).chunk with
    | none => (s1, true)
    | some ch =>
      if ch.solo && (s1.thr c k).judgeable ch then s1.commit c k
      else (s1.modThr c k fun t => { t with closed := some ch, chunk := none }, true)

/-- Closes the open chunk before a store that would not fit it (R240). -/
def softCloseIf (s : State) (c : Nat) (k : SlotN) (b : Bool) : Got Unit :=
  if b then
    if !(s.thr c k).closable then .stop (s.park c k (.cond .judged)) else
    match s.softClose c k with
    | (s1, true) => .ok s1 ()
    | (s1, false) => .stop s1
  else .ok s ()

/-- Changes the open chunk. -/
def Thread.modChunk (t : Thread) (f : Chunk → Chunk) : Thread := { t with chunk := t.chunk.map f }

/-! ### Reading -/

/-- A byte of translated memory as the thread sees it: its buffered stores, newest first, then memory (R238). -/
def State.seen (s : State) (t : Thread) (key : Nat) : Byte :=
  let own (ch : Option Chunk) : Option Byte :=
    match ch with
    | some ch => (ch.buf.find? fun e => e.1 == key).map (·.2)
    | none => none
  match own t.chunk with
  | some b => b
  | none =>
    match own t.closed with
    | some b => b
    | none => s.byte key

/-- Bytes of a checked access; none at an uncorrectable error (R188). -/
def State.readAt (s : State) (t : Thread) (tg : Target) (n : Nat) : Option (List Byte) :=
  match badIn s.bad tg.key n with
  | some _ => none
  | none =>
    match tg with
    | .global p => some ((List.range n).map fun i => s.seen t (p.pa + i))
    | tg => some (s.bytes tg.key n)

/-- An engine's access to a piece of scene-shared memory: a read takes copies of its lines, a write obtains them, or names
one that it has to wait for (R199). -/
def State.engineShares (s : State) (t : Target) (n : Nat) (need : Need) : State × Option Nat :=
  match t with
  | .global p =>
    let lines := (List.range ((p.pa + n - 1) / 64 - p.pa / 64 + 1)).map fun i => p.pa / 64 + i
    if !p.shared then (s, none)
    else if need = .store then
      let s1 := s.obtain lines
      (s1, lines.find? fun l => !s1.ownsLine l)
    else (lines.foldl (fun s l => s.shCopy l s.modnum.val) s, none)
  | _ => (s, none)

/-- Reads for a thread: signature, owner's count, and cause 31 at an uncorrectable error (R188, R197, R241). -/
def readFor (s : State) (c : Nat) (k : SlotN) (a : Nat) (tg : Target) (n : Nat) : Got (List Byte) :=
  let rd (s : State) : Got (List Byte) :=
    match s.readAt (s.thr c k) tg n with
    | some bs => .ok s bs
    | none => trap s c k { cause := 31, val := BitVec.ofNat 64 a }
  match tg with
  | .global p =>
    (ensureChunk s c k).bind fun s _ =>
    let line := p.pa / 64
    let s1 := if p.shared then s.shCopy line s.modnum.val else s
    rd ((s1.modThr c k fun t => t.modChunk fun ch => { ch with reads := addLine ch.reads line }).noteLine (clusterOf c) line)
  | _ => rd s

/-- Parks until the reply of an operation already performed at its owner, some cycles from now at the earliest (R49, R51).
[log 100 DEDUCED] -/
def replyWait {α : Type} (s : State) (c : Nat) (k : SlotN) (fin : Completion) (after : Nat := 1) : Got α :=
  .stop (s.park c k (.reply ((s.core c).cycle + after) false fin))

/-- Delivers a result: at once when the access was local, else with the reply (R49). -/
def deliver (s : State) (c : Nat) (k : SlotN) (local_ : Bool) (fin : Completion) : Got Completion :=
  if local_ then .ok s fin else replyWait s c k fin

/-- A misaligned address traps (R132). -/
def aligned (s : State) (c : Nat) (k : SlotN) (a n cause : Nat) : Got Unit :=
  if a % n = 0 then .ok s () else trap s c k { cause := cause, val := BitVec.ofNat 64 a }

/-- An access meets bytes of a vector access of the thread that is not yet performed (R151). -/
def Thread.overlaps (t : Thread) (key n : Nat) : Bool :=
  t.vq.any fun p => p.done.isNone && p.els.any fun e => e.val.isNone && e.key < key + n && key < e.key + e.n

/-- Waits for the thread's vector accesses that meet the bytes (R151). -/
def overlapWait (s : State) (c : Nat) (k : SlotN) (key n : Nat) : Got Unit :=
  waitFor s c k (.overlap key n) (!(s.thr c k).overlaps key n)

/-- A scalar load of n bytes: the completion it gives its value (R132, R201). -/
def scalarLoad (s : State) (c : Nat) (k : SlotN) (a n : Nat) (fin : Nat → Completion) : Got Completion :=
  (aligned s c k a n 4).bind fun s _ =>
  (resolveFor s c k a .load).bind fun s tg =>
  (destWait s c k tg).bind fun s _ =>
  (lockWait s c k tg n).bind fun s _ =>
  (overlapWait s c k tg.key n).bind fun s _ =>
  (readFor s c k a tg n).bind fun s bs =>
  deliver s c k tg.isLocal (fin (leNat bs))

/-! ### Storing -/

/-- Room in a posted counter (R122). -/
def roomWait (s : State) (c : Nat) (k : SlotN) (i n : Nat) : Got Unit :=
  waitFor s c k (.room i) ((s.thr c k).psc i + n ≤ 0xFFFF)

/-- Writes a byte list to the local memory of the core, logging old bytes in an open chunk (R241, R246). -/
def State.storeLocal (s : State) (c : Nat) (k : SlotN) (cells : List Host.Cell) : State :=
  let old := cells.map fun e => (e.1, s.byte e.1)
  (s.pokeCells cells.reverse).modThr c k fun t => t.modChunk fun ch => { ch with undo := old :: ch.undo }

/-- The cells of bytes at a key. -/
def cellsAt (key : Nat) (bs : List Byte) : List Host.Cell := bs.mapIdx fun i b => (key + i, b)

/-- Lines of the own memories that a strip's logged stores meet, as the log counts them: a VSTL counts once (R160). -/
def Strip.logLines (p : Strip) : Nat :=
  let ls := (p.els.filter fun e => match e.place with | .lane => true | .own => true | _ => false).map fun e => e.key / 64
  if !p.isStore || !p.logged then 0
  else match p.instr with
    | .vstl _ _ _ => if ls = [] then 0 else 1
    | _ => (ls.foldl addLine []).length

/-- The open chunk has no room for n more logged stores, those of pending strips counted (R240). -/
def Thread.logFull (t : Thread) (n : Nat) : Bool :=
  match t.chunk with
  | some ch => 32 < ch.undo.length + ((t.vq.filter fun p => p.done.isNone && p.no == ch.no).map Strip.logLines).sum + n
  | none => false

/-- The open chunk has no room for the lines (R240). -/
def Thread.bufFull (t : Thread) (lines : List Nat) : Bool :=
  match t.chunk with
  | some ch => 64 < (lines.foldl addLine ch.writes).length
  | none => false

/-- Buffers cells of translated memory in the open chunk (R241). -/
def State.buffer (s : State) (c : Nat) (k : SlotN) (shared : Bool) (cells : List Host.Cell) : State :=
  let lines := cells.map fun e => e.1 / 64
  let s := if shared then s.obtain lines else s
  s.modThr c k fun t => t.modChunk fun ch =>
    { ch with
      shared := if shared then (lines.filter fun l => !s.ownsLine l).foldl addLine ch.shared else ch.shared
      buf := cells.reverse ++ ch.buf.filter fun e => !cells.any fun x => x.1 == e.1
      writes := lines.foldl addLine ch.writes }

/-- Closes the chunk before an operation that passes the commit gate, and waits for room in its counter (R122, R240). -/
def gate (s : State) (c : Nat) (k : SlotN) (i n : Nat) : Got Unit :=
  (commitFirst s c k).bind fun s _ => roomWait s c k i n

/-- Posts an operation of a thread (R247). -/
def State.postFor (s : State) (c : Nat) (k : SlotN) (cls : Fin 3) (dest : Nat) (op : POp) : State :=
  let t := s.thr c k
  s.post (t.ref c) cls dest op t.launch

/-- Stores bytes at a checked place: logged locally, buffered globally or posted (R132, R241, R247). -/
def storeAt (s : State) (c : Nat) (k : SlotN) (tg : Target) (bs : List Byte) : Got Unit :=
  let cells := cellsAt tg.key bs
  match tg with
  | .global p =>
    (softCloseIf s c k ((s.thr c k).bufFull [p.pa / 64])).bind fun s _ =>
    (ensureChunk s c k).bind fun s _ =>
    .ok (s.buffer c k p.shared cells) ()
  | .remote _ _ _ =>
    (gate s c k 0 1).bind fun s _ => .ok (s.postFor c k 0 tg.dest (.store tg.key bs false)) ()
  | .slate _ _ =>
    (gate s c k 1 1).bind fun s _ => .ok (s.postFor c k 1 tg.dest (.store tg.key bs false)) ()
  | _ =>
    (softCloseIf s c k ((s.thr c k).logFull 1)).bind fun s _ => .ok (s.storeLocal c k cells) ()

/-- A store to the own scratchpad waits for the lock (R214); elsewhere the memory port holds it. -/
def ownLockWait (s : State) (c : Nat) (k : SlotN) (tg : Target) (n : Nat) : Got Unit :=
  match tg with
  | .own _ _ => lockWait s c k tg n
  | _ => .ok s ()

/-- A scalar store of the n low bytes of a value (R132, R201). -/
def scalarStore (s : State) (c : Nat) (k : SlotN) (a n : Nat) (v : Word) : Got Completion :=
  (aligned s c k a n 6).bind fun s _ =>
  (resolveFor s c k a .store).bind fun s tg =>
  (ownLockWait s c k tg n).bind fun s _ =>
  (overlapWait s c k tg.key n).bind fun s _ =>
  (storeAt s c k tg (leBytes n v.toNat)).bind fun s _ =>
  .ok s {}

/-! ### Full/empty answers -/

/-- Every word of a range is full (R203). -/
def State.allFull (s : State) (key n : Nat) : Bool := (wordsOf key n).all s.isFull

/-- Answers every waiting LDX.F whose words are full; one that meets an uncorrectable error, or the locked range of another
slot, is performed then, and traps or waits (R188, R203, R214, R219). -/
def State.answerFull (s : State) : State :=
  s.allThreads.foldl (fun s e =>
    match e.2.2.st, e.2.2.wait with
    | .parked, .full key n _ rd =>
      if !s.allFull key n then s
      else if (badIn s.bad key n).isSome || (s.spanLock [(key, n)] (some (e.1, e.2.1))).isSome then
        s.modThr e.1 e.2.1 fun t => { t with wait := .given (s.core e.1).cycle }
      else
        s.modThr e.1 e.2.1 fun t =>
          { t with wait := .reply (s.core e.1).cycle false { ws := [.x rd (BitVec.ofNat 64 (s.num key n))] } }
    | _, _ => s) s

/-- Writes bytes and sets the full bits of their words, then answers waiting loads (R187, R203). -/
def State.pokeFull (s : State) (key : Nat) (bs : List Byte) : State :=
  ((s.poke key bs).setFull key bs.length true).answerFull

/-- Changes the full bits of a range (R210, R219). -/
def State.changeFull (s : State) (key n : Nat) (v : Bool) : State :=
  if v then (s.setFull key n true).answerFull else s.setFull key n false

/-! ### Scene-shared lines -/

/-- Applies every pending invalidation: later loads read the lines' new bytes (R255). -/
def State.applyShared (s : State) : State :=
  let s1 := s.shPending.foldl (fun s e => s.poke (e.1 * 64) e.2) s
  { s1 with shPending := [] }

/-- Another module comes to own a line: chunks here that have stored to it must obtain it again (R199, R255). [log 55
DEDUCED] -/
def State.loseLine (s : State) (line : Nat) : State :=
  let add (ch : Chunk) : Chunk := if ch.writes.contains line then { ch with shared := addLine ch.shared line } else ch
  { s.mapThreads fun t => { t with chunk := t.chunk.map add, closed := t.closed.map add } with
    shOwned := s.shOwned.filter fun l => l != line }

/-! ### Atomics -/

/-- An access to a line in another thread's solo chunk waits at the owner (R245). -/
def soloWait (s : State) (c : Nat) (k : SlotN) (line : Nat) : Got Unit :=
  let held := match s.soloLines with
    | some (r, ls) => r != (s.thr c k).ref c && ls.any fun l => l == line
    | none => false
  waitFor s c k (.solo line) !held

/-- Waits until every invalidation that the thread's stores caused is acknowledged (R255). [log 55 DEDUCED] -/
def shAcksWait (s : State) (c : Nat) (k : SlotN) : Got Unit :=
  waitFor s c k .shAcks (!s.shUnacked.any fun e => e.2.contains ((s.thr c k).ref c))

/-- An atomic on a scene-shared page: a release waits for the invalidations of the thread's stores, and the module obtains
the line from its home (R199, R205, R255). [log 55 DEDUCED] -/
def sharedWait (s : State) (c : Nat) (k : SlotN) (p : Phys) (rl : Bool) : Got Unit :=
  if !p.shared then .ok s () else
  (if rl then shAcksWait s c k else .ok s ()).bind fun s _ =>
  let s := s.obtain [p.pa / 64]
  waitFor s c k (.own (p.pa / 64)) (s.ownsLine (p.pa / 64))

/-- Every posted counter of the thread reads zero (R204). -/
def drainWait (s : State) (c : Nat) (k : SlotN) : Got Unit :=
  let t := s.thr c k
  waitFor s c k .drained (t.psc0 == 0 && t.psc1 == 0 && t.psc2 == 0)

/-- An atomic of n bytes: f gives the value to store, or none, from the old one (R204 to R206). -/
def atomic (s : State) (c : Nat) (k : SlotN) (a n : Nat) (aq rl : Bool) (f : Nat → Option Nat) (rd : XReg) :
    Got Completion :=
  (aligned s c k a n 6).bind fun s _ =>
  (resolveFor s c k a .store).bind fun s tg =>
  (commitFirst s c k).bind fun s _ =>
  (if rl then drainWait s c k else .ok s ()).bind fun s _ =>
  (if rl then overlapWait s c k 0 (2 ^ 64) else .ok s ()).bind fun s _ =>
  (overlapWait s c k tg.key n).bind fun s _ =>
  (destWait s c k tg).bind fun s _ =>
  (lockWait s c k tg n).bind fun s _ =>
  (match tg with
    | .global p => (soloWait s c k (p.pa / 64)).bind fun s _ => sharedWait s c k p rl
    | _ => .ok s ()).bind fun s _ =>
  match badIn s.bad tg.key n with
  | some _ => trap s c k { cause := 31, val := BitVec.ofNat 64 a }
  | none =>
    let old := s.num tg.key n
    let s1 := match f old with
      | some v => s.poke tg.key (leBytes n v)
      | none => s
    let s2 := match tg with
      | .global p => ((s1.record [p.pa / 64]).noteLine (clusterOf c) (p.pa / 64)).shStored ((s1.thr c k).ref c) [p.pa / 64]
      | _ => s1
    -- an acquire on a scene-shared page applies the pending invalidations (R255)
    let s3 := match tg with
      | .global p => if aq ∧ p.shared then s2.applyShared else s2
      | _ => s2
    let v : Word := if n = 4 then (BitVec.ofNat 32 old).signExtend 64 else BitVec.ofNat 64 old
    deliver s3 c k tg.isLocal { ws := [.x rd v] }

end Sys2Proof.Machine
end

