-- ==== Sys2Proof/WellFormed.lean ====
section
/-! DEFINITION. WellFormed.lean: the checks an instruction's fields must pass (R111 and the entries' field limits). -/

namespace Sys2Proof

namespace VType
/-- Class 000 takes every type but c32 (R115, R155). -/
def isReal : VType → Bool
  | .c32 => false
  | _ => true
/-- The integer types (R157). -/
def isInt : VType → Bool
  | .i32 => true
  | .i8 => true
  | .u8 => true
  | _ => false
/-- The floating types of real elements. -/
def isFloat : VType → Bool
  | .f32 => true
  | .bf16 => true
  | .f16 => true
  | _ => false
end VType

/-- CSR numbers that exist (R105): user, read-only, cycle, instret and the supervisor ones. -/
def csrExists (c : BitVec 12) : Bool :=
  let n := c.toNat
  (0x800 ≤ n && n ≤ 0x809) || (0xCC0 ≤ n && n ≤ 0xCC4) || n == 0xCC6 || n == 0xC00 || n == 0xC02 ||
  (0x5C0 ≤ n && n ≤ 0x5C3)

/-- The rows of the opcode table that a word encodes. -/
def Instr.isWord : Instr → Bool
  | .lui _ _ => true
  | .auipc _ _ => true
  | .jal _ _ => true
  | .jalr _ _ _ => true
  | .beq _ _ _ => true
  | .bne _ _ _ => true
  | .blt _ _ _ => true
  | .bge _ _ _ => true
  | .bltu _ _ _ => true
  | .bgeu _ _ _ => true
  | .lb _ _ _ => true
  | .lh _ _ _ => true
  | .lw _ _ _ => true
  | .lbu _ _ _ => true
  | .lhu _ _ _ => true
  | .lwu _ _ _ => true
  | .ld _ _ _ => true
  | .sb _ _ _ => true
  | .sh _ _ _ => true
  | .sw _ _ _ => true
  | .sd _ _ _ => true
  | .addi _ _ _ => true
  | .slti _ _ _ => true
  | .sltiu _ _ _ => true
  | .xori _ _ _ => true
  | .ori _ _ _ => true
  | .andi _ _ _ => true
  | .slli _ _ _ => true
  | .srli _ _ _ => true
  | .srai _ _ _ => true
  | .add _ _ _ => true
  | .sub _ _ _ => true
  | .sll _ _ _ => true
  | .slt _ _ _ => true
  | .sltu _ _ _ => true
  | .xor _ _ _ => true
  | .srl _ _ _ => true
  | .sra _ _ _ => true
  | .or _ _ _ => true
  | .and _ _ _ => true
  | .addiw _ _ _ => true
  | .slliw _ _ _ => true
  | .srliw _ _ _ => true
  | .sraiw _ _ _ => true
  | .addw _ _ _ => true
  | .subw _ _ _ => true
  | .sllw _ _ _ => true
  | .srlw _ _ _ => true
  | .sraw _ _ _ => true
  | .mul _ _ _ => true
  | .mulh _ _ _ => true
  | .mulhsu _ _ _ => true
  | .mulhu _ _ _ => true
  | .div _ _ _ => true
  | .divu _ _ _ => true
  | .rem _ _ _ => true
  | .remu _ _ _ => true
  | .mulw _ _ _ => true
  | .divw _ _ _ => true
  | .divuw _ _ _ => true
  | .remw _ _ _ => true
  | .remuw _ _ _ => true
  | .csrrw _ _ _ => true
  | .csrrs _ _ _ => true
  | .csrrc _ _ _ => true
  | .csrrwi _ _ _ => true
  | .csrrsi _ _ _ => true
  | .csrrci _ _ _ => true
  | .ldx _ _ _ _ _ _ => true
  | .ldxF _ _ _ _ _ _ => true
  | .stx _ _ _ _ _ _ => true
  | .stxF _ _ _ _ _ _ => true
  | .aadd _ _ _ _ _ _ => true
  | .aswp _ _ _ _ _ _ => true
  | .aand _ _ _ _ _ _ => true
  | .aor _ _ _ _ _ _ => true
  | .axor _ _ _ _ _ _ => true
  | .amax _ _ _ _ _ _ => true
  | .amin _ _ _ _ _ _ => true
  | .amaxu _ _ _ _ _ _ => true
  | .aminu _ _ _ _ _ _ => true
  | .acas _ _ _ _ _ _ => true
  | .afadd _ _ _ _ _ => true
  | .afmax _ _ _ _ _ => true
  | .aincw _ _ _ _ _ _ => true
  | .pseq _ _ _ _ => true
  | .psne _ _ _ _ => true
  | .pslt _ _ _ _ => true
  | .psge _ _ _ _ => true
  | .psltu _ _ _ _ => true
  | .psgeu _ _ _ _ => true
  | .pand _ _ _ _ => true
  | .por _ _ _ _ => true
  | .pandn _ _ _ _ => true
  | .pxor _ _ _ _ => true
  | .prd _ _ => true
  | .pwr _ _ _ => true
  | .limm _ _ _ => true
  | .fencer _ _ _ _ _ => true
  | .ldro _ _ _ _ => true
  | .feclr _ _ _ => true
  | .feset _ _ _ => true
  | .fetest _ _ _ => true
  | .cntwait _ _ => true
  | .stnibLo _ _ _ => true
  | .stnibHi _ _ _ => true
  | .lockr _ _ _ => true
  | .chunk _ _ _ => true
  | .pfetch _ _ _ _ => true
  | .spawn _ _ _ _ => true
  | .mspawn _ _ _ _ => true
  | .migr _ _ => true
  | .retire _ => true
  | .waitev _ _ => true
  | .pairon _ _ => true
  | .pairoff _ => true
  | .rep _ _ _ => true
  | .qpush _ _ _ => true
  | .qpop _ _ _ => true
  | .qwait _ _ _ _ => true
  | .qstat _ _ _ => true
  | .msend _ _ _ _ => true
  | .mrecv _ _ _ => true
  | .barset _ _ _ => true
  | .barrive _ _ _ => true
  | .barwait _ _ _ => true
  | .barstat _ _ _ => true
  | .qmap _ _ _ _ => true
  | .qreg _ _ _ => true
  | .mbxput _ _ _ => true
  | .mbxget _ _ _ => true
  | .cpyiss _ _ _ _ => true
  | .cpywait _ _ _ => true
  | .cpydone _ _ _ => true
  | .trpop _ _ => true
  | .xrdt _ _ _ _ => true
  | .xwrt _ _ _ _ => true
  | .xresume _ _ => true
  | .xkill _ _ => true
  | .tcswap _ _ _ _ => true
  | .dbrk _ _ => true
  | .stamp _ _ => true
  | .vadd _ _ _ _ => true
  | .vsub _ _ _ _ => true
  | .vmul _ _ _ _ => true
  | .vfma _ _ _ _ => true
  | .vfms _ _ _ _ => true
  | .vmin _ _ _ _ => true
  | .vmax _ _ _ _ => true
  | .vabs _ _ _ => true
  | .vneg _ _ _ => true
  | .vceq _ _ _ _ => true
  | .vclt _ _ _ _ => true
  | .vcle _ _ _ _ => true
  | .vsel _ _ _ _ => true
  | .vdiv _ _ _ => true
  | .vsqrt _ _ => true
  | .vrsqrt _ _ => true
  | .vrcp _ _ => true
  | .vexp2 _ _ => true
  | .vlog2 _ _ => true
  | .vsin _ _ => true
  | .vcos _ _ => true
  | .vand _ _ _ _ => true
  | .vor _ _ _ _ => true
  | .vxor _ _ _ _ => true
  | .vshl _ _ _ _ => true
  | .vshr _ _ _ _ => true
  | .vsra _ _ _ _ => true
  | .vcadd _ _ _ => true
  | .vcsub _ _ _ => true
  | .vcmul _ _ _ => true
  | .vcfma _ _ _ => true
  | .vcconj _ _ => true
  | .vcmag2 _ _ => true
  | .vcexpj _ _ => true
  | .vld _ _ _ => true
  | .vlds _ _ _ _ => true
  | .vst _ _ _ => true
  | .vsts _ _ _ _ => true
  | .vgath _ _ _ _ => true
  | .vscat _ _ _ _ => true
  | .vldl _ _ _ => true
  | .vstl _ _ _ => true
  | .vbcast _ _ _ => true
  | .vmvx _ _ _ _ => true
  | .vins _ _ _ _ => true
  | .vcfg _ _ _ => true
  | .vredadd _ _ _ => true
  | .vredmax _ _ _ => true
  | .vredmin _ _ _ => true
  | .vcvt _ _ _ => true
  | .vpack _ _ _ => true
  | .vunpk _ _ _ => true
  | .vperm _ _ _ _ => true
  | .vslide _ _ _ _ => true
  | .vkopAnd _ _ _ => true
  | .vkopOr _ _ _ => true
  | .vkopXor _ _ _ => true
  | .vkopNot _ _ => true
  | .vkopFromx _ _ => true
  | .vkopTox _ _ => true
  | .vkopCount _ _ => true
  | .vstat _ => true
  | .mcfg _ _ => true
  | .mgang _ _ _ _ => true
  | .mbld _ _ _ => true
  | .mma _ _ _ _ => true
  | .mzero _ _ => true
  | .mstore _ _ _ => true
  | .mstat _ _ => true
  | .mwait _ => true
  | .ptcfg _ _ _ => true
  | .ptserve _ _ => true
  | .ptenq _ _ => true
  | .topen _ _ _ _ => true
  | .pfork _ _ _ _ => true
  | .pdone _ => true
  | .nacc _ _ _ _ => true
  | .ndown _ _ _ => true
  | .ndownUp _ _ _ => true
  | .sacfg _ _ _ => true
  | .saddF32 _ _ _ => true
  | .saddBf16 _ _ _ => true
  | .snormRms _ _ _ => true
  | .snormLayer _ _ _ => true
  | .snormUnit _ _ _ => true
  | .ssq _ _ _ => true
  | .szero _ _ _ => true
  | .sevict _ _ _ => true
  | .sload _ _ _ => true
  | .sexport _ _ _ => true
  | .trace _ _ _ => true
  | .tresume _ _ _ => true
  | .twait _ _ _ => true
  | .taccept _ _ => true
  | .tignore _ _ => true
  | .tterm _ _ => true
  | .tspawn _ _ _ _ => true
  | .trsave _ _ => true
  | .hhtinv _ _ _ _ => true
  | .rsetup _ _ _ => true
  | .rcover _ _ _ _ => true
  | .rdepth _ _ _ _ => true
  | .fence => true
  | .ecall => true
  | .ebreak => true
  | .unlockr => true
  | .unlockrP1 => true
  | .unlockrP2 => true
  | .unlockrP3 => true
  | .unlockrP4 => true
  | .unlockrP5 => true
  | .unlockrP6 => true
  | .unlockrP7 => true
  | .vfence => true
  | .csrWrite => false
  | .vstatCsrWrite => false
  | .repeatCsrWrite => false
  | .dldetCsrWrite => false
  | .stripExecute => false
  | .stripComplete => false
  | .mgangExecute => false
  | .mbldExecute => false
  | .mmaExecute => false
  | .mzeroExecute => false
  | .mstoreExecute => false
  | .mmaOperandError => false
  | .taskDelivery => false
  | .taskSteal => false
  | .frontierRefill => false
  | .tasksExhausted => false
  | .tongsSpillFault => false
  | .heldSeedEntry => false
  | .saddBankUpdate => false
  | .crucibleRowError => false
  | .childRayStart => false
  | .rayCandidate => false
  | .stackRestart => false
  | .rayEnd => false
  | .rayFault => false
  | .replyArrival => false
  | .timingErrorReplay => false
  | .replayRateReport => false
  | .launchEntryRead => false
  | .launchPlacement => false
  | .priorityPromotion => false
  | .launchCompletion => false
  | .migrantArrival => false
  | .spillRefill => false
  | .packetAcceptance => false
  | .migrantParkSwap => false
  | .slotRemoval => false
  | .slotReturn => false
  | .waitLimitExpiry => false
  | .barrierTimeout => false
  | .gangTimeout => false
  | .deferredTrap => false
  | .deadlockPass => false
  | .prefectSample => false
  | .chunkLimitClose => false
  | .chunkCommit => false
  | .commitTokenGrant => false
  | .postedOpArrival => false
  | .postedAck => false
  | .queuePushPerform => false
  | .messageDepart => false
  | .messageArrival => false
  | .copyJobStart => false
  | .copyJobComplete => false
  | .barrierArrivalSignal => false
  | .barrierReleaseSignal => false
  | .pageWalk => false
  | .stage2Repair => false
  | .stage2Refusal => false
  | .tlbInvalidateRange => false
  | .tlbInvalidateAll => false
  | .tlbInvalidateNonglobal => false
  | .rootRereadInvalidate => false
  | .lineMigration => false
  | .migratedLineEviction => false
  | .samplerInvalidate => false
  | .shOwnershipRequest => false
  | .shInvalidationReceive => false
  | .pageConsolidation => false
  | .patrolScrub => false
  | .budgetPeriod => false
  | .modeTableRequest => false
  | .mgmtSlot0Resume => false
  | .mgmtSlot0Kill => false
  | .launchQueueReset => false
  | .partitionReset => false
  | .debugSessionOpen => false
  | .debugSessionClose => false
  | .debugSessionStep => false
  | .eventCounterSelect => false
  | .portControlRequest => false
  | .ueMessageReceive => false
  | .ueDeliveryFailure => false
  | .hostWrite => false
  | .hostRead => false
  | .cxlMemAccess => false
  | .linkPortFailure => false
  | .moduleLoss => false
  | .domainFormation => false
  | .moduleReset => false
  | .partitionCreate => false
  | .timeSliceExpiry => false
  | .partitionSwitch => false
  | .thermalLimit => false
  | .thermalRecovery => false
  | .powerCapExceeded => false
  | .efficiencyDividerStep => false
  | .stallMapCapture => false
  | .stampHoldRelease => false
  | .getVersion => false
  | .getCapabilities => false
  | .negotiateAlgorithms => false
  | .getDigests => false
  | .getCertificate => false
  | .challenge => false
  | .getMeasurements => false
  | .keyExchange => false
  | .finish => false
  | .endSession => false
  | .debugUnlock => false
  | .debugStop => false
  | .debugResume => false
  | .debugSingleStep => false
  | .debugStepToIdle => false
  | .debugGangStop => false
  | .debugStateRead => false
  | .debugCounterAccess => false
  | .debugTraceControl => false
  | .debugSessionExpiry => false
  | .rowPowerOff => false
  | .rowPowerOn => false
  | .idleRowVoltageDrop => false
  | .inFieldTest => false
  | .ballast => false
  | .shInvalidationApply => false
  | .timeSynchronisation => false
  | .linkRetransmission => false
  | .traceHeldRecordDrain => false

/-- Field values within the limits of the instruction's entry (R105, R111, R115). -/
def Instr.wf : Instr → Bool
  | .lui _ _ => true
  | .auipc _ _ => true
  | .jal _ _ => true
  | .jalr _ _ _ => true
  | .beq _ _ _ => true
  | .bne _ _ _ => true
  | .blt _ _ _ => true
  | .bge _ _ _ => true
  | .bltu _ _ _ => true
  | .bgeu _ _ _ => true
  | .lb _ _ _ => true
  | .lh _ _ _ => true
  | .lw _ _ _ => true
  | .lbu _ _ _ => true
  | .lhu _ _ _ => true
  | .lwu _ _ _ => true
  | .ld _ _ _ => true
  | .sb _ _ _ => true
  | .sh _ _ _ => true
  | .sw _ _ _ => true
  | .sd _ _ _ => true
  | .addi _ _ _ => true
  | .slti _ _ _ => true
  | .sltiu _ _ _ => true
  | .xori _ _ _ => true
  | .ori _ _ _ => true
  | .andi _ _ _ => true
  | .slli _ _ _ => true
  | .srli _ _ _ => true
  | .srai _ _ _ => true
  | .add _ _ _ => true
  | .sub _ _ _ => true
  | .sll _ _ _ => true
  | .slt _ _ _ => true
  | .sltu _ _ _ => true
  | .xor _ _ _ => true
  | .srl _ _ _ => true
  | .sra _ _ _ => true
  | .or _ _ _ => true
  | .and _ _ _ => true
  | .addiw _ _ _ => true
  | .slliw _ _ _ => true
  | .srliw _ _ _ => true
  | .sraiw _ _ _ => true
  | .addw _ _ _ => true
  | .subw _ _ _ => true
  | .sllw _ _ _ => true
  | .srlw _ _ _ => true
  | .sraw _ _ _ => true
  | .mul _ _ _ => true
  | .mulh _ _ _ => true
  | .mulhsu _ _ _ => true
  | .mulhu _ _ _ => true
  | .div _ _ _ => true
  | .divu _ _ _ => true
  | .rem _ _ _ => true
  | .remu _ _ _ => true
  | .mulw _ _ _ => true
  | .divw _ _ _ => true
  | .divuw _ _ _ => true
  | .remw _ _ _ => true
  | .remuw _ _ _ => true
  | .csrrw _ csr _ => csrExists csr
  | .csrrs _ csr _ => csrExists csr
  | .csrrc _ csr _ => csrExists csr
  | .csrrwi _ csr _ => csrExists csr
  | .csrrsi _ csr _ => csrExists csr
  | .csrrci _ csr _ => csrExists csr
  | .ldx _ _ _ _ _ _ => true
  | .ldxF _ _ _ _ _ _ => true
  | .stx _ _ _ _ _ _ => true
  | .stxF _ _ _ _ _ _ => true
  | .aadd _ _ _ _ _ _ => true
  | .aswp _ _ _ _ _ _ => true
  | .aand _ _ _ _ _ _ => true
  | .aor _ _ _ _ _ _ => true
  | .axor _ _ _ _ _ _ => true
  | .amax _ _ _ _ _ _ => true
  | .amin _ _ _ _ _ _ => true
  | .amaxu _ _ _ _ _ _ => true
  | .aminu _ _ _ _ _ _ => true
  | .acas _ _ _ _ _ _ => true
  | .afadd _ _ _ _ _ => true
  | .afmax _ _ _ _ _ => true
  | .aincw _ _ _ _ _ _ => true
  | .pseq _ _ _ _ => true
  | .psne _ _ _ _ => true
  | .pslt _ _ _ _ => true
  | .psge _ _ _ _ => true
  | .psltu _ _ _ _ => true
  | .psgeu _ _ _ _ => true
  | .pand _ _ _ _ => true
  | .por _ _ _ _ => true
  | .pandn _ _ _ _ => true
  | .pxor _ _ _ _ => true
  | .prd _ _ => true
  | .pwr _ _ _ => true
  | .limm _ _ _ => true
  | .fencer _ kinds _ _ _ => kinds != 0
  | .ldro _ _ _ _ => true
  | .feclr _ _ _ => true
  | .feset _ _ _ => true
  | .fetest _ _ _ => true
  | .cntwait _ mask => mask != 0
  | .stnibLo _ _ _ => true
  | .stnibHi _ _ _ => true
  | .lockr _ _ _ => true
  | .chunk _ _ _ => true
  | .pfetch _ _ _ _ => true
  | .spawn _ _ _ _ => true
  | .mspawn _ _ _ _ => true
  | .migr _ _ => true
  | .retire _ => true
  | .waitev _ _ => true
  | .pairon _ _ => true
  | .pairoff _ => true
  | .rep _ _ _ => true
  | .qpush _ _ _ => true
  | .qpop _ _ _ => true
  | .qwait _ _ _ _ => true
  | .qstat _ _ _ => true
  | .msend _ _ _ _ => true
  | .mrecv _ _ _ => true
  | .barset _ _ _ => true
  | .barrive _ _ _ => true
  | .barwait _ _ _ => true
  | .barstat _ _ _ => true
  | .qmap _ _ _ _ => true
  | .qreg _ _ _ => true
  | .mbxput _ _ _ => true
  | .mbxget _ _ _ => true
  | .cpyiss _ _ _ _ => true
  | .cpywait _ _ _ => true
  | .cpydone _ _ _ => true
  | .trpop _ _ => true
  | .xrdt _ _ _ _ => true
  | .xwrt _ _ _ _ => true
  | .xresume _ _ => true
  | .xkill _ _ => true
  | .tcswap _ _ _ _ => true
  | .dbrk _ _ => true
  | .stamp _ _ => true
  | .vadd t _ _ _ => t.isReal
  | .vsub t _ _ _ => t.isReal
  | .vmul t _ _ _ => t.isReal
  | .vfma t _ _ _ => t.isReal
  | .vfms t _ _ _ => t.isReal
  | .vmin t _ _ _ => t.isReal
  | .vmax t _ _ _ => t.isReal
  | .vabs t _ _ => (t.isReal && t != .u8)
  | .vneg t _ _ => t.isReal
  | .vceq t _ _ _ => t.isReal
  | .vclt t _ _ _ => t.isReal
  | .vcle t _ _ _ => t.isReal
  | .vsel t _ _ _ => t.isReal
  | .vdiv _ _ _ => true
  | .vsqrt _ _ => true
  | .vrsqrt _ _ => true
  | .vrcp _ _ => true
  | .vexp2 _ _ => true
  | .vlog2 _ _ => true
  | .vsin _ _ => true
  | .vcos _ _ => true
  | .vand t _ _ _ => t.isInt
  | .vor t _ _ _ => t.isInt
  | .vxor t _ _ _ => t.isInt
  | .vshl t _ _ _ => t.isInt
  | .vshr t _ _ _ => t.isInt
  | .vsra t _ _ _ => (t == .i32 || t == .i8)
  | .vcadd _ _ _ => true
  | .vcsub _ _ _ => true
  | .vcmul _ _ _ => true
  | .vcfma _ _ _ => true
  | .vcconj _ _ => true
  | .vcmag2 _ _ => true
  | .vcexpj _ _ => true
  | .vld _ _ _ => true
  | .vlds _ _ _ _ => true
  | .vst _ _ _ => true
  | .vsts _ _ _ _ => true
  | .vgath _ _ _ _ => true
  | .vscat _ _ _ _ => true
  | .vldl _ _ _ => true
  | .vstl _ _ _ => true
  | .vbcast _ _ _ => true
  | .vmvx _ _ _ _ => true
  | .vins _ _ _ _ => true
  | .vcfg _ _ _ => true
  | .vredadd _ _ _ => true
  | .vredmax t _ _ => t.isReal
  | .vredmin t _ _ => t.isReal
  | .vcvt t _ _ => t.isReal
  | .vpack _ _ _ => true
  | .vunpk _ _ _ => true
  | .vperm _ _ _ _ => true
  | .vslide _ _ _ _ => true
  | .vkopAnd _ _ _ => true
  | .vkopOr _ _ _ => true
  | .vkopXor _ _ _ => true
  | .vkopNot _ _ => true
  | .vkopFromx _ _ => true
  | .vkopTox _ _ => true
  | .vkopCount _ _ => true
  | .vstat _ => true
  | .mcfg _ _ => true
  | .mgang _ _ _ _ => true
  | .mbld _ _ _ => true
  | .mma _ _ _ _ => true
  | .mzero _ _ => true
  | .mstore _ _ _ => true
  | .mstat _ _ => true
  | .mwait _ => true
  | .ptcfg _ _ _ => true
  | .ptserve _ _ => true
  | .ptenq _ _ => true
  | .topen _ _ _ _ => true
  | .pfork _ _ _ _ => true
  | .pdone _ => true
  | .nacc _ _ _ _ => true
  | .ndown _ _ _ => true
  | .ndownUp _ _ _ => true
  | .sacfg _ _ _ => true
  | .saddF32 _ _ _ => true
  | .saddBf16 _ _ _ => true
  | .snormRms _ _ _ => true
  | .snormLayer _ _ _ => true
  | .snormUnit _ _ _ => true
  | .ssq _ _ _ => true
  | .szero _ _ _ => true
  | .sevict _ _ _ => true
  | .sload _ _ _ => true
  | .sexport _ _ _ => true
  | .trace _ _ _ => true
  | .tresume _ _ _ => true
  | .twait _ _ _ => true
  | .taccept _ _ => true
  | .tignore _ _ => true
  | .tterm _ _ => true
  | .tspawn _ _ _ _ => true
  | .trsave _ _ => true
  | .hhtinv _ _ _ _ => true
  | .rsetup _ _ _ => true
  | .rcover _ _ _ _ => true
  | .rdepth _ _ _ _ => true
  | .fence => true
  | .ecall => true
  | .ebreak => true
  | .unlockr => true
  | .unlockrP1 => true
  | .unlockrP2 => true
  | .unlockrP3 => true
  | .unlockrP4 => true
  | .unlockrP5 => true
  | .unlockrP6 => true
  | .unlockrP7 => true
  | .vfence => true
  | .csrWrite => true
  | .vstatCsrWrite => true
  | .repeatCsrWrite => true
  | .dldetCsrWrite => true
  | .stripExecute => true
  | .stripComplete => true
  | .mgangExecute => true
  | .mbldExecute => true
  | .mmaExecute => true
  | .mzeroExecute => true
  | .mstoreExecute => true
  | .mmaOperandError => true
  | .taskDelivery => true
  | .taskSteal => true
  | .frontierRefill => true
  | .tasksExhausted => true
  | .tongsSpillFault => true
  | .heldSeedEntry => true
  | .saddBankUpdate => true
  | .crucibleRowError => true
  | .childRayStart => true
  | .rayCandidate => true
  | .stackRestart => true
  | .rayEnd => true
  | .rayFault => true
  | .replyArrival => true
  | .timingErrorReplay => true
  | .replayRateReport => true
  | .launchEntryRead => true
  | .launchPlacement => true
  | .priorityPromotion => true
  | .launchCompletion => true
  | .migrantArrival => true
  | .spillRefill => true
  | .packetAcceptance => true
  | .migrantParkSwap => true
  | .slotRemoval => true
  | .slotReturn => true
  | .waitLimitExpiry => true
  | .barrierTimeout => true
  | .gangTimeout => true
  | .deferredTrap => true
  | .deadlockPass => true
  | .prefectSample => true
  | .chunkLimitClose => true
  | .chunkCommit => true
  | .commitTokenGrant => true
  | .postedOpArrival => true
  | .postedAck => true
  | .queuePushPerform => true
  | .messageDepart => true
  | .messageArrival => true
  | .copyJobStart => true
  | .copyJobComplete => true
  | .barrierArrivalSignal => true
  | .barrierReleaseSignal => true
  | .pageWalk => true
  | .stage2Repair => true
  | .stage2Refusal => true
  | .tlbInvalidateRange => true
  | .tlbInvalidateAll => true
  | .tlbInvalidateNonglobal => true
  | .rootRereadInvalidate => true
  | .lineMigration => true
  | .migratedLineEviction => true
  | .samplerInvalidate => true
  | .shOwnershipRequest => true
  | .shInvalidationReceive => true
  | .pageConsolidation => true
  | .patrolScrub => true
  | .budgetPeriod => true
  | .modeTableRequest => true
  | .mgmtSlot0Resume => true
  | .mgmtSlot0Kill => true
  | .launchQueueReset => true
  | .partitionReset => true
  | .debugSessionOpen => true
  | .debugSessionClose => true
  | .debugSessionStep => true
  | .eventCounterSelect => true
  | .portControlRequest => true
  | .ueMessageReceive => true
  | .ueDeliveryFailure => true
  | .hostWrite => true
  | .hostRead => true
  | .cxlMemAccess => true
  | .linkPortFailure => true
  | .moduleLoss => true
  | .domainFormation => true
  | .moduleReset => true
  | .partitionCreate => true
  | .timeSliceExpiry => true
  | .partitionSwitch => true
  | .thermalLimit => true
  | .thermalRecovery => true
  | .powerCapExceeded => true
  | .efficiencyDividerStep => true
  | .stallMapCapture => true
  | .stampHoldRelease => true
  | .getVersion => true
  | .getCapabilities => true
  | .negotiateAlgorithms => true
  | .getDigests => true
  | .getCertificate => true
  | .challenge => true
  | .getMeasurements => true
  | .keyExchange => true
  | .finish => true
  | .endSession => true
  | .debugUnlock => true
  | .debugStop => true
  | .debugResume => true
  | .debugSingleStep => true
  | .debugStepToIdle => true
  | .debugGangStop => true
  | .debugStateRead => true
  | .debugCounterAccess => true
  | .debugTraceControl => true
  | .debugSessionExpiry => true
  | .rowPowerOff => true
  | .rowPowerOn => true
  | .idleRowVoltageDrop => true
  | .inFieldTest => true
  | .ballast => true
  | .shInvalidationApply => true
  | .timeSynchronisation => true
  | .linkRetransmission => true
  | .traceHeldRecordDrain => true

end Sys2Proof
end

