-- ==== Sys2Proof/Decode.lean ====
section
/-! DEFINITION. Decode.lean: from instruction words to instructions and back (R102 to R118). Every field is cut out
of the word once, here; a word that no rule names is rejected by name. -/

namespace Sys2Proof

/-- Why bytes are not an instruction: the first word or the literal word of LIMM is missing (R102, R110), the
major opcode holds no instruction (R104), the group has no such code (R105, R114 to R116), or a field holds a
value its entry does not permit (R111). -/
inductive DecodeError where
  | missingWord
  | missingLiteral
  | illegalOpcode
  | illegalCode
  | illegalField
  deriving DecidableEq, Repr

/-- Bits [lo+len-1:lo] of a word. -/
def fld (w lo len : Nat) : Nat := w / 2 ^ lo % 2 ^ len

/-- A five-bit field as a register number (R111). -/
def fld5 (w lo : Nat) : Fin 32 := ⟨fld w lo 5, Nat.mod_lt _ (by decide)⟩
/-- A three-bit field. -/
def fld3 (w lo : Nat) : Fin 8 := ⟨fld w lo 3, Nat.mod_lt _ (by decide)⟩
/-- A two-bit field. -/
def fld2 (w lo : Nat) : Fin 4 := ⟨fld w lo 2, Nat.mod_lt _ (by decide)⟩

/-- A field whose entry permits the values below n (R111). -/
def limit (n v : Nat) : Except DecodeError (Fin n) :=
  if h : v < n then .ok ⟨v, h⟩ else .error .illegalField

/-- A field that must hold one value: zero where the entry leaves it unused (R111), else its sub-code. -/
def need (v c : Nat) (r : Except DecodeError Instr) : Except DecodeError Instr :=
  if v = c then r else .error .illegalField

/-- The type field of a KV word (R109). -/
def typeOf : Nat → Option VType
  | 0 => some .f32
  | 1 => some .bf16
  | 2 => some .f16
  | 3 => some .i32
  | 4 => some .i8
  | 5 => some .u8
  | 6 => some .c32
  | _ => none

/-- The code of a type (R109). -/
def VType.code : VType → Nat
  | .f32 => 0
  | .bf16 => 1
  | .f16 => 2
  | .i32 => 3
  | .i8 => 4
  | .u8 => 5
  | .c32 => 6

/-- A type field that must hold a type the entry permits (R111). -/
def typed (v : Nat) (ok : VType → Bool) (k : VType → Except DecodeError Instr) : Except DecodeError Instr :=
  match typeOf v with
  | some t => if ok t then k t else .error .illegalField
  | none => .error .illegalField

/-- A word assembled from the fields of the KR layout (R106), which KV (R109), R and KA words share. -/
def pack (op rd f3 rs1 rs2 f4 g : Nat) : Nat :=
  op + rd * 2 ^ 7 + f3 * 2 ^ 12 + rs1 * 2 ^ 15 + rs2 * 2 ^ 20 + f4 * 2 ^ 25 + g * 2 ^ 29

/-- Immediate of an I word: bits [31:20]. -/
def immI (w : Nat) : BitVec 12 := BitVec.ofNat 12 (fld w 20 12)
/-- Immediate of an S word: bits [31:25] and [11:7]. -/
def immS (w : Nat) : BitVec 12 := BitVec.ofNat 12 (fld w 25 7 * 2 ^ 5 + fld w 7 5)
/-- Offset of a B word in units of two bytes, bits 12 to 1: [31], [7], [30:25], [11:8]. -/
def immB (w : Nat) : BitVec 12 :=
  BitVec.ofNat 12 (fld w 31 1 * 2 ^ 11 + fld w 7 1 * 2 ^ 10 + fld w 25 6 * 2 ^ 4 + fld w 8 4)
/-- Offset of a J word in units of two bytes, bits 20 to 1: [31], [19:12], [20], [30:21]. -/
def immJ (w : Nat) : BitVec 20 :=
  BitVec.ofNat 20 (fld w 31 1 * 2 ^ 19 + fld w 12 8 * 2 ^ 11 + fld w 20 1 * 2 ^ 10 + fld w 21 10)
/-- Immediate of a U word: bits [31:12]. -/
def immU (w : Nat) : BitVec 20 := BitVec.ofNat 20 (fld w 12 20)


/-- custom-0: words of group 010 (R114 to R116). -/
def decC0Group2 (w lit : Nat) : Except DecodeError Instr :=
  match fld w 25 4 with
  | 0 => .ok (.pseq (fld3 w 29) (fld5 w 7) (fld5 w 15) (fld5 w 20))
  | 1 => .ok (.psne (fld3 w 29) (fld5 w 7) (fld5 w 15) (fld5 w 20))
  | 2 => .ok (.pslt (fld3 w 29) (fld5 w 7) (fld5 w 15) (fld5 w 20))
  | 3 => .ok (.psge (fld3 w 29) (fld5 w 7) (fld5 w 15) (fld5 w 20))
  | 4 => .ok (.psltu (fld3 w 29) (fld5 w 7) (fld5 w 15) (fld5 w 20))
  | 5 => .ok (.psgeu (fld3 w 29) (fld5 w 7) (fld5 w 15) (fld5 w 20))
  | 6 => .ok (.pand (fld3 w 29) (fld5 w 7) (fld5 w 15) (fld5 w 20))
  | 7 => .ok (.por (fld3 w 29) (fld5 w 7) (fld5 w 15) (fld5 w 20))
  | 8 => .ok (.pandn (fld3 w 29) (fld5 w 7) (fld5 w 15) (fld5 w 20))
  | 9 => .ok (.pxor (fld3 w 29) (fld5 w 7) (fld5 w 15) (fld5 w 20))
  | 10 => need (fld w 15 5) 0 (need (fld w 20 5) 0 (.ok (.prd (fld3 w 29) (fld5 w 7))))
  | 11 => need (fld w 7 5) 0 (.ok (.pwr (fld3 w 29) (fld5 w 15) (fld5 w 20)))
  | 12 => need (fld w 15 5) 0 (need (fld w 20 5) 0 (.ok (.limm (fld3 w 29) (fld5 w 7) (BitVec.ofNat 32 lit))))
  | _ => .error .illegalCode

/-- UNLOCKR by its guard field: its guard is part of the constructor (R215). -/
def decUnlock (g : Nat) : Except DecodeError Instr :=
  match g with
  | 0 => .ok .unlockr
  | 1 => .ok .unlockrP1
  | 2 => .ok .unlockrP2
  | 3 => .ok .unlockrP3
  | 4 => .ok .unlockrP4
  | 5 => .ok .unlockrP5
  | 6 => .ok .unlockrP6
  | _ => .ok .unlockrP7

/-- custom-0: words of group 011 (R114 to R116). -/
def decC0Group3 (w : Nat) : Except DecodeError Instr :=
  match fld w 25 4 with
  | 0 => if fld w 7 3 = 0 then .error .illegalField else .ok (.fencer (fld3 w 29) (fld3 w 7) (fld2 w 10) (fld5 w 15) (fld5 w 20))
  | 1 => (limit 4 (fld w 20 5)).bind fun size => .ok (.ldro (fld3 w 29) (fld5 w 7) (fld5 w 15) size)
  | 2 => need (fld w 7 5) 0 (.ok (.feclr (fld3 w 29) (fld5 w 15) (fld5 w 20)))
  | 3 => need (fld w 7 5) 0 (.ok (.feset (fld3 w 29) (fld5 w 15) (fld5 w 20)))
  | 4 => need (fld w 20 5) 0 (.ok (.fetest (fld3 w 29) (fld5 w 7) (fld5 w 15)))
  | 5 => need (fld w 7 5) 0 (need (fld w 20 5) 0 ((limit 8 (fld w 15 5)).bind fun mask => if mask = 0 then .error .illegalField else .ok (.cntwait (fld3 w 29) mask)))
  | 6 => if fld w 7 5 = 0 then (need (fld w 7 5) 0 (.ok (.stnibLo (fld3 w 29) (fld5 w 15) (fld5 w 20))))
      else if fld w 7 5 = 1 then (need (fld w 7 5) 1 (.ok (.stnibHi (fld3 w 29) (fld5 w 15) (fld5 w 20))))
      else .error .illegalField
  | 7 => need (fld w 7 5) 0 (.ok (.lockr (fld3 w 29) (fld5 w 15) (fld5 w 20)))
  | 8 => need (fld w 7 5) 0 (need (fld w 15 5) 0 (need (fld w 20 5) 0 (decUnlock (fld w 29 3))))
  | 9 => need (fld w 20 5) 0 (.ok (.chunk (fld3 w 29) (fld5 w 7) (fld5 w 15)))
  | 10 => (limit 3 (fld w 7 5)).bind fun kind => .ok (.pfetch (fld3 w 29) kind (fld5 w 15) (fld5 w 20))
  | _ => .error .illegalCode

/-- custom-0: words of group 100 (R114 to R116). -/
def decC0Group4 (w : Nat) : Except DecodeError Instr :=
  match fld w 25 4 with
  | 0 => .ok (.spawn (fld3 w 29) (fld5 w 7) (fld5 w 15) (fld5 w 20))
  | 1 => .ok (.mspawn (fld3 w 29) (fld5 w 7) (fld5 w 15) (fld5 w 20))
  | 2 => need (fld w 7 5) 0 (need (fld w 20 5) 0 (.ok (.migr (fld3 w 29) (fld5 w 15))))
  | 3 => need (fld w 7 5) 0 (need (fld w 15 5) 0 (need (fld w 20 5) 0 (.ok (.retire (fld3 w 29)))))
  | 4 => need (fld w 15 5) 0 (need (fld w 20 5) 0 (.ok (.waitev (fld3 w 29) (fld5 w 7))))
  | 5 => need (fld w 15 5) 0 (need (fld w 20 5) 0 (.ok (.pairon (fld3 w 29) (fld5 w 7))))
  | 6 => need (fld w 7 5) 0 (need (fld w 15 5) 0 (need (fld w 20 5) 0 (.ok (.pairoff (fld3 w 29)))))
  | 7 => need (fld w 7 5) 0 (.ok (.rep (fld3 w 29) (fld5 w 15) (fld5 w 20)))
  | _ => .error .illegalCode

/-- custom-0: words of group 101 (R114 to R116). [log 128 DESIGN CHOICE] -/
def decC0Group5 (w : Nat) : Except DecodeError Instr :=
  match fld w 25 4 with
  | 0 => need (fld w 7 5) 0 (.ok (.qpush (fld3 w 29) (fld5 w 15) (fld5 w 20)))
  | 1 => need (fld w 20 5) 0 (.ok (.qpop (fld3 w 29) (fld5 w 7) (fld5 w 15)))
  | 2 => .ok (.qwait (fld3 w 29) (fld5 w 7) (fld5 w 15) (fld5 w 20))
  | 3 => need (fld w 20 5) 0 (.ok (.qstat (fld3 w 29) (fld5 w 7) (fld5 w 15)))
  | 4 => .ok (.msend (fld3 w 29) (fld5 w 7) (fld5 w 15) (fld5 w 20))
  | 5 => need (fld w 15 5) 0 (.ok (.mrecv (fld3 w 29) (fld5 w 7) (fld5 w 20)))
  | 6 => need (fld w 7 5) 0 ((limit 4 (fld w 15 5)).bind fun b => .ok (.barset (fld3 w 29) b (fld5 w 20)))
  | 7 => need (fld w 20 5) 0 ((limit 4 (fld w 15 5)).bind fun b => .ok (.barrive (fld3 w 29) (fld5 w 7) b))
  | 8 => need (fld w 7 5) 0 ((limit 4 (fld w 15 5)).bind fun b => .ok (.barwait (fld3 w 29) b (fld5 w 20)))
  | 9 => need (fld w 20 5) 0 ((limit 4 (fld w 15 5)).bind fun b => .ok (.barstat (fld3 w 29) (fld5 w 7) b))
  | 10 => if fld w 11 1 = 0 then (need (fld w 20 5) 0 (.ok (.qmap (fld3 w 29) (fld2 w 7) (fld2 w 9) (fld5 w 15)))) else need (fld w 20 5) 0 (.ok (.qreg (fld3 w 29) (fld2 w 9) (fld5 w 15)))
  | _ => .error .illegalCode

/-- custom-0: words of group 110 (R114 to R116). -/
def decC0Group6 (w : Nat) : Except DecodeError Instr :=
  match fld w 25 4 with
  | 0 => need (fld w 7 5) 0 (.ok (.mbxput (fld3 w 29) (fld5 w 15) (fld5 w 20)))
  | 1 => need (fld w 20 5) 0 (.ok (.mbxget (fld3 w 29) (fld5 w 7) (fld5 w 15)))
  | 2 => .ok (.cpyiss (fld3 w 29) (fld5 w 7) (fld5 w 15) (fld5 w 20))
  | 3 => need (fld w 7 5) 0 (.ok (.cpywait (fld3 w 29) (fld5 w 15) (fld5 w 20)))
  | 4 => need (fld w 20 5) 0 (.ok (.cpydone (fld3 w 29) (fld5 w 7) (fld5 w 15)))
  | _ => .error .illegalCode

/-- custom-0: words of group 111 (R114 to R116). -/
def decC0Group7 (w : Nat) : Except DecodeError Instr :=
  match fld w 25 4 with
  | 0 => need (fld w 15 5) 0 (need (fld w 20 5) 0 (.ok (.trpop (fld3 w 29) (fld5 w 7))))
  | 1 => .ok (.xrdt (fld3 w 29) (fld5 w 7) (fld5 w 15) (fld5 w 20))
  | 2 => .ok (.xwrt (fld3 w 29) (fld5 w 7) (fld5 w 15) (fld5 w 20))
  | 3 => need (fld w 7 5) 0 (need (fld w 20 5) 0 (.ok (.xresume (fld3 w 29) (fld5 w 15))))
  | 4 => need (fld w 7 5) 0 (need (fld w 20 5) 0 (.ok (.xkill (fld3 w 29) (fld5 w 15))))
  | 5 => .ok (.tcswap (fld3 w 29) (fld5 w 7) (fld5 w 15) (fld5 w 20))
  | 6 => need (fld w 7 5) 0 (need (fld w 20 5) 0 (.ok (.dbrk (fld3 w 29) (fld5 w 15))))
  | 7 => need (fld w 15 5) 0 (need (fld w 20 5) 0 (.ok (.stamp (fld3 w 29) (fld5 w 7))))
  | _ => .error .illegalCode

/-- custom-1: words of class 000 (R114 to R116). -/
def decC1Class0 (w : Nat) : Except DecodeError Instr :=
  match fld w 25 4 with
  | 0 => typed (fld w 29 3) VType.isReal fun t => .ok (.vadd t (fld5 w 7) (fld5 w 15) (fld5 w 20))
  | 1 => typed (fld w 29 3) VType.isReal fun t => .ok (.vsub t (fld5 w 7) (fld5 w 15) (fld5 w 20))
  | 2 => typed (fld w 29 3) VType.isReal fun t => .ok (.vmul t (fld5 w 7) (fld5 w 15) (fld5 w 20))
  | 3 => typed (fld w 29 3) VType.isReal fun t => .ok (.vfma t (fld5 w 7) (fld5 w 15) (fld5 w 20))
  | 4 => typed (fld w 29 3) VType.isReal fun t => .ok (.vfms t (fld5 w 7) (fld5 w 15) (fld5 w 20))
  | 5 => typed (fld w 29 3) VType.isReal fun t => .ok (.vmin t (fld5 w 7) (fld5 w 15) (fld5 w 20))
  | 6 => typed (fld w 29 3) VType.isReal fun t => .ok (.vmax t (fld5 w 7) (fld5 w 15) (fld5 w 20))
  | 7 => typed (fld w 29 3) (fun t => t.isReal && t != .u8) fun t => need (fld w 20 5) 0 (.ok (.vabs t (fld5 w 7) (fld5 w 15)))
  | 8 => typed (fld w 29 3) VType.isReal fun t => need (fld w 20 5) 0 (.ok (.vneg t (fld5 w 7) (fld5 w 15)))
  | 9 => typed (fld w 29 3) VType.isReal fun t => (limit 8 (fld w 7 5)).bind fun kd => .ok (.vceq t kd (fld5 w 15) (fld5 w 20))
  | 10 => typed (fld w 29 3) VType.isReal fun t => (limit 8 (fld w 7 5)).bind fun kd => .ok (.vclt t kd (fld5 w 15) (fld5 w 20))
  | 11 => typed (fld w 29 3) VType.isReal fun t => (limit 8 (fld w 7 5)).bind fun kd => .ok (.vcle t kd (fld5 w 15) (fld5 w 20))
  | 12 => typed (fld w 29 3) VType.isReal fun t => .ok (.vsel t (fld5 w 7) (fld5 w 15) (fld5 w 20))
  | _ => .error .illegalCode

/-- custom-1: words of class 001 (R114 to R116). -/
def decC1Class1 (w : Nat) : Except DecodeError Instr :=
  match fld w 25 4 with
  | 0 => need (fld w 29 3) 0 (.ok (.vdiv (fld5 w 7) (fld5 w 15) (fld5 w 20)))
  | 1 => need (fld w 29 3) 0 (need (fld w 20 5) 0 (.ok (.vsqrt (fld5 w 7) (fld5 w 15))))
  | 2 => need (fld w 29 3) 0 (need (fld w 20 5) 0 (.ok (.vrsqrt (fld5 w 7) (fld5 w 15))))
  | 3 => need (fld w 29 3) 0 (need (fld w 20 5) 0 (.ok (.vrcp (fld5 w 7) (fld5 w 15))))
  | 4 => need (fld w 29 3) 0 (need (fld w 20 5) 0 (.ok (.vexp2 (fld5 w 7) (fld5 w 15))))
  | 5 => need (fld w 29 3) 0 (need (fld w 20 5) 0 (.ok (.vlog2 (fld5 w 7) (fld5 w 15))))
  | 6 => need (fld w 29 3) 0 (need (fld w 20 5) 0 (.ok (.vsin (fld5 w 7) (fld5 w 15))))
  | 7 => need (fld w 29 3) 0 (need (fld w 20 5) 0 (.ok (.vcos (fld5 w 7) (fld5 w 15))))
  | _ => .error .illegalCode

/-- custom-1: words of class 010 (R114 to R116). -/
def decC1Class2 (w : Nat) : Except DecodeError Instr :=
  match fld w 25 4 with
  | 0 => typed (fld w 29 3) VType.isInt fun t => .ok (.vand t (fld5 w 7) (fld5 w 15) (fld5 w 20))
  | 1 => typed (fld w 29 3) VType.isInt fun t => .ok (.vor t (fld5 w 7) (fld5 w 15) (fld5 w 20))
  | 2 => typed (fld w 29 3) VType.isInt fun t => .ok (.vxor t (fld5 w 7) (fld5 w 15) (fld5 w 20))
  | 3 => typed (fld w 29 3) VType.isInt fun t => .ok (.vshl t (fld5 w 7) (fld5 w 15) (fld5 w 20))
  | 4 => typed (fld w 29 3) VType.isInt fun t => .ok (.vshr t (fld5 w 7) (fld5 w 15) (fld5 w 20))
  | 5 => typed (fld w 29 3) (fun t => t == .i32 || t == .i8) fun t => .ok (.vsra t (fld5 w 7) (fld5 w 15) (fld5 w 20))
  | _ => .error .illegalCode

/-- custom-1: words of class 011 (R114 to R116). -/
def decC1Class3 (w : Nat) : Except DecodeError Instr :=
  match fld w 25 4 with
  | 0 => need (fld w 29 3) 6 (.ok (.vcadd (fld5 w 7) (fld5 w 15) (fld5 w 20)))
  | 1 => need (fld w 29 3) 6 (.ok (.vcsub (fld5 w 7) (fld5 w 15) (fld5 w 20)))
  | 2 => need (fld w 29 3) 6 (.ok (.vcmul (fld5 w 7) (fld5 w 15) (fld5 w 20)))
  | 3 => need (fld w 29 3) 6 (.ok (.vcfma (fld5 w 7) (fld5 w 15) (fld5 w 20)))
  | 4 => need (fld w 29 3) 6 (need (fld w 20 5) 0 (.ok (.vcconj (fld5 w 7) (fld5 w 15))))
  | 5 => need (fld w 29 3) 6 (need (fld w 20 5) 0 (.ok (.vcmag2 (fld5 w 7) (fld5 w 15))))
  | 6 => need (fld w 29 3) 6 (need (fld w 20 5) 0 (.ok (.vcexpj (fld5 w 7) (fld5 w 15))))
  | _ => .error .illegalCode

/-- custom-1: words of class 100 (R114 to R116). -/
def decC1Class4 (w : Nat) : Except DecodeError Instr :=
  match fld w 25 4 with
  | 0 => typed (fld w 29 3) (fun _ => true) fun t => need (fld w 20 5) 0 (.ok (.vld t (fld5 w 7) (fld5 w 15)))
  | 1 => typed (fld w 29 3) (fun _ => true) fun t => .ok (.vlds t (fld5 w 7) (fld5 w 15) (fld5 w 20))
  | 2 => typed (fld w 29 3) (fun _ => true) fun t => need (fld w 20 5) 0 (.ok (.vst t (fld5 w 7) (fld5 w 15)))
  | 3 => typed (fld w 29 3) (fun _ => true) fun t => .ok (.vsts t (fld5 w 7) (fld5 w 15) (fld5 w 20))
  | 4 => typed (fld w 29 3) (fun _ => true) fun t => .ok (.vgath t (fld5 w 7) (fld5 w 15) (fld5 w 20))
  | 5 => typed (fld w 29 3) (fun _ => true) fun t => .ok (.vscat t (fld5 w 7) (fld5 w 15) (fld5 w 20))
  | 6 => typed (fld w 29 3) (fun _ => true) fun t => need (fld w 20 5) 0 (.ok (.vldl t (fld5 w 7) (fld5 w 15)))
  | 7 => typed (fld w 29 3) (fun _ => true) fun t => need (fld w 20 5) 0 (.ok (.vstl t (fld5 w 7) (fld5 w 15)))
  | 8 => typed (fld w 29 3) (fun _ => true) fun t => need (fld w 20 5) 0 (.ok (.vbcast t (fld5 w 7) (fld5 w 15)))
  | 9 => typed (fld w 29 3) (fun _ => true) fun t => .ok (.vmvx t (fld5 w 7) (fld5 w 15) (fld5 w 20))
  | 10 => typed (fld w 29 3) (fun _ => true) fun t => .ok (.vins t (fld5 w 7) (fld5 w 15) (fld5 w 20))
  | _ => .error .illegalCode

/-- custom-1: words of class 101 (R114 to R116). -/
def decC1Class5 (w : Nat) : Except DecodeError Instr :=
  match fld w 25 4 with
  | 0 => need (fld w 29 3) 0 (.ok (.vcfg (fld5 w 7) (fld5 w 15) (fld5 w 20)))
  | 1 => typed (fld w 29 3) (fun _ => true) fun t => need (fld w 20 5) 0 (.ok (.vredadd t (fld5 w 7) (fld5 w 15)))
  | 2 => typed (fld w 29 3) VType.isReal fun t => need (fld w 20 5) 0 (.ok (.vredmax t (fld5 w 7) (fld5 w 15)))
  | 3 => typed (fld w 29 3) VType.isReal fun t => need (fld w 20 5) 0 (.ok (.vredmin t (fld5 w 7) (fld5 w 15)))
  | 4 => typed (fld w 29 3) VType.isReal fun t => need (fld w 20 5) 0 (.ok (.vcvt t (fld5 w 7) (fld5 w 15)))
  | 5 => need (fld w 29 3) 0 ((limit 10 (fld w 20 5)).bind fun fc => .ok (.vpack (fld5 w 7) (fld5 w 15) fc))
  | 6 => need (fld w 29 3) 0 ((limit 10 (fld w 20 5)).bind fun fc => .ok (.vunpk (fld5 w 7) (fld5 w 15) fc))
  | 7 => typed (fld w 29 3) (fun _ => true) fun t => .ok (.vperm t (fld5 w 7) (fld5 w 15) (fld5 w 20))
  | 8 => typed (fld w 29 3) (fun _ => true) fun t => .ok (.vslide t (fld5 w 7) (fld5 w 15) (fld5 w 20))
  | 9 => if fld w 23 2 = 0 then (need (fld w 29 3) 0 (need (fld w 23 2) 0 ((limit 8 (fld w 7 5)).bind fun kd => (limit 8 (fld w 15 5)).bind fun ka => .ok (.vkopAnd kd ka (fld3 w 20)))))
      else if fld w 23 2 = 1 then (need (fld w 29 3) 0 (need (fld w 23 2) 1 ((limit 8 (fld w 7 5)).bind fun kd => (limit 8 (fld w 15 5)).bind fun ka => .ok (.vkopOr kd ka (fld3 w 20)))))
      else if fld w 23 2 = 2 then (need (fld w 29 3) 0 (need (fld w 23 2) 2 ((limit 8 (fld w 7 5)).bind fun kd => (limit 8 (fld w 15 5)).bind fun ka => .ok (.vkopXor kd ka (fld3 w 20)))))
      else if fld w 20 5 = 24 then (need (fld w 29 3) 0 (need (fld w 20 5) 24 ((limit 8 (fld w 7 5)).bind fun kd => (limit 8 (fld w 15 5)).bind fun ka => .ok (.vkopNot kd ka))))
      else if fld w 20 5 = 25 then (need (fld w 29 3) 0 (need (fld w 20 5) 25 ((limit 8 (fld w 7 5)).bind fun kd => .ok (.vkopFromx kd (fld5 w 15)))))
      else if fld w 20 5 = 26 then (need (fld w 29 3) 0 (need (fld w 20 5) 26 ((limit 8 (fld w 15 5)).bind fun ka => .ok (.vkopTox (fld5 w 7) ka))))
      else if fld w 20 5 = 27 then (need (fld w 29 3) 0 (need (fld w 20 5) 27 ((limit 8 (fld w 15 5)).bind fun ka => .ok (.vkopCount (fld5 w 7) ka))))
      else .error .illegalField
  | 10 => need (fld w 29 3) 0 (need (fld w 7 5) 0 (need (fld w 15 5) 0 (need (fld w 20 5) 0 (.ok (.vfence)))))
  | 11 => need (fld w 29 3) 0 (need (fld w 15 5) 0 (need (fld w 20 5) 0 (.ok (.vstat (fld5 w 7)))))
  | _ => .error .illegalCode

/-- custom-2: words of group 000 (R114 to R116). -/
def decC2Group0 (w : Nat) : Except DecodeError Instr :=
  match fld w 25 4 with
  | 0 => need (fld w 7 5) 0 (need (fld w 20 5) 0 (.ok (.mcfg (fld3 w 29) (fld5 w 15))))
  | 1 => .ok (.mgang (fld3 w 29) (fld5 w 7) (fld5 w 15) (fld5 w 20))
  | 2 => need (fld w 7 5) 0 (.ok (.mbld (fld3 w 29) (fld5 w 15) (fld5 w 20)))
  | 3 => (limit 4 (fld w 7 5)).bind fun acc => .ok (.mma (fld3 w 29) acc (fld5 w 15) (fld5 w 20))
  | 4 => need (fld w 15 5) 0 (need (fld w 20 5) 0 ((limit 4 (fld w 7 5)).bind fun acc => .ok (.mzero (fld3 w 29) acc)))
  | 5 => need (fld w 20 5) 0 ((limit 4 (fld w 7 5)).bind fun acc => .ok (.mstore (fld3 w 29) acc (fld5 w 15)))
  | 6 => need (fld w 15 5) 0 (need (fld w 20 5) 0 (.ok (.mstat (fld3 w 29) (fld5 w 7))))
  | 7 => need (fld w 7 5) 0 (need (fld w 15 5) 0 (need (fld w 20 5) 0 (.ok (.mwait (fld3 w 29)))))
  | _ => .error .illegalCode

/-- custom-2: words of group 001 (R114 to R116). -/
def decC2Group1 (w : Nat) : Except DecodeError Instr :=
  match fld w 25 4 with
  | 0 => need (fld w 7 5) 0 (.ok (.ptcfg (fld3 w 29) (fld5 w 15) (fld5 w 20)))
  | 1 => need (fld w 7 5) 0 (need (fld w 20 5) 0 (.ok (.ptserve (fld3 w 29) (fld5 w 15))))
  | 2 => need (fld w 7 5) 0 (need (fld w 20 5) 0 (.ok (.ptenq (fld3 w 29) (fld5 w 15))))
  | 3 => .ok (.topen (fld3 w 29) (fld5 w 7) (fld5 w 15) (fld5 w 20))
  | 4 => .ok (.pfork (fld3 w 29) (fld5 w 7) (fld5 w 15) (fld5 w 20))
  | 5 => need (fld w 7 5) 0 (need (fld w 15 5) 0 (need (fld w 20 5) 0 (.ok (.pdone (fld3 w 29)))))
  | 6 => .ok (.nacc (fld3 w 29) (fld5 w 7) (fld5 w 15) (fld5 w 20))
  | 7 => if fld w 7 5 = 0 then (need (fld w 7 5) 0 (.ok (.ndown (fld3 w 29) (fld5 w 15) (fld5 w 20))))
      else if fld w 7 5 = 1 then (need (fld w 7 5) 1 (.ok (.ndownUp (fld3 w 29) (fld5 w 15) (fld5 w 20))))
      else .error .illegalField
  | _ => .error .illegalCode

/-- custom-2: words of group 010 (R114 to R116). -/
def decC2Group2 (w : Nat) : Except DecodeError Instr :=
  match fld w 25 4 with
  | 0 => need (fld w 20 5) 0 (.ok (.sacfg (fld3 w 29) (fld5 w 7) (fld5 w 15)))
  | 1 => if fld w 20 5 = 0 then (need (fld w 20 5) 0 (.ok (.saddF32 (fld3 w 29) (fld5 w 7) (fld5 w 15))))
      else if fld w 20 5 = 1 then (need (fld w 20 5) 1 (.ok (.saddBf16 (fld3 w 29) (fld5 w 7) (fld5 w 15))))
      else .error .illegalField
  | 2 => if fld w 20 5 = 0 then (need (fld w 20 5) 0 (.ok (.snormRms (fld3 w 29) (fld5 w 7) (fld5 w 15))))
      else if fld w 20 5 = 1 then (need (fld w 20 5) 1 (.ok (.snormLayer (fld3 w 29) (fld5 w 7) (fld5 w 15))))
      else if fld w 20 5 = 2 then (need (fld w 20 5) 2 (.ok (.snormUnit (fld3 w 29) (fld5 w 7) (fld5 w 15))))
      else .error .illegalField
  | 3 => need (fld w 20 5) 0 (.ok (.ssq (fld3 w 29) (fld5 w 7) (fld5 w 15)))
  | 4 => need (fld w 7 5) 0 (.ok (.szero (fld3 w 29) (fld5 w 15) (fld5 w 20)))
  | 5 => need (fld w 7 5) 0 (.ok (.sevict (fld3 w 29) (fld5 w 15) (fld5 w 20)))
  | 6 => need (fld w 7 5) 0 (.ok (.sload (fld3 w 29) (fld5 w 15) (fld5 w 20)))
  | 7 => need (fld w 7 5) 0 (.ok (.sexport (fld3 w 29) (fld5 w 15) (fld5 w 20)))
  | _ => .error .illegalCode

/-- custom-3: words of group 000 (R114 to R116). -/
def decC3Group0 (w : Nat) : Except DecodeError Instr :=
  match fld w 25 4 with
  | 0 => need (fld w 20 5) 0 (.ok (.trace (fld3 w 29) (fld5 w 7) (fld5 w 15)))
  | 1 => need (fld w 7 5) 0 (.ok (.tresume (fld3 w 29) (fld5 w 15) (fld5 w 20)))
  | 2 => need (fld w 20 5) 0 (.ok (.twait (fld3 w 29) (fld5 w 7) (fld5 w 15)))
  | 3 => need (fld w 7 5) 0 (need (fld w 20 5) 0 (.ok (.taccept (fld3 w 29) (fld5 w 15))))
  | 4 => need (fld w 7 5) 0 (need (fld w 20 5) 0 (.ok (.tignore (fld3 w 29) (fld5 w 15))))
  | 5 => need (fld w 7 5) 0 (need (fld w 20 5) 0 (.ok (.tterm (fld3 w 29) (fld5 w 15))))
  | 6 => .ok (.tspawn (fld3 w 29) (fld5 w 7) (fld5 w 15) (fld5 w 20))
  | 7 => need (fld w 7 5) 0 (need (fld w 20 5) 0 (.ok (.trsave (fld3 w 29) (fld5 w 15))))
  | 8 => (limit 2 (fld w 7 5)).bind fun mode => .ok (.hhtinv (fld3 w 29) mode (fld5 w 15) (fld5 w 20))
  | _ => .error .illegalCode

/-- custom-3: words of group 001 (R114 to R116). -/
def decC3Group1 (w : Nat) : Except DecodeError Instr :=
  match fld w 25 4 with
  | 0 => need (fld w 7 5) 0 (.ok (.rsetup (fld3 w 29) (fld5 w 15) (fld5 w 20)))
  | 1 => .ok (.rcover (fld3 w 29) (fld5 w 7) (fld5 w 15) (fld5 w 20))
  | 2 => .ok (.rdepth (fld3 w 29) (fld5 w 7) (fld5 w 15) (fld5 w 20))
  | _ => .error .illegalCode

/-- custom-0 funct3 000: KM words (R107). -/
def decKM (w : Nat) : Except DecodeError Instr :=
  let dbl (v : Nat) (k : Bool → Instr) : Except DecodeError Instr :=
    if v = 2 then .ok (k false) else if v = 3 then .ok (k true) else .error .illegalField
  match fld w 25 2 with
  | 0 => .ok (.ldx (fld3 w 29) (fld2 w 27) (fld2 w 23) (fld3 w 20) (fld5 w 7) (fld5 w 15))
  | 1 => dbl (fld w 23 2) fun d => .ldxF (fld3 w 29) (fld2 w 27) d (fld3 w 20) (fld5 w 7) (fld5 w 15)
  | 2 => .ok (.stx (fld3 w 29) (fld2 w 27) (fld2 w 10) (fld3 w 7) (fld5 w 20) (fld5 w 15))
  | _ => dbl (fld w 10 2) fun d => .stxF (fld3 w 29) (fld2 w 27) d (fld3 w 7) (fld5 w 20) (fld5 w 15)

/-- custom-0 funct3 001: KA words (R108). -/
def decKA (w : Nat) : Except DecodeError Instr :=
  let aq := fld w 27 1 == 1
  let rl := fld w 26 1 == 1
  let d := fld w 25 1 == 1
  let rd := fld5 w 7
  let rs2 := fld5 w 20
  let rs1 := fld5 w 15
  match fld w 28 4 with
  | 0 => .ok (.aadd aq rl d rd rs2 rs1)
  | 1 => .ok (.aswp aq rl d rd rs2 rs1)
  | 2 => .ok (.aand aq rl d rd rs2 rs1)
  | 3 => .ok (.aor aq rl d rd rs2 rs1)
  | 4 => .ok (.axor aq rl d rd rs2 rs1)
  | 5 => .ok (.amax aq rl d rd rs2 rs1)
  | 6 => .ok (.amin aq rl d rd rs2 rs1)
  | 7 => .ok (.amaxu aq rl d rd rs2 rs1)
  | 8 => .ok (.aminu aq rl d rd rs2 rs1)
  | 9 => .ok (.acas aq rl d rd rs2 rs1)
  | 10 => if d then .error .illegalField else .ok (.afadd aq rl rd rs2 rs1)
  | 11 => if d then .error .illegalField else .ok (.afmax aq rl rd rs2 rs1)
  | 12 => .ok (.aincw aq rl d rd rs2 rs1)
  | _ => .error .illegalCode

/-- OP and OP-32 words: funct7 and funct3 choose (R105). -/
def decOp (w : Nat) : Except DecodeError Instr :=
  match fld w 25 7, fld w 12 3 with
  | 0, 0 => .ok (.add (fld5 w 7) (fld5 w 15) (fld5 w 20))
  | 32, 0 => .ok (.sub (fld5 w 7) (fld5 w 15) (fld5 w 20))
  | 0, 1 => .ok (.sll (fld5 w 7) (fld5 w 15) (fld5 w 20))
  | 0, 2 => .ok (.slt (fld5 w 7) (fld5 w 15) (fld5 w 20))
  | 0, 3 => .ok (.sltu (fld5 w 7) (fld5 w 15) (fld5 w 20))
  | 0, 4 => .ok (.xor (fld5 w 7) (fld5 w 15) (fld5 w 20))
  | 0, 5 => .ok (.srl (fld5 w 7) (fld5 w 15) (fld5 w 20))
  | 32, 5 => .ok (.sra (fld5 w 7) (fld5 w 15) (fld5 w 20))
  | 0, 6 => .ok (.or (fld5 w 7) (fld5 w 15) (fld5 w 20))
  | 0, 7 => .ok (.and (fld5 w 7) (fld5 w 15) (fld5 w 20))
  | 1, 0 => .ok (.mul (fld5 w 7) (fld5 w 15) (fld5 w 20))
  | 1, 1 => .ok (.mulh (fld5 w 7) (fld5 w 15) (fld5 w 20))
  | 1, 2 => .ok (.mulhsu (fld5 w 7) (fld5 w 15) (fld5 w 20))
  | 1, 3 => .ok (.mulhu (fld5 w 7) (fld5 w 15) (fld5 w 20))
  | 1, 4 => .ok (.div (fld5 w 7) (fld5 w 15) (fld5 w 20))
  | 1, 5 => .ok (.divu (fld5 w 7) (fld5 w 15) (fld5 w 20))
  | 1, 6 => .ok (.rem (fld5 w 7) (fld5 w 15) (fld5 w 20))
  | 1, 7 => .ok (.remu (fld5 w 7) (fld5 w 15) (fld5 w 20))
  | _, _ => .error .illegalCode

/-- OP-32 words (R105). -/
def decOp32 (w : Nat) : Except DecodeError Instr :=
  match fld w 25 7, fld w 12 3 with
  | 0, 0 => .ok (.addw (fld5 w 7) (fld5 w 15) (fld5 w 20))
  | 32, 0 => .ok (.subw (fld5 w 7) (fld5 w 15) (fld5 w 20))
  | 0, 1 => .ok (.sllw (fld5 w 7) (fld5 w 15) (fld5 w 20))
  | 0, 5 => .ok (.srlw (fld5 w 7) (fld5 w 15) (fld5 w 20))
  | 32, 5 => .ok (.sraw (fld5 w 7) (fld5 w 15) (fld5 w 20))
  | 1, 0 => .ok (.mulw (fld5 w 7) (fld5 w 15) (fld5 w 20))
  | 1, 4 => .ok (.divw (fld5 w 7) (fld5 w 15) (fld5 w 20))
  | 1, 5 => .ok (.divuw (fld5 w 7) (fld5 w 15) (fld5 w 20))
  | 1, 6 => .ok (.remw (fld5 w 7) (fld5 w 15) (fld5 w 20))
  | 1, 7 => .ok (.remuw (fld5 w 7) (fld5 w 15) (fld5 w 20))
  | _, _ => .error .illegalCode

/-- LOAD words (R105). -/
def decLoad (w : Nat) : Except DecodeError Instr :=
  match fld w 12 3 with
  | 0 => .ok (.lb (fld5 w 7) (fld5 w 15) (immI w))
  | 1 => .ok (.lh (fld5 w 7) (fld5 w 15) (immI w))
  | 2 => .ok (.lw (fld5 w 7) (fld5 w 15) (immI w))
  | 3 => .ok (.ld (fld5 w 7) (fld5 w 15) (immI w))
  | 4 => .ok (.lbu (fld5 w 7) (fld5 w 15) (immI w))
  | 5 => .ok (.lhu (fld5 w 7) (fld5 w 15) (immI w))
  | 6 => .ok (.lwu (fld5 w 7) (fld5 w 15) (immI w))
  | _ => .error .illegalCode

/-- OP-IMM words (R105). -/
def decOpImm (w : Nat) : Except DecodeError Instr :=
  match fld w 12 3 with
  | 0 => .ok (.addi (fld5 w 7) (fld5 w 15) (immI w))
  | 1 => if fld w 26 6 = 0 then .ok (.slli (fld5 w 7) (fld5 w 15) ⟨fld w 20 6, Nat.mod_lt _ (by decide)⟩) else .error .illegalCode
  | 2 => .ok (.slti (fld5 w 7) (fld5 w 15) (immI w))
  | 3 => .ok (.sltiu (fld5 w 7) (fld5 w 15) (immI w))
  | 4 => .ok (.xori (fld5 w 7) (fld5 w 15) (immI w))
  | 5 => if fld w 26 6 = 0 then .ok (.srli (fld5 w 7) (fld5 w 15) ⟨fld w 20 6, Nat.mod_lt _ (by decide)⟩) else if fld w 26 6 = 16 then .ok (.srai (fld5 w 7) (fld5 w 15) ⟨fld w 20 6, Nat.mod_lt _ (by decide)⟩) else .error .illegalCode
  | 6 => .ok (.ori (fld5 w 7) (fld5 w 15) (immI w))
  | 7 => .ok (.andi (fld5 w 7) (fld5 w 15) (immI w))
  | _ => .error .illegalCode

/-- OP-IMM-32 words (R105). -/
def decOpImm32 (w : Nat) : Except DecodeError Instr :=
  match fld w 12 3 with
  | 0 => .ok (.addiw (fld5 w 7) (fld5 w 15) (immI w))
  | 1 => if fld w 25 7 = 0 then .ok (.slliw (fld5 w 7) (fld5 w 15) (fld5 w 20)) else .error .illegalCode
  | 5 => if fld w 25 7 = 0 then .ok (.srliw (fld5 w 7) (fld5 w 15) (fld5 w 20)) else if fld w 25 7 = 32 then .ok (.sraiw (fld5 w 7) (fld5 w 15) (fld5 w 20)) else .error .illegalCode
  | _ => .error .illegalCode

/-- STORE words (R105). -/
def decStore (w : Nat) : Except DecodeError Instr :=
  match fld w 12 3 with
  | 0 => .ok (.sb (fld5 w 20) (fld5 w 15) (immS w))
  | 1 => .ok (.sh (fld5 w 20) (fld5 w 15) (immS w))
  | 2 => .ok (.sw (fld5 w 20) (fld5 w 15) (immS w))
  | 3 => .ok (.sd (fld5 w 20) (fld5 w 15) (immS w))
  | _ => .error .illegalCode

/-- BRANCH words (R105). -/
def decBranch (w : Nat) : Except DecodeError Instr :=
  match fld w 12 3 with
  | 0 => .ok (.beq (fld5 w 15) (fld5 w 20) (immB w))
  | 1 => .ok (.bne (fld5 w 15) (fld5 w 20) (immB w))
  | 4 => .ok (.blt (fld5 w 15) (fld5 w 20) (immB w))
  | 5 => .ok (.bge (fld5 w 15) (fld5 w 20) (immB w))
  | 6 => .ok (.bltu (fld5 w 15) (fld5 w 20) (immB w))
  | 7 => .ok (.bgeu (fld5 w 15) (fld5 w 20) (immB w))
  | _ => .error .illegalCode

/-- SYSTEM words: ECALL, EBREAK and the Zicsr instructions with a CSR number that exists (R105). -/
def decSystem (w : Nat) : Except DecodeError Instr :=
  let csr := immI w
  let ok (i : Instr) : Except DecodeError Instr := if csrExists csr then .ok i else .error .illegalField
  match fld w 12 3 with
  | 0 =>
    need (fld w 7 5) 0 (need (fld w 15 5) 0
      (if fld w 20 12 = 0 then .ok .ecall else if fld w 20 12 = 1 then .ok .ebreak else .error .illegalCode))
  | 1 => ok (.csrrw (fld5 w 7) csr (fld5 w 15))
  | 2 => ok (.csrrs (fld5 w 7) csr (fld5 w 15))
  | 3 => ok (.csrrc (fld5 w 7) csr (fld5 w 15))
  | 5 => ok (.csrrwi (fld5 w 7) csr (fld5 w 15))
  | 6 => ok (.csrrsi (fld5 w 7) csr (fld5 w 15))
  | 7 => ok (.csrrci (fld5 w 7) csr (fld5 w 15))
  | _ => .error .illegalCode

/-- custom-0 words (R113 to R116). -/
def decCustom0 (w lit : Nat) : Except DecodeError Instr :=
  match fld w 12 3 with
  | 0 => decKM w
  | 1 => decKA w
  | 2 => decC0Group2 w lit
  | 3 => decC0Group3 w
  | 4 => decC0Group4 w
  | 5 => decC0Group5 w
  | 6 => decC0Group6 w
  | 7 => decC0Group7 w
  | _ => .error .illegalCode

/-- custom-1 words (R113 to R116). -/
def decCustom1 (w : Nat) : Except DecodeError Instr :=
  match fld w 12 3 with
  | 0 => decC1Class0 w
  | 1 => decC1Class1 w
  | 2 => decC1Class2 w
  | 3 => decC1Class3 w
  | 4 => decC1Class4 w
  | 5 => decC1Class5 w
  | _ => .error .illegalCode

/-- custom-2 words (R113 to R116). -/
def decCustom2 (w : Nat) : Except DecodeError Instr :=
  match fld w 12 3 with
  | 0 => decC2Group0 w
  | 1 => decC2Group1 w
  | 2 => decC2Group2 w
  | _ => .error .illegalCode

/-- custom-3 words (R113 to R116). -/
def decCustom3 (w : Nat) : Except DecodeError Instr :=
  match fld w 12 3 with
  | 0 => decC3Group0 w
  | 1 => decC3Group1 w
  | _ => .error .illegalCode

/-- One instruction from its word and the word after it, which only LIMM reads (R110); the major opcode of R104
decides. -/
def decodeWord (w lit : Nat) : Except DecodeError Instr :=
  match fld w 0 7 with
  | 0x03 => decLoad w
  | 0x0B => decCustom0 w lit
  | 0x0F => if fld w 12 3 = 0 then .ok .fence else .error .illegalCode
  | 0x13 => decOpImm w
  | 0x17 => .ok (.auipc (fld5 w 7) (immU w))
  | 0x1B => decOpImm32 w
  | 0x23 => decStore w
  | 0x2B => decCustom1 w
  | 0x33 => decOp w
  | 0x37 => .ok (.lui (fld5 w 7) (immU w))
  | 0x3B => decOp32 w
  | 0x5B => decCustom2 w
  | 0x63 => decBranch w
  | 0x67 => if fld w 12 3 = 0 then .ok (.jalr (fld5 w 7) (fld5 w 15) (immI w)) else .error .illegalCode
  | 0x6F => .ok (.jal (fld5 w 7) (immJ w))
  | 0x73 => decSystem w
  | 0x7B => decCustom3 w
  | _ => .error .illegalOpcode

/-- The word is LIMM, the one instruction of two words (R110). -/
def takesLiteral (w : Nat) : Bool :=
  fld w 0 7 == 0x0B && fld w 12 3 == 2 && fld w 25 4 == 12 && fld w 15 5 == 0 && fld w 20 5 == 0

/-- A 32-bit word from four bytes, the first at the lowest address (R5). -/
def wordOfBytes (a b c d : Byte) : Nat :=
  a.toNat + b.toNat * 2 ^ 8 + c.toNat * 2 ^ 16 + d.toNat * 2 ^ 24

/-- The four bytes of a word in memory order (R5). -/
def bytesOfWord (w : Nat) : List Byte :=
  [BitVec.ofNat 8 w, BitVec.ofNat 8 (w / 2 ^ 8), BitVec.ofNat 8 (w / 2 ^ 16), BitVec.ofNat 8 (w / 2 ^ 24)]

/-- One instruction from the bytes at a pc, with the bytes after it. -/
def decode : List Byte → Except DecodeError (Instr × List Byte)
  | a :: b :: c :: d :: rest =>
    let w := wordOfBytes a b c d
    if takesLiteral w then
      match rest with
      | e :: f :: g :: h :: rest' => (decodeWord w (wordOfBytes e f g h)).map (·, rest')
      | _ => .error .missingLiteral
    else (decodeWord w 0).map (·, rest)
  | _ => .error .missingWord

/-- The instruction of an opcode-table word: bit 0 is the least significant bit of the first word, the literal of
LIMM follows as bits [63:32]; bits the table does not give are zero. -/
def decodeTableWord (nbits w : Nat) : Option Instr :=
  let v := w % 2 ^ nbits
  match decode (bytesOfWord (v % 2 ^ 32) ++ bytesOfWord (v / 2 ^ 32 % 2 ^ 32)) with
  | .ok (i, _) => some i
  | .error _ => none


/-- I word. -/
def packI (op rd f3 rs1 imm : Nat) : Nat := op + rd * 2 ^ 7 + f3 * 2 ^ 12 + rs1 * 2 ^ 15 + imm * 2 ^ 20
/-- S word. -/
def packS (op f3 rs1 rs2 imm : Nat) : Nat :=
  op + fld imm 0 5 * 2 ^ 7 + f3 * 2 ^ 12 + rs1 * 2 ^ 15 + rs2 * 2 ^ 20 + fld imm 5 7 * 2 ^ 25
/-- B word; imm holds offset bits 12 to 1. -/
def packB (op f3 rs1 rs2 imm : Nat) : Nat :=
  op + fld imm 10 1 * 2 ^ 7 + fld imm 0 4 * 2 ^ 8 + f3 * 2 ^ 12 + rs1 * 2 ^ 15 + rs2 * 2 ^ 20 + fld imm 4 6 * 2 ^ 25 +
    fld imm 11 1 * 2 ^ 31
/-- J word; imm holds offset bits 20 to 1. -/
def packJ (op rd imm : Nat) : Nat :=
  op + rd * 2 ^ 7 + fld imm 11 8 * 2 ^ 12 + fld imm 10 1 * 2 ^ 20 + fld imm 0 10 * 2 ^ 21 + fld imm 19 1 * 2 ^ 31
/-- U word. -/
def packU (op rd imm : Nat) : Nat := op + rd * 2 ^ 7 + imm * 2 ^ 12
/-- OP and OP-32 words and the word shifts. -/
def packR (op rd f3 rs1 rs2 f7 : Nat) : Nat :=
  op + rd * 2 ^ 7 + f3 * 2 ^ 12 + rs1 * 2 ^ 15 + rs2 * 2 ^ 20 + f7 * 2 ^ 25
/-- KM load word (R107). -/
def packKML (g w f size off3 rs1 rd : Nat) : Nat :=
  0x0B + rd * 2 ^ 7 + rs1 * 2 ^ 15 + off3 * 2 ^ 20 + size * 2 ^ 23 + f * 2 ^ 25 + w * 2 ^ 27 + g * 2 ^ 29
/-- KM store word (R107). -/
def packKMS (g w f rs2 rs1 size off3 : Nat) : Nat :=
  0x0B + off3 * 2 ^ 7 + size * 2 ^ 10 + rs1 * 2 ^ 15 + rs2 * 2 ^ 20 + f * 2 ^ 25 + 2 ^ 26 + w * 2 ^ 27 + g * 2 ^ 29
/-- KA word (R108). -/
def packKA (op : Nat) (aq rl d : Bool) (rs2 rs1 rd : Nat) : Nat :=
  0x0B + rd * 2 ^ 7 + 2 ^ 12 + rs1 * 2 ^ 15 + rs2 * 2 ^ 20 + d.toNat * 2 ^ 25 + rl.toNat * 2 ^ 26 + aq.toNat * 2 ^ 27 +
    op * 2 ^ 28

/-- The first word of an instruction; none for a step of the device, which no word encodes. -/
def encodeWord : Instr → Option Nat
  | .lui rd imm => some (packU 0x37 rd imm.toNat)
  | .auipc rd imm => some (packU 0x17 rd imm.toNat)
  | .jal rd imm => some (packJ 0x6F rd imm.toNat)
  | .jalr rd rs1 imm => some (packI 0x67 rd 0 rs1 imm.toNat)
  | .beq rs1 rs2 imm => some (packB 0x63 0 rs1 rs2 imm.toNat)
  | .bne rs1 rs2 imm => some (packB 0x63 1 rs1 rs2 imm.toNat)
  | .blt rs1 rs2 imm => some (packB 0x63 4 rs1 rs2 imm.toNat)
  | .bge rs1 rs2 imm => some (packB 0x63 5 rs1 rs2 imm.toNat)
  | .bltu rs1 rs2 imm => some (packB 0x63 6 rs1 rs2 imm.toNat)
  | .bgeu rs1 rs2 imm => some (packB 0x63 7 rs1 rs2 imm.toNat)
  | .lb rd rs1 imm => some (packI 0x3 rd 0 rs1 imm.toNat)
  | .lh rd rs1 imm => some (packI 0x3 rd 1 rs1 imm.toNat)
  | .lw rd rs1 imm => some (packI 0x3 rd 2 rs1 imm.toNat)
  | .lbu rd rs1 imm => some (packI 0x3 rd 4 rs1 imm.toNat)
  | .lhu rd rs1 imm => some (packI 0x3 rd 5 rs1 imm.toNat)
  | .lwu rd rs1 imm => some (packI 0x3 rd 6 rs1 imm.toNat)
  | .ld rd rs1 imm => some (packI 0x3 rd 3 rs1 imm.toNat)
  | .sb rs2 rs1 imm => some (packS 0x23 0 rs1 rs2 imm.toNat)
  | .sh rs2 rs1 imm => some (packS 0x23 1 rs1 rs2 imm.toNat)
  | .sw rs2 rs1 imm => some (packS 0x23 2 rs1 rs2 imm.toNat)
  | .sd rs2 rs1 imm => some (packS 0x23 3 rs1 rs2 imm.toNat)
  | .addi rd rs1 imm => some (packI 0x13 rd 0 rs1 imm.toNat)
  | .slti rd rs1 imm => some (packI 0x13 rd 2 rs1 imm.toNat)
  | .sltiu rd rs1 imm => some (packI 0x13 rd 3 rs1 imm.toNat)
  | .xori rd rs1 imm => some (packI 0x13 rd 4 rs1 imm.toNat)
  | .ori rd rs1 imm => some (packI 0x13 rd 6 rs1 imm.toNat)
  | .andi rd rs1 imm => some (packI 0x13 rd 7 rs1 imm.toNat)
  | .slli rd rs1 sh => some (packI 0x13 rd 1 rs1 (0 + sh))
  | .srli rd rs1 sh => some (packI 0x13 rd 5 rs1 (0 + sh))
  | .srai rd rs1 sh => some (packI 0x13 rd 5 rs1 (1024 + sh))
  | .add rd rs1 rs2 => some (packR 0x33 rd 0 rs1 rs2 0)
  | .sub rd rs1 rs2 => some (packR 0x33 rd 0 rs1 rs2 32)
  | .sll rd rs1 rs2 => some (packR 0x33 rd 1 rs1 rs2 0)
  | .slt rd rs1 rs2 => some (packR 0x33 rd 2 rs1 rs2 0)
  | .sltu rd rs1 rs2 => some (packR 0x33 rd 3 rs1 rs2 0)
  | .xor rd rs1 rs2 => some (packR 0x33 rd 4 rs1 rs2 0)
  | .srl rd rs1 rs2 => some (packR 0x33 rd 5 rs1 rs2 0)
  | .sra rd rs1 rs2 => some (packR 0x33 rd 5 rs1 rs2 32)
  | .or rd rs1 rs2 => some (packR 0x33 rd 6 rs1 rs2 0)
  | .and rd rs1 rs2 => some (packR 0x33 rd 7 rs1 rs2 0)
  | .addiw rd rs1 imm => some (packI 0x1b rd 0 rs1 imm.toNat)
  | .slliw rd rs1 sh => some (packR 0x1B rd 1 rs1 sh 0)
  | .srliw rd rs1 sh => some (packR 0x1B rd 5 rs1 sh 0)
  | .sraiw rd rs1 sh => some (packR 0x1B rd 5 rs1 sh 32)
  | .addw rd rs1 rs2 => some (packR 0x3b rd 0 rs1 rs2 0)
  | .subw rd rs1 rs2 => some (packR 0x3b rd 0 rs1 rs2 32)
  | .sllw rd rs1 rs2 => some (packR 0x3b rd 1 rs1 rs2 0)
  | .srlw rd rs1 rs2 => some (packR 0x3b rd 5 rs1 rs2 0)
  | .sraw rd rs1 rs2 => some (packR 0x3b rd 5 rs1 rs2 32)
  | .mul rd rs1 rs2 => some (packR 0x33 rd 0 rs1 rs2 1)
  | .mulh rd rs1 rs2 => some (packR 0x33 rd 1 rs1 rs2 1)
  | .mulhsu rd rs1 rs2 => some (packR 0x33 rd 2 rs1 rs2 1)
  | .mulhu rd rs1 rs2 => some (packR 0x33 rd 3 rs1 rs2 1)
  | .div rd rs1 rs2 => some (packR 0x33 rd 4 rs1 rs2 1)
  | .divu rd rs1 rs2 => some (packR 0x33 rd 5 rs1 rs2 1)
  | .rem rd rs1 rs2 => some (packR 0x33 rd 6 rs1 rs2 1)
  | .remu rd rs1 rs2 => some (packR 0x33 rd 7 rs1 rs2 1)
  | .mulw rd rs1 rs2 => some (packR 0x3b rd 0 rs1 rs2 1)
  | .divw rd rs1 rs2 => some (packR 0x3b rd 4 rs1 rs2 1)
  | .divuw rd rs1 rs2 => some (packR 0x3b rd 5 rs1 rs2 1)
  | .remw rd rs1 rs2 => some (packR 0x3b rd 6 rs1 rs2 1)
  | .remuw rd rs1 rs2 => some (packR 0x3b rd 7 rs1 rs2 1)
  | .csrrw rd csr rs1 => some (packI 0x73 rd 1 rs1 csr.toNat)
  | .csrrs rd csr rs1 => some (packI 0x73 rd 2 rs1 csr.toNat)
  | .csrrc rd csr rs1 => some (packI 0x73 rd 3 rs1 csr.toNat)
  | .csrrwi rd csr uimm => some (packI 0x73 rd 5 uimm csr.toNat)
  | .csrrsi rd csr uimm => some (packI 0x73 rd 6 uimm csr.toNat)
  | .csrrci rd csr uimm => some (packI 0x73 rd 7 uimm csr.toNat)
  | .ldx g w size off3 rd rs1 => some (packKML g w 0 size off3 rs1 rd)
  | .ldxF g w dbl off3 rd rs1 => some (packKML g w 1 (2 + dbl.toNat) off3 rs1 rd)
  | .stx g w size off3 rs2 rs1 => some (packKMS g w 0 rs2 rs1 size off3)
  | .stxF g w dbl off3 rs2 rs1 => some (packKMS g w 1 rs2 rs1 (2 + dbl.toNat) off3)
  | .aadd aq rl dbl rd rs2 rs1 => some (packKA 0 aq rl dbl rs2 rs1 rd)
  | .aswp aq rl dbl rd rs2 rs1 => some (packKA 1 aq rl dbl rs2 rs1 rd)
  | .aand aq rl dbl rd rs2 rs1 => some (packKA 2 aq rl dbl rs2 rs1 rd)
  | .aor aq rl dbl rd rs2 rs1 => some (packKA 3 aq rl dbl rs2 rs1 rd)
  | .axor aq rl dbl rd rs2 rs1 => some (packKA 4 aq rl dbl rs2 rs1 rd)
  | .amax aq rl dbl rd rs2 rs1 => some (packKA 5 aq rl dbl rs2 rs1 rd)
  | .amin aq rl dbl rd rs2 rs1 => some (packKA 6 aq rl dbl rs2 rs1 rd)
  | .amaxu aq rl dbl rd rs2 rs1 => some (packKA 7 aq rl dbl rs2 rs1 rd)
  | .aminu aq rl dbl rd rs2 rs1 => some (packKA 8 aq rl dbl rs2 rs1 rd)
  | .acas aq rl dbl rd rs2 rs1 => some (packKA 9 aq rl dbl rs2 rs1 rd)
  | .afadd aq rl rd rs2 rs1 => some (packKA 10 aq rl false rs2 rs1 rd)
  | .afmax aq rl rd rs2 rs1 => some (packKA 11 aq rl false rs2 rs1 rd)
  | .aincw aq rl dbl rd rs2 rs1 => some (packKA 12 aq rl dbl rs2 rs1 rd)
  | .pseq g pd rs1 rs2 => some (pack 0xb pd 2 rs1 rs2 0 g)
  | .psne g pd rs1 rs2 => some (pack 0xb pd 2 rs1 rs2 1 g)
  | .pslt g pd rs1 rs2 => some (pack 0xb pd 2 rs1 rs2 2 g)
  | .psge g pd rs1 rs2 => some (pack 0xb pd 2 rs1 rs2 3 g)
  | .psltu g pd rs1 rs2 => some (pack 0xb pd 2 rs1 rs2 4 g)
  | .psgeu g pd rs1 rs2 => some (pack 0xb pd 2 rs1 rs2 5 g)
  | .pand g pd pa pb => some (pack 0xb pd 2 pa pb 6 g)
  | .por g pd pa pb => some (pack 0xb pd 2 pa pb 7 g)
  | .pandn g pd pa pb => some (pack 0xb pd 2 pa pb 8 g)
  | .pxor g pd pa pb => some (pack 0xb pd 2 pa pb 9 g)
  | .prd g rd => some (pack 0xb rd 2 0 0 10 g)
  | .pwr g rs1 rs2 => some (pack 0xb 0 2 rs1 rs2 11 g)
  | .limm g rd _ => some (pack 0x0B rd 2 0 0 12 g)
  | .fencer g kinds scope rs1 rs2 => some (pack 0xb (kinds + scope * 8) 3 rs1 rs2 0 g)
  | .ldro g rd rs1 size => some (pack 0xb rd 3 rs1 size 1 g)
  | .feclr g rs1 rs2 => some (pack 0xb 0 3 rs1 rs2 2 g)
  | .feset g rs1 rs2 => some (pack 0xb 0 3 rs1 rs2 3 g)
  | .fetest g pd rs1 => some (pack 0xb pd 3 rs1 0 4 g)
  | .cntwait g mask => some (pack 0xb 0 3 mask 0 5 g)
  | .stnibLo g rs1 rs2 => some (pack 0xb 0 3 rs1 rs2 6 g)
  | .stnibHi g rs1 rs2 => some (pack 0xb 1 3 rs1 rs2 6 g)
  | .lockr g rs1 rs2 => some (pack 0xb 0 3 rs1 rs2 7 g)
  | .chunk g rd rs1 => some (pack 0xb rd 3 rs1 0 9 g)
  | .pfetch g kind rs1 rs2 => some (pack 0xb kind 3 rs1 rs2 10 g)
  | .spawn g rd rs1 rs2 => some (pack 0xb rd 4 rs1 rs2 0 g)
  | .mspawn g rd rs1 rs2 => some (pack 0xb rd 4 rs1 rs2 1 g)
  | .migr g rs1 => some (pack 0xb 0 4 rs1 0 2 g)
  | .retire g => some (pack 0xb 0 4 0 0 3 g)
  | .waitev g rd => some (pack 0xb rd 4 0 0 4 g)
  | .pairon g rd => some (pack 0xb rd 4 0 0 5 g)
  | .pairoff g => some (pack 0xb 0 4 0 0 6 g)
  | .rep g rs1 rs2 => some (pack 0xb 0 4 rs1 rs2 7 g)
  | .qpush g rs1 rs2 => some (pack 0xb 0 5 rs1 rs2 0 g)
  | .qpop g rd rs1 => some (pack 0xb rd 5 rs1 0 1 g)
  | .qwait g rd rs1 rs2 => some (pack 0xb rd 5 rs1 rs2 2 g)
  | .qstat g rd rs1 => some (pack 0xb rd 5 rs1 0 3 g)
  | .msend g tag rs1 rs2 => some (pack 0xb tag 5 rs1 rs2 4 g)
  | .mrecv g rd rh => some (pack 0xb rd 5 0 rh 5 g)
  | .barset g b rs2 => some (pack 0xb 0 5 b rs2 6 g)
  | .barrive g rd b => some (pack 0xb rd 5 b 0 7 g)
  | .barwait g b rs2 => some (pack 0xb 0 5 b rs2 8 g)
  | .barstat g rd b => some (pack 0xb rd 5 b 0 9 g)
  | .qmap g n reg rs1 => some (pack 0xb (n + reg * 4) 5 rs1 0 10 g)
  | .qreg g reg rs1 => some (pack 0xb (reg * 4 + 16) 5 rs1 0 10 g)
  | .mbxput g rs1 rs2 => some (pack 0xb 0 6 rs1 rs2 0 g)
  | .mbxget g rd rs1 => some (pack 0xb rd 6 rs1 0 1 g)
  | .cpyiss g rd rs1 rs2 => some (pack 0xb rd 6 rs1 rs2 2 g)
  | .cpywait g rs1 rs2 => some (pack 0xb 0 6 rs1 rs2 3 g)
  | .cpydone g rd rs1 => some (pack 0xb rd 6 rs1 0 4 g)
  | .trpop g rd => some (pack 0xb rd 7 0 0 0 g)
  | .xrdt g rd rs1 rs2 => some (pack 0xb rd 7 rs1 rs2 1 g)
  | .xwrt g rv rs1 rs2 => some (pack 0xb rv 7 rs1 rs2 2 g)
  | .xresume g rs1 => some (pack 0xb 0 7 rs1 0 3 g)
  | .xkill g rs1 => some (pack 0xb 0 7 rs1 0 4 g)
  | .tcswap g rd rs1 rs2 => some (pack 0xb rd 7 rs1 rs2 5 g)
  | .dbrk g rs1 => some (pack 0xb 0 7 rs1 0 6 g)
  | .stamp g rd => some (pack 0xb rd 7 0 0 7 g)
  | .vadd t vd vs1 vs2 => some (pack 0x2B vd 0 vs1 vs2 0 t.code)
  | .vsub t vd vs1 vs2 => some (pack 0x2B vd 0 vs1 vs2 1 t.code)
  | .vmul t vd vs1 vs2 => some (pack 0x2B vd 0 vs1 vs2 2 t.code)
  | .vfma t vd vs1 vs2 => some (pack 0x2B vd 0 vs1 vs2 3 t.code)
  | .vfms t vd vs1 vs2 => some (pack 0x2B vd 0 vs1 vs2 4 t.code)
  | .vmin t vd vs1 vs2 => some (pack 0x2B vd 0 vs1 vs2 5 t.code)
  | .vmax t vd vs1 vs2 => some (pack 0x2B vd 0 vs1 vs2 6 t.code)
  | .vabs t vd vs1 => some (pack 0x2B vd 0 vs1 0 7 t.code)
  | .vneg t vd vs1 => some (pack 0x2B vd 0 vs1 0 8 t.code)
  | .vceq t kd vs1 vs2 => some (pack 0x2B kd 0 vs1 vs2 9 t.code)
  | .vclt t kd vs1 vs2 => some (pack 0x2B kd 0 vs1 vs2 10 t.code)
  | .vcle t kd vs1 vs2 => some (pack 0x2B kd 0 vs1 vs2 11 t.code)
  | .vsel t vd vs1 vs2 => some (pack 0x2B vd 0 vs1 vs2 12 t.code)
  | .vdiv vd vs1 vs2 => some (pack 0x2B vd 1 vs1 vs2 0 0)
  | .vsqrt vd vs1 => some (pack 0x2B vd 1 vs1 0 1 0)
  | .vrsqrt vd vs1 => some (pack 0x2B vd 1 vs1 0 2 0)
  | .vrcp vd vs1 => some (pack 0x2B vd 1 vs1 0 3 0)
  | .vexp2 vd vs1 => some (pack 0x2B vd 1 vs1 0 4 0)
  | .vlog2 vd vs1 => some (pack 0x2B vd 1 vs1 0 5 0)
  | .vsin vd vs1 => some (pack 0x2B vd 1 vs1 0 6 0)
  | .vcos vd vs1 => some (pack 0x2B vd 1 vs1 0 7 0)
  | .vand t vd vs1 vs2 => some (pack 0x2B vd 2 vs1 vs2 0 t.code)
  | .vor t vd vs1 vs2 => some (pack 0x2B vd 2 vs1 vs2 1 t.code)
  | .vxor t vd vs1 vs2 => some (pack 0x2B vd 2 vs1 vs2 2 t.code)
  | .vshl t vd vs1 vs2 => some (pack 0x2B vd 2 vs1 vs2 3 t.code)
  | .vshr t vd vs1 vs2 => some (pack 0x2B vd 2 vs1 vs2 4 t.code)
  | .vsra t vd vs1 vs2 => some (pack 0x2B vd 2 vs1 vs2 5 t.code)
  | .vcadd vd vs1 vs2 => some (pack 0x2B vd 3 vs1 vs2 0 6)
  | .vcsub vd vs1 vs2 => some (pack 0x2B vd 3 vs1 vs2 1 6)
  | .vcmul vd vs1 vs2 => some (pack 0x2B vd 3 vs1 vs2 2 6)
  | .vcfma vd vs1 vs2 => some (pack 0x2B vd 3 vs1 vs2 3 6)
  | .vcconj vd vs1 => some (pack 0x2B vd 3 vs1 0 4 6)
  | .vcmag2 vd vs1 => some (pack 0x2B vd 3 vs1 0 5 6)
  | .vcexpj vd vs1 => some (pack 0x2B vd 3 vs1 0 6 6)
  | .vld t vd rs1 => some (pack 0x2B vd 4 rs1 0 0 t.code)
  | .vlds t vd rs1 rs2 => some (pack 0x2B vd 4 rs1 rs2 1 t.code)
  | .vst t vs rs1 => some (pack 0x2B vs 4 rs1 0 2 t.code)
  | .vsts t vs rs1 rs2 => some (pack 0x2B vs 4 rs1 rs2 3 t.code)
  | .vgath t vd rs1 vi => some (pack 0x2B vd 4 rs1 vi 4 t.code)
  | .vscat t vs rs1 vi => some (pack 0x2B vs 4 rs1 vi 5 t.code)
  | .vldl t vd rs1 => some (pack 0x2B vd 4 rs1 0 6 t.code)
  | .vstl t vs rs1 => some (pack 0x2B vs 4 rs1 0 7 t.code)
  | .vbcast t vd rs1 => some (pack 0x2B vd 4 rs1 0 8 t.code)
  | .vmvx t rd rs1 vs2 => some (pack 0x2B rd 4 rs1 vs2 9 t.code)
  | .vins t vd rs1 rs2 => some (pack 0x2B vd 4 rs1 rs2 10 t.code)
  | .vcfg rd rs1 rs2 => some (pack 0x2B rd 5 rs1 rs2 0 0)
  | .vredadd t vd vs1 => some (pack 0x2B vd 5 vs1 0 1 t.code)
  | .vredmax t vd vs1 => some (pack 0x2B vd 5 vs1 0 2 t.code)
  | .vredmin t vd vs1 => some (pack 0x2B vd 5 vs1 0 3 t.code)
  | .vcvt t vd vs1 => some (pack 0x2B vd 5 vs1 0 4 t.code)
  | .vpack vd vs1 fc => some (pack 0x2B vd 5 vs1 fc 5 0)
  | .vunpk vd vs1 fc => some (pack 0x2B vd 5 vs1 fc 6 0)
  | .vperm t vd vs1 vs2 => some (pack 0x2B vd 5 vs1 vs2 7 t.code)
  | .vslide t vd vs1 rs2 => some (pack 0x2B vd 5 vs1 rs2 8 t.code)
  | .vkopAnd kd ka kb => some (pack 0x2B kd 5 ka (kb + 0) 9 0)
  | .vkopOr kd ka kb => some (pack 0x2B kd 5 ka (kb + 8) 9 0)
  | .vkopXor kd ka kb => some (pack 0x2B kd 5 ka (kb + 16) 9 0)
  | .vkopNot kd ka => some (pack 0x2B kd 5 ka 24 9 0)
  | .vkopFromx kd rs1 => some (pack 0x2B kd 5 rs1 25 9 0)
  | .vkopTox rd ka => some (pack 0x2B rd 5 ka 26 9 0)
  | .vkopCount rd ka => some (pack 0x2B rd 5 ka 27 9 0)
  | .vstat rd => some (pack 0x2B rd 5 0 0 11 0)
  | .mcfg g rs1 => some (pack 0x5b 0 0 rs1 0 0 g)
  | .mgang g rd rs1 rs2 => some (pack 0x5b rd 0 rs1 rs2 1 g)
  | .mbld g rs1 rs2 => some (pack 0x5b 0 0 rs1 rs2 2 g)
  | .mma g acc rs1 rs2 => some (pack 0x5b acc 0 rs1 rs2 3 g)
  | .mzero g acc => some (pack 0x5b acc 0 0 0 4 g)
  | .mstore g acc rs1 => some (pack 0x5b acc 0 rs1 0 5 g)
  | .mstat g rd => some (pack 0x5b rd 0 0 0 6 g)
  | .mwait g => some (pack 0x5b 0 0 0 0 7 g)
  | .ptcfg g rs1 rs2 => some (pack 0x5b 0 1 rs1 rs2 0 g)
  | .ptserve g rs1 => some (pack 0x5b 0 1 rs1 0 1 g)
  | .ptenq g rs1 => some (pack 0x5b 0 1 rs1 0 2 g)
  | .topen g rd rs1 rs2 => some (pack 0x5b rd 1 rs1 rs2 3 g)
  | .pfork g rc rs1 rs2 => some (pack 0x5b rc 1 rs1 rs2 4 g)
  | .pdone g => some (pack 0x5b 0 1 0 0 5 g)
  | .nacc g vs rs1 rs2 => some (pack 0x5b vs 1 rs1 rs2 6 g)
  | .ndown g rs1 rs2 => some (pack 0x5b 0 1 rs1 rs2 7 g)
  | .ndownUp g rs1 rs2 => some (pack 0x5b 1 1 rs1 rs2 7 g)
  | .sacfg g rd rs1 => some (pack 0x5b rd 2 rs1 0 0 g)
  | .saddF32 g vs rs1 => some (pack 0x5b vs 2 rs1 0 1 g)
  | .saddBf16 g vs rs1 => some (pack 0x5b vs 2 rs1 1 1 g)
  | .snormRms g vd rs1 => some (pack 0x5b vd 2 rs1 0 2 g)
  | .snormLayer g vd rs1 => some (pack 0x5b vd 2 rs1 1 2 g)
  | .snormUnit g vd rs1 => some (pack 0x5b vd 2 rs1 2 2 g)
  | .ssq g rd rs1 => some (pack 0x5b rd 2 rs1 0 3 g)
  | .szero g rs1 rs2 => some (pack 0x5b 0 2 rs1 rs2 4 g)
  | .sevict g rs1 rs2 => some (pack 0x5b 0 2 rs1 rs2 5 g)
  | .sload g rs1 rs2 => some (pack 0x5b 0 2 rs1 rs2 6 g)
  | .sexport g rs1 rs2 => some (pack 0x5b 0 2 rs1 rs2 7 g)
  | .trace g rd rs1 => some (pack 0x7b rd 0 rs1 0 0 g)
  | .tresume g rs1 rs2 => some (pack 0x7b 0 0 rs1 rs2 1 g)
  | .twait g rd rs1 => some (pack 0x7b rd 0 rs1 0 2 g)
  | .taccept g rs1 => some (pack 0x7b 0 0 rs1 0 3 g)
  | .tignore g rs1 => some (pack 0x7b 0 0 rs1 0 4 g)
  | .tterm g rs1 => some (pack 0x7b 0 0 rs1 0 5 g)
  | .tspawn g rd rs1 rs2 => some (pack 0x7b rd 0 rs1 rs2 6 g)
  | .trsave g rs1 => some (pack 0x7b 0 0 rs1 0 7 g)
  | .hhtinv g mode rs1 rs2 => some (pack 0x7b mode 0 rs1 rs2 8 g)
  | .rsetup g rs1 rs2 => some (pack 0x7b 0 1 rs1 rs2 0 g)
  | .rcover g rd rs1 rs2 => some (pack 0x7b rd 1 rs1 rs2 1 g)
  | .rdepth g rd rs1 rs2 => some (pack 0x7b rd 1 rs1 rs2 2 g)
  | .fence => some (0x0F)
  | .ecall => some (115)
  | .ebreak => some (1048691)
  | .unlockr => some (pack 0xb 0 3 0 0 8 0)
  | .unlockrP1 => some (pack 0xb 0 3 0 0 8 1)
  | .unlockrP2 => some (pack 0xb 0 3 0 0 8 2)
  | .unlockrP3 => some (pack 0xb 0 3 0 0 8 3)
  | .unlockrP4 => some (pack 0xb 0 3 0 0 8 4)
  | .unlockrP5 => some (pack 0xb 0 3 0 0 8 5)
  | .unlockrP6 => some (pack 0xb 0 3 0 0 8 6)
  | .unlockrP7 => some (pack 0xb 0 3 0 0 8 7)
  | .vfence => some (pack 0x2B 0 5 0 0 10 0)
  | .csrWrite => none
  | .vstatCsrWrite => none
  | .repeatCsrWrite => none
  | .dldetCsrWrite => none
  | .stripExecute => none
  | .stripComplete => none
  | .mgangExecute => none
  | .mbldExecute => none
  | .mmaExecute => none
  | .mzeroExecute => none
  | .mstoreExecute => none
  | .mmaOperandError => none
  | .taskDelivery => none
  | .taskSteal => none
  | .frontierRefill => none
  | .tasksExhausted => none
  | .tongsSpillFault => none
  | .heldSeedEntry => none
  | .saddBankUpdate => none
  | .crucibleRowError => none
  | .childRayStart => none
  | .rayCandidate => none
  | .stackRestart => none
  | .rayEnd => none
  | .rayFault => none
  | .replyArrival => none
  | .timingErrorReplay => none
  | .replayRateReport => none
  | .launchEntryRead => none
  | .launchPlacement => none
  | .priorityPromotion => none
  | .launchCompletion => none
  | .migrantArrival => none
  | .spillRefill => none
  | .packetAcceptance => none
  | .migrantParkSwap => none
  | .slotRemoval => none
  | .slotReturn => none
  | .waitLimitExpiry => none
  | .barrierTimeout => none
  | .gangTimeout => none
  | .deferredTrap => none
  | .deadlockPass => none
  | .prefectSample => none
  | .chunkLimitClose => none
  | .chunkCommit => none
  | .commitTokenGrant => none
  | .postedOpArrival => none
  | .postedAck => none
  | .queuePushPerform => none
  | .messageDepart => none
  | .messageArrival => none
  | .copyJobStart => none
  | .copyJobComplete => none
  | .barrierArrivalSignal => none
  | .barrierReleaseSignal => none
  | .pageWalk => none
  | .stage2Repair => none
  | .stage2Refusal => none
  | .tlbInvalidateRange => none
  | .tlbInvalidateAll => none
  | .tlbInvalidateNonglobal => none
  | .rootRereadInvalidate => none
  | .lineMigration => none
  | .migratedLineEviction => none
  | .samplerInvalidate => none
  | .shOwnershipRequest => none
  | .shInvalidationReceive => none
  | .pageConsolidation => none
  | .patrolScrub => none
  | .budgetPeriod => none
  | .modeTableRequest => none
  | .mgmtSlot0Resume => none
  | .mgmtSlot0Kill => none
  | .launchQueueReset => none
  | .partitionReset => none
  | .debugSessionOpen => none
  | .debugSessionClose => none
  | .debugSessionStep => none
  | .eventCounterSelect => none
  | .portControlRequest => none
  | .ueMessageReceive => none
  | .ueDeliveryFailure => none
  | .hostWrite => none
  | .hostRead => none
  | .cxlMemAccess => none
  | .linkPortFailure => none
  | .moduleLoss => none
  | .domainFormation => none
  | .moduleReset => none
  | .partitionCreate => none
  | .timeSliceExpiry => none
  | .partitionSwitch => none
  | .thermalLimit => none
  | .thermalRecovery => none
  | .powerCapExceeded => none
  | .efficiencyDividerStep => none
  | .stallMapCapture => none
  | .stampHoldRelease => none
  | .getVersion => none
  | .getCapabilities => none
  | .negotiateAlgorithms => none
  | .getDigests => none
  | .getCertificate => none
  | .challenge => none
  | .getMeasurements => none
  | .keyExchange => none
  | .finish => none
  | .endSession => none
  | .debugUnlock => none
  | .debugStop => none
  | .debugResume => none
  | .debugSingleStep => none
  | .debugStepToIdle => none
  | .debugGangStop => none
  | .debugStateRead => none
  | .debugCounterAccess => none
  | .debugTraceControl => none
  | .debugSessionExpiry => none
  | .rowPowerOff => none
  | .rowPowerOn => none
  | .idleRowVoltageDrop => none
  | .inFieldTest => none
  | .ballast => none
  | .shInvalidationApply => none
  | .timeSynchronisation => none
  | .linkRetransmission => none
  | .traceHeldRecordDrain => none

/-- The bytes of an instruction in memory order: its word, and the literal word of LIMM (R102, R110). -/
def encode (i : Instr) : List Byte :=
  match encodeWord i with
  | none => []
  | some w =>
    bytesOfWord w ++
      match i with
      | .limm _ _ lit => bytesOfWord lit.toNat
      | _ => []

end Sys2Proof
end

