-- ==== Sys2Proof/Machine/Threads.lean ====
section
/-! DEFINITION. Threads.lean: binding, filling slots, swapping and restoring, ending threads, migrant packets and run-queue
tiers (R54, R64 to R72, R77 to R79, R256, R261, R270 to R273, R382 to R385, R414). -/

namespace Sys2Proof.Machine

/-! ### Launches -/

/-- A field of a launch descriptor: bits of a doubleword (R70). -/
def Launch.f (l : Launch) (dw lo len : Nat) : Nat := bits (l.d.getD dw 0).toNat lo len
/-- Slot mask. -/
def Launch.slotMask (l : Launch) : Nat := l.f 3 40 8
/-- Migrant mask. -/
def Launch.migMask (l : Launch) : Nat := l.f 3 48 8
/-- Die mask. -/
def Launch.dieMask (l : Launch) : Nat := l.f 3 0 8
/-- NOXM. -/
def Launch.noxm (l : Launch) : Bool := l.f 0 32 1 == 1

/-- The cores of the launch's rectangle, in index order (R72). -/
def Launch.rect (l : Launch) : List Nat :=
  ((List.range 8).filter fun d => l.dieMask.testBit d).flatMap fun d =>
    (List.range (l.f 3 16 8)).flatMap fun r =>
      (List.range (l.f 3 32 8)).map fun q => d * 512 + (l.f 3 8 8 + r) * 16 + l.f 3 24 8 + q

/-- A launch of the partition on a core. -/
def State.launchOf (s : State) (c : Nat) (id : BitVec 32) : Option Launch :=
  (s.partOf c).bind fun p => p.launches.find? fun l => l.id == id

/-- Bit k of the slot mask or the migrant mask of a thread's launch (R67, R414). -/
def State.maskBit (s : State) (c : Nat) (id : BitVec 32) (migrant : Bool) (k : SlotN) : Bool :=
  match s.launchOf c id with
  | some l => (if migrant then l.migMask else l.slotMask).testBit k
  | none => false

/-! ### Slots -/

/-- A user slot is EMPTY and not removed (R55, R79). -/
def State.isFree (s : State) (c : Nat) (k : SlotN) : Bool :=
  2 ≤ k.val && (s.slot c k).isEmpty && !(s.core c).removed.getLsbD k

/-- The lowest free user slot that a test allows. -/
def State.freeSlot (s : State) (c : Nat) (ok : SlotN → Bool) : Option SlotN :=
  (List.finRange 8).find? fun k => s.isFree c k && ok k

/-- Binds a thread in a slot with the core's next serial; it issues from the next turn on (R50, R267). -/
def State.bindIn (s : State) (c : Nat) (k : SlotN) (t : Thread) : State :=
  let n := s.nextSerial c
  ((s.setThr c k { t with serial := n, resumedAt := (s.core c).cycle })).modCore c fun x => { x with lastSerial := n }

/-- A migrant as its packet binds it (R65). -/
def Packet.thread (p : Packet) (prio : Nat) : Thread :=
  let a := (List.finRange 8).foldl (fun (a : Arch) (i : Fin 8) => { a with x := a.x.set (10 + i.val) (p.a.getD i 0) (by omega) })
    { Arch.reset with pc := p.pc, pw := p.pw ||| 1, csr := { UserCsrs.reset with vctl := 0x20 } }
  { Thread.reset with
    a := a, launch := p.launch, kind := .migrant, prio := prio
    migr := ⟨0, true, p.spawned, p.hops, p.origin, p.spawner, p.target⟩ }

/-- Effective priority of a launch at its placement on a die (R76). -/
def Launch.prioOn (l : Launch) (d : Nat) : Nat :=
  match l.eff.find? fun e => e.1 == d with
  | some e => e.2.1
  | none => l.f 3 62 2

/-! ### Contexts -/

/-- The state a saved context shows (R384). -/
def Thread.stateCode (t : Thread) : Nat :=
  match t.st with
  | .runnable => match t.wait with | .none => 1 | _ => 2
  | .parked => 2
  | .trapped => 3
  | .stopped => 4

/-- The 9 KiB block of a saved context; the message area holds the messages moved there. Its vector image is written only
when the block's own is not current (R283, R384, R385). [log 117 DEDUCED] -/
def Swapped.block (w : Swapped) (handle : Word) : List Byte :=
  let t := w.t
  let dw (v : Word) : List Byte := leBytes 8 v.toNat
  let dn (v : Nat) : List Byte := leBytes 8 v
  let z (n : Nat) : List Byte := List.replicate n 0
  let def_ (c : Nat) : List Byte :=
    match t.deferred.find? fun d => d.cause.toNat == c with
    | some d => dw d.stamp ++ dn (d.flags.toNat * 2 ^ 48 + d.source.toNat * 2 ^ 40 + d.cause.toNat * 2 ^ 32) ++
        dw d.trval ++ dw d.trval2
    | none => z 32
  let heldBit (i : Fin 4) : Nat := if t.held[i].isSome then 2 ^ i.val else 0
  let msgs := ((w.msgs.flatMap fun m => m.flatMap dw) ++ z 256).take 256
  dw t.a.pc ++ dw handle ++
  dn ((match w.blocked with | .none => t.stateCode | _ => 2) * 2 ^ 56 + t.role * 2 ^ 48 + (if t.vimg then 2 ^ 46 else 0) + t.paired.toNat * 2 ^ 45 +
    t.clim.val * 2 ^ 40 + t.evl.toNat * 2 ^ 32 + t.launch.toNat) ++
  dn (t.a.pw.toNat) ++ t.a.x.toList.flatMap dw ++ t.a.k.toList.flatMap dw ++
  ((List.range 10).flatMap fun i => dw (t.userCsr (0x800 + i))) ++
  dw t.tr.trcause ++ dw t.tr.trval ++ dw t.tr.trpc ++ dw t.tr.trval2 ++
  dn (t.psc2 % 2 ^ 16 * 2 ^ 32 + t.psc1 % 2 ^ 16 * 2 ^ 16 + t.psc0 % 2 ^ 16) ++ dn t.instret ++ dw t.migrCsr ++
  dw t.chunkstat ++ dw t.a.repEnd ++ z 8 ++ msgs ++ def_ 29 ++ def_ 30 ++ def_ 33 ++
  dn (t.a.endPend.toNat * 16 + heldBit 0 + heldBit 1 + heldBit 2 + heldBit 3) ++
  ((List.finRange 4).flatMap fun i => dw ((t.held[i]).getD 0)) ++ z 120 ++
  if !t.dirty then [] else
  (t.a.v.toList.flatMap fun v => leBytes 128 v.toNat) ++
  (if t.paired then t.a.vOdd.toList.flatMap fun v => leBytes 128 v.toNat else [])

/-- Rank of a core among the cores of a partition's rows. -/
def coreRank (p : Part) (c : Nat) : Nat :=
  ((p.cfg.rows.takeWhile fun r => r != (dieOf c, rowOf c)).length) * 16 + colOf c

/-- Writes bytes at an intermediate address of a partition, page by page, stage 2 only; none at a stage-2 failure
(R385). -/
def State.ipaWriteAll (s : State) (p : Part) (ipa : Nat) (bs : List Byte) : Nat → Option State
  | 0 => some s
  | f + 1 =>
    if bs = [] then some s else
    let n := 2 ^ 16 - ipa % 2 ^ 16
    (s.ipaWrite p ipa (bs.take n)).bind fun s1 => s1.ipaWriteAll p (ipa + n) (bs.drop n) f

/-- Messages of a context leave the inbox for its message area, at most 16 (R283). -/
def CoreCtx.takeMsgs (x : CoreCtx) (serial : Nat) : List Msg × CoreCtx :=
  let mine := (x.inbox.filter fun m => !m.orphan && m.dst.serial == serial).take 16
  (mine, { x with inbox := mine.foldl List.erase x.inbox })

/-- The context that gives up its entry when all 32 are full: the least recently swapped of the same partition, or else of
any (R382). -/
def oldestOf (cached : List Swapped) (part : Nat) : Option Swapped := (cached.find? fun w => w.part == part) <|> cached.head?

/-- Intermediate address of a context's block in its partition's area (R385). -/
def Swapped.blockAt (w : Swapped) (p : Part) (c : Nat) : Nat := p.cfg.ctxArea + (coreRank p c * 40 + w.t.block.getD 0) * 9216

/-- Stage 2 stops an access to a context's block (R385). -/
def State.areaStop (s : State) (c : Nat) (w : Swapped) (store : Bool) : Option (Part × Nat × Trap) :=
  (s.part? w.part).bind fun p => (s.ipaStop p (w.blockAt p c) 9216 store).map fun e => (p, e)

/-- What stalls the swap of one more context out of a core: its cache is full, and the entry that is to make room cannot be
written to its block (R382, R385). -/
def State.swapStall (s : State) (c : Nat) : Option (Part × Nat × Trap) :=
  let cached := (s.core c).swapped.filter fun w => !w.inArea
  if cached.length < 32 then none
  else (oldestOf cached (((s.core c).part).getD 0)).bind fun w => s.areaStop c w true

/-- Writes the least recently swapped entry to the context area when the one just added makes more than 32: one of the same
partition, or else of any (R382, R385). [log 117 DEDUCED] -/
def State.spillCache (s : State) (c : Nat) (part : Nat) : State :=
  let k := s.core c
  if (k.swapped.filter fun w => !w.inArea).length ≤ 32 then s else
  match oldestOf (k.swapped.dropLast.filter fun w => !w.inArea) part with
  | none => s
  | some w =>
    match s.part? w.part with
    | none => s
    | some p =>
      let (ms, x) := k.c.takeMsgs w.t.serial
      let w' := { w with inArea := true, msgs := ms.map fun m => [m.payload, m.header], t := { w.t with dirty := false } }
      let bs := { w' with t := w.t }.block (BitVec.ofNat 64 (w.t.serial * 2 ^ 32) ||| s.loc c w.slot)
      match s.ipaWriteAll p (w.blockAt p c) bs 3 with
      | none => match s.areaStop c w true with
        | some e => s.ipaReport c e.1 e.2
        | none => s
      | some s1 => s1.modCore c fun k =>
          { k with c := x, swapped := k.swapped.map fun v => if v.t.serial = w.t.serial then w' else v }

/-- A thread's block in the context area: the one it has, or the lowest that no thread of the core holds (R385). -/
def Core.freeBlock (k : Core) (t : Thread) : Nat :=
  match t.block with
  | some b => b
  | none =>
    let used := (k.threads.filterMap fun e => e.2.block) ++ k.swapped.filterMap fun w => w.t.block
    ((List.range 41).find? fun b => !used.contains b).getD 40

/-- What a swap makes of the wait of a thread: a request already sent keeps its reply, with a push that the reply left to
do; anything else is withdrawn and the instruction re-executes (R51, R383). -/
def Thread.withdrawn (t : Thread) (now : Nat) : Thread :=
  match t.st with
  | .parked =>
    match t.wait with
    | .reply d e f => { t with wait := .reply d e f }
    | .cond (.resume i) => { t with wait := .cond (.resume i) }
    | .push h v f false => { t with wait := .reply now false { f with ws := .push h v :: f.ws } }
    | _ => { t.countWait with st := .runnable, wait := .none, redo := false }
  | .runnable => { t with redo := false }
  | _ => t

/-- The other slot of (2, 3), (4, 5) or (6, 7) (R275). -/
def pairMate (k : SlotN) : SlotN := if k.val % 2 = 0 then k + 1 else k - 1

/-- A slot becomes EMPTY: a thread parked in PAIRON for it gets 0 (R275). -/
def State.mateGone (s : State) (c : Nat) (k : SlotN) : State :=
  let m := pairMate k
  match s.slot c m with
  | .thread t =>
    match t.st, t.wait with
    | .parked, .cond (.partner rd) =>
      s.modThr c m fun t => { t with wait := .reply (s.core c).cycle true { ws := [.x rd 0] } }
    | _, _ => s
  | _ => s

/-- Empties a slot. -/
def State.emptySlot (s : State) (c : Nat) (k : SlotN) : State := (s.setSlot c k .empty).mateGone c k

/-- Swaps the thread of a slot out to the thread-context cache: chunk committed, wait withdrawn, lock released,
registrations kept (R77, R382, R383). -/
def State.swapOut (s : State) (c : Nat) (k : SlotN) (heldForSwap standin moving : Bool) : State :=
  let s1 := (s.commit c k).1
  let t := (s1.withdraw c k).thr c k
  let s2 := (s1.withdraw c k).releaseLock c k
  let part := ((s2.core c).part).getD 0
  let b := (s2.core c).freeBlock t
  let w : Swapped := ⟨{ t.withdrawn (s.core c).cycle with block := some b }, part, k, heldForSwap, standin, moving, false, [],
    match t.st with | .parked => t.wait | _ => .none⟩
  let s3 := s2.emptySlot c k
  let s4 := if t.paired then s3.emptySlot c (k + 1) else s3
  (s4.modCore c fun x => { x with swapped := x.swapped ++ [w] }).spillCache c part

/-- Restores a swapped thread into a slot; its moved messages return ahead of those in the inbox (R51, R283, R383). -/
def State.restore (s : State) (c : Nat) (k : SlotN) (w : Swapped) (outside : Bool) : State :=
  let r : TRef := ⟨c, w.t.serial⟩
  let back : List Msg := w.msgs.map fun m =>
    let h := (m.getD 1 0).toNat
    { dst := r, src := BitVec.ofNat 64 (h % 2 ^ 48), sender := ⟨0, 0⟩,
      tag := ⟨h / 2 ^ 48 % 32, Nat.mod_lt _ (by decide)⟩, payload := m.getD 0 0, launch := w.t.launch, orphan := false }
  let s1 := s.modCore c fun x =>
    { x with
      swapped := x.swapped.filter fun v => v.t.serial != w.t.serial
      c := { x.c with inbox := back ++ x.c.inbox } }
  let now := (s.core c).cycle
  let s2 := s1.setThr c k { w.t with resumedAt := now, parkedAt := now, outside := w.t.outside || outside }
  let s3 := if w.t.paired then s2.setSlot c (k + 1) .odd else s2
  (s3.moveRegs c w.slot c k w.t.regs).moveRegs c (w.slot + 1) c (k + 1) w.t.regsOdd

/-- A migrant's spawner goes by another name (R65, R78, R275). -/
def Thread.respawn (a b : TRef) (t : Thread) : Thread :=
  if t.migr.spawner = a then { t with migr := { t.migr with spawner := b } } else t
/-- The same in a packet. -/
def Packet.respawn (a b : TRef) (p : Packet) : Packet := if p.spawner = a then { p with spawner := b } else p

/-- The same in a context: bound migrants, packets in the tiers or held, and what the thread commanded of the matrix engine
(R172). -/
def CoreCtx.respawn (a b : TRef) (x : CoreCtx) : CoreCtx :=
  { x with
    slots := x.slots.map fun w => match w with
      | .thread t => .thread (t.respawn a b)
      | w => w
    mx := { x.mx with queue := x.mx.queue.map fun m => if m.by_ = a then { m with by_ := b } else m }
    runQ := x.runQ.map (Packet.respawn a b), heldPackets := x.heldPackets.map (Packet.respawn a b)
    spill := { x.spill with
      ring := x.spill.ring.map (Packet.respawn a b), global := x.spill.global.map (Packet.respawn a b) } }

/-- The migrants that a thread has spawned, and the engine commands it has issued, are its under its new name, wherever they
are (R65, R78, R172, R275). -/
def State.respawn (s : State) (a b : TRef) : State :=
  { s with
    cores := s.cores.map fun e => (e.1, { e.2 with
      c := e.2.c.respawn a b
      swapped := e.2.swapped.map fun w => { w with t := w.t.respawn a b } })
    shadow := s.shadow.map fun e => (e.1, e.2.1, e.2.2.respawn a b) }

/-- A stand-in's full context at the destination of a move comes from the core it left: it takes a new serial where it
binds, and its registrations move there (R78, R260, R267). -/
def State.restoreMoved (s : State) (c : Nat) (k : SlotN) (w : Swapped) : State :=
  let n := s.nextSerial c
  let s1 := s.modCore c fun x => { x with swapped := x.swapped.filter fun v => v.t.serial != w.t.serial }
  let t := { w.t with
    serial := n, resumedAt := (s.core c).cycle, parkedAt := (s.core c).cycle
    outside := !s.maskBit c w.t.launch (w.t.kind == .migrant) k }
  let s2 := (s1.setThr c k t).modCore c fun x => { x with lastSerial := n }
  (s2.moveRegs (w.t.serial / 2 ^ 16 - 1) w.slot c k w.t.regs).respawn ⟨c, w.t.serial⟩ ⟨c, n⟩

/-! ### Run queue tiers -/

/-- The 96 bytes of a packet (R64). -/
def Packet.bytes (p : Packet) : List Byte :=
  let dw (v : Word) : List Byte := leBytes 8 v.toNat
  dw p.pc ++ leBytes 8 (p.origin.toNat * 2 ^ 32 + p.pw.toNat) ++
  leBytes 8 (p.standin.toNat * 2 ^ 49 + p.spawned.toNat * 2 ^ 48 + p.hops * 2 ^ 32 + p.launch.toNat) ++
  ((List.range 8).flatMap fun i => dw (p.a.getD i 0)) ++ dw p.target

/-- Reads a core's spill descriptor when it is first needed after both rings were empty; a ring base or a global base that
is not aligned gives no ring (R261, R323). [log 34 DEDUCED] -/
def State.readSpill (s : State) (c : Nat) : State :=
  let x := (s.core c).c.spill
  if x.ring ≠ [] ∨ x.global ≠ [] then s else
  let s := s.readMap (clusterOf c)
  let upd (y : SpillState) : State := s.modCtx c fun z => { z with spill := y }
  match s.areaKey (clusterOf c) (0x1000 + 32 * cicOf c) with
  | none => upd { x with en := false, gbase := 0 }
  | some key =>
    let base := s.num key 8
    let g := s.num (key + 16) 8
    let win := 0xFFFFFFFE00000000
    let ok := base.testBit 0 && bits base 1 5 == 0 && decide (win ≤ base / 64 * 64 ∧ base / 64 * 64 + 6144 ≤ win + (s.share c).2)
    upd { x with
      en := ok, base := base / 64 * 64, gbase := if bits g 4 12 = 0 then g / 2 ^ 16 * 2 ^ 16 else 0, glog := min (g % 16) 9,
      head := s.num (key + 8) 2 % 64, tail := s.num (key + 10) 2 % 64,
      ghead := s.num (key + 24) 2, gtail := s.num (key + 26) 2 }

/-- Packets a global ring holds (R261). -/
def SpillState.gsize (x : SpillState) : Nat := if x.gbase = 0 then 0 else 2 ^ (x.glog + 6)

/-- Writes the ring indices back to the spill descriptor (R261). -/
def State.writeSpill (s : State) (c : Nat) : State :=
  let x := (s.core c).c.spill
  match s.heldArea (clusterOf c) (0x1000 + 32 * cicOf c) with
  | none => s
  | some key =>
    (s.poke (key + 8) (leBytes 8 (x.ring.length * 2 ^ 32 + x.tail * 2 ^ 16 + x.head))).poke (key + 24)
      (leBytes 8 (x.global.length * 2 ^ 32 + x.gtail % 2 ^ 16 * 2 ^ 16 + x.ghead % 2 ^ 16))

/-- Key of an entry of a core's spill ring (R261). -/
def State.ringKey (s : State) (c j : Nat) : Nat :=
  spadKey c ((s.share c).1 + ((s.core c).c.spill.base - 0xFFFFFFFE00000000) + 96 * j)

/-- A held lock covers the indices of a core's spill descriptor, or an entry of its ring that is to be written (R214, R377).
-/
def State.spillLocked (s : State) (c : Nat) (entry : Option Nat) : Bool :=
  let d := ((s.heldArea (clusterOf c) (0x1000 + 32 * cicOf c)).map fun key => (key + 8, 24)).toList
  (s.spanLock (d ++ (entry.map fun j => (s.ringKey c j, 96)).toList) none).isSome

/-- The packet that 96 bytes hold; what only the model keeps of it comes from the packet stored there (R64, R261). -/
def Packet.ofBytes (p : Packet) (bs : List Byte) : Packet :=
  let n (o k : Nat) : Nat := leNat ((bs.drop o).take k)
  { p with
    pc := BitVec.ofNat 64 (n 0 8), pw := BitVec.ofNat 32 (n 8 4), origin := BitVec.ofNat 32 (n 12 4)
    launch := BitVec.ofNat 32 (n 16 4), hops := n 20 2, spawned := (n 22 1).testBit 0, standin := (n 22 1).testBit 1
    a := (List.range 8).map fun i => BitVec.ofNat 64 (n (24 + 8 * i) 8), target := BitVec.ofNat 64 (n 88 8) }

/-- Where an engine access of a partition goes, seen from a core: its key, or a trap; none while Nolmon holds it (R193).
[log 85 DEDUCED] -/
def State.engineKey (s : State) (c a : Nat) (need : Need) : State × Except (Option Trap) Nat :=
  match s.resolve c a need false with
  | (s1, .ok t) =>
    match s1.engineShares t 1 need with
    | (s2, some _) => (s2, .error none)
    | (s2, none) => ((match t with | .global p => s2.noteLine (clusterOf c) (p.pa / 64) | _ => s2), .ok t.key)
  | (s1, .error (.trap p)) => (s1, .error (some p))
  | (s1, .error (.table p)) => (s1, .error (some p))
  | (s1, .error (.moving _)) => (s1, .error none)
  | (s1, .error (.unowned _)) => (s1, .error none)
  | (s1, .error (.across _)) => (s1, .error none)
  | (s1, .error (.stage2 p ipa)) =>
    let pg := (((s.core c).part).getD 0, ipa / 2 ^ 16)
    if pg ∈ s1.refusedPages then
      ({ s1 with refusedPages := s1.refusedPages.filter fun q => q != pg }, .error (some p))
    else
      let w : S2Wait := ⟨⟨c, 0⟩, p.val, p.cause, p.val2, ipa, ((s.core c).part).getD 0⟩
      ({ s1 with s2waits := if w ∈ s1.s2waits then s1.s2waits else s1.s2waits ++ [w] }, .error none)

/-- Where an engine access of n bytes goes: keys and bytes, page by page (R191). -/
def State.engineSpans (s : State) (c a n : Nat) (need : Need) : State × Except (Option Trap) (List (Nat × Nat)) :=
  let m := 2 ^ 16 - a % 2 ^ 16
  match s.engineKey c a need with
  | (s1, .error e) => (s1, .error e)
  | (s1, .ok key) =>
    if n ≤ m then (s1, .ok [(key, n)]) else
    match s1.engineKey c (a + m) need with
    | (s2, .error e) => (s2, .error e)
    | (s2, .ok key2) => (s2, .ok [(key, m), (key2, n - m)])

/-- Translated lines that pieces meet, for commit order (R242). -/
def spanLines (xs : List (Nat × Nat)) : List Nat :=
  xs.flatMap fun e => if e.1 < 2 ^ 60 then (List.range ((e.1 + e.2 - 1) / 64 - e.1 / 64 + 1)).map fun i => e.1 / 64 + i else []

/-- Writes bytes over pieces as an engine does, entering translated lines in commit order (R242). -/
def State.spanWrite (s : State) (xs : List (Nat × Nat)) (bs : List Byte) : State :=
  let s1 := (xs.foldl (fun (p : State × List Byte) e => (p.1.poke e.1 (p.2.take e.2), p.2.drop e.2)) (s, bs)).1
  s1.record (spanLines xs)

/-- Handle of a core's migrant spill path (R380). [log 60 DEDUCED] -/
def State.spillHandle (s : State) (c sub : Nat) : Word :=
  BitVec.ofNat 64 (2 ^ 63 + 3 * 2 ^ 60 + sub * 2 ^ 32 + (s.loc c 0).toNat % 2 ^ 32)

/-- A failure on the global ring: the path stalls and its record goes to slot 0 (R261). -/
def State.spillFault (s : State) (c sub : Nat) (p : Trap) : State :=
  (s.modCtx c fun x => { x with spill :=
      if sub = 0 then { x.spill with writeFault := true } else { x.spill with readFault := true } }).engineRec c
    p.cause 7 p.val p.val2 p.val3 (s.spillHandle c sub)

/-- A packet enters the run queue's tail; the cycle since which the queue holds one is kept (R68, R69). -/
def CoreCtx.enter (x : CoreCtx) (p : Packet) (now : Nat) : CoreCtx :=
  { x with runQ := x.runQ ++ [p], runQSince := if x.runQ = [] then now else x.runQSince }

/-- Appends a packet to a tier (R68); none when no tier has room or the path is stalled: the packet stays held. -/
def State.appendPacket (s : State) (c : Nat) (p : Packet) : State × Bool :=
  let x := (s.core c).c
  if x.spill.ring = [] ∧ x.spill.global = [] ∧ x.runQ.length < 16 then
    ((s.modCtx c fun y => y.enter p (s.core c).cycle).latch c 64, true)
  else
    let s1 := s.readSpill c
    let y := (s1.core c).c.spill
    if y.global = [] ∧ y.en ∧ y.ring.length < 64 then
      if s1.spillLocked c (some y.tail) then (s1, false) else
      let s2 := s1.poke (s1.ringKey c y.tail) p.bytes
      ((s2.modCtx c fun x => { x with spill := { x.spill with ring := x.spill.ring ++ [p], tail := (y.tail + 1) % 64 } }).writeSpill c,
        true)
    else if y.writeFault ∨ y.gsize ≤ y.global.length ∨ s1.spillLocked c none then (s1, false)
    else
      match s1.engineSpans c (y.gbase + 96 * (y.gtail % y.gsize)) 96 .store with
      | (s2, .ok xs) =>
        let s3 := s2.spanWrite xs p.bytes
        ((s3.modCtx c fun x =>
            { x with spill := { x.spill with global := x.spill.global ++ [p], gtail := (y.gtail + 1) % 2 ^ 16 } }).writeSpill
          c, true)
      | (s2, .error (some t)) => (s2.spillFault c 0 t, false)
      | (s2, .error none) => (s2, false)

/-- Refills freed entries from the next tier: the spill ring from the global ring, the run queue from the spill ring, or
from the global ring while there is none; a packet is what the ring's bytes say it is (R68, R261). -/
def State.refillTiers (s : State) (c : Nat) : Nat → State
  | 0 => s
  | f + 1 =>
    let x := (s.core c).c
    match x.spill.ring with
    | q :: qs =>
      if s.spillLocked c none then s else
      if x.runQ.length < 16 then
        (((s.modCtx c fun x => { x.enter (q.ofBytes (s.bytes (s.ringKey c x.spill.head) 96)) (s.core c).cycle with
            spill := { x.spill with ring := qs, head := (x.spill.head + 1) % 64 } }).latch c 64).writeSpill c).refillTiers c f
      else match x.spill.global with
        | [] => s
        | g :: gs => if x.spill.ring.length < 64 ∧ x.spill.en ∧ !x.spill.readFault then pull s g gs true f else s
    | [] =>
      match x.spill.global with
      | [] => s
      | g :: gs =>
        if x.spill.readFault ∨ s.spillLocked c none then s
        else if x.spill.en then pull s g gs true f
        else if x.runQ.length < 16 then pull s g gs false f else s
where
  /-- Takes the oldest packet of the global ring. -/
  pull (s : State) (g : Packet) (gs : List Packet) (toRing : Bool) (f : Nat) : State :=
    let y := (s.core c).c.spill
    if toRing && s.spillLocked c (some y.tail) then s else
    match s.engineSpans c (y.gbase + 96 * (y.ghead % y.gsize)) 96 .load with
    | (s1, .ok xs) =>
      match xs.findSome? fun e => badIn s1.bad e.1 e.2 with
      | some _ => s1.spillFault c 1 { cause := 31, val := BitVec.ofNat 64 (y.gbase + 96 * (y.ghead % y.gsize)) }
      | none =>
        let bs := xs.flatMap fun e => s1.bytes e.1 e.2
        let g := g.ofBytes bs
        let s2 := if toRing then s1.poke (s1.ringKey c y.tail) bs else s1
        let s3 := if toRing then s2 else (s2.modCtx c fun x => x.enter g (s.core c).cycle).latch c 64
        ((s3.modCtx c fun x => { x with
            spill := { x.spill with
              global := gs, ghead := (y.ghead + 1) % 2 ^ 16
              ring := if toRing then x.spill.ring ++ [g] else x.spill.ring
              tail := if toRing then (y.tail + 1) % 64 else x.spill.tail } }).writeSpill c).refillTiers c f
    | (s1, .error (some t)) => s1.spillFault c 1 t
    | (s1, .error none) => s1

/-! ### Filling slots -/

/-- The number a moved context goes by until it binds and takes a serial (R78, R267): above every serial. [log 86 DEDUCED]
-/
def movingSerial (core n : Nat) : Nat := 2 ^ 16 * (core + 1) + n

/-- The swapped thread a stand-in names (R69, R78): on this core, or moving from another core of the cluster. [log 94
DEDUCED] -/
def State.standinOf (s : State) (c : Nat) (p : Packet) : Option Swapped :=
  match s.refOf (p.a.getD 0 0) with
  | some r => (s.core c).swapped.find? fun w =>
      w.standin && w.t.serial == (if w.moving then movingSerial r.core r.serial else r.serial)
  | none => none

/-- The slots that the head packet may take (R67, R78). -/
def State.packetFits (s : State) (c : Nat) (p : Packet) (k : SlotN) : Bool :=
  if p.standin then
    match s.standinOf c p with
    | some w => w.moving || s.maskBit c w.t.launch true k
    | none => false
  else s.maskBit c p.launch true k

/-- Binds the head packet of the run queue in a slot (R65, R67, R69). [log 94 DEDUCED] -/
def State.bindHead (s : State) (c : Nat) (k : SlotN) : State :=
  match (s.core c).c.runQ with
  | [] => s
  | p :: ps =>
    let s1 := s.modCtx c fun x => { x with runQ := ps }
    let s2 := match p.standin, s.standinOf c p with
      | true, some w => if w.moving then s1.restoreMoved c k w else s1.restore c k w false
      | true, none => s1
      | false, _ =>
        let prio := match s.launchOf c p.launch with
          | some l => l.prioOn (dieOf c)
          | none => 0
        s1.bindIn c k (p.thread prio)
    s2.refillTiers c 80

/-- The head packet binds while a free slot fits it (R67); a stand-in whose thread is no longer swapped is dropped. -/
def State.bindPackets (s : State) (c : Nat) : Nat → State
  | 0 => s
  | f + 1 =>
    match (s.core c).c.runQ with
    | [] => s
    | p :: ps =>
      if p.standin && (s.standinOf c p).isNone then
        ((s.modCtx c fun x => { x with runQ := ps }).refillTiers c 80).bindPackets c f
      else
        match s.freeSlot c (s.packetFits c p) with
        | some k => (s.bindHead c k).bindPackets c f
        | none => s

/-- A swapped thread may use a slot (R414); for a pair, the even slot of a free pair. -/
def State.mayUse (s : State) (c : Nat) (w : Swapped) (k : SlotN) : Bool :=
  (s.core c).part == some w.part && !w.heldForSwap && !w.standin &&
  let may (k : SlotN) : Bool := s.isFree c k && (w.t.outside || s.maskBit c w.t.launch (w.t.kind == .migrant) k)
  if w.t.paired then k.val % 2 == 0 && may k && may (k + 1) else may k

/-- Fills the empty slots of a core: the earliest-swapped thread that may use one, then the head packet. A context whose
block cannot be read waits for Nolmon, and those behind it with it (R385, R414). -/
def State.fillSlots (s : State) (c : Nat) : Nat → State
  | 0 => s
  | f + 1 =>
    let cand := (s.core c).swapped.findSome? fun w => (s.freeSlot c (s.mayUse c w)).map fun k => (w, k)
    match cand with
    | some (w, k) =>
      match if w.inArea then s.areaStop c w false else none with
      | some e => s.ipaReport c e.1 e.2
      | none => (s.restore c k w false).fillSlots c f
    | none => s.bindPackets c 8

/-- A slot that became EMPTY is filled at once (R414). -/
def State.fill (s : State) (c : Nat) : State := s.fillSlots c 8

/-- As `fill`, but the head packet is offered the slot first (R69). -/
def State.fillPacketFirst (s : State) (c : Nat) (k : SlotN) : State :=
  match (s.core c).c.runQ with
  | p :: _ => if s.isFree c k && s.packetFits c p k then (s.bindHead c k).fill c else s.fill c
  | [] => s.fill c

/-! ### Ending threads -/

/-- A SPAWNED migrant that ends takes one off its origin's OUT; an origin that has ended takes none (R65, R273). -/
def State.dropOut (s : State) (t : Thread) : State :=
  if t.migr.migrant && t.migr.spawned then
    s.modRef t.migr.spawner fun t => { t with migr := { t.migr with out := t.migr.out - 1 } }
  else s

/-- The deferred traps of a thread that is gone: each leaves its record for the supervisor of its core, with trpc 0 (R179,
R227). -/
def State.leaveDeferred (s : State) (c : Nat) (t : Thread) : State :=
  (t.deferred.filter fun d => d.cause != 25).foldl (fun s d =>
    s.engineRec c d.cause.toNat d.source.toNat d.trval d.trval2 0 0) s

/-- The child rays that a thread queued in its cluster are discarded (R349). -/
def State.dropChildren (s : State) (r : TRef) : State :=
  [3, 7].foldl (fun s j => s.modCtx (clusterOf r.core * 8 + j) fun x =>
    { x with tv := { x.tv with children := x.tv.children.filter fun e => e.2 != r } }) s

/-- What ends with a thread: lock, registrations, its place at its origin, its messages, its solo token, its deferred traps,
its queued child rays (R179, R227, R245, R273, R283, R291, R349). -/
def State.letGo (s : State) (c : Nat) (k : SlotN) : State :=
  let t := s.thr c k
  ((((((s.releaseLock c k).unregister c k).dropOut t).orphan c t.serial).dropToken (t.ref c)).leaveDeferred c t).dropChildren (t.ref c)

/-- Empties the slot or both slots of a thread. -/
def State.vacate (s : State) (c : Nat) (k : SlotN) : State :=
  let t := s.thr c k
  let s1 := s.emptySlot c k
  if t.paired then s1.emptySlot c (k + 1) else s1

/-- Ends the thread in a slot, and fills the slot (R273, R414). -/
def State.endThread (s : State) (c : Nat) (k : SlotN) : State := (((s.letGo c k).vacate c k)).fill c

/-! ### Departures -/

/-- The cycle of a reply that an acceptance alone brings (R256). -/
def noDue : Nat := 2 ^ 64

/-- A packet leaves its sender for its owner and is held until it is accepted (R256). -/
def State.sendPacket (s : State) (c : Nat) (p : Packet) : State :=
  s.modCtx c fun x => { x with heldPackets := x.heldPackets ++ [p] }

/-- A thread that is SWAPPED is gone: its messages, those of its context's area among them, become orphans, held for slot 0
(R283). -/
def State.dropSwapped (s : State) (r : TRef) : State :=
  let back : List Msg := ((s.core r.core).swapped.filter fun w => w.t.serial == r.serial).flatMap fun w => w.msgs.map fun m =>
    let h := (m.getD 1 0).toNat
    { dst := r, src := BitVec.ofNat 64 (h % 2 ^ 48), sender := ⟨0, 0⟩,
      tag := ⟨h / 2 ^ 48 % 32, Nat.mod_lt _ (by decide)⟩, payload := m.getD 0 0, launch := w.t.launch, orphan := true }
  (s.modCore r.core fun x =>
    { x with
      swapped := x.swapped.filter fun v => v.t.serial != r.serial
      c := { x.c with inbox := back ++ x.c.inbox } }).orphan r.core r.serial

/-- A packet was accepted: its sender's wait ends, or the thread that departed leaves its slot, and messages that came for
it meanwhile become orphans (R256, R272, R283). -/
def State.accepted (s : State) (p : Packet) : State :=
  match p.sender with
  | none => s
  | some r =>
    if p.departs then
      match (s.core r.core).slotOf r.serial with
      | some k => (((s.leaveDeferred r.core (s.thr r.core k)).orphan r.core r.serial).vacate r.core k).fill r.core
      | none => s.dropSwapped r
    else s.modRef r fun t =>
      match t.wait with
      | .reply _ _ f => { t with wait := .reply (s.core r.core).cycle false f }
      | _ => t

/-- Delivers the oldest packet a core holds for a destination: it enters a tier there, and a head packet may bind (R67, R68,
R256). -/
def State.deliverPacket (s : State) (c : Nat) (p : Packet) : State :=
  match s.appendPacket p.dest { p with sender := none } with
  | (s1, false) => s1
  | (s1, true) =>
    let s2 := s1.modCtx c fun x => { x with heldPackets := x.heldPackets.erase p }
    (s2.bindPackets p.dest 8).accepted p

/-- The packet that a core holds at an index, if it is the oldest there for its destination (R67, R256). -/
def State.heldPacket (s : State) (c i : Nat) : Option Packet :=
  let qs := (s.core c).c.heldPackets
  match qs[i]? with
  | some p => if (qs.take i).any fun q => q.dest == p.dest then none else some p
  | none => none

/-- A packet that another core has held for the same destination since an earlier rot goes first; in one rot the one held at
the lower core (R256, R357). [log 116 DEDUCED] -/
def State.overtakes (s : State) (c : Nat) (p : Packet) : Bool :=
  s.cores.any fun e => e.1 != c && e.2.c.heldPackets.any fun q => q.dest == p.dest && match q.since, p.since with
    | some a, some b => a < b || (a == b && e.1 < c)
    | some _, none => true
    | none, _ => false

/-- The packet is held at its sender from now on, if it was not before (R256). [log 116 DEDUCED] -/
def State.refuse (s : State) (c : Nat) (p : Packet) : State :=
  s.modCtx c fun x => { x with heldPackets := x.heldPackets.map fun q =>
    if q = p ∧ q.since.isNone then { q with since := some s.rot } else q }

/-- A packet that reaches its destination goes to its tiers, unless another goes first or none has room: then it is held
(R68, R256). -/
def State.deliverOr (s : State) (c : Nat) (p : Packet) : State :=
  if s.overtakes c p then s.refuse c p else
  let s1 := s.deliverPacket c p
  if p ∈ (s1.core c).c.heldPackets then s1.refuse c p else s1

/-- A packet just sent arrives at once, behind those its core already holds for the same destination (R69, R78, R256). [log
116 DEDUCED] -/
def State.deliverNext (s : State) (c : Nat) (p : Packet) : State :=
  if ((s.core c).c.heldPackets.erase p).any fun q => q.dest == p.dest then s.refuse c p else s.deliverOr c p

/-- The packet that a core holds at an index goes to its destination, in its turn; one that comes behind a refused one is
refused as well (R67, R256). -/
def State.deliverHeld (s : State) (c i : Nat) : State :=
  match s.heldPacket c i, (s.core c).c.heldPackets[i]? with
  | some p, _ => s.deliverOr c p
  | none, some p =>
    if ((s.core c).c.heldPackets.take i).any fun q => q.dest == p.dest && q.since.isSome then s.refuse c p else s
  | none, none => s

end Sys2Proof.Machine
end

