-- ==== Sys2Proof/Machine/Fetch.lean ====
section
/-! DEFINITION. Fetch.lean: the sampler path, fetching instruction words, and the end of a repeat's body (R102, R110, R142,
R198, R415). -/

namespace Sys2Proof.Machine

/-- Reads n bytes of one line through the sampler cache of a core's cluster, of 1,024 lines: a held line may serve the read
until it is evicted; else the miss counts for the core and the line is filled from the L2. None at an uncorrectable error
(R188, R198, R358). [log 65 DEDUCED; 82 DESIGN CHOICE] -/
def State.sampled (s : State) (part c pa n : Nat) : State × Option (List Byte) :=
  let cl := clusterOf c
  let line := pa / 64
  let cut (bs : List Byte) : List Byte := (bs.drop (pa % 64)).take n
  let now := s.bytes (line * 64) 64
  let good := (badIn s.bad (line * 64) 64).isNone
  let refill (s0 : State) : State × Option (List Byte) :=
    let s := s0.modCore c fun x => x.countEv 10
    if good then
      ((s.modCluster cl fun k =>
        { k with sampler :=
            (⟨part, line, now, []⟩ :: k.sampler.filter fun l => !(l.part == part && l.line == line)).take 1024 }).noteLine cl line,
        some (cut now))
    else (s, none)
  match (s.cluster cl).sampler.find? fun l => l.part == part && l.line == line with
  | none => refill s
  | some l =>
    let hit := l.struck.any fun w => 8 * w < pa % 64 + n && pa % 64 < 8 * w + 8
    if l.bytes = now ∧ good ∧ l.struck = [] then (s, some (cut now))
    else if Config.samplerKept s.freeN then ({ s with freeN := s.freeN + 1 }, if hit then none else some (cut l.bytes))
    else refill { s with freeN := s.freeN + 1 }

/-- A sampler-path read of n aligned bytes at an address: fetches and LDRO, through the core's micro-TLB; traversal nodes,
without (R194, R198, R209). -/
def State.sampleAt (s : State) (c a n : Nat) (need : Need) (micro : Bool := true) : State × Except AccErr (List Byte) :=
  match s.partOf c with
  | none => (s, .error (.trap { cause := need.refusedCause, val := BitVec.ofNat 64 a }))
  | some p =>
    if 2 ^ 56 ≤ a then (s, .error (.trap { cause := need.refusedCause, val := BitVec.ofNat 64 a }))
    else
      match s.resolve c a need micro with
      | (s1, .error e) => (s1, .error e)
      | (s1, .ok t) =>
        match s1.sampled p.cfg.part c t.key n with
        | (s2, some bs) => (s2, .ok bs)
        | (s2, none) => (s2, .error (.trap { cause := 31, val := BitVec.ofNat 64 a }))

/-- Fetches the 32-bit word at an address (R102, R117). -/
def State.fetchWord (s : State) (c a : Nat) : State × Except AccErr Word32 :=
  if a % 4 ≠ 0 then (s, .error (.trap { cause := 0, val := BitVec.ofNat 64 a }))
  else
    match s.sampleAt c a 4 .fetch with
    | (s1, .ok bs) => (s1, .ok (BitVec.ofNat 32 (leNat bs)))
    | (s1, .error e) => (s1, .error e)

/-- LIMM: custom-0, funct3 0b010, f4 0b1100, which takes the word after it (R110, R142). -/
def isLimm (w : Word32) : Bool := bits w.toNat 0 7 == 0x0B && bits w.toNat 12 3 == 2 && bits w.toNat 25 4 == 12

/-- bodyend of R47: the address at which n instructions from a have begun. -/
def State.bodyEnd (s : State) (c : Nat) : Nat → Nat → State × Except AccErr Nat
  | 0, a => (s, .ok a)
  | n + 1, a =>
    match s.fetchWord c a with
    | (s1, .error e) => (s1, .error e)
    | (s1, .ok w) => s1.bodyEnd c n ((a + (if isLimm w then 8 else 4)) % 2 ^ 64)

/-- The end of a repeat's body for an instruction that sets one up; a fetch fault traps at it (R142, R415). -/
def bodyEndFor (s : State) (c : Nat) (k : SlotN) (n a : Nat) : Got Nat :=
  match s.bodyEnd c n a with
  | (s1, .ok e) => .ok s1 e
  | (s1, .error e) => accStop s1 c k e

/-- Takes the trap of a fetch, or fetches again once strips issued earlier allow a trap (R154, R371). -/
def trapFetch {α : Type} (s : State) (c : Nat) (k : SlotN) (p : Trap) : Got α :=
  if (s.thr c k).trapReady then .stop (s.takeTrap c k p) else .stop (s.park c k (.cond .refetch))

/-- Stops a thread whose next instruction could not be fetched: no word stands in the record if the fetch at its pc failed
(R117, R374); a stage-2 failure parks the thread before the instruction issues (R193). -/
def fetchStop {α : Type} (s : State) (c : Nat) (k : SlotN) (e : AccErr) : Got α :=
  match e with
  | .trap p => trapFetch s c k { p with hasWord := p.val != (s.thr c k).a.pc, issued := false }
  | .table p => trapFetch s c k { p with hasWord := p.val != (s.thr c k).a.pc, issued := false }
  | .moving ipn => .stop (s.park c k (.cond (.fetch ipn)))
  | .unowned line => .stop (s.park c k (.cond (.own line)))
  | .across m => .stop (s.park c k (.cond (.port m)))
  | .stage2 p ipa =>
    let w : S2Wait := ⟨(s.thr c k).ref c, p.val, p.cause, p.val2, ipa, ((s.core c).part).getD 0⟩
    .stop ({ s with s2waits := s.s2waits ++ [w] }.park c k (.cond (.fetch (ipa / 2 ^ 16))))

/-- Decodes a fetched word of the thread, with a LIMM's literal; an illegal word traps (R110, R117, R118). [log 7 DEDUCED]
-/
def decodeAt (s : State) (c : Nat) (k : SlotN) (w : Word32) : Got Instr :=
  let s1 := { s with curWord := w }
  let lit : State × Except AccErr Word32 :=
    if takesLiteral w.toNat then s1.fetchWord c (((s.thr c k).a.pc.toNat + 4) % 2 ^ 64) else (s1, .ok 0)
  match lit with
  | (s2, .error e) => accStop s2 c k e
  | (s2, .ok l) =>
    match decodeWord w.toNat l.toNat with
    | .ok i => .ok s2 i
    | .error _ => illegal s2 c k

/-- The word that stands at an address, for the record of a trap taken between instructions (R374). -/
def State.peekWord (s : State) (c a : Nat) : Word32 :=
  match s.partOf c with
  | some p => match s.walk p a .fetch with
    | .ok t => BitVec.ofNat 32 (s.num t.pa 4)
    | .error _ => 0
  | none => 0

/-- Computes the repeat end that an XWRT left to be computed before the thread next issues; a fetch fault there leaves it
marked (R415). -/
def endFirst (s : State) (c : Nat) (k : SlotN) : Got Unit :=
  let t := s.thr c k
  if !t.a.endPend ∨ t.a.csr.count = 0 then .ok s () else
  match s.bodyEnd c t.a.csr.replen t.a.csr.repbody.toNat with
  | (s1, .ok e) => .ok (s1.modThr c k fun t => { t with a := { t.a with repEnd := BitVec.ofNat 64 e, endPend := false } }) ()
  | (s1, .error e) => fetchStop { s1 with curWord := s1.peekWord c t.a.pc.toNat } c k e

/-- Fetches and decodes the thread's next instruction (R102, R117). -/
def fetchInstr (s : State) (c : Nat) (k : SlotN) : Got Instr :=
  (endFirst s c k).bind fun s _ =>
  match s.fetchWord c (s.thr c k).a.pc.toNat with
  | (s1, .error e) => fetchStop s1 c k e
  | (s1, .ok w) => decodeAt s1 c k w

/-! ### Traps between instructions -/

/-- A parked thread's wait is withdrawn: it performed nothing, and its instruction is performed again (R263, R372). -/
def State.abandon (s : State) (c : Nat) (k : SlotN) : State :=
  (s.withdraw c k).modThr c k fun t => { t.countWait with st := .runnable, wait := .none, redo := false }

/-- The word at the pc of a thread: the fetched one of an instruction that waits, else the one that stands there (R374). -/
def State.wordOf (s : State) (c : Nat) (k : SlotN) : Word32 :=
  let t := s.thr c k
  match t.st, t.wait with
  | .parked, .cond (.fetch _) => s.peekWord c t.a.pc.toNat
  | .parked, .cond .refetch => s.peekWord c t.a.pc.toNat
  | .parked, _ => t.word
  | _, _ => s.peekWord c t.a.pc.toNat

/-- Takes a trap of a bound thread between instructions, its wait withdrawn (R263, R264, R372). -/
def State.trapBetween (s : State) (c : Nat) (k : SlotN) (p : Trap) : State :=
  let s1 := { s with curWord := s.wordOf c k }
  (s1.abandon c k).takeTrap c k { p with issued := false }

/-- A trap for a thread wherever it is: one that is SWAPPED, or whose strips are not done, takes it before its next issue
(R51, R154). -/
def State.trapRef (s : State) (r : TRef) (p : Trap) (stamp : Word) : State :=
  let later (s : State) : State := s.modRef r fun t =>
    { t with
      st := .runnable, wait := .none
      deferred := t.deferred ++ [⟨BitVec.ofNat 8 p.cause, BitVec.ofNat 8 p.source, p.flags, stamp, p.val, p.val2⟩] }
  match (s.core r.core).slotOf r.serial with
  | some k => if (s.thr r.core k).trapReady then s.trapBetween r.core k p else later (s.abandon r.core k)
  | none => later s

end Sys2Proof.Machine
end

