-- ==== Sys2Proof/Machine/Operands.lean ====
section
/-! DEFINITION. Operands.lean: the operand forms of an instruction: which slot may issue it, its guard, the pops of its
mapped sources, and its completion: register writes, mapped pushes, pc, repeat, counters (R57, R58, R112, R117, R143,
R262, R417). -/

namespace Sys2Proof.Machine

/-- Which slots may issue an instruction (R52 to R54). -/
inductive Who where
  | any | sup | movement | user
  deriving DecidableEq, Repr

/-- The slot may issue. -/
def Who.allows (w : Who) (k : SlotN) : Bool :=
  match w with
  | .any => true
  | .sup => k == 0
  | .movement => k == 1
  | .user => 2 ≤ k.val

/-- What an instruction names: guard, slots, x sources and destinations, custom-3. -/
structure Form where
  guard : Guard := 0
  who : Who := .any
  src : List XReg := []
  dst : List XReg := []
  custom3 : Bool := false
  deriving DecidableEq, Repr

/-! ### Mapped registers -/

/-- The mapped ones of a list of registers, once each (R57). [log 89 DEDUCED] -/
def Arch.mappedOf (a : Arch) (rs : List XReg) : List XReg := (rs.filter a.mapped).eraseDups

/-- Refuses an instruction that names a mapped register whose queue refuses the push or pop (R57, R277). -/
def checkQueues (s : State) (c : Nat) (k : SlotN) (push : Bool) : List XReg → Got Unit
  | [] => .ok s ()
  | r :: rs =>
    let h := (s.thr c k).a.mapHandle c r
    -- a push with an entry kept for it is sent, whatever has become of its queue
    match if push && (s.thr c k).owed == some h then none else s.queueTrap c h push with
    | some p => trap s c k p
    | none => checkQueues s c k push rs

/-- A pop waits while the lock of another slot covers what it reads or writes (R49, R214). -/
def popLock (s : State) (c : Nat) (k : SlotN) (q : QRef) : Got Unit :=
  match s.queueLocked q false (some (c, k)) with
  | some (d, off, n) => .stop (s.park c k (.cond (.range d off n)))
  | none => .ok s ()

/-- An operation at an owner that is performed within the instruction waits for the thread's posted operations there (R248,
R262). -/
def sentFirst (s : State) (c : Nat) (k : SlotN) (owner : Nat) : Got Unit :=
  if owner = c then waitFor s c k (.dest c) (!s.sentTo ((s.thr c k).ref c) c) else .ok s ()

/-- The same for the queues of a list of mapped registers. -/
def sentAll (s : State) (c : Nat) (k : SlotN) : List XReg → Got Unit
  | [] => .ok s ()
  | r :: rs =>
    match qref c ((s.thr c k).a.mapHandle c r) with
    | some q => (sentFirst s c k (s.ownerOf q)).bind fun s _ => sentAll s c k rs
    | none => sentAll s c k rs

/-- Pops one queue for a mapped source, or holds the pop there (R57, R262). -/
def popFor (s : State) (c : Nat) (k : SlotN) (r : XReg) : Got Unit :=
  let t := s.thr c k
  let h := t.a.mapHandle c r
  match qref c h with
  | none => illegal s c k h
  | some q =>
    (popLock s c k q).bind fun s _ =>
    match s.takePop q with
    | some (v, s1) =>
      if q.ownLocal c then .ok (s1.modThr c k fun t => t.hold r v) ()
      else .stop ((s1.modThr c k fun t => t.hold r v).park c k (.given ((s.core c).cycle + 1)))
    | none =>
      let x := s.queue q
      .stop ((s.setQueue q { x with pops := x.pops ++ [t.ref c] }).park c k (.pop h true r))

/-- Pops the mapped sources that the thread does not yet hold, in order (R57, R417). [log 89 DEDUCED] -/
def popAll (s : State) (c : Nat) (k : SlotN) : List XReg → Got Unit
  | [] => .ok s ()
  | r :: rs =>
    if (s.thr c k).holds r then popAll s c k rs
    else (popFor s c k r).bind fun s _ => popAll s c k rs

/-- Everything an instruction does about its mapped registers before it executes: queue checks, the chunk's commit, the pops
(R57, R240). [log 89 DEDUCED] -/
def mappedFirst (s : State) (c : Nat) (k : SlotN) (f : Form) : Got Unit :=
  let a := (s.thr c k).a
  let src := a.mappedOf f.src
  let dst := a.mappedOf f.dst
  if src ++ dst = [] then .ok s () else
  (checkQueues s c k false src).bind fun s _ =>
  (checkQueues s c k true dst).bind fun s _ =>
  (commitFirst s c k).bind fun s _ =>
  (if dst = [] then .ok s () else roomWait s c k 2 (f.dst.filter a.mapped).length).bind fun s _ =>
  (sentAll s c k dst).bind fun s _ =>
  popAll s c k src

/-! ### Completing -/

/-- The pc and the repeat after an instruction of a length, or one that redirects the pc (R143, R144). -/
def Arch.advance (a : Arch) (next : Option Word) (len : Nat) : Arch :=
  match next with
  | some p => { a with pc := p, csr := if a.csr.count = 0 then a.csr else a.csr.setCount 0 }
  | none =>
    let npc := a.pc + BitVec.ofNat 64 len
    let n := a.csr.count
    if n ≠ 0 ∧ npc = a.repEnd then
      { a with csr := a.csr.setCount (n - 1), pc := if n - 1 ≠ 0 then a.csr.repbody else npc }
    else { a with pc := npc }

/-- The instruction has completed: pc, repeat, `instret`, the chunk's count, held values released (R122, R143, R417). [log
112 DESIGN CHOICE] -/
def Thread.finish (t : Thread) (next : Option Word) (len : Nat) : Thread :=
  { t with
    a := t.a.advance next len
    st := .runnable, wait := .none, redo := false
    held := if t.heldPc = t.a.pc then Vector.replicate 4 none else t.held
    snap := none
    instret := if t.counted then t.instret else t.instret + 1
    counted := false, jumped := next.isSome
    chunk := t.chunk.map fun ch => { ch with insns := ch.insns + 1 } }

/-- A guarded-off instruction has completed: it changes no counter but `instret`, so that the chunk's count stays (R112). -/
def Thread.skip (t : Thread) (len : Nat) : Thread := { t.finish none len with chunk := t.chunk }

/-- The thread with the repeat state that a CSR write sets (R144, R415). [log 17 DEDUCED] -/
def Thread.setRepeat (t : Thread) (cnt body fin : Word) : Thread :=
  { t with a := { t.a with csr := { t.a.csr with repcnt := cnt, repbody := body }, repEnd := fin, endPend := false } }

/-- Pushes a value that an instruction writes: sent if an entry is kept or free for it, else the thread parks with the rest
of the completion (R57, R262). [log 88 DEDUCED] -/
def pushFor (s : State) (c : Nat) (k : SlotN) (h v : Word) (rest : Completion) : Got Unit :=
  (commitFirst s c k).bind fun s _ =>
  let t := s.thr c k
  match qref c h with
  | none => illegal s c k h
  | some q =>
    let x := s.queue q
    if t.owed = some h then
      .ok (((s.setQueue q { x with kept := x.kept - 1 }).modThr c k fun t => { t with owed := none }).sendPush
        (t.ref c) t.launch q h v) ()
    else if x.room then .ok (s.sendPush (t.ref c) t.launch q h v) ()
    else .stop ((s.setQueue q { x with pushes := x.pushes ++ [t.ref c] }).park c k (.push h v rest false))

/-- Writes a v register, and marks the vector file written (R385). -/
def Thread.writeV (t : Thread) (odd : Bool) (r : VNum) (v : VReg) : Thread :=
  { t with a := t.a.setV odd r v, vimg := true, dirty := true }

/-- Performs the register writes of a completion in order, then completes the instruction. [log 17 DEDUCED; 83 DEDUCED; 88
DEDUCED] -/
def finishWs (s : State) (c : Nat) (k : SlotN) (next : Option Word) (len : Nat) : List RegWrite → State
  | [] => s.modThr c k fun t => t.finish next len
  | w :: ws =>
    let rest : Completion := { ws := ws, next := next, len := len }
    match w with
    | .x r v =>
      let a := (s.thr c k).a
      if a.mapped r then
        match pushFor s c k (a.mapHandle c r) v rest with
        | .ok s1 _ => finishWs s1 c k next len ws
        | .stop s1 => s1
      else finishWs (s.modThr c k fun t => { t with a := t.a.setX r v }) c k next len ws
    | .v odd r v => finishWs (s.modThr c k fun t => t.writeV odd r v) c k next len ws
    | .k r v => finishWs (s.modThr c k fun t => { t with a := t.a.setK r v }) c k next len ws
    | .p r v => finishWs (s.modThr c k fun t => { t with a := t.a.setP r v }) c k next len ws
    | .push h v =>
      match pushFor s c k h v rest with
      | .ok s1 _ => finishWs s1 c k next len ws
      | .stop s1 => s1
    -- after the pass that this instruction itself may end
    | .rep n b e => (finishWs s c k next len ws).modThr c k fun t => t.setRepeat n b e

/-- Completes an instruction. [log 88 DEDUCED] -/
def complete (s : State) (c : Nat) (k : SlotN) (f : Completion) : State := finishWs s c k f.next f.len f.ws

/-! ### Custom-3 on a non-equipped core -/

/-- The equipped core a thread moves to (R78). [log 86 DEDUCED] -/
def State.equippedFor (s : State) (c : Nat) : Nat :=
  let near := c / 8 * 8 + (if cicOf c ≤ 3 then 3 else 7)
  let far := c / 8 * 8 + (if cicOf c ≤ 3 then 7 else 3)
  if (s.freeSlot near fun _ => true).isNone && (s.freeSlot far fun _ => true).isSome then far else near

/-- A thread's swap, restore or read of a context waits for Nolmon while stage 2 stops an access to the context area (R193,
R385). -/
def areaWait (s : State) (c : Nat) (k : SlotN) (e : Option (Part × Nat × Trap)) : Got Unit :=
  match e with
  | some (_, a, p) => accStop s c k (.stage2 p a)
  | none => .ok s ()

/-- Moves the thread to an equipped core of its cluster, where it re-issues the instruction, or raises cause 27 (R78). [log
86 DEDUCED; 118 DESIGN CHOICE; 127 DESIGN CHOICE] -/
def moveThread (s : State) (c : Nat) (k : SlotN) : Got Bool :=
  let t := s.thr c k
  let noxm : Bool := match s.launchOf c t.launch with
    | some l => l.noxm
    | none => false
  if noxm ∨ t.paired ∨ k.val < 2 then trap s c k { cause := 27, val := s.curWord.setWidth 64 }
  else
    (commitFirst s c k).bind fun s _ =>
    (drainWait s c k).bind fun s _ =>
    (waitFor s c k .strips ((s.thr c k).vq = [])).bind fun s _ =>
    let t := s.thr c k
    let d := s.equippedFor c
    (waitFor s c k (.coldRoom d) ((s.core d).swapped.length < 32)).bind fun s _ =>
    (areaWait s c k (s.swapStall d)).bind fun s _ =>
    let part := ((s.core c).part).getD 0
    let pk : Packet :=
      { pc := 0, pw := 0, origin := 0, launch := t.launch, hops := 0, spawned := false, standin := true,
        a := [s.handle c k t], target := 0, spawner := ⟨0, 0⟩, dest := d, sender := none, departs := false, since := none }
    let n := movingSerial c t.serial
    let b := (s.core d).freeBlock { t with block := none }
    let w : Swapped :=
      ⟨{ t with serial := n, redo := false, block := some b, dirty := t.vimg }, part, k, false, true, true, false, [], .none⟩
    -- registrations stay and move when it binds; its messages become orphans as its handle ends
    let s1 := (((s.releaseLock c k).orphan c t.serial).vacate c k).respawn (t.ref c) ⟨d, n⟩
    let s2 := (s1.modCore d fun x => { x with swapped := x.swapped ++ [w] }).spillCache d part
    .stop (((s2.sendPacket c pk).deliverNext c pk).fill c)

/-! ### Issue -/

/-- The checks of R117 from step 3 on: slot, guard, custom-3, and then the mapped registers. True: the instruction
executes; false: it is guarded off. -/
def issue (s : State) (c : Nat) (k : SlotN) (f : Form) : Got Bool :=
  let t := s.thr c k
  if !f.who.allows k then illegal s c k
  else if f.guard ≠ 0 ∧ !t.a.p ⟨f.guard.val, Nat.lt_trans f.guard.isLt (by decide)⟩ then .ok s false
  else if f.custom3 ∧ !equipped c then moveThread s c k
  else (mappedFirst s c k f).bind fun s _ => .ok s true

/-- A timing-error replay on a core is counted (R80, R358). -/
def Core.struck (x : Core) : Core :=
  { x.countEv 8 with strikes := false, replays := x.cycle :: x.replays.filter fun n => x.cycle < n + 1024 }

/-- A timing error strikes the instruction that issues now on a core, its pops performed (R80, R417). [log 9 DEDUCED] -/
def State.strikesNow (s : State) (c : Nat) (k : SlotN) : Bool := (s.core c).strikes && !(s.thr c k).redo

/-- The body of an instruction: what it does for the thread in a slot, given where it stands. -/
abbrev Body := State → Nat → SlotN → Got Completion

/-- What an instruction has done, unless one of its pushes found no entry: then it has performed nothing beyond its pops and
its chunk's commit, and the thread parks to perform it again once an entry is kept for that push (R51, R262). [log 88
DEDUCED] -/
def State.orAgain (s : State) (c : Nat) (k : SlotN) (done : State) : State :=
  let t := done.thr c k
  match t.st, t.wait with
  | .parked, .push h v _ false =>
    match qref c h, commitFirst s c k with
    | some q, .ok s1 _ =>
      (s1.setQueue q { s1.queue q with pushes := (s1.queue q).pushes ++ [t.ref c] }).park c k (.push h v {} true)
    | some _, .stop s1 => s1
    | none, _ => done
  | _, _ => done

/-- An instruction of the thread in a slot: issue, body, completion. -/
def runAt (s : State) (c : Nat) (k : SlotN) (f : Form) (len : Nat) (body : Body) : State :=
  match issue s c k f with
  | .stop s1 => s1
  | .ok s1 false => s1.modThr c k fun t => t.skip len
  | .ok s1 true =>
    if s1.strikesNow c k then s1.modCore c Core.struck else
    match body s1 c k with
    | .stop s2 => s2
    | .ok s2 r => s1.orAgain c k (complete s2 c k { r with len := len })

/-- Outcome of a step, shortened. -/
abbrev Out := Host.Outcome State Fault Refusal

/-- Performs an instruction for the thread that `cur` names; with no thread there nothing is performed. -/
def run (f : Form) (body : Body) (s : State) (len : Nat := 4) : Host.Outcome State Fault Refusal :=
  let c := s.cur.1
  let k := s.home c s.cur.2
  match (s.slot c k).thread? with
  | none => .next s
  | some _ => .next (runAt s c k f len body)

/-- A body that computes a completion from the thread alone. -/
def pure_ (f : Thread → Completion) : Body := fun s c k => .ok s (f (s.thr c k))

end Sys2Proof.Machine
end

