-- ==== Sys2Proof/Machine/Engines.lean ====
section
/-! DEFINITION. Engines.lean: which engine writes and posted operations of a thread are outstanding, and the conditions a
parked thread waits for (R49, R135, R208, R212). -/

namespace Sys2Proof.Machine

/-- Bytes [a, a + n) and [b, b + m) meet. -/
def rangesMeet (a n b m : Nat) : Bool := a < b + m && b < a + n

/-- Window addresses of a byte of windowed memory, as the threads of a core write them (R184). -/
def State.addrsOf (s : State) (c key : Nat) : List Nat :=
  if key < 2 ^ 60 then []
  else if key < 2 ^ 61 then
    let o := (key - 2 ^ 60) / 2 ^ 19
    let off := (key - 2 ^ 60) % 2 ^ 19 - (s.share c).1
    [0xFFFFFFFD00000000 + cicOf o * 2 ^ 19 + off]
  else if key < 2 ^ 62 then []
  else
    let d := (key - 2 ^ 62) / 2 ^ 27
    let lo := match s.partOf c with
      | some p => (p.slateOf d).1
      | none => 0
    let off := (key - 2 ^ 62) % 2 ^ 27 - lo
    [0xFFFFFF8000000000 + d * 2 ^ 27 + off] ++ (if d = dieOf c then [0xFFFFFFC000000000 + off] else [])

/-- Key and bytes a posted operation writes (R208). -/
def POp.span : POp → Nat × Nat
  | .store key bs _ => (key, bs.length)
  | .nib key _ _ => (key, 1)
  | .cells cs => ((cs.head?.map fun e => e.1 / 64 * 64).getD 0, 64)
  | .fe key len _ => (key, len)
  | .sadd row _ _ i _ _ _ => (row + 48 + 12 * i, 384)
  | .szero row n rows => (row, rows * (12 * n + 64))
  | .rowAdd row n _ _ _ => (row, 12 * n + 64)
  | _ => (0, 0)

/-- Everything a posted operation writes: of a vector store, its bytes and no others (R208). -/
def POp.spans (o : POp) : List (Nat × Nat) :=
  match o with
  | .cells cs => cs.map fun e => (e.1, 1)
  | o => [o.span]

/-- A posted operation or an acknowledgement of the thread meets the range (R208). -/
def State.postedIn (s : State) (r : TRef) (base len : Nat) : Bool :=
  let hit (key n : Nat) : Bool := (s.addrsOf r.core key).any fun a => rangesMeet a n base len
  (s.posted.any fun p => p.src == r && p.op.spans.any fun e => hit e.1 e.2) ||
  s.acks.any fun a => a.dst == r && a.at_.any fun e => hit e.1 e.2

/-- The addresses that name one byte of windowed memory for a core (R185). -/
def aliases (c a : Nat) : List Nat :=
  let own := 0xFFFFFFFE00000000
  let part := 0xFFFFFFFD00000000 + cicOf c * 2 ^ 19
  let slate := 0xFFFFFFC000000000
  let far := 0xFFFFFF8000000000 + dieOf c * 2 ^ 27
  if own ≤ a ∧ a < own + 0x60000 then [a, part + (a - own)]
  else if part ≤ a ∧ a < part + 0x60000 then [a, own + (a - part)]
  else if slate ≤ a ∧ a < slate + 2 ^ 27 then [a, far + (a - slate)]
  else if far ≤ a ∧ a < far + 2 ^ 27 then [a, slate + (a - far)]
  else [a]

/-- Bytes of a copy job's destination rows meet a range (R208). -/
def CopyJob.writesIn (j : CopyJob) (meets : Nat → Nat → Bool) : Bool :=
  !j.toPort && (List.range j.rows).any fun i => meets (j.dst + BitVec.ofNat 64 i * j.dstride).toNat j.rowBytes

/-- An engine write that the thread commanded and whose bytes meet the range is not yet performed: copies, MSTOREs,
traversal records, Tongs packets (R208). -/
def State.engineIn (s : State) (r : TRef) (base len : Nat) : Bool :=
  let x := (s.core r.core).c
  let cl := s.cluster (clusterOf r.core)
  -- the MSTOREs of a thread that moved stand at the core it left (R78, R172)
  let mine : List MCmd := (s.cores.filter fun e => clusterOf e.1 == clusterOf r.core).flatMap fun e => e.2.c.mx.queue
  let meets (a n : Nat) : Bool := (aliases r.core a).any fun b => rangesMeet b n base len
  (mine.any fun m => m.by_ == r && match m.op with
    | .store _ dst => meets dst.toNat 16384
    | _ => false) ||
  (cl.jobs.any fun j => j.by_ == r && j.writesIn meets) ||
  (cl.chans.toList.any fun ch => match ch.job with
    | some j => j.by_ == r && j.writesIn meets
    | none => false) ||
  (x.tv.rays.any fun y => y.owner == r && y.status ≤ 1 && meets y.handle.toNat 256) ||
  (x.tv.children.any fun e => e.2 == r && meets e.1.toNat 256) ||
  match cl.tongs.batch with
  | some (w, _) => w == r
  | none => false

/-- Some engine write that the thread commanded is outstanding (R135). -/
def State.engineBusy (s : State) (r : TRef) : Bool := s.engineIn r 0 (2 ^ 64)

/-- Bytes in which a range's checks cannot change: a 64 KiB page of translated memory, else a line. -/
def Target.step : Target → Nat
  | .global _ => 2 ^ 16
  | _ => 64

/-- Counts an engine's access to the lines of a piece at their owners (R197). -/
def State.noteSpan (s : State) (c : Nat) (t : Target) (n : Nat) : State :=
  match t with
  | .global p => ((List.range ((p.pa + n - 1) / 64 - p.pa / 64 + 1)).map fun i => p.pa / 64 + i).foldl
      (fun s l => s.noteLine (clusterOf c) l) s
  | _ => s

/-- The keys of a range, in pieces that lie in one place each; else its lowest address that fails, and why; through the
core's micro-TLB for an instruction of its threads (R176, R193, R194). -/
def State.spans (s : State) (c a n : Nat) (need : Need) (fuel : Nat) (micro : Bool := true) :
    State × Except (Nat × AccErr) (List (Nat × Nat)) :=
  let rec go (s : State) (a n : Nat) : Nat → State × Except (Nat × AccErr) (List (Nat × Nat))
    | 0 => (s, .ok [])
    | f + 1 =>
      if n = 0 then (s, .ok []) else
      match s.resolve c a need micro with
      | (s1, .error e) => (s1, .error (a, e))
      | (s1, .ok t) =>
        let m := min n (t.step - a % t.step)
        match s1.engineShares t m need with
        | (s1, some line) => (s1, .error (a, .unowned line))
        | (s1, none) =>
        match go (s1.noteSpan c t m) ((a + m) % 2 ^ 64) (n - m) f with
        | (s2, .ok xs) => (s2, .ok ((t.key, m) :: xs))
        | (s2, .error e) => (s2, .error e)
  go s a n fuel

/-- Pieces that a range of n bytes can have at most. -/
def spanFuel (n : Nat) : Nat := n / 64 + 3

/-- The bytes of pieces, in order. -/
def State.spanBytes (s : State) (xs : List (Nat × Nat)) : List Byte := xs.flatMap fun e => s.bytes e.1 e.2

/-- Offset in the range of the first byte of a piece that meets a unit marked uncorrectable (R188). -/
def State.spanBad (s : State) (xs : List (Nat × Nat)) : Option Nat :=
  let rec go : List (Nat × Nat) → Nat → Option Nat
    | [], _ => none
    | e :: es, o =>
      match badIn s.bad e.1 e.2 with
      | some u => some (o + (u - e.1))
      | none => go es (o + e.2)
  go xs 0

/-- Waits for the locks that cover the pieces of a range (R214). -/
def spanLockWait (s : State) (c : Nat) (k : SlotN) (xs : List (Nat × Nat)) : Got Unit :=
  match s.spanLock xs (some (c, k)) with
  | some (d, off, n) => .stop (s.park c k (.cond (.range d off n)))
  | none => .ok s ()

/-- Waits for the thread's posted operations to the pieces' destinations (R248). -/
def spanDestWait (s : State) (c : Nat) (k : SlotN) (xs : List (Nat × Nat)) : Got Unit :=
  let r := (s.thr c k).ref c
  let dest (key : Nat) : Option Nat :=
    match s.spadOf key with
    | some (d, _) => if d = c then none else some d
    | none => if 2 ^ 62 ≤ key then some (key / 64 * 64) else none
  match xs.findSome? fun e => (dest e.1).filter (s.sentTo r) with
  | some d => .stop (s.park c k (.cond (.dest d)))
  | none => .ok s ()

/-- A block of at most a line that an instruction reads as one load, and whether it was local; outside any chunk for an
instruction that belongs to none (R132, R240). -/
def blockFor (s : State) (c : Nat) (k : SlotN) (a n : Nat) (inChunk : Bool) : Got (List Byte × Bool) :=
  (resolveFor s c k a .load).bind fun s tg =>
  (destWait s c k tg).bind fun s _ =>
  (lockWait s c k tg n).bind fun s _ =>
  (overlapWait s c k tg.key n).bind fun s _ =>
  if inChunk then (readFor s c k a tg n).bind fun s bs => .ok s (bs, tg.isLocal)
  else match s.readAt (s.thr c k) tg n with
    | some bs => .ok s (bs, tg.isLocal)
    | none => trap s c k { cause := 31, val := BitVec.ofNat 64 a }

/-! ### Deferred traps -/

/-- A deferred trap of cause 29, 30 or 33 becomes pending for a thread; a second one of a cause sets MORE; the event has the
time of its stamp and draws none, its record does when the trap is taken (R356); a thread that is gone leaves a record for
the supervisor of its core (R179, R227, R372). [log 49 DEDUCED] -/
def State.defer (s : State) (r : TRef) (cause source : Nat) (trval trval2 : Word) : State :=
  match s.findRef r with
  | none => s.engineRec r.core cause source trval trval2 0 0
  | some _ =>
    let v := BitVec.ofNat 64 (s.rot * 2 ^ 16 + (s.core r.core).stamps.seq)
    s.modRef r fun t =>
      let c := BitVec.ofNat 8 cause
      { t with
        deferred :=
          if t.deferred.any fun d => d.cause == c then
            t.deferred.map fun d => if d.cause == c then { d with flags := d.flags ||| 8 } else d
          else t.deferred ++ [⟨c, BitVec.ofNat 8 source, 2, v, trval, trval2⟩] }

/-- Conditions 1 to 4 of FENCE (R135). -/
def State.fenceDone (s : State) (r : TRef) (t : Thread) : Bool :=
  t.psc0 == 0 && t.psc1 == 0 && t.psc2 == 0 && !s.engineBusy r && t.vq == []

/-- What FENCER waits for (R208): kinds are sampler 1, engine 2, posted 4. -/
def State.fencerDone (s : State) (r : TRef) (kinds base len : Nat) : Bool :=
  (!kinds.testBit 0 || !s.samplerReqs.any fun q => q.1 == r) &&
  (!kinds.testBit 1 || !s.engineIn r base len) &&
  (!kinds.testBit 2 || !s.postedIn r base len)

/-- The matrix engine is idle and the writes of its MSTOREs are performed (R181). -/
def Matrix.idle (m : Matrix) : Bool := m.queue == []

/-- The events pending for a thread (R274). [log 106 DEDUCED] -/
def State.events (s : State) (c : Nat) (t : Thread) : Nat :=
  let x := (s.core c).c
  let b (v : Bool) (i : Nat) : Nat := if v then 2 ^ i else 0
  -- an orphan is held for slot 0 (R283)
  let k : SlotN := if (s.slot c 0).thread?.map (·.serial) = some t.serial then 0 else 1
  b (x.trapQ != []) 0 + b (x.inbox.any fun m => m.heldFor k t.serial) 1 +
  b (x.mbx.toList.any fun m => m.val.isSome) 2 + b (t.evl.getLsbD 3) 3 + b x.mx.idle 4 +
  b (x.tv.events.any fun e => e.1 == t.ref c) 5 + b (t.evl.getLsbD 6) 6 + b (t.evl.getLsbD 7) 7

/-- QWAIT's quantity of a queue (R278). -/
def Queue.quantity (q : Queue) (free : Bool) : Nat := if free then q.free else q.count

/-- BARWAIT's condition (R368). -/
def barPassed (gen : BitVec 16) (g : Word) : Bool :=
  let d := (gen - g.setWidth 16).toNat
  1 ≤ d && d ≤ 32767

end Sys2Proof.Machine
end

