-- ==== Sys2Proof/Machine/Flags.lean ====
section
/-! DEFINITION. Flags.lean: number formats, exact values, rounding, the flags of R31, conversions and exact arithmetic
(R29 to R47). -/

namespace Sys2Proof.Machine

/-! ### Formats -/

/-- A binary floating-point format (R29): exponent and fraction bits, bias, code of the largest finite magnitude, code of
infinity, canonical NaN. -/
structure Fmt where
  eb : Nat
  fb : Nat
  bias : Nat
  maxCode : Nat
  inf : Option Nat
  nan : Nat
  deriving DecidableEq, Repr

namespace Fmt
/-- The formats of R29. -/
def fp64 : Fmt := ⟨11, 52, 1023, 0x7FEFFFFFFFFFFFFF, some 0x7FF0000000000000, 0x7FF8000000000000⟩
def fp32 : Fmt := ⟨8, 23, 127, 0x7F7FFFFF, some 0x7F800000, 0x7FC00000⟩
def fp16 : Fmt := ⟨5, 10, 15, 0x7BFF, some 0x7C00, 0x7E00⟩
def bf16 : Fmt := ⟨8, 7, 127, 0x7F7F, some 0x7F80, 0x7FC0⟩
def e5m2 : Fmt := ⟨5, 2, 15, 0x7B, some 0x7C, 0x7E⟩
def e4m3 : Fmt := ⟨4, 3, 7, 0x7E, none, 0x7F⟩
def e3m2 : Fmt := ⟨3, 2, 3, 0x1F, none, 0x1F⟩
def e2m3 : Fmt := ⟨2, 3, 1, 0x1F, none, 0x1F⟩
def e2m1 : Fmt := ⟨2, 1, 1, 0x7, none, 0x7⟩

/-- Bits of an encoding without the sign. -/
def magBits (f : Fmt) : Nat := f.eb + f.fb
/-- Exponent of the least significant bit of a subnormal. -/
def qmin (f : Fmt) : Int := 1 - (f.bias : Int) - f.fb
end Fmt

/-! ### Values -/

/-- An exact value, or one known to lie strictly between m and m + 1 units (`rest` set), which rounds as the exact value
does when m has more bits than the format rounded to. -/
inductive Val where
  | nan (signalling : Bool)
  | inf (neg : Bool)
  | fin (neg : Bool) (m : Nat) (e : Int) (rest : Bool)
  deriving DecidableEq, Repr

namespace Val

/-- Zero with a sign. -/
def zero (neg : Bool) : Val := .fin neg 0 0 false
/-- The value i * 2^e; zero is +0. -/
def ofInt (i : Int) (e : Int := 0) : Val := .fin (i < 0) i.natAbs e false

def isNan : Val → Bool
  | .nan _ => true
  | _ => false
def isSnan : Val → Bool
  | .nan s => s
  | _ => false
def isInf : Val → Bool
  | .inf _ => true
  | _ => false
def isZero : Val → Bool
  | .fin _ m _ r => m == 0 && !r
  | _ => false
/-- Sign bit; a NaN counts as positive. -/
def neg : Val → Bool
  | .nan _ => false
  | .inf n => n
  | .fin n _ _ _ => n

/-- Sign flipped. -/
def flip : Val → Val
  | .nan s => .nan s
  | .inf n => .inf !n
  | .fin n m e r => .fin (!n) m e r

/-- The finite value as an integer multiple of 2^e, for e at or below its exponent; others count as 0. -/
def units (v : Val) (e : Int) : Int :=
  match v with
  | .fin n m x _ =>
    let k : Int := (m : Int) * 2 ^ (x - e).toNat
    if n then -k else k
  | _ => 0

/-- Exponent of the unit of a finite value. -/
def exp : Val → Int
  | .fin _ _ e _ => e
  | _ => 0

end Val

/-- Value of an encoding (R29, R47). -/
def value (f : Fmt) (bits : Nat) : Val :=
  let mag := bits % 2 ^ f.magBits
  let n := bits / 2 ^ f.magBits % 2 == 1
  let ef := mag / 2 ^ f.fb
  let fr := mag % 2 ^ f.fb
  match f.inf with
  | some i =>
    if mag = i then .inf n
    else if i < mag then .nan (fr / 2 ^ (f.fb - 1) % 2 == 0)
    else if ef = 0 then .fin n fr f.qmin false
    else .fin n (fr + 2 ^ f.fb) (f.qmin + (ef - 1 : Nat)) false
  | none =>
    if mag = f.nan ∧ f = .e4m3 then .nan false
    else if ef = 0 then .fin n fr f.qmin false
    else .fin n (fr + 2 ^ f.fb) (f.qmin + (ef - 1 : Nat)) false

/-! ### Rounding -/

/-- Rounding modes (R32). -/
inductive RMode where
  | rne | rtz | rup | rdn
  deriving DecidableEq, Repr

/-- Mode of `vctl`[17:16] (R32). -/
def RMode.of (n : Nat) : RMode := match n with | 0 => .rne | 1 => .rtz | 2 => .rup | _ => .rdn

/-- What a rounding raises: NV, DZ, OF, UF, NX as bits 4 to 0 (R31). -/
abbrev FFlags := BitVec 5

/-- Rounds a magnitude given as an integer part, a half bit and a rest to an integer (R32). -/
def roundUnits (mode : RMode) (neg : Bool) (i : Nat) (half rest : Bool) : Nat :=
  let up := match mode with
    | .rne => half && (rest || i % 2 == 1)
    | .rtz => false
    | .rup => !neg && (half || rest)
    | .rdn => neg && (half || rest)
  if up then i + 1 else i

/-- m * 2^s with a rest below, cut at the unit: integer part, half bit, rest. -/
def cut (m : Nat) (s : Int) (rest : Bool) : Nat × Bool × Bool :=
  if 0 ≤ s then (m * 2 ^ s.toNat, false, rest)
  else
    let k := (-s).toNat
    if m.log2 + 2 < k then (0, false, m != 0 || rest)
    else (m / 2 ^ k, m / 2 ^ (k - 1) % 2 == 1, m % 2 ^ (k - 1) != 0 || rest)

/-- Code of a magnitude delivered on overflow (R33); E4M3 gives the NaN pattern where the mode table selects it. -/
def overCode (f : Fmt) (mode : RMode) (neg e4nan : Bool) : Nat :=
  match f.inf with
  | some i =>
    match mode with
    | .rne => i
    | .rtz => f.maxCode
    | .rup => if neg then f.maxCode else i
    | .rdn => if neg then i else f.maxCode
  | none => if f = .e4m3 ∧ e4nan then f.nan else f.maxCode

/-- Sets the sign bit of a code. -/
def withSign (f : Fmt) (neg : Bool) (code : Nat) : Nat := code + (if neg then 2 ^ f.magBits else 0)

/-- A value rounded into a format, with the flags of the rounding (R31, R33, R47). -/
def fpround (f : Fmt) (mode : RMode) (v : Val) (e4nan : Bool := false) : Nat × FFlags :=
  match v with
  | .nan _ => (f.nan, 0)
  | .inf n =>
    match f.inf with
    | some i => (withSign f n i, 0)
    | none => (withSign f n (overCode f mode n e4nan), 1)
  | .fin n m e r =>
    if m = 0 && !r then (withSign f n 0, 0) else
    let q := (m.log2 : Int) + e - f.fb
    let qd := max q f.qmin
    let (i, h, t) := cut m (e - qd) r
    let u := roundUnits mode n i h t
    let code := (qd - f.qmin).toNat * 2 ^ f.fb + u
    let inexact := h || t
    if f.maxCode < code then (withSign f n (overCode f mode n e4nan), 0b101)
    else
      let (i', h', t') := cut m (e - q) r
      let u' := roundUnits mode n i' h' t'
      let tiny := q < f.qmin && u' < 2 ^ ((f.qmin - q).toNat + f.fb)
      (withSign f n code, if inexact then (if tiny then 0b11 else 0b1) else 0)

/-- The helpers round32, round64 and round_out of R47. -/
def round32 (v : Val) : Nat := (fpround .fp32 .rne v).1
/-- Rounds to FP64 RNE. -/
def round64 (v : Val) : Nat := (fpround .fp64 .rne v).1

/-- The finite value rounded to an integer under a mode, and whether that changed it (R34, R47). -/
def toInteger (mode : RMode) (v : Val) : Int × Bool :=
  match v with
  | .fin n m e r =>
    let (i, h, t) := cut m e r
    let u := roundUnits mode n i h t
    (if n then -(u : Int) else u, h || t)
  | _ => (0, false)

/-- Conversion to an integer type with range [lo, hi]: rounded, saturated, NaN to 0; a saturated result differs from the
exact one, so NX stands beside NV (R31, R34). [log 108 DEDUCED] -/
def cvtInt (lo hi : Int) (mode : RMode) (v : Val) : Int × FFlags :=
  match v with
  | .nan _ => (0, 16)
  | .inf n => (if n then lo else hi, 17)
  | v =>
    let (i, inexact) := toInteger mode v
    if i < lo then (lo, 17) else if hi < i then (hi, 17) else (i, if inexact then 1 else 0)

/-! ### Exact arithmetic -/

namespace Val

/-- The exact sum; an exact zero of unlike signs takes the sign of the mode; opposite infinities are undefined. -/
def add (mode : RMode) (a b : Val) : Val :=
  match a, b with
  | .nan _, _ => .nan false
  | _, .nan _ => .nan false
  | .inf x, .inf y => if x = y then .inf x else .nan false
  | .inf x, _ => .inf x
  | _, .inf y => .inf y
  | .fin na ma ea _, .fin nb mb eb _ =>
    let e := min ea eb
    let k := (Val.fin na ma ea false).units e + (Val.fin nb mb eb false).units e
    if k = 0 then .zero (if na = nb then na else mode == .rdn) else .ofInt k e

/-- The exact product; 0 times infinity is undefined. -/
def mul (a b : Val) : Val :=
  match a, b with
  | .nan _, _ => .nan false
  | _, .nan _ => .nan false
  | .inf x, y => if y.isZero then .nan false else .inf (x != y.neg)
  | x, .inf y => if x.isZero then .nan false else .inf (x.neg != y)
  | .fin na ma ea _, .fin nb mb eb _ => .fin (na != nb) (ma * mb) (ea + eb) false

/-- The quotient of finite values, b not zero, to 64 bits or more and a rest. -/
def divFin (a b : Val) : Val :=
  match a, b with
  | .fin na ma ea _, .fin nb mb eb _ =>
    let k := 64 + mb.log2
    let n := ma * 2 ^ k
    .fin (na != nb) (n / mb) (ea - eb - k) (n % mb != 0)
  | _, _ => .nan false

/-- A value over a positive integer. -/
def divNat (a : Val) (n : Nat) : Val := a.divFin (.fin false n 0 false)

/-- Times a power of two. -/
def scale (v : Val) (k : Int) : Val :=
  match v with
  | .fin n m e r => .fin n m (e + k) r
  | v => v

/-- Comparison: less, equal; false with a NaN. -/
def lt (a b : Val) : Bool :=
  match a, b with
  | .nan _, _ => false
  | _, .nan _ => false
  | .inf x, .inf y => x && !y
  | .inf x, _ => x
  | _, .inf y => !y
  | a, b => let e := min a.exp b.exp; a.units e < b.units e

def eq (a b : Val) : Bool :=
  match a, b with
  | .nan _, _ => false
  | _, .nan _ => false
  | .inf x, .inf y => x == y
  | .inf _, _ => false
  | _, .inf _ => false
  | a, b => let e := min a.exp b.exp; a.units e == b.units e

/-- Magnitude. -/
def abs (v : Val) : Val :=
  match v with
  | .nan s => .nan s
  | .inf _ => .inf false
  | .fin _ m e r => .fin false m e r

/-- floor(log2 of the magnitude) of a finite value that is not zero. -/
def ilog2 (v : Val) : Int :=
  match v with
  | .fin _ m e _ => (m.log2 : Int) + e
  | _ => 0

end Val

/-- Integer square root, bit by bit from bit k down. -/
def isqrt (n : Nat) : Nat :=
  let rec go : Nat → Nat → Nat
    | 0, acc => acc
    | k + 1, acc => let t := acc + 2 ^ k
                    if t * t ≤ n then go k t else go k acc
  go (n.log2 / 2 + 1) 0

/-- Square root of a finite value that is not negative, to 32 bits or more and a rest. -/
def sqrtFin (m : Nat) (e : Int) : Val :=
  let e0 := e - 128
  let m0 := m * 2 ^ 128
  let (m1, e1) := if e0 % 2 = 0 then (m0, e0) else (2 * m0, e0 - 1)
  let s := isqrt m1
  .fin false s (e1 / 2) (s * s != m1)

/-- Reciprocal square root of a positive finite value, to 60 bits or more and a rest. -/
def rsqrtFin (m : Nat) (e : Int) : Val :=
  let (m1, e1) := if e % 2 = 0 then (m, e) else (2 * m, e - 1)
  let k := m1.log2 + 70
  let n := 2 ^ (2 * k)
  let q := n / m1
  let s := isqrt q
  .fin false s (-(e1 / 2) - k) (s * s != q || n % m1 != 0)

/-- The special inputs of VRSQRT (R39): value and flags before rounding. -/
def rsqrtVal (v : Val) : Val × FFlags :=
  match v with
  | .nan s => (.nan s, if s then 16 else 0)
  | .inf n => if n then (.nan false, 16) else (.zero false, 0)
  | .fin n m e _ => if m = 0 then (.inf n, 8) else if n then (.nan false, 16) else (rsqrtFin m e, 0)

/-- VMIN and VMAX of R155 on encodings: -0 below +0, a single NaN yields the other operand, two the canonical NaN. -/
def fminmaxBits (f : Fmt) (mx : Bool) (a b : Nat) : Nat :=
  let x := value f a
  let y := value f b
  if x.isNan then (if y.isNan then f.nan else b)
  else if y.isNan then a
  else
    let less := x.lt y || (x.eq y && x.neg && !y.neg)
    if less != mx then a else b

/-- VMAX (R155). -/
def fmaxBits (f : Fmt) (a b : Nat) : Nat := fminmaxBits f true a b

/-! ### The matrix dot product -/

/-- mm_group of R47: adds a group of exact products to an FP32 accumulator (R40). -/
def mmGroup (ps : List Val) (acc : Word32) : Word32 :=
  let a := value .fp32 acc.toNat
  let pos := ps.any fun p => p == .inf false
  let neg := ps.any fun p => p == .inf true
  if a.isNan || ps.any (·.isNan) || (pos && neg) then 0x7FC00000
  else if pos || neg then
    if a == .inf (!neg) then 0x7FC00000 else BitVec.ofNat 32 (round32 (.inf neg))
  else
    let nz := ps.filter fun p => !p.isZero
    match nz with
    | [] => acc
    | p0 :: _ =>
      let e := nz.foldl (fun x p => max x p.ilog2) p0.ilog2
      let u := e - 48
      let t := nz.foldl (fun (t : Int) p =>
        match p with
        | .fin n m x _ => let (i, _, _) := cut m (x - u) false
                          if n then t - i else t + i
        | _ => t) 0
      if t = 0 then acc
      else BitVec.ofNat 32 (round32 (a.add .rne (.ofInt t u)))

/-! ### The stream accumulator element -/

/-- Largest magnitude of an element (R42). -/
def saMax : Int := 2 ^ 95 - 1

/-- The statistics and flags of a Crucible row with its elements (R42). -/
structure Row where
  x : List Int
  sx : Int
  s : Int
  sat : Bool
  inv : Bool
  deriving DecidableEq, Repr

/-- Delivers an addition of k units to element i: clamp, statistics, SAT (R43). -/
def Row.addUnits (r : Row) (i : Nat) (k : Int) : Row :=
  let xo := r.x.getD i 0
  let xn := min (max (xo + k) (-saMax)) saMax
  let dd := xn - xo
  { r with x := r.x.set i xn, sat := r.sat || xn != xo + k, sx := r.sx + dd, s := r.s + dd * (2 * xo + dd) }

/-- sa_add of R47 (R43). -/
def Row.saAdd (r : Row) (i : Nat) (d : Val) (q : Int) : Row :=
  match d with
  | .nan _ => { r with inv := true }
  | .inf n => let r' := r.addUnits i (if n then -(2 ^ 97) else 2 ^ 97)
              { r' with sat := true }
  | d => r.addUnits i (toInteger .rne (d.scale (-q))).1

/-- Modes of the normalising port (R45). -/
inductive NMode where
  | rms | layer | unit
  deriving DecidableEq, Repr

/-- snorm_elem of R47 (R45). -/
def Row.norm (r : Row) (i : Nat) (mode : NMode) (q : Int) (eps gam : Word32) (f : Fmt) (e4nan : Bool) : Nat :=
  if r.inv then f.nan else
  let n := r.x.length
  let xi := r.x.getD i 0
  let out (rq : Word32) (c : Val) : Nat :=
    (fpround f .rne (((value .fp32 (round32 c)).mul (value .fp32 rq.toNat)).mul (value .fp32 gam.toNat)) e4nan).1
  let recip (v : Nat) : Word32 :=
    BitVec.ofNat 32 (round32 (rsqrtVal ((value .fp64 v).add .rne (value .fp32 eps.toNat))).1)
  match mode with
  | .unit => (fpround f .rne (.ofInt xi q) e4nan).1
  | .rms =>
    let v := round64 ((Val.ofInt r.s (2 * q)).divNat n)
    out (recip v) (.ofInt xi q)
  | .layer =>
    let v := round64 ((Val.ofInt (n * r.s - r.sx * r.sx) (2 * q)).divNat (n * n))
    out (recip v) ((Val.ofInt (n * xi - r.sx) q).divNat n)

end Sys2Proof.Machine
end

