-- ==== Sys2Proof/Machine/Functions.lean ====
section
/-! DEFINITION. Functions.lean: the correctly rounded functions of R39. A transcendental result is computed in fixed point
with far more bits than its rounding needs, as a value with a rest. -/

namespace Sys2Proof.Machine

/-- Fixed-point fraction bits of the series. -/
def fixBits : Nat := 448

/-- The sum of the first f terms where each follows from the last; a term of 0 ends it. -/
def series (f : Nat) (term : Nat) (k : Nat) (next : Nat → Nat → Nat) : Nat :=
  match f with
  | 0 => 0
  | f + 1 => if term = 0 then 0 else term + series f (next term k) (k + 1) next

/-- ln 2 in fixed point: the sum of 1 / (k 2^k). -/
def ln2Fix : Nat := series 500 (2 ^ (fixBits - 1)) 1 fun t k => t * k / (2 * (k + 1))

/-- arctan(1/d) in fixed point, as even terms less odd terms. -/
def atanFix (d : Nat) : Nat :=
  let rec go : Nat → Nat → Nat → Int → Int
    | 0, _, _, a => a
    | f + 1, p, k, a =>
      if p = 0 then a else
      let t : Int := p / (2 * k + 1)
      go f (p / (d * d)) (k + 1) (if k % 2 = 0 then a + t else a - t)
  (go 200 (2 ^ fixBits / d) 0 0).toNat

/-- pi in fixed point (Machin). -/
def piFix : Nat := 4 * (4 * atanFix 5 - atanFix 239)

/-- 2^y for 0 < y < 1 in fixed point. -/
def exp2Fix (y : Nat) : Nat :=
  let z := y * ln2Fix / 2 ^ fixBits
  series 200 (2 ^ fixBits) 1 fun t k => t * z / (k * 2 ^ fixBits)

/-- sin of pi times y for 0 < y <= 1/2 in fixed point. -/
def sinFix (y : Nat) : Nat :=
  let z := y * piFix / 2 ^ fixBits
  let rec go : Nat → Nat → Nat → Int → Int
    | 0, _, _, a => a
    | f + 1, t, k, a =>
      if t = 0 then a else
      go f (t * z / 2 ^ fixBits * z / ((2 * k) * (2 * k + 1) * 2 ^ fixBits)) (k + 1)
        (if k % 2 = 1 then a + t else a - t)
  (go 150 z 1 0).toNat

/-- The binary digits of log2 of m / 2^w (1 <= m / 2^w < 2), n of them, by squaring. -/
def log2Frac (n w m acc : Nat) : Nat :=
  match n with
  | 0 => acc
  | n + 1 =>
    let q := m * m / 2 ^ w
    if 2 ^ (w + 1) ≤ q then log2Frac n w (q / 2) (2 * acc + 1) else log2Frac n w q (2 * acc)

/-- A finite value as an integer when it is one. -/
def integral? (v : Val) : Option Int :=
  match v with
  | .fin _ m e _ =>
    if 0 ≤ e ∨ m % 2 ^ (-e).toNat = 0 then some (toInteger .rtz v).1 else none
  | _ => none

/-- 2^x (R39). [log 84 DEDUCED] -/
def exp2Val (v : Val) : Val :=
  match v with
  | .nan s => .nan s
  | .inf n => if n then .zero false else .inf false
  | .fin _ _ _ _ =>
    match integral? v with
    | some i => .fin false 1 (min (max i (-100000)) 100000) false
    | none =>
      -- |x| < 2^24 here; the fraction has at most 149 bits
      let x : Int := v.units (-149)
      let whole := x / 2 ^ 149
      let frac := (x % 2 ^ 149).toNat
      .fin false (exp2Fix (frac * 2 ^ (fixBits - 149))) (whole - fixBits) true

/-- log2 x (R39): value and flags before rounding. [log 84 DEDUCED] -/
def log2Val (v : Val) : Val × FFlags :=
  match v with
  | .nan s => (.nan s, if s then 16 else 0)
  | .inf n => if n then (.nan false, 16) else (.inf false, 0)
  | .fin n m e _ =>
    if m = 0 then (.inf true, 8)
    else if n then (.nan false, 16)
    else
      let w := m.log2
      let k : Int := w + e
      if m = 2 ^ w then (.ofInt k, 0)
      else
        let f := log2Frac 160 600 (m * 2 ^ (600 - w)) 0
        let t := k * 2 ^ 160 + f
        (if t < 0 then .fin true (-t - 1).toNat (-160) true else .fin false t.toNat (-160) true, 0)

/-- sin of pi times a finite value given as an integer x of units 2^-150; `negZero` is the sign of an integer's result
(R39). -/
def sinPi (x : Int) (negZero : Bool) : Val :=
  let u : Nat := 2 ^ 150
  let r := (x % (2 * u : Nat)).toNat
  let neg := u < r
  let y := if u ≤ r then r - u else r
  if y = 0 then .zero negZero
  else if 2 * y = u then .fin neg 1 0 false
  else
    let y' := if u < 2 * y then u - y else y
    .fin neg (sinFix (y' * 2 ^ (fixBits - 150))) (-fixBits) true

/-- sin of pi x (R39): value and flags before rounding. [log 84 DEDUCED] -/
def sinVal (v : Val) : Val × FFlags :=
  match v with
  | .nan s => (.nan s, if s then 16 else 0)
  | .inf _ => (.nan false, 16)
  | .fin n _ _ _ => (sinPi (v.units (-150)) n, 0)

/-- cos of pi x (R39). [log 84 DEDUCED] -/
def cosVal (v : Val) : Val × FFlags :=
  match v with
  | .nan s => (.nan s, if s then 16 else 0)
  | .inf _ => (.nan false, 16)
  | .fin _ _ _ _ => (sinPi (v.units (-150) + 2 ^ 149) false, 0)

/-- x / y (R39): value and flags before rounding. -/
def divVal (a b : Val) : Val × FFlags :=
  let nv : FFlags := if a.isSnan || b.isSnan then 16 else 0
  let n := a.neg != b.neg
  if a.isNan || b.isNan then (.nan false, nv)
  else if (a.isZero && b.isZero) || (a.isInf && b.isInf) then (.nan false, 16)
  else if a.isInf then (.inf n, 0)
  else if b.isInf then (.zero n, 0)
  else if b.isZero then (.inf n, 8)
  else if a.isZero then (.zero n, 0)
  else (a.divFin b, 0)

/-- Square root (R39). -/
def sqrtVal (v : Val) : Val × FFlags :=
  match v with
  | .nan s => (.nan s, if s then 16 else 0)
  | .inf n => if n then (.nan false, 16) else (.inf false, 0)
  | .fin n m e _ => if m = 0 then (v, 0) else if n then (.nan false, 16) else (sqrtFin m e, 0)

/-- 1 / x (R39). -/
def rcpVal (v : Val) : Val × FFlags :=
  match v with
  | .nan s => (.nan s, if s then 16 else 0)
  | .inf n => (.zero n, 0)
  | .fin n m _ _ => if m = 0 then (.inf n, 8) else ((Val.fin false 1 0 false).divFin v, 0)

/-- 2^x with its flags. [log 84 DEDUCED] -/
def exp2Fn (v : Val) : Val × FFlags := (exp2Val v, if v.isSnan then 16 else 0)

end Sys2Proof.Machine
end

