-- ==== Sys2Proof/Machine/Lanes.lean ====
section
/-! DEFINITION. Lanes.lean: what the strips of a vector instruction compute: lanes, masks and flags (R31 to R39, R146,
R147, R155 to R158, R161 to R166). -/

namespace Sys2Proof.Machine

/-! ### Types and lanes -/

/-- Floating format of an element type; c32 components are FP32 (R38, R146). -/
def fmtOf : VType → Option Fmt
  | .f32 => some .fp32
  | .bf16 => some .bf16
  | .f16 => some .fp16
  | .c32 => some .fp32
  | _ => none

/-- Memory width of a lane in bytes (R146). -/
def laneBytes : VType → Nat
  | .bf16 => 2
  | .f16 => 2
  | .i8 => 1
  | .u8 => 1
  | _ => 4

/-- Width of an element in memory: a c32 element is two lanes (R146, R159). -/
def elemBytes : VType → Nat
  | .c32 => 8
  | t => laneBytes t

/-- Element type of a code; 0b111 is stored as 0 (R109, R120). -/
def typeOf (n : Nat) : VType :=
  match n with | 1 => .bf16 | 2 => .f16 | 3 => .i32 | 4 => .i8 | 5 => .u8 | 6 => .c32 | _ => .f32

/-- A value placed in a lane (R146). -/
def placeLane (t : VType) (v : Nat) : Word32 :=
  match t with
  | .bf16 => BitVec.ofNat 32 (v % 2 ^ 16)
  | .f16 => BitVec.ofNat 32 (v % 2 ^ 16)
  | .i8 => (BitVec.ofNat 8 v).signExtend 32
  | .u8 => BitVec.ofNat 32 (v % 2 ^ 8)
  | _ => BitVec.ofNat 32 v

/-- An integer wrapped into a lane (R34, R146). -/
def placeInt (t : VType) (i : Int) : Word32 := placeLane t (BitVec.ofInt 32 i).toNat

/-- Element bits of a lane (R146). -/
def elemBits (t : VType) (w : Word32) : Nat := w.toNat % 2 ^ (8 * laneBytes t)

/-- Integer of a lane: unsigned for u8 (R155). -/
def elemInt (t : VType) (w : Word32) : Int :=
  match t with
  | .i8 => (w.setWidth 8).toInt
  | .u8 => (w.toNat % 256 : Nat)
  | _ => w.toInt

/-- Lane l of a register (R146). -/
def getLane (r : VReg) (l : Nat) : Word32 := (r >>> (32 * l)).setWidth 32

/-- A register with lane l replaced. -/
def setLane (r : VReg) (l : Nat) (w : Word32) : VReg :=
  r &&& ~~~(((BitVec.allOnes 32).setWidth 1024 : VReg) <<< (32 * l)) ||| ((w.setWidth 1024 : VReg) <<< (32 * l))

/-- Lane 0 to 63: lanes 32 to 63 lie in the odd slot's registers (R58, R148). -/
def Arch.lane (a : Arch) (r : VNum) (l : Nat) : Word32 := if l < 32 then getLane a.v[r] l else getLane a.vOdd[r] (l - 32)

/-- Writes a lane. -/
def Arch.setLane (a : Arch) (r : VNum) (l : Nat) (w : Word32) : Arch :=
  if l < 32 then { a with v := a.v.set r (Machine.setLane a.v[r] l w) }
  else { a with vOdd := a.vOdd.set r (Machine.setLane a.vOdd[r] (l - 32) w) }

/-- Bit l of a mask register (R148). -/
def Arch.kbit (a : Arch) (r : KReg) (l : Nat) : Bool := (a.k[r]).getLsbD l

/-- Fields of a sampled `vctl` (R120). -/
def vlOf (v : Word) : Nat := bits v.toNat 0 7
/-- MIDX. -/
def midxOf (v : Word) : KReg := ⟨bits v.toNat 8 3, Nat.mod_lt _ (by decide)⟩
/-- MEN. -/
def menOf (v : Word) : Bool := bits v.toNat 11 1 == 1
/-- DTYPE. -/
def dtypeOf (v : Word) : VType := typeOf (bits v.toNat 12 3)
/-- RM. -/
def rmOf (v : Word) : RMode := .of (bits v.toNat 16 2)

/-- Lane l is active (R147). -/
def laneActive (a : Arch) (vctl : Word) (l : Nat) : Bool := l < vlOf vctl && (!menOf vctl || a.kbit (midxOf vctl) l)

/-- The active lanes of [lo, hi): of a c32 element both lanes or neither (R147). -/
def activeLanes (a : Arch) (vctl : Word) (t : VType) (lo hi : Nat) : List Nat :=
  ((List.range hi).drop lo).filter fun l =>
    if t = .c32 then laneActive a vctl (l / 2 * 2) && laneActive a vctl (l / 2 * 2 + 1) else laneActive a vctl l

/-! ### Results of a strip -/

/-- What a strip writes: lanes of one v register, mask registers, and the flags each lane raises. -/
structure VRes where
  vd : VNum := 0
  vs : List (Nat × Word32) := []
  ks : List (KReg × Word) := []
  fs : List (Nat × FFlags) := []
  deriving DecidableEq, Repr

/-- Flags of a result: their OR, and the lowest lane that raised each, NX first (R31, R153). -/
def VRes.flags (r : VRes) : FFlags := r.fs.foldl (fun f e => f ||| e.2) 0

def VRes.lanes (r : VRes) : List (Option Nat) :=
  (List.range 5).map fun b => (r.fs.find? fun e => e.2.getLsbD b).map (·.1)

/-- What a strip works on. -/
structure VCtx where
  a : Arch
  vctl : Word
  odd : Bool
  last : Bool
  scalar : Word
  scalar2 : Word
  paired : Bool
  e4nan : Bool
  deriving DecidableEq, Repr

namespace VCtx

/-- Bounds of the strip's lanes, and VLmax (R60, R148). -/
def lo (x : VCtx) : Nat := if x.odd then 32 else 0
/-- VLmax. -/
def vlmax (x : VCtx) : Nat := if x.paired then 64 else 32
/-- Rounding mode. -/
def rm (x : VCtx) : RMode := rmOf x.vctl
/-- The strip's active lanes. -/
def act (x : VCtx) (t : VType) : List Nat := activeLanes x.a x.vctl t x.lo (x.lo + 32)
/-- The instruction's active lanes over all strips. -/
def actAll (x : VCtx) (t : VType) : List Nat := activeLanes x.a x.vctl t 0 64

end VCtx

/-! ### Floating-point lanes -/

/-- Any operand is a signalling NaN. -/
def snanFlag (xs : List Val) : FFlags := if xs.any (·.isSnan) then 16 else 0

/-- An exact sum of products and terms: a NaN operand gives NaN; 0 times infinity and opposite infinities are undefined,
also beside a NaN (R31, R38, R162). -/
def fdot (m : RMode) (ps : List (Val × Val)) (cs : List Val) : Val × FFlags :=
  let prods := ps.map fun p => p.1.mul p.2
  let bad := ps.any fun p => !p.1.isNan && !p.2.isNan && (p.1.mul p.2).isNan
  let sn := snanFlag (ps.map (·.1) ++ ps.map (·.2) ++ cs)
  let xs := prods ++ cs
  let opposite := xs.contains (.inf false) && xs.contains (.inf true)
  let f : FFlags := if bad || opposite then sn ||| 16 else sn
  if xs.any (·.isNan) || opposite then (.nan false, f)
  else
    match xs with
    | [] => (.zero false, f)
    | y :: ys => (ys.foldl (Val.add m) y, f)

/-- Rounds a value with its flags into a format. -/
def finishF (fm : Fmt) (m : RMode) (r : Val × FFlags) : Nat × FFlags :=
  let (b, g) := fpround fm m r.1
  (b, r.2 ||| g)

/-- An elementwise operation: floating lanes by `ff` on values with the format and mode, integer lanes by `fi` (R155). -/
def elementwise (x : VCtx) (t : VType) (vd vs1 vs2 : VNum) (ff : Fmt → RMode → Nat → Nat → Nat → Nat × FFlags)
    (fi : Int → Int → Int → Int) : VRes :=
  let rs := (x.act t).map fun l =>
    let a := x.a.lane vs1 l
    let b := x.a.lane vs2 l
    let d := x.a.lane vd l
    match fmtOf t with
    | some fm =>
      let (v, f) := ff fm x.rm (elemBits t a) (elemBits t b) (elemBits t d)
      (l, placeLane t v, f)
    | none => (l, placeInt t (fi (elemInt t a) (elemInt t b) (elemInt t d)), (0 : FFlags))
  { vd := vd, vs := rs.map fun r => (r.1, r.2.1), fs := rs.map fun r => (r.1, r.2.2) }

/-- Arithmetic as an exact expression of values (R155). -/
def arith (x : VCtx) (t : VType) (vd vs1 vs2 : VNum) (e : Val → Val → Val → List (Val × Val) × List Val)
    (fi : Int → Int → Int → Int) : VRes :=
  elementwise x t vd vs1 vs2 (fun fm m a b d =>
    let (ps, cs) := e (value fm a) (value fm b) (value fm d)
    finishF fm m (fdot m ps cs)) fi

/-- VMIN and VMAX (R155). -/
def minmax (x : VCtx) (t : VType) (mx : Bool) (vd vs1 vs2 : VNum) : VRes :=
  elementwise x t vd vs1 vs2
    (fun fm _ a b _ => (fminmaxBits fm mx a b, snanFlag [value fm a, value fm b]))
    (fun a b _ => if mx then max a b else min a b)

/-- VABS and VNEG: the sign only; a NaN becomes canonical (R155). -/
def signOp (x : VCtx) (t : VType) (neg : Bool) (vd vs1 : VNum) : VRes :=
  elementwise x t vd vs1 vs1
    (fun fm _ a _ _ =>
      let v := value fm a
      if v.isNan then (fm.nan, snanFlag [v])
      else
        let mag := a % 2 ^ fm.magBits
        (withSign fm (neg && a == mag) mag, 0))
    (fun a _ _ => if neg then -a else a.natAbs)

/-- A compare: bit l of k[kd] for active lanes; NV for any NaN, or for a signalling one only (R155). -/
def compare (x : VCtx) (t : VType) (kd : KReg) (vs1 vs2 : VNum) (anyNan : Bool) (ff : Val → Val → Bool)
    (fi : Int → Int → Bool) : VRes :=
  let rs := (x.act t).map fun l =>
    let a := x.a.lane vs1 l
    let b := x.a.lane vs2 l
    match fmtOf t with
    | some fm =>
      let u := value fm (elemBits t a)
      let v := value fm (elemBits t b)
      (l, ff u v, if anyNan && (u.isNan || v.isNan) then (16 : FFlags) else snanFlag [u, v])
    | none => (l, fi (elemInt t a) (elemInt t b), (0 : FFlags))
  let k := rs.foldl (fun (w : Word) r =>
    let m : Word := BitVec.ofNat 64 (2 ^ r.1)
    if r.2.1 then w ||| m else w &&& ~~~m) x.a.k[kd]
  { ks := [(kd, k)], fs := rs.map fun r => (r.1, r.2.2) }

/-- VSEL: every lane below VL by the mask (R155). -/
def vselRes (x : VCtx) (t : VType) (vd vs1 vs2 : VNum) : VRes :=
  let ls := ((List.range (x.lo + 32)).drop x.lo).filter fun l => l < vlOf x.vctl
  { vd := vd
    vs := ls.map fun l =>
      (l, placeLane t (elemBits t (x.a.lane (if x.a.kbit (midxOf x.vctl) l then vs1 else vs2) l))) }

/-- An FP32 function of one or two operands (R39, R156). [log 84 DEDUCED] -/
def function (x : VCtx) (vd vs1 vs2 : VNum) (f : Val → Val → Val × FFlags) : VRes :=
  elementwise x .f32 vd vs1 vs2 (fun fm m a b _ => finishF fm m (f (value fm a) (value fm b))) (fun _ _ _ => 0)

/-- Bitwise operations with width W and the shift amount b mod W (R157). -/
def bitwise (x : VCtx) (t : VType) (vd vs1 vs2 : VNum) (f : Nat → Nat → Nat → Nat → Int → Nat) : VRes :=
  let w := 8 * laneBytes t
  { vd := vd
    vs := (x.act t).map fun l =>
      let a := x.a.lane vs1 l
      let b := elemBits t (x.a.lane vs2 l)
      (l, placeLane t (f w (elemBits t a) b (b % w) (if t = .i8 then (a.setWidth 8).toInt else a.toInt) % 2 ^ w)) }

/-! ### Complex lanes -/

/-- One complex element: real and imaginary parts of a, b and c (R38). -/
structure CArgs where
  ar : Val
  ai : Val
  br : Val
  bi : Val
  cr : Val
  ci : Val

/-- A complex operation, component by component (R158). -/
def complex (x : VCtx) (vd vs1 vs2 : VNum) (f : RMode → CArgs → (Val × FFlags) × (Val × FFlags)) : VRes :=
  let es := (x.act .c32).filter fun l => l % 2 == 0
  let rs := es.flatMap fun l =>
    let g (r : VNum) (i : Nat) : Val := value .fp32 (x.a.lane r (l + i)).toNat
    let (re, im) := f x.rm ⟨g vs1 0, g vs1 1, g vs2 0, g vs2 1, g vd 0, g vd 1⟩
    let (b0, f0) := finishF .fp32 x.rm re
    let (b1, f1) := finishF .fp32 x.rm im
    [(l, BitVec.ofNat 32 b0, f0), (l + 1, BitVec.ofNat 32 b1, f1)]
  { vd := vd, vs := rs.map fun r => (r.1, r.2.1), fs := rs.map fun r => (r.1, r.2.2) }

/-- Any NaN component makes both results NaN (R38). [log 107 DEDUCED] -/
def cNan (xs : List Val) (r : (Val × FFlags) × (Val × FFlags)) : (Val × FFlags) × (Val × FFlags) :=
  if xs.any (·.isNan) then ((.nan false, snanFlag xs), (.nan false, snanFlag xs)) else r

/-- VCMUL and VCFMA: the sums of R38 with the terms c. [log 107 DEDUCED] -/
def cmul (m : RMode) (x : CArgs) (cr ci : List Val) : (Val × FFlags) × (Val × FFlags) :=
  cNan ([x.ar, x.ai, x.br, x.bi] ++ cr ++ ci)
    (fdot m [(x.ar, x.br), (x.ai.flip, x.bi)] cr, fdot m [(x.ar, x.bi), (x.ai, x.br)] ci)

/-! ### Reductions -/

/-- VREDADD of one component: lanes of vs1 with lane d of vd (R162). -/
def redSum (x : VCtx) (t : VType) (vd vs1 : VNum) (d : Nat) (ls : List Nat) : Nat × Word32 × FFlags :=
  match fmtOf t with
  | some fm =>
    let v (r : VNum) (l : Nat) : Val := value fm (elemBits t (x.a.lane r l))
    let (b, f) := finishF fm x.rm (fdot x.rm [] (v vd d :: ls.map (v vs1)))
    (d, placeLane t b, f)
  | none =>
    (d, placeInt t (ls.foldl (fun n l => n + elemInt t (x.a.lane vs1 l)) (elemInt t (x.a.lane vd d))), 0)

/-- VREDADD (R162). [log 109 DEDUCED] -/
def redAdd (x : VCtx) (t : VType) (vd vs1 : VNum) : VRes :=
  let ls := x.actAll t
  if !x.last || ls = [] then { vd := vd } else
  let rs := if t = .c32 then
      [redSum x t vd vs1 0 (ls.filter fun l => l % 2 == 0), redSum x t vd vs1 1 (ls.filter fun l => l % 2 == 1)]
    else [redSum x t vd vs1 0 ls]
  { vd := vd, vs := rs.map fun r => (r.1, r.2.1), fs := rs.map fun r => (0, r.2.2) }

/-- VREDMAX and VREDMIN (R162). [log 109 DEDUCED] -/
def redFold (x : VCtx) (t : VType) (mx : Bool) (vd vs1 : VNum) : VRes :=
  let ls := x.actAll t
  if !x.last || ls = [] then { vd := vd } else
  match fmtOf t with
  | some fm =>
    let (b, f) := ls.foldl (fun (r : Nat × FFlags) l =>
      let y := elemBits t (x.a.lane vs1 l)
      (fminmaxBits fm mx r.1 y, r.2 ||| snanFlag [value fm r.1, value fm y])) (elemBits t (x.a.lane vd 0), 0)
    { vd := vd, vs := [(0, placeLane t b)], fs := [(0, f)] }
  | none =>
    let b := ls.foldl (fun n l =>
      let y := elemInt t (x.a.lane vs1 l)
      if mx then max n y else min n y) (elemInt t (x.a.lane vd 0))
    { vd := vd, vs := [(0, placeInt t b)] }

/-! ### Conversions -/

/-- Range of an integer type. -/
def intRange : VType → Int × Int
  | .i8 => (-128, 127)
  | .u8 => (0, 255)
  | _ => (-2 ^ 31, 2 ^ 31 - 1)

/-- One lane of VCVT (R163). -/
def cvtLane (m : RMode) (src dst : VType) (w : Word32) : Word32 × FFlags :=
  match fmtOf src, fmtOf dst with
  | some f, some g =>
    let v := value f (elemBits src w)
    if src = dst ∧ !v.isNan then (placeLane dst (elemBits src w), 0)
    else
      let (b, h) := finishF g m (v, snanFlag [v])
      (placeLane dst b, h)
  | some f, none =>
    let (lo, hi) := intRange dst
    let (i, h) := cvtInt lo hi m (value f (elemBits src w))
    (placeInt dst i, h)
  | none, some g =>
    let (b, h) := fpround g m (.ofInt (elemInt src w))
    (placeLane dst b, h)
  | none, none =>
    let (lo, hi) := intRange dst
    (placeInt dst (max lo (min hi (elemInt src w))), 0)

/-- VCVT from DTYPE to T (R163). -/
def cvtRes (x : VCtx) (t : VType) (vd vs1 : VNum) : VRes :=
  let rs := (x.act t).map fun l => (l, cvtLane x.rm (dtypeOf x.vctl) t (x.a.lane vs1 l))
  { vd := vd, vs := rs.map fun r => (r.1, r.2.1), fs := rs.map fun r => (r.1, r.2.2) }

/-! ### Block formats -/

/-- Elements packed at width w from bit 0 (R35, R36). -/
def packBits (w : Nat) (xs : List Nat) : Nat := xs.foldr (fun v acc => v % 2 ^ w + acc * 2 ^ w) 0

/-- Element j of width w. -/
def unpackBit (w n j : Nat) : Nat := n / 2 ^ (w * j) % 2 ^ w

/-- The largest floor(log2) of the values that are not zero (R35, R37). -/
def maxLog (xs : List Val) : Option Int :=
  (xs.filter fun v => !v.isZero).foldl (fun m v => match m with
    | none => some v.ilog2
    | some e => some (max e v.ilog2)) none

/-- An MX block: scale byte and elements (R35). -/
def mxPack (f : Fmt) (emax : Int) (e4nan : Bool) (xs : List Val) : Nat × List Nat :=
  if xs.any fun v => v.isNan || v.isInf then (255, xs.map fun _ => 0)
  else match maxLog xs with
    | none => (127, xs.map fun _ => 0)
    | some e =>
      let sc := max 0 (min 254 (e - emax + 127))
      (sc.toNat, xs.map fun v => (fpround f .rne (v.scale (127 - sc)) e4nan).1)

/-- The value of an MX element (R35). -/
def mxValue (f : Fmt) (sc code : Nat) : Val := if sc = 255 then .nan false else (value f code).scale ((sc : Int) - 127)

/-- A TX block as a number of 2 + 4 w bytes (R36, R37). -/
def txPack (w : Nat) (xs : List Val) : Nat :=
  if xs.any fun v => v.isNan || v.isInf then 255
  else match maxLog xs with
    | none => 0
    | some e =>
      let ee := max 0 (min 254 (e + 127))
      let sig (i : Nat) : Nat :=
        match maxLog ((xs.drop (8 * i)).take 8) with
        | none => 3
        | some b => (max 0 (min 3 (ee - 127 - b))).toNat
      let lim : Int := 2 ^ (w - 1) - 1
      let qs := xs.mapIdx fun j v =>
        let q := (toInteger .rne (v.scale (-(ee - 127 - (sig (j / 8) : Int) - ((w : Int) - 2))))).1
        (BitVec.ofInt w (max (-lim) (min lim q))).toNat
      ee.toNat + packBits 2 [sig 0, sig 1, sig 2, sig 3] * 2 ^ 8 + packBits w qs * 2 ^ 16

/-- Element j of a TX block (R36). -/
def txValue (w n j : Nat) : Val :=
  let e := n % 256
  if e = 255 then .nan false
  else
    let sg := unpackBit 2 (n / 256 % 256) (j / 8)
    .ofInt (BitVec.ofNat w (unpackBit w (n / 2 ^ 16) j)).toInt ((e : Int) - 127 - sg - ((w : Int) - 2))

/-- Element format, emax and bits of an MX format code (R164). -/
def mxFmt (fc : Nat) : Fmt × Int × Nat :=
  match fc with
  | 0 => (.e4m3, 8, 8)
  | 1 => (.e5m2, 15, 8)
  | 2 => (.e4m3, 8, 8)
  | 3 => (.e5m2, 15, 8)
  | 4 => (.e2m3, 2, 6)
  | 5 => (.e3m2, 4, 6)
  | _ => (.e2m1, 2, 4)

/-- Element width of a TX format code. -/
def txBits (fc : Nat) : Nat := match fc with | 7 => 3 | 8 => 5 | _ => 8

/-- VPACK of a register (R164). -/
def packReg (fc : Nat) (e4nan : Bool) (r : VReg) : VReg :=
  let xs := (List.range 32).map fun l => value .fp32 (getLane r l).toNat
  let (f, emax, w) := mxFmt fc
  if fc ≤ 1 then BitVec.ofNat 1024 (packBits 8 (xs.map fun v => (fpround f .rne v e4nan).1))
  else if fc ≤ 6 then
    let (sc, es) := mxPack f emax e4nan xs
    BitVec.ofNat 1024 (packBits w es + sc * 2 ^ 1016)
  else BitVec.ofNat 1024 (txPack (txBits fc) xs)

/-- VUNPK of a register (R164). -/
def unpackReg (fc : Nat) (r : VReg) : VReg :=
  let n := r.toNat
  let (f, _, w) := mxFmt fc
  let v (j : Nat) : Val :=
    if fc ≤ 1 then value f (unpackBit 8 n j)
    else if fc ≤ 6 then mxValue f (n / 2 ^ 1016) (unpackBit w n j)
    else txValue (txBits fc) n j
  BitVec.ofNat 1024 (packBits 32 ((List.range 32).map fun j => round32 (v j)))

/-- A whole-register operation on both halves of a pair (R164). -/
def wholeReg (x : VCtx) (vd vs1 : VNum) (f : VReg → VReg) : VRes :=
  if !x.last then { vd := vd } else
  let half (odd : Bool) : List (Nat × Word32) :=
    let r := f (if odd then x.a.vOdd[vs1] else x.a.v[vs1])
    (List.range 32).map fun l => ((if odd then 32 else 0) + l, getLane r l)
  { vd := vd, vs := half false ++ if x.paired then half true else [] }

/-! ### Permutation -/

/-- VPERM (R165). -/
def permRes (x : VCtx) (t : VType) (vd vs1 vs2 : VNum) : VRes :=
  if !x.last then { vd := vd } else
  { vd := vd, vs := (x.actAll t).map fun l => (l, x.a.lane vs1 ((x.a.lane vs2 l).toNat % x.vlmax)) }

/-- VSLIDE (R165). -/
def slideRes (x : VCtx) (t : VType) (vd vs1 : VNum) : VRes :=
  if !x.last then { vd := vd } else
  { vd := vd
    vs := (x.actAll t).map fun l =>
      let j : Int := Int.ofNat l + x.scalar.toInt
      (l, if 0 ≤ j ∧ j < Int.ofNat (vlOf x.vctl) then x.a.lane vs1 j.toNat else 0) }

/-- VBCAST: of c32 the low 64 bits hold both parts (R159). -/
def bcastRes (x : VCtx) (t : VType) (vd : VNum) : VRes :=
  { vd := vd
    vs := (x.act t).map fun l =>
      (l, if t = .c32 then BitVec.ofNat 32 (x.scalar.toNat / 2 ^ (32 * (l % 2))) else placeLane t x.scalar.toNat) }

/-- VINS: lane x[rs2] mod VLmax (R159). -/
def insRes (x : VCtx) (t : VType) (vd : VNum) : VRes :=
  if !x.last then { vd := vd } else
  { vd := vd, vs := [(x.scalar2.toNat % x.vlmax, placeLane t x.scalar.toNat)] }

/-- A VKOP on mask registers (R166). -/
def kopRes (x : VCtx) (kd : KReg) (v : Word) : VRes := if x.last then { ks := [(kd, v)] } else {}

/-! ### The strip -/

/-- What a strip computes from registers; the memory instructions compute nothing here. [log 14 DEDUCED] -/
def stripRes (i : Instr) (x : VCtx) : VRes :=
  match i with
  | .vadd t vd a b => arith x t vd a b (fun a b _ => ([], [a, b])) (fun a b _ => a + b)
  | .vsub t vd a b => arith x t vd a b (fun a b _ => ([], [a, b.flip])) (fun a b _ => a - b)
  | .vmul t vd a b => arith x t vd a b (fun a b _ => ([(a, b)], [])) (fun a b _ => a * b)
  | .vfma t vd a b => arith x t vd a b (fun a b d => ([(a, b)], [d])) (fun a b d => a * b + d)
  | .vfms t vd a b => arith x t vd a b (fun a b d => ([(a, b)], [d.flip])) (fun a b d => a * b - d)
  | .vmin t vd a b => minmax x t false vd a b
  | .vmax t vd a b => minmax x t true vd a b
  | .vabs t vd a => signOp x t false vd a
  | .vneg t vd a => signOp x t true vd a
  | .vceq t kd a b => compare x t kd a b false Val.eq (fun a b => a == b)
  | .vclt t kd a b => compare x t kd a b true Val.lt (fun a b => decide (a < b))
  | .vcle t kd a b => compare x t kd a b true (fun a b => a.lt b || a.eq b) (fun a b => decide (a ≤ b))
  | .vsel t vd a b => vselRes x t vd a b
  | .vdiv vd a b => function x vd a b divVal
  | .vsqrt vd a => function x vd a a fun v _ => sqrtVal v
  | .vrsqrt vd a => function x vd a a fun v _ => rsqrtVal v
  | .vrcp vd a => function x vd a a fun v _ => rcpVal v
  | .vexp2 vd a => function x vd a a fun v _ => exp2Fn v
  | .vlog2 vd a => function x vd a a fun v _ => log2Val v
  | .vsin vd a => function x vd a a fun v _ => sinVal v
  | .vcos vd a => function x vd a a fun v _ => cosVal v
  | .vand t vd a b => bitwise x t vd a b fun _ a b _ _ => a &&& b
  | .vor t vd a b => bitwise x t vd a b fun _ a b _ _ => a ||| b
  | .vxor t vd a b => bitwise x t vd a b fun _ a b _ _ => a ^^^ b
  | .vshl t vd a b => bitwise x t vd a b fun _ a _ n _ => a * 2 ^ n
  | .vshr t vd a b => bitwise x t vd a b fun _ a _ n _ => a / 2 ^ n
  | .vsra t vd a b => bitwise x t vd a b fun w _ _ n i => (BitVec.ofInt w (i / 2 ^ n)).toNat
  | .vcadd vd a b => complex x vd a b fun m y => (fdot m [] [y.ar, y.br], fdot m [] [y.ai, y.bi])
  | .vcsub vd a b => complex x vd a b fun m y => (fdot m [] [y.ar, y.br.flip], fdot m [] [y.ai, y.bi.flip])
  | .vcmul vd a b => complex x vd a b fun m y => cmul m y [] []
  | .vcfma vd a b => complex x vd a b fun m y => cmul m y [y.cr] [y.ci]
  | .vcconj vd a => complex x vd a a fun _ y => ((y.ar, snanFlag [y.ar]), (y.ai.flip, snanFlag [y.ai]))
  | .vcmag2 vd a => complex x vd a a fun m y =>
      cNan [y.ar, y.ai] (fdot m [(y.ar, y.ar), (y.ai, y.ai)] [], (.zero false, 0))
  | .vcexpj vd a => complex x vd a a fun _ y => (cosVal y.ar, sinVal y.ar)
  | .vbcast t vd _ => bcastRes x t vd
  | .vins t vd _ _ => insRes x t vd
  | .vredadd t vd a => redAdd x t vd a
  | .vredmax t vd a => redFold x t true vd a
  | .vredmin t vd a => redFold x t false vd a
  | .vcvt t vd a => cvtRes x t vd a
  | .vpack vd a fc => wholeReg x vd a (packReg fc.val x.e4nan)
  | .vunpk vd a fc => wholeReg x vd a (unpackReg fc.val)
  | .vperm t vd a b => permRes x t vd a b
  | .vslide t vd a _ => slideRes x t vd a
  | .vkopAnd kd a b => kopRes x kd (x.a.k[a] &&& x.a.k[b])
  | .vkopOr kd a b => kopRes x kd (x.a.k[a] ||| x.a.k[b])
  | .vkopXor kd a b => kopRes x kd (x.a.k[a] ^^^ x.a.k[b])
  | .vkopNot kd a => kopRes x kd (~~~x.a.k[a])
  | _ => {}

/-- The v register a strip's instruction writes (R151). -/
def vdOf (i : Instr) : Option VNum :=
  match i with
  | .vadd _ d _ _ => some d
  | .vsub _ d _ _ => some d
  | .vmul _ d _ _ => some d
  | .vfma _ d _ _ => some d
  | .vfms _ d _ _ => some d
  | .vmin _ d _ _ => some d
  | .vmax _ d _ _ => some d
  | .vabs _ d _ => some d
  | .vneg _ d _ => some d
  | .vsel _ d _ _ => some d
  | .vdiv d _ _ => some d
  | .vsqrt d _ => some d
  | .vrsqrt d _ => some d
  | .vrcp d _ => some d
  | .vexp2 d _ => some d
  | .vlog2 d _ => some d
  | .vsin d _ => some d
  | .vcos d _ => some d
  | .vand _ d _ _ => some d
  | .vor _ d _ _ => some d
  | .vxor _ d _ _ => some d
  | .vshl _ d _ _ => some d
  | .vshr _ d _ _ => some d
  | .vsra _ d _ _ => some d
  | .vcadd d _ _ => some d
  | .vcsub d _ _ => some d
  | .vcmul d _ _ => some d
  | .vcfma d _ _ => some d
  | .vcconj d _ => some d
  | .vcmag2 d _ => some d
  | .vcexpj d _ => some d
  | .vld _ d _ => some d
  | .vlds _ d _ _ => some d
  | .vgath _ d _ _ => some d
  | .vldl _ d _ => some d
  | .vbcast _ d _ => some d
  | .vins _ d _ _ => some d
  | .vredadd _ d _ => some d
  | .vredmax _ d _ => some d
  | .vredmin _ d _ => some d
  | .vcvt _ d _ => some d
  | .vpack d _ _ => some d
  | .vunpk d _ _ => some d
  | .vperm _ d _ _ => some d
  | .vslide _ d _ _ => some d
  | _ => none

/-- The mask register a strip's instruction writes (R151). -/
def kdOf (i : Instr) : Option KReg :=
  match i with
  | .vceq _ d _ _ => some d
  | .vclt _ d _ _ => some d
  | .vcle _ d _ _ => some d
  | .vkopAnd d _ _ => some d
  | .vkopOr d _ _ => some d
  | .vkopXor d _ _ => some d
  | .vkopNot d _ => some d
  | _ => none

/-- Cycles from execution to completion on the LQM-8201; the strips of a load from elsewhere execute once every element has
arrived (R152, R160). -/
def latencyOf (i : Instr) (local_ : Bool) : Nat :=
  match i with
  | .vadd t _ _ _ => if (fmtOf t).isSome then 6 else 4
  | .vsub t _ _ _ => if (fmtOf t).isSome then 6 else 4
  | .vmul t _ _ _ => if (fmtOf t).isSome then 6 else 4
  | .vfma t _ _ _ => if (fmtOf t).isSome then 6 else 4
  | .vfms t _ _ _ => if (fmtOf t).isSome then 6 else 4
  | .vmin t _ _ _ => if (fmtOf t).isSome then 6 else 4
  | .vmax t _ _ _ => if (fmtOf t).isSome then 6 else 4
  | .vabs t _ _ => if (fmtOf t).isSome then 6 else 4
  | .vneg t _ _ => if (fmtOf t).isSome then 6 else 4
  | .vcvt _ _ _ => 6
  | .vcadd _ _ _ => 8
  | .vcsub _ _ _ => 8
  | .vcmul _ _ _ => 8
  | .vcfma _ _ _ => 8
  | .vcconj _ _ => 8
  | .vcmag2 _ _ => 8
  | .vredadd _ _ _ => 10
  | .vredmax _ _ _ => 10
  | .vredmin _ _ _ => 10
  | .vpack _ _ _ => 10
  | .vunpk _ _ _ => 10
  | .vdiv _ _ _ => 12
  | .vsqrt _ _ => 12
  | .vrsqrt _ _ => 12
  | .vrcp _ _ => 12
  | .vexp2 _ _ => 12
  | .vlog2 _ _ => 12
  | .vsin _ _ => 12
  | .vcos _ _ => 12
  | .vcexpj _ _ => 12
  | .vld _ _ _ => if local_ then 4 else 0
  | .vlds _ _ _ _ => if local_ then 4 else 0
  | .vgath _ _ _ _ => if local_ then 4 else 0
  | _ => 4

end Sys2Proof.Machine
end

