-- ==== Sys2Proof/Machine/Matrix.lean ====
section
/-! DEFINITION. Matrix.lean: the matrix instructions and the steps of the matrix engine (R40, R41, R168 to R182). -/

namespace Sys2Proof.Machine

/-! ### Formats -/

/-- Families of operand formats (R168). -/
inductive MFam where
  | plain | int | mx | tx
  deriving DecidableEq, Repr

/-- Family, bytes per block or element, and K_b limit of a format code; none for an invalid code (R168). -/
def mFormat (code : Nat) : Option (MFam × Nat × Nat) :=
  match code with
  | 0x00 => some (.plain, 2, 512)
  | 0x01 => some (.plain, 1, 1024)
  | 0x02 => some (.plain, 1, 1024)
  | 0x03 => some (.int, 1, 1024)
  | 0x10 => some (.mx, 32, 1024)
  | 0x11 => some (.mx, 32, 1024)
  | 0x12 => some (.mx, 24, 1024)
  | 0x13 => some (.mx, 24, 1024)
  | 0x14 => some (.mx, 16, 1024)
  | 0x20 => some (.tx, 14, 1024)
  | 0x21 => some (.tx, 22, 1024)
  | 0x22 => some (.tx, 34, 960)
  | _ => none

/-- Family of a code. -/
def mFam (code : Nat) : MFam := ((mFormat code).map (·.1)).getD .plain

/-- K_b suits a format (R176, R177). -/
def kbOk (code kb : Nat) : Bool :=
  match mFormat code with
  | some (_, _, lim) => kb % 32 == 0 && 32 ≤ kb && kb ≤ lim
  | none => false

/-- Bytes of k values of 64 rows or columns (R169, R170). -/
def mBytes (code k : Nat) : Nat :=
  match mFormat code with
  | some (.plain, w, _) => k * 64 * w
  | some (.int, w, _) => k * 64 * w
  | some (_, b, _) => k / 32 * 64 * b
  | none => 0

/-- Scales of k values: MX only (R169). -/
def mScales (code k : Nat) : Nat := if mFam code = .mx then k / 32 * 64 else 0

/-- Byte offset and bytes of what element (i, k) of an operand needs: the element itself and, in a TX block, the shared
exponent and the shifts (R169). -/
def mPlace (code k i : Nat) : List (Nat × Nat) :=
  match mFormat code with
  | some (.plain, w, _) => [((k * 64 + i) * w, w)]
  | some (.int, w, _) => [((k * 64 + i) * w, w)]
  | some (.mx, b, _) =>
    let w := b / 4
    let o := (k / 32 * 64 + i) * b
    [(o + w * (k % 32) / 8, (w * (k % 32) + w - 1) / 8 - w * (k % 32) / 8 + 1)]
  | some (.tx, b, _) =>
    let w := (b - 2) / 4
    let o := (k / 32 * 64 + i) * b
    [(o, 2), (o + 2 + w * (k % 32) / 8, (w * (k % 32) + w - 1) / 8 - w * (k % 32) / 8 + 1)]
  | none => []

/-- Element format of a plain or MX code. -/
def mFmt (code : Nat) : Fmt :=
  match code with
  | 0x00 => .bf16
  | 0x01 => .e4m3
  | 0x02 => .e5m2
  | 0x10 => .e4m3
  | 0x11 => .e5m2
  | 0x12 => .e2m3
  | 0x13 => .e3m2
  | _ => .e2m1

/-- Element (i, k) of an operand from its bytes and scales (R35, R36, R169). -/
def mElem (code : Nat) (bs scales : List Byte) (k i : Nat) : Val :=
  let num (o n : Nat) : Nat := leNat ((bs.drop o).take n)
  match mFormat code with
  | some (.plain, w, _) => value (mFmt code) (num ((k * 64 + i) * w) w)
  | some (.int, _, _) => .ofInt (BitVec.ofNat 8 (num (k * 64 + i) 1)).toInt
  | some (.mx, b, _) =>
    let q := k / 32 * 64 + i
    mxValue (mFmt code) (scales.getD q 0).toNat (unpackBit (b / 4) (num (q * b) b) (k % 32))
  | some (.tx, b, _) => txValue ((b - 2) / 4) (num ((k / 32 * 64 + i) * b) b) (k % 32)
  | none => .zero false

/-! ### One ring step -/

/-- A word of a tile. -/
def Matrix.word (m : Matrix) (t : Fin 4) (i j : Nat) : Word32 := (m.acc[t]).getD (64 * i + j) 0

/-- Group length along k (R40). -/
def mGroup (fa fb : Nat) : Nat :=
  if mFam fa = .mx ∨ mFam fa = .tx ∨ mFam fb = .mx ∨ mFam fb = .tx then 32 else 16

/-- One word after the groups of a block (R40, R41): a and b give the elements of the row and the column. -/
def mDot (fa fb kb : Nat) (a b : Nat → Val) (acc : Word32) : Word32 :=
  if mFam fa = .int then
    BitVec.ofInt 32 (acc.toInt + ((List.range kb).map fun k => ((a k).mul (b k)).units 0).sum)
  else
    let g := mGroup fa fb
    (List.range (kb / g)).foldl (fun acc q =>
      mmGroup ((List.range g).map fun j => (a (q * g + j)).mul (b (q * g + j))) acc) acc

/-- A tile after one ring step (R177). -/
def mStep (fa fb kb : Nat) (a b : Nat → Nat → Val) (t : Table Word32) : Table Word32 :=
  ((List.range 4096).map fun n => (n, mDot fa fb kb (a (n / 64)) (fun k => b k (n % 64)) (t.getD n 0))).filter fun e =>
    e.2 != 0

/-! ### Issue -/

/-- The engine of a core holds a record for the stamp of a later rot (R356). -/
def State.mHolds (s : State) (c : Nat) : Bool :=
  s.unstamped.any fun e => e.core == c && match e.what with
    | .trap _ _ r => r.ofEngine && r.source == 1
    | _ => false

/-- The command at the head of a core's queue, for an engine that neither a gang stop nor a record that waits for its stamp
holds (R171, R183, R356). [log 22 DEDUCED] -/
def State.mHead (s : State) (c : Nat) : Option MCmd :=
  if (s.mx c).stopped || s.mHolds c then none else (s.mx c).queue.head?

/-- An MMA at the head of a core's queue. -/
structure MmaAt where
  core : Nat
  acc : Fin 4
  base : Nat
  kb : Nat
  fa : Nat
  fb : Nat
  scale : Word
  scales : List (Nat × Nat)
  deriving DecidableEq, Repr

/-- The MMA at a core's head. -/
def State.mmaHead (s : State) (c : Nat) : Option MmaAt :=
  match s.mHead c with
  | some m => match m.op with
    | .mma acc base kb fa fb sc scales => some ⟨c, acc, base.toNat, kb, fa, fb, sc, scales⟩
    | _ => none
  | none => none

/-- The members of the gang in force on a core, by position. [log 26 DEDUCED] -/
def State.gangOf (s : State) (c : Nat) : List Nat :=
  let m := s.mx c
  (List.range m.gsize).map fun j => c - m.gpos + j

/-- Every member's head is an MMA, and the members are of one gang: their commands by position (R177). [log 26 DEDUCED] -/
def State.mmaReady (s : State) (c : Nat) : Option (List MmaAt) :=
  let cs := s.gangOf c
  let g := s.mx c
  let alike := (cs.mapIdx fun j d => (s.mx d).gsize == g.gsize && (s.mx d).gid == g.gid && (s.mx d).gpos == j).all id
  let hs := cs.filterMap s.mmaHead
  if alike && hs.length == cs.length && hs != [] then some hs else none

/-- Cores of columns c0 to c0 + G - 1 for a core and a gang size (R175). -/
def spanOf (c g : Nat) : List Nat := (List.range g).map fun j => c - colOf c % g + j

/-- The command at the head has started: an MMA once every member's head is one, an MGANG, which waits at the barrier, and
any other that nothing holds back; a gang stop leaves it as it finds it (R175, R177, R180, R183). [log 22 DEDUCED] -/
def State.mStarted (s : State) (c : Nat) : Bool :=
  if (s.mx c).stopped then (s.mx c).begun && (s.mx c).queue != [] else
  match s.mHead c with
  | none => false
  | some m =>
    match m.op with
    | .mma _ _ _ _ _ _ _ => (s.mx c).ring.isSome || (s.mmaReady c).isSome
    | _ => true

/-- A gang stop: every member's engine is held at its step boundary, its head started or not (R183). -/
def State.stopGang (s : State) (c : Nat) : State :=
  (spanOf c (s.mx c).gsize).foldl (fun s1 d => s1.modCtx d fun x =>
    { x with mx := { x.mx with stopped := true, begun := s.mStarted d } }) s

/-- Commands of a core's queue that have not started, of the 8 it can hold (R171, R180). [log 22 DEDUCED] -/
def State.mQueued (s : State) (c : Nat) : Nat := (s.mx c).queue.length - (if s.mStarted c then 1 else 0)

/-- Sends an engine command: chunk committed, an entry free (R171). [log 22 DEDUCED] -/
def mSend (s : State) (c : Nat) (k : SlotN) (op : MOp) : Got Unit :=
  (commitFirst s c k).bind fun s _ =>
  (waitFor s c k .matrixRoom (s.mQueued c < 8)).bind fun s _ =>
  let t := s.thr c k
  .ok (s.modMx c fun m => { m with queue := m.queue ++ [⟨op, t.ref c, k, t.a.pc⟩] }) ()

/-- One aligned doubleword of MCFG's load, and whether it was local (R174). -/
def mcfgRead (s : State) (c : Nat) (k : SlotN) (a : Word) : Got (Nat × Bool) :=
  (resolveFor s c k a.toNat .load).bind fun s tg =>
  (destWait s c k tg).bind fun s _ =>
  (lockWait s c k tg 8).bind fun s _ =>
  (overlapWait s c k tg.key 8).bind fun s _ =>
  (readFor s c k a.toNat tg 8).bind fun s bs =>
  .ok s (leNat bs, tg.isLocal)

/-- MCFG (R174). -/
def execMcfg (g : Guard) (rs1 : XReg) (s : State) : Out :=
  run { guard := g, src := [rs1] } (fun s c k =>
    let p := (s.thr c k).xv rs1
    (aligned s c k p.toNat 8 4).bind fun s _ =>
    (mcfgRead s c k p).bind fun s w0 =>
    (mcfgRead s c k (p + 16)).bind fun s w2 =>
    (mcfgRead s c k (p + 24)).bind fun s w3 =>
    let s1 := s.modThr c k fun t =>
      { t with a := { t.a with csr := { t.a.csr with
          fmtsh := BitVec.ofNat 64 (bits w0.1 24 16), scalea := BitVec.ofNat 64 w2.1, scaleb := BitVec.ofNat 64 w3.1 } } }
    deliver s1 c k (w0.2 && w2.2 && w3.2) {}) s

/-- MGANG (R175). -/
def execMgang (g : Guard) (rd rs1 rs2 : XReg) (s : State) : Out :=
  run { guard := g, src := [rs1, rs2], dst := [rd] } (fun s c k =>
    let t := s.thr c k
    let n := (t.xv rs1).toNat
    let id := (t.xv rs2).toNat % 2 ^ 16
    if n ≠ 1 ∧ n ≠ 2 ∧ n ≠ 4 ∧ n ≠ 8 ∧ n ≠ 16 then .ok s { ws := [.x rd 2] } else
    (mSend s c k (.gang n id)).bind fun s _ =>
    .stop (s.park c k (.gang n id rd))) s

/-- A range meets the lane slices, which MBLD may not read (R176). -/
def laneIn (s : State) (c a n : Nat) : Bool :=
  match s.place c a, s.place c (a + n - 1) with
  | .lane _, _ => true
  | _, .lane _ => true
  | _, _ => false

/-- The pieces of a range that MBLD reads, or its lowest failing address and why (R176). [log 23 DEDUCED] -/
def State.bldSpan (s : State) (c a n : Nat) : State × Except (Nat × AccErr) (List (Nat × Nat)) :=
  if n = 0 then (s, .ok [])
  else if laneIn s c a n then (s, .error (a, .trap { cause := 5, val := BitVec.ofNat 64 a }))
  else s.spans c a n .load (spanFuel n)

/-- The pieces of MBLD's tile and of its scales; else the trap of the lowest failing address of the two ranges (R176). [log
23 DEDUCED] -/
def bldFor (s : State) (c : Nat) (k : SlotN) (a n b m : Nat) : Got (List (Nat × Nat) × List (Nat × Nat)) :=
  let (s1, x) := s.bldSpan c a n
  let (s2, y) := s1.bldSpan c b m
  match x, y with
  | .ok xs, .ok ys => .ok s2 (xs, ys)
  | .error (p, e), .error (q, f) => accStop s2 c k (if q < p then f else e)
  | .error (_, e), .ok _ => accStop s2 c k e
  | .ok _, .error (_, f) => accStop s2 c k f

/-- MBLD (R176). [log 23 DEDUCED] -/
def execMbld (g : Guard) (rs1 rs2 : XReg) (s : State) : Out :=
  run { guard := g, src := [rs1, rs2] } (fun s c k =>
    let t := s.thr c k
    let src := t.xv rs1
    let kb := (t.xv rs2).toNat
    let fb := bits t.a.csr.fmtsh.toNat 8 8
    let sc := t.a.csr.scaleb
    if !kbOk fb kb then illegal s c k t.a.csr.fmtsh else
    (aligned s c k src.toNat 64 4).bind fun s _ =>
    (bldFor s c k src.toNat (mBytes fb kb) sc.toNat (mScales fb kb)).bind fun s d =>
    (mSend s c k (.bld src kb fb sc d.1 d.2)).bind fun s _ => .ok s {}) s

/-- First address outside the own scratchpad window of the range of an MMA, or none (R170, R177). -/
def State.aOutside (s : State) (c base n : Nat) : Option Nat :=
  let lo := 0xFFFFFFFE00000000
  let hi := lo + min (s.share c).2 Config.spadBytes
  if base < lo ∨ hi ≤ base then some base
  else if hi < base + n then some hi
  else none

/-- MMA (R177). [log 23 DEDUCED] -/
def execMma (g : Guard) (acc : Fin 4) (rs1 rs2 : XReg) (s : State) : Out :=
  run { guard := g, src := [rs1, rs2] } (fun s c k =>
    let t := s.thr c k
    let base := t.xv rs1
    let kb := (t.xv rs2).toNat
    let fa := bits t.a.csr.fmtsh.toNat 0 8
    let fb := bits t.a.csr.fmtsh.toNat 8 8
    let sc := t.a.csr.scalea
    if (mFormat fa).isNone ∨ !kbOk fb kb ∨ mFam fa ≠ mFam fb then illegal s c k t.a.csr.fmtsh
    else if base.toNat % 64 ≠ 0 then trap s c k { cause := 4, val := base }
    else
      let n := (s.mx c).gsize * kb
      match s.aOutside c base.toNat (mBytes fa n) with
      | some a => trap s c k { cause := 5, val := BitVec.ofNat 64 a }
      | none =>
        -- the scales of A for a gang of 16, as far as they are readable
        let m := mScales fa (16 * kb)
        let (s1, scales) := match s.spans c sc.toNat m .load (spanFuel m) with
          | (s1, .ok xs) => (s1, xs)
          | (s1, .error (a, _)) => match s1.spans c sc.toNat (a - sc.toNat) .load (spanFuel m) with
            | (s2, .ok xs) => (s2, xs)
            | (s2, .error _) => (s2, [])
        (mSend s1 c k (.mma acc base kb fa fb sc scales)).bind fun s _ => .ok s {}) s

/-- MZERO (R178). -/
def execMzero (g : Guard) (acc : Fin 4) (s : State) : Out :=
  run { guard := g } (fun s c k => (mSend s c k (.zero acc)).bind fun s _ => .ok s {}) s

/-- Core, offset and key of an MSTORE's destination: own scratchpad or one part of the cluster memory (R178). -/
def State.tilePlace (s : State) (c a : Nat) : Option (Nat × Nat × Nat) :=
  let n := min (s.share c).2 Config.spadBytes
  match s.place c a with
  | .own off key => if off + 16384 ≤ n then some (c, off, key) else none
  | .remote c' off key => if off + 16384 ≤ n then some (c', off, key) else none
  | _ => none

/-- MSTORE (R178). -/
def execMstore (g : Guard) (acc : Fin 4) (rs1 : XReg) (s : State) : Out :=
  run { guard := g, src := [rs1] } (fun s c k =>
    let dst := (s.thr c k).xv rs1
    (aligned s c k dst.toNat 64 6).bind fun s _ =>
    if (s.tilePlace c dst.toNat).isNone then trap s c k { cause := 7, val := dst } else
    (mSend s c k (.store acc dst)).bind fun s _ => .ok s {}) s

/-- The status word of MSTAT (R180). -/
def State.mStat (s : State) (c : Nat) : Word :=
  let m := s.mx c
  BitVec.ofNat 64 (m.gid * 2 ^ 32 + m.gpos * 2 ^ 24 + m.gsize * 2 ^ 16 + m.err * 2 ^ 13 +
    m.current.poison.isSome.toNat * 2 ^ 12 + m.poison.toNat * 2 ^ 8 + s.mQueued c * 2 + (s.mStarted c).toNat)

/-- MSTAT (R180). [log 22 DEDUCED] -/
def execMstat (g : Guard) (rd : XReg) (s : State) : Out :=
  run { guard := g, dst := [rd] } (fun s c _ => .ok s { ws := [.x rd (s.mStat c)] }) s

/-- MWAIT (R181). -/
def execMwait (g : Guard) (s : State) : Out :=
  run { guard := g } (fun s c k => (waitFor s c k .matrixIdle (s.mx c).idle).bind fun s _ => .ok s {}) s

/-! ### The engine -/

/-- Drops the command that has finished. -/
def Matrix.pop (m : Matrix) : Matrix := { m with queue := m.queue.tail, ring := none }

/-- The MGANG that has started on a core: size and ID. -/
def State.gangHead (s : State) (c : Nat) : Option (Nat × Nat) :=
  match s.mHead c with
  | some m => match m.op with
    | .gang g id => some (g, id)
    | _ => none
  | none => none

/-- Every core of a core's span holds an MGANG at its head (R175). -/
def State.gangReady (s : State) (c : Nat) : Bool :=
  match s.gangHead c with
  | some (g, _) => (spanOf c g).all fun d => (s.gangHead d).isSome
  | none => false

/-- Completes the MGANG of a core as judged in state s0 (R175). -/
def State.gangDone (s0 : State) (s : State) (c : Nat) : State :=
  match s0.gangHead c, s0.mHead c with
  | some (g, id), some m =>
    let ok := (spanOf c g).all fun d => s0.gangHead d == some (g, id)
    let s1 := s.modMx c fun x =>
      if ok then { x.pop with gsize := g, gid := id, gpos := colOf c % g } else x.pop
    s1.modRef m.by_ fun t =>
      match t.wait with
      | .gang _ _ rd => { t with wait := .reply (s.core c).cycle true { ws := [.x rd (if ok then 0 else 1)] } }
      | _ => t
  | _, _ => s

/-- MGANG at the head: every core of the subject's row whose own span is complete in this cycle completes (R175). -/
def execMgangExecute (s : State) : Out :=
  let c := s.subject.core
  .next ((((List.range 16).map fun j => c / 16 * 16 + j).filter s.gangReady).foldl s.gangDone s)

/-- MBLD at the head: the current latch is replaced (R176). -/
def execMbldExecute (s : State) : Out :=
  let c := s.subject.core
  match s.mHead c with
  | some m => match m.op with
    | .bld src kb fmt sc data scales =>
      let bad := match s.spanBad data with
        | some o => some (src + BitVec.ofNat 64 o)
        | none => (s.spanBad scales).map fun o => sc + BitVec.ofNat 64 o
      .next (s.modMx c fun x =>
        { x.pop with current := ⟨some (fmt, kb), s.spanBytes data, s.spanBytes scales, bad⟩ })
    | _ => .next s
  | none => .next s

/-- MZERO at the head (R178). -/
def execMzeroExecute (s : State) : Out :=
  let c := s.subject.core
  match s.mHead c with
  | some m => match m.op with
    | .zero t => .next (s.modMx c fun x =>
        { x.pop with acc := x.acc.set t [], poison := x.poison &&& ~~~(BitVec.ofNat 4 (2 ^ t.val)) })
    | _ => .next s
  | none => .next s

/-- The 16 KiB of a tile, row-major (R178). -/
def Matrix.tileBytes (m : Matrix) (t : Fin 4) : List Byte :=
  (List.range 4096).flatMap fun n => leBytes 4 ((m.acc[t]).getD n 0).toNat

/-- MSTORE at the head: each word and then its full bit, held while a lock covers the tile's place; of a poisoned tile
nothing is written, and its issuer takes cause 30 (R178, R179, R214). -/
def execMstoreExecute (s : State) : Out :=
  let c := s.subject.core
  match s.mHead c with
  | some m => match m.op with
    | .store t dst =>
      let s1 := s.modMx c Matrix.pop
      if (s.mx c).poison.getLsbD t then .next (s1.defer m.by_ 30 1 m.pc (BitVec.ofNat 64 t))
      else match s.tilePlace c dst.toNat with
        | some (_, _, key) =>
          if (s.spanLock [(key, 16384)] none).isSome then .next s else .next (s1.pokeFull key ((s.mx c).tileBytes t))
        | none => .next s1
    | _ => .next s
  | none => .next s

/-! ### MMA in lockstep -/

/-- What stops an MMA before its first step: 0 nothing (R177). [log 25 DEDUCED] -/
def State.mmaError (s : State) (hs : List MmaAt) : Nat :=
  match hs with
  | [] => 0
  | h :: _ =>
    if hs.any fun x => x.kb != h.kb || x.fa != h.fa || x.fb != h.fb then 2
    else if hs.any fun x => (s.mx x.core).current.tag != some (h.fb, h.kb) then 3
    else if hs.any fun x => (s.aOutside x.core x.base (mBytes x.fa (hs.length * x.kb))).isSome then 4
    else if hs.any fun x => (s.mx x.core).current.poison.isSome then 1
    else 0

/-- Where an error struck an operand in the step in progress, from outside: member's core, on the latch, element number,
address. -/
structure Strike where
  core : Nat
  latch : Bool
  elem : Nat
  addr : Word
  deriving DecidableEq, Repr

/-- Key of a member's A range. -/
def State.aKey (s : State) (x : MmaAt) : Nat := spadKey x.core ((s.share x.core).1 + (x.base - 0xFFFFFFFE00000000))

/-- Bytes of an A element that meet a unit marked uncorrectable, its scale included (R182, R188). -/
def State.aStruck (s : State) (x : MmaAt) (kk i : Nat) : Bool :=
  ((mPlace x.fa kk i).any fun e => (badIn s.bad (s.aKey x + e.1) e.2).isSome) ||
  (mFam x.fa == .mx && match s.spanBad x.scales with
    | none => false
    | some _ =>
      let rec key : List (Nat × Nat) → Nat → Option Nat
        | [], _ => none
        | e :: es, o => if o < e.2 then some (e.1 + o) else key es (o - e.2)
      match key x.scales (kk / 32 * 64 + i) with
      | some a => (badIn s.bad a 1).isSome
      | none => false)

/-- The failing address of a member's A block in ring step n, if an error strikes it (R182). -/
def State.aFails (s : State) (x : MmaAt) (g j n : Nat) : Option Word :=
  let blk := (j + g - n) % g
  let n0 := mBytes x.fa (blk * x.kb)
  match badIn s.bad (s.aKey x + n0) (mBytes x.fa x.kb) with
  | some u => some (BitVec.ofNat 64 (x.base + (u - s.aKey x)))
  | none =>
    if mFam x.fa = .mx then
      ((List.range (x.kb / 32 * 64)).find? fun q => s.aStruck x (blk * x.kb + q / 64 * 32) (q % 64)).map fun q =>
        x.scale + BitVec.ofNat 64 (mScales x.fa (blk * x.kb) + q)
    else none

/-- A member's tile after ring step n, with its current latch (R177); struck elements count as +0 (R182). [log 24 DESIGN
CHOICE] -/
def State.mmaTile (s : State) (g : Nat) (strike : Option Strike) (j n : Nat) (x : MmaAt) : Table Word32 :=
  let blk := (j + g - n) % g
  let abytes := s.bytes (s.aKey x) (mBytes x.fa (g * x.kb))
  let have_ := s.spanBytes x.scales
  let ascales := have_ ++ (List.range (mScales x.fa (g * x.kb) - have_.length)).map fun i =>
    Config.scaleByte (have_.length + i)
  let l := (s.mx x.core).current
  let hit (latch : Bool) (k i : Nat) : Bool :=
    match strike with
    | some w => w.core == x.core && w.latch == latch && w.elem == 64 * k + i
    | none => false
  mStep x.fa x.fb x.kb
    (fun i k => if s.aStruck x (blk * x.kb + k) i || hit false k i then .zero false
                else mElem x.fa abytes ascales (blk * x.kb + k) i)
    (fun k c => if hit true k c then .zero false else mElem x.fb l.bytes l.scales k c) ((s.mx x.core).acc[x.acc])

/-- Ring step n on every member: its tile, and the latch of the member before it (R177). [log 27 DEDUCED] -/
def State.mmaStep (s : State) (hs : List MmaAt) (strike : Option Strike) (n : Nat) : State :=
  let g := hs.length
  (hs.zipIdx).foldl (fun s1 p =>
    let x := p.1
    let tile := s.mmaTile g strike p.2 n x
    let l := match hs[(p.2 + g - 1) % g]? with
      | some y => (s.mx y.core).current
      | none => .reset
    s1.modMx x.core fun m => { m with acc := m.acc.set x.acc tile, current := l, incoming := l, ring := some (n + 1) }) s

/-- Poisons every member's target tile and sets ERR (R182). [log 25 DEDUCED] -/
def State.mmaAbort (s : State) (hs : List MmaAt) (e : Nat) : State :=
  hs.foldl (fun s x => s.modMx x.core fun m =>
    { m.pop with err := e, poison := m.poison ||| BitVec.ofNat 4 (2 ^ x.acc.val) }) s

/-- The address at which an error strikes a member's operands in ring step n (R182). -/
def State.mmaFails (s : State) (g : Nat) (strike : Option Strike) (j n : Nat) (x : MmaAt) : Option Word :=
  let outer : Option Word := match strike with
    | some w => if w.core = x.core then some w.addr else none
    | none => none
  (s.aFails x g j n).or outer

/-- One ring step of an MMA on every member of a gang; before the first, its checks; an error that strikes a step aborts it
at the end of the step (R177, R182). [log 27 DEDUCED] -/
def State.mmaRun (s : State) (c : Nat) (strike : Option Strike) : State :=
  match s.mmaReady c with
  | none => s
  | some hs =>
    let g := hs.length
    let n := ((s.mx c).ring).getD 0
    match (if (s.mx c).ring.isSome then 0 else s.mmaError hs) with
    | 0 =>
      let s1 := s.mmaStep hs strike n
      if (hs.mapIdx fun j x => (s.mmaFails g strike j n x).isSome).any id then
        (hs.zipIdx).foldl (fun s1 p =>
          match s.mmaFails g strike p.2 n p.1 with
          | some a => s1.engineRec p.1.core 31 1 a (BitVec.ofNat 64 p.1.acc) 0 0
          | none => s1) (s1.mmaAbort hs 1)
      else if n + 1 < g then s1
      else hs.foldl (fun s x => s.modMx x.core fun m => { m.pop with err := 0 }) s1
    | 1 =>
      (hs.foldl (fun s1 x => match (s.mx x.core).current.poison with
        | some a => s1.engineRec x.core 31 1 a (BitVec.ofNat 64 x.acc) 0 0
        | none => s1) (s.mmaAbort hs 1))
    | e => s.mmaAbort hs e

/-- A ring step of the MMA at every member's head (R177). -/
def execMmaExecute (s : State) : Out := .next (s.mmaRun s.subject.core none)

/-- An uncorrectable error strikes an operand stream of an MMA in the step in progress: the subject names the core whose
stream failed, the element, whether on the latch, and the address (R182). -/
def execMmaOperandError (s : State) : Out :=
  let u := s.subject
  .next (s.mmaRun u.core (some ⟨u.core, u.flag, u.idx, u.val⟩))

end Sys2Proof.Machine
end

