-- ==== Sys2Proof/Machine/QueueOps.lean ====
section
/-! DEFINITION. QueueOps.lean: the meanings of QPUSH, QPOP, QWAIT, QSTAT, QMAP, MSEND, MRECV, MBXPUT and MBXGET (R277 to
R284). -/

namespace Sys2Proof.Machine

/-! ### Queues -/

/-- A local or cluster queue that takes pushes and pops; any other handle is refused (R257, R259, R277). -/
def queueFor (s : State) (c : Nat) (k : SlotN) (h : Word) (push : Bool) : Got QRef :=
  -- a push with an entry kept for it is sent, whatever has become of its queue
  match if push && (s.thr c k).owed == some h then none else s.queueTrap c h push, qref c h with
  | some p, _ => trap s c k p
  | none, some q => .ok s q
  | none, none => illegal s c k h

/-- QPUSH (R277). -/
def execQpush (g : Guard) (rs1 rs2 : XReg) (s : State) : Out :=
  run { guard := g, src := [rs1, rs2] } (fun s c k =>
    let t := s.thr c k
    (queueFor s c k (t.xv rs1) true).bind fun s q =>
    (gate s c k 2 1).bind fun s _ =>
    (sentFirst s c k (s.ownerOf q)).bind fun s _ =>
    .ok s { ws := [.push (t.xv rs1) (t.xv rs2)] }) s

/-- QPOP (R277). -/
def execQpop (g : Guard) (rd rs1 : XReg) (s : State) : Out :=
  run { guard := g, src := [rs1], dst := [rd] } (fun s c k =>
    let h := (s.thr c k).xv rs1
    (queueFor s c k h false).bind fun s q =>
    (commitFirst s c k).bind fun s _ =>
    (popLock s c k q).bind fun s _ =>
    match s.takePop q with
    | some (v, s1) => deliver s1 c k (q.ownLocal c) { ws := [.x rd v] }
    | none =>
      let x := s.queue q
      .stop ((s.setQueue q { x with pops := x.pops ++ [(s.thr c k).ref c] }).park c k (.pop h false rd))) s

/-- The quantity of QWAIT once it is at least n (R278). -/
def State.qwaitNow (s : State) (c : Nat) (h : Word) (free : Bool) (n : Nat) : Option Word :=
  match qref c h with
  | some q =>
    let m := (s.queue q).quantity free
    if n ≤ m ∧ s.queueOpen q then some (BitVec.ofNat 64 m) else none
  | none => none

/-- A local or cluster queue of a handle (R257, R278, R280). -/
def regTarget (c : Nat) (h : Word) : Option QRef :=
  match qref c h with
  | some (.lq c' q) => some (.lq c' q)
  | some (.cq cl q) => some (.cq cl q)
  | _ => none

/-- A local queue, or a cluster queue that is active, whatever its base (R259, R278). -/
def waitableFor (s : State) (c : Nat) (k : SlotN) (h : Word) : Got QRef :=
  match regTarget c h with
  | some q => if s.queueOpen q then .ok s q else illegal s c k h
  | none => illegal s c k h

/-- QWAIT (R278). -/
def execQwait (g : Guard) (rd rs1 rs2 : XReg) (s : State) : Out :=
  run { guard := g, src := [rs1, rs2], dst := [rd] } (fun s c k =>
    let t := s.thr c k
    let h := t.xv rs1
    let w := (t.xv rs2).toNat
    let n := w % 2 ^ 16
    let free := w.testBit 16
    (waitableFor s c k h).bind fun s q =>
    if w / 2 ^ 17 ≠ 0 ∨ (s.queue q).size < n then illegal s c k else
    match s.qwaitNow c h free n with
    | some v => deliver s c k (s.ownerOf q == c) { ws := [.x rd v] }
    | none => .stop (s.park c k (.cond (.qwait h free n rd)))) s

/-- A cluster queue handle is refused while the queue is inactive and its cluster has no descriptor area (R323). -/
def State.noArea (s : State) (q : QRef) : Bool :=
  match q with
  | .cq cl _ => !s.queueOpen q && (s.areaKey cl 0).isNone
  | _ => false

/-- What QSTAT reads of a queue, mailbox or inbox (R279). [log 106 DEDUCED] -/
def State.qstat (s : State) (q : QRef) (c : Nat) (k : SlotN) (serial : Nat) : Word :=
  match q with
  | .lq _ _ => BitVec.ofNat 64 (s.queue q).word
  | .cq cl _ =>
    if s.queueOpen q then BitVec.ofNat 64 (s.queue q).word
    else match s.areaKey cl (q.descOff + 8) with
      | some key => BitVec.ofNat 64 (s.num key 8)
      | none => 0
  | .mbx o i => if (s.core o).c.mbx[i].val.isSome then 1 else 0
  | .inbox o =>
    let ms := (s.core o).c.inbox
    BitVec.ofNat 64 ((ms.filter fun m => o == c && m.heldFor k serial).length * 2 ^ 8 + ms.length)

/-- QSTAT (R279). -/
def execQstat (g : Guard) (rd rs1 : XReg) (s : State) : Out :=
  run { guard := g, src := [rs1], dst := [rd] } (fun s c k =>
    let t := s.thr c k
    match qref c (t.xv rs1) with
    | none => illegal s c k (t.xv rs1)
    | some q =>
      if s.noArea q then illegal s c k (t.xv rs1)
      -- an inactive queue's descriptor is read
      else deliver (match q with | .cq cl _ => if s.queueOpen q then s else s.readMap cl | _ => s) c k (s.ownerOf q == c)
        { ws := [.x rd (s.qstat q c k t.serial)] }) s

/-! ### Mapping and registering -/

/-- The registration form of a reg field: producer, consumer (R280). -/
def regForm (reg : Fin 4) : Bool × Bool := (reg.val % 2 == 1, 2 ≤ reg.val)

/-- Replaces a queue's entry in a list of registrations (R260). -/
def setEntry (regs : List (Word × Bool × Bool)) (h : Word) (prod cons : Bool) : List (Word × Bool × Bool) :=
  let rest := regs.filter fun e => e.1 != h
  if prod ∨ cons then rest ++ [(h, prod, cons)] else rest

/-- Replaces a thread's registration on a queue, or that of a pair's odd slot; none when the activation it would make is
refused (R259, R280). -/
def State.setReg (s : State) (c : Nat) (k : SlotN) (q : QRef) (prod cons : Bool) (odd : Bool := false) : Option State :=
  (s.register q (regBit c (if odd then k + 1 else k)) prod cons).map fun s1 =>
    s1.modThr c k fun t =>
      if odd then { t with regsOdd := setEntry t.regsOdd q.handle prod cons }
      else { t with regs := setEntry t.regs q.handle prod cons }

/-- Replaces a thread's registration on a queue, that of both slots of a pair (R58, R280). -/
def State.setRegs (s : State) (c : Nat) (k : SlotN) (q : QRef) (prod cons : Bool) : Option State :=
  (s.setReg c k q prod cons).bind fun s1 => if (s.thr c k).paired then s1.setReg c k q prod cons true else some s1

/-- QMAP with a mapping (R280). -/
def execQmap (g : Guard) (n reg : Fin 4) (rs1 : XReg) (s : State) : Out :=
  run { guard := g, src := [rs1] } (fun s c k =>
    let h := (s.thr c k).xv rs1
    let m : Option (QRef × Nat) :=
      match regTarget c h with
      | some (.lq c' q) => if c' = c then some (.lq c q, 128 + q) else none
      | some (.cq cl q) => some (.cq cl q, 192 + q)
      | _ => none
    match m with
    | none => illegal s c k h
    | some (q, field) =>
      if s.noArea q then illegal s c k h else
      match s.setRegs c k q (regForm reg).1 (regForm reg).2 with
      | none => illegal s c k h
      | some s1 =>
        let a := (s.thr c k).a
        let r : XReg := ⟨28 + n.val, by omega⟩
        let old : Option QRef := if a.mapped r then qref c (a.mapHandle c r) else none
        let s2 := match old with
          | some o => if o = q then s1 else (s1.setRegs c k o false false).getD s1
          | none => s1
        let v := a.csr.qmap.toNat
        let w := v - a.mapByte n * 2 ^ (8 * n.val) + field * 2 ^ (8 * n.val)
        .ok (s2.modThr c k fun t => { t with a := { t.a with csr := { t.a.csr with qmap := BitVec.ofNat 64 w } } }) {}) s

/-- QMAP with NOMAP: the registration alone (R280). [log 128 DESIGN CHOICE] -/
def execQreg (g : Guard) (reg : Fin 4) (rs1 : XReg) (s : State) : Out :=
  run { guard := g, src := [rs1] } (fun s c k =>
    let h := (s.thr c k).xv rs1
    match ((regTarget c h).filter fun q => !s.noArea q).bind fun q => s.setRegs c k q (regForm reg).1 (regForm reg).2 with
    | some s1 => .ok s1 {}
    | none => illegal s c k h) s

/-! ### Messages -/

/-- MSEND (R281). -/
def execMsend (g : Guard) (tag : Fin 32) (rs1 rs2 : XReg) (s : State) : Out :=
  run { guard := g, src := [rs1, rs2] } (fun s c k =>
    let t := s.thr c k
    let h := t.xv rs1
    let dst := (s.refOf h).filter fun r => (s.core r.core).part == (s.core c).part
    match dst with
    | none => trap s c k { cause := 5, val := h }
    | some r =>
      (gate s c k 2 1).bind fun s _ =>
      (waitFor s c k .outbox ((s.core c).c.outbox.length < 8)).bind fun s _ =>
      let m : Msg := { dst := r, src := s.handle c k t, sender := t.ref c, tag := tag, payload := t.xv rs2,
                       launch := t.launch, orphan := false }
      .ok ((s.modCtx c fun x => { x with outbox := x.outbox ++ [m] }).postFor c k 2 r.core (.msg m)) {}) s

/-- MRECV (R282). -/
def execMrecv (g : Guard) (rd rh : XReg) (s : State) : Out :=
  run { guard := g, dst := [rd, rh] } (fun s c k =>
    (commitFirst s c k).bind fun s _ =>
    match (s.core c).c.nextMsg k (s.thr c k).serial with
    | some m =>
      .ok (s.modCtx c fun x => { x with inbox := x.inbox.erase m }) { ws := [.x rd m.payload, .x rh m.header] }
    | none => .stop (s.park c k (.recv rd rh))) s

/-! ### Mailboxes -/

/-- MBXPUT: whether the mailbox is full shows where it is held, so that a put to another core parks its thread until it is
performed there (R49, R284). [log 33 DEDUCED] -/
def execMbxput (g : Guard) (rs1 rs2 : XReg) (s : State) : Out :=
  run { guard := g, src := [rs1, rs2] } (fun s c k =>
    let t := s.thr c k
    let v := t.xv rs2
    match qref c (t.xv rs1) with
    | some (.mbx o i) =>
      (gate s c k 2 1).bind fun s _ =>
      let m := (s.core o).c.mbx[i]
      if o ≠ c then .stop ((s.postFor c k 2 o (.mbx o i v)).park c k (.mbxPut o i v)) else
      (sentFirst s c k c).bind fun s _ =>
      if !(m.val.isNone && m.puts == []) then
        .stop (((s.modCtx o fun x =>
          { x with mbx := x.mbx.set i { m with puts := m.puts ++ [(t.ref c, v, t.launch)] } }).modThr c k fun t =>
            t.addPsc 2).park c k (.mbxPut o i v))
      else .ok ((s.modCtx c fun x => { x with mbx := x.mbx.set i { m with val := some v } }).serveMbx c i m.fuel) {}
    | some _ => illegal s c k
    | none => illegal s c k (t.xv rs1)) s

/-- MBXGET (R284). -/
def execMbxget (g : Guard) (rd rs1 : XReg) (s : State) : Out :=
  run { guard := g, src := [rs1], dst := [rd] } (fun s c k =>
    let t := s.thr c k
    match qref c (t.xv rs1) with
    | some (.mbx o i) =>
      (commitFirst s c k).bind fun s _ =>
      let m := (s.core o).c.mbx[i]
      match m.val with
      | some v =>
        deliver ((s.modCtx o fun x => { x with mbx := x.mbx.set i { m with val := none } }).serveMbx o i m.fuel) c k
          (o == c) { ws := [.x rd v] }
      | none =>
        .stop ((s.modCtx o fun x =>
          { x with mbx := x.mbx.set i { m with gets := m.gets ++ [t.ref c] } }).park c k (.mbxGet o i rd))
    | some _ => illegal s c k
    | none => illegal s c k (t.xv rs1)) s

end Sys2Proof.Machine
end

