-- ==== Sys2Proof/Machine/Rays.lean ====
section
/-! DEFINITION. Rays.lean: what a trace computes: exact geometry, the ray key and the hint table, the walk of one ray, its
record (R313 to R321, R328 to R340, R412, R413). -/

namespace Sys2Proof.Machine

/-! ### Exact geometry -/

/-- The next of n choices that the spec leaves open: those given in `choices` first, then free values (R413). [log 5 DESIGN
CHOICE] -/
def State.choose (s : State) (n : Nat) : Nat × State :=
  match s.choices with
  | x :: xs => (x % n, { s with choices := xs })
  | [] => (Config.order s.freeN % n, { s with freeN := s.freeN + 1 })

/-- FP32 words of bytes. -/
def wordAt (bs : List Byte) (off : Nat) : Word32 := BitVec.ofNat 32 (leNat ((bs.drop off).take 4))

/-- A doubleword of bytes. -/
def dwordAt (bs : List Byte) (off : Nat) : Nat := leNat ((bs.drop off).take 8)

/-- The n FP32 words from an offset. -/
def wordsAt (bs : List Byte) (off n : Nat) : List Word32 := (List.range n).map fun i => wordAt bs (off + 4 * i)

/-- An FP32 word is finite. -/
def finite32 (w : Word32) : Bool := bits w.toNat 23 8 != 255
/-- An FP32 word is a NaN. -/
def nan32 (w : Word32) : Bool := (value .fp32 w.toNat).isNan

/-- A finite FP32 value in units of 2^-149. -/
def units32 (w : Word32) : Int := (value .fp32 w.toNat).units (-149)

/-- A fraction with a positive denominator. [log 41 DEDUCED] -/
structure Frac where
  n : Int
  d : Nat
  deriving DecidableEq, Repr

namespace Frac
def le (a b : Frac) : Bool := a.n * b.d ≤ b.n * a.d
def max (a b : Frac) : Frac := if a.le b then b else a
def min (a b : Frac) : Frac := if a.le b then a else b
/-- n / d for a d that is not zero. -/
def of (n d : Int) : Frac := if d < 0 then ⟨-n, d.natAbs⟩ else ⟨n, d.natAbs⟩
/-- Rounded once RNE to FP32. -/
def round (a : Frac) : Word32 :=
  if a.n = 0 then 0 else BitVec.ofNat 32 (round32 ((Val.ofInt a.n).divFin (.ofInt a.d)))
end Frac

/-- An FP32 value that is no NaN as a fraction; an infinity lies beyond every quotient of finite FP32 values. -/
def frac32 (w : Word32) : Frac :=
  if finite32 w then ⟨units32 w, 2 ^ 149⟩ else ⟨if w.getLsbD 31 then -(2 ^ 400) else 2 ^ 400, 1⟩

/-- A box bound in units of 2^-149; an infinite one lies beyond everything `frac32` gives. -/
def boundUnits (w : Word32) : Int :=
  if finite32 w then units32 w else if w.getLsbD 31 then -(2 ^ 800) else 2 ^ 800

/-- Entry of a ray into a box within an interval, faces inside; none if it misses (R335). [log 41 DEDUCED] -/
def slab (o d : List Int) (mn mx : List Int) (lo hi : Frac) : Option Frac :=
  let step (acc : Option (Frac × Frac)) (i : Nat) : Option (Frac × Frac) :=
    acc.bind fun (lo, hi) =>
      let oi := o.getD i 0
      let di := d.getD i 0
      let a := mn.getD i 0 - oi
      let b := mx.getD i 0 - oi
      if di = 0 then (if a ≤ 0 ∧ 0 ≤ b then some (lo, hi) else none)
      else
        let x := Frac.of a di
        let y := Frac.of b di
        some (lo.max (x.min y), hi.min (x.max y))
  ((List.range 3).foldl step (some (lo, hi))).bind fun (lo, hi) => if lo.le hi then some lo else none

/-- The next FP32 value above an interval's end, and below its start: a t beyond the end rounds into the interval only if it
lies below the next value (R335). -/
def nextUp (w : Word32) : Word32 :=
  if !finite32 w then w
  else if w.setWidth 31 = 0 then 1
  else if w.getLsbD 31 then w - 1 else w + 1
def nextDown (w : Word32) : Word32 := nextUp (w ^^^ 0x80000000) ^^^ 0x80000000

/-- Box test of a child: exact, in an interval widened so that it holds every t which rounds into the ray's; a box with a
NaN is passed (R335). [log 41 DEDUCED] -/
def childPasses (o d : List Int) (box : List Word32) (lo hi : Frac) : Bool :=
  box.any nan32 || (slab o d ((box.take 3).map boundUnits) ((box.drop 3).map boundUnits) lo hi).isSome

def sub3 (a b : List Int) : List Int := List.zipWith (· - ·) a b
def dot3 (a b : List Int) : Int := (List.zipWith (· * ·) a b).sum
def cross3 (a b : List Int) : List Int :=
  let f (x y : Nat) : Int := a.getD x 0 * b.getD y 0 - a.getD y 0 * b.getD x 0
  [f 1 2, f 2 0, f 0 1]

/-- A triangle met by a ray: t, u, v and whether front-facing; barycentric coordinates and t are exact (R335). [log 41
DEDUCED] -/
def triangle (o d v0 v1 v2 : List Int) : Option (Frac × Frac × Frac × Bool) :=
  let e1 := sub3 v1 v0
  let e2 := sub3 v2 v0
  let p := cross3 d e2
  let det := dot3 e1 p
  if det = 0 then none else
  let sg : Int := if det < 0 then -1 else 1
  let s := sub3 o v0
  let u := dot3 s p
  let q := cross3 s e1
  let v := dot3 d q
  if sg * u < 0 ∨ sg * v < 0 ∨ sg * det < sg * (u + v) then none
  else some (.of (dot3 e2 q) det, .of u det, .of v det, dot3 (cross3 e1 e2) d < 0)

/-- The key of a ray: set and tag; none when it forms no key (R315). -/
def rayKey (o d : List Word32) (c : Int) : Option (Nat × Nat) :=
  if !(o ++ d).all finite32 then none else
  let di := d.map units32
  let s : Int := (di.map fun x => (x.natAbs : Int)).sum
  if s = 0 then none else
  let q (i : Nat) : Nat :=
    let k := -149 - c
    let x := units32 (o.getD i 0)
    let f : Int := if 0 ≤ k then x * 2 ^ k.toNat else x / 2 ^ (-k).toNat
    (f % 1024).toNat
  let x := di.getD 0 0
  let y := di.getD 1 0
  let sgn (x : Int) : Int := if x < 0 then -1 else 1
  let (u, v) := if di.getD 2 0 < 0 then ((s - y.natAbs) * sgn x, (s - x.natAbs) * sgn y) else (x, y)
  let oct (u : Int) : Nat := (min (max ((u + s) * 64 / s) 0) 127).toNat
  let k := q 0 + q 1 * 2 ^ 10 + q 2 * 2 ^ 20 + oct u * 2 ^ 30 + oct v * 2 ^ 37
  some (bits k 0 11 ^^^ bits k 11 11 ^^^ bits k 22 11 ^^^ bits k 33 11, bits k 0 20 ^^^ bits k 20 20 ^^^ bits k 40 4)

/-! ### The hit hint table -/

/-- The first way, ascending, among the ways of a context whose tag and context match (R316). -/
def hintMatch (hs : List Hint) (key : Nat × Nat) (ctx : Nat) (ways : BitVec 8) : Option Hint :=
  (List.range 8).findSome? fun w =>
    if ways.getLsbD w then hs.find? fun h => h.set_ == key.1 && h.way == w && h.tag == key.2 && h.ctx == ctx else none

/-- The lookup of TRACE: hint outcome 0, 1, 2, 5, or 3 with the prediction, context, ways and key (R316). -/
def State.hintLookup (s : State) (cl : Nat) (p : Part) (r : Ray) (h : Fin 4) (gen : Nat) : Ray :=
  if r.flags.getLsbD 4 then { r with hint := 5 } else
  let x := p.mode.hints[h]
  let ways := x.ways &&& p.cfg.ways
  let f := r.frames.headD ⟨0, [], [], 0, [], 0⟩
  match rayKey f.org f.dir x.c with
  | none => r
  | some key =>
    if !x.en ∨ ways = 0 then r else
    let r1 := { r with hctx := x.ctx, hidx := h, ways := ways, key := some key }
    match hintMatch (s.cluster cl).hints key x.ctx ways with
    | none => { r1 with hint := 1 }
    | some e => if e.gen ≠ gen then { r1 with hint := 2 } else { r1 with hint := 3, pred := some (e.leaf, e.count) }

/-- Replaces a way of a set. -/
def putHint (hs : List Hint) (h : Hint) : List Hint := h :: hs.filter fun x => !(x.set_ == h.set_ && x.way == h.way)

/-- The update of a completed ray with the unit of its closest hit (R317). -/
def hintUpdate (hs : List Hint) (key : Nat × Nat) (ctx : Nat) (ways : BitVec 8) (gen : Nat) (unit : Nat × Nat) : List Hint :=
  match hintMatch hs key ctx ways with
  | some e =>
    if e.gen ≠ gen then putHint hs { e with gen := gen, leaf := unit.1, count := unit.2, conf := 1 }
    else if e.leaf = unit.1 then putHint hs { e with conf := min (e.conf + 1) 3 }
    else if 0 < e.conf then putHint hs { e with conf := e.conf - 1 }
    else putHint hs { e with leaf := unit.1, count := unit.2, conf := 1 }
  | none =>
    let mine := (List.range 8).filter fun w => ways.getLsbD w
    let at_ (w : Nat) : Option Hint := hs.find? fun h => h.set_ == key.1 && h.way == w
    let free := mine.find? fun w => (at_ w).isNone
    let conf (w : Nat) : Nat := match at_ w with
      | some h => h.conf
      | none => 0
    let low := mine.foldl (fun (b : Option Nat) w => match b with
      | none => some w
      | some x => if conf w < conf x then some w else some x) none
    match free <|> low with
    | some w => putHint hs ⟨key.1, w, key.2, ctx, gen, unit.1, 1, unit.2⟩
    | none => hs

/-! ### Reading through the sampler path -/

/-- Reads n bytes line by line through the unit's cluster; none while Nolmon holds a stage-2 failure (R193, R198, R348).
[log 85 DEDUCED] -/
def State.raySample (s : State) (c a : Nat) : Nat → Nat → State × Except (Option Trap) (List Byte)
  | 0, _ => (s, .ok [])
  | f + 1, n =>
    if n = 0 then (s, .ok []) else
    let m := min n (64 - a % 64)
    match s.sampleAt c a m .sampler false with
    | (s1, .ok bs) =>
      match s1.raySample c ((a + m) % 2 ^ 64) f (n - m) with
      | (s2, .ok cs) => (s2, .ok (bs ++ cs))
      | (s2, .error e) => (s2, .error e)
    | (s1, .error (.trap p)) => (s1, .error (some p))
    | (s1, .error (.table p)) => (s1, .error (some p))
    | (s1, .error (.moving _)) => (s1, .error none)
    | (s1, .error (.unowned _)) => (s1, .error none)
    | (s1, .error (.across _)) => (s1, .error none)
    | (s1, .error (.stage2 p ipa)) =>
      let pg := (((s.core c).part).getD 0, ipa / 2 ^ 16)
      if pg ∈ s1.refusedPages then
        ({ s1 with refusedPages := s1.refusedPages.filter fun q => q != pg }, .error (some p))
      else
        let w : S2Wait := ⟨⟨c, 0⟩, p.val, p.cause, p.val2, ipa, ((s.core c).part).getD 0⟩
        ({ s1 with s2waits := if w ∈ s1.s2waits then s1.s2waits else s1.s2waits ++ [w] }, .error none)

/-! ### Traversal units -/

/-- Changes a traversal unit. -/
def State.modTv (s : State) (c : Nat) (f : Traversal → Traversal) : State := s.modCtx c fun x => { x with tv := f x.tv }

/-- Adds to a traversal counter (R358). -/
def State.countRay (s : State) (c : Nat) (i : Fin 6) (n : Nat) : State :=
  s.modCore c fun x => { x with rayCnt := x.rayCnt.set i (x.rayCnt[i] + BitVec.ofNat 32 n) }

/-! ### The walk -/

/-- What one part of a ray's walk comes to. -/
inductive RayRes where
  /-- The ray goes on or is suspended. -/
  | moved (s : State) (r : Ray)
  /-- Its stack is empty and its trail is not zero (R340). -/
  | restart
  /-- It ends with a status code; the index of an SBT_RANGE. -/
  | ended (s : State) (r : Ray) (code idx : Nat)
  /-- A read fails (R348). -/
  | fault (s : State) (p : Trap)
  /-- A read waits for Nolmon. -/
  | held (s : State)
  /-- A write of its spill block fails: the ray ends ABORTED with a record (R348). -/
  | writeFault (s : State) (p : Trap)

/-- Goes on with bytes read. -/
def rayRead (s : State) (c a n : Nat) (f : State → List Byte → RayRes) : RayRes :=
  match s.raySample c (a % 2 ^ 64) 5 n with
  | (s1, .ok bs) => f s1 bs
  | (s1, .error (some p)) => .fault s1 p
  | (s1, .error none) => .held s1

/-- The frame a ray is in. -/
def Ray.frame (r : Ray) : RayFrame := r.frames.headD ⟨0, [], [], 0xFFFFFFFF, [], 0⟩

/-- The interval of a ray. -/
def Ray.lo (r : Ray) : Frac := frac32 r.tmin
def Ray.hi (r : Ray) : Frac := frac32 r.tmax

/-- The record of a ray lies in a range that a lock covers: its unit's writes are held (R214, R334). -/
def State.recordHeld (s : State) (c : Nat) (h : Word) : Bool :=
  match s.clusterKey (clusterOf c) h.toNat with
  | some key => (s.spanLock [(key, 256)] none).isSome
  | none => false

/-- A candidate is considered: within the interval, and after a hit with a smaller key than the best (R335). -/
def Ray.considers (r : Ray) (t inst geom prim : Word32) : Bool :=
  let v := value .fp32 t.toNat
  let lo := value .fp32 r.tmin.toNat
  let hi := value .fp32 r.tmax.toNat
  let inside := (lo.lt v || lo.eq v) && (v.lt hi || v.eq hi)
  match r.best with
  | none => inside
  | some b =>
    let bt := value .fp32 b.t.toNat
    let id (i g p : Word32) : Nat := (i.toNat * 2 ^ 32 + g.toNat) * 2 ^ 32 + p.toNat
    inside && (v.lt bt || (v.eq bt && id inst geom prim < id b.inst b.geom b.prim))

/-- The unit of the top-level structure that the ray is in (R317). [log 42 DEDUCED] -/
def Ray.unit (r : Ray) : Nat × Nat :=
  if r.frames.length ≤ 1 then r.leaf else ((r.frames.getD (r.frames.length - 2) ⟨0, [], [], 0, [], 0⟩).off, 0)

/-- The primitive in progress has been tested (R339). -/
def Ray.primDone (r : Ray) : Ray :=
  { r with prims := r.prims.tail, tested := (r.frame.recs, r.prims.headD 0) :: r.tested }

/-- A candidate is accepted (R336, R337). -/
def Ray.accept (r : Ray) (h : RayHit) : Ray := { r with tmax := h.t, best := some h, cand := none }

/-- The bits of the trail for dropped entries (R340). -/
def trailOf (es : List StackEntry) : BitVec 32 := es.foldl (fun b e => b ||| BitVec.ofNat 32 (2 ^ min e.level 31)) 0

/-- Dropped entries that are to be walked later, each with the frames it is walked in: those of the nearest marker above
it, else the current ones. -/
def framesOf (cur : List RayFrame) : List StackEntry → List (List RayFrame × StackEntry)
  | [] => []
  | e :: es =>
    match e.frames with
    | some fs => framesOf fs es
    | none => (cur, e) :: framesOf cur es

/-- Word of a stack entry (R331). [log 43 DEDUCED] -/
def StackEntry.word (e : StackEntry) : Nat := e.level % 256 * 2 ^ 48 + e.kind * 2 ^ 40 + e.offset % 2 ^ 40

/-- Keeps the top n entries of a stack and sends the others to the spill block, oldest entry first; with a full block the
oldest of all are dropped, with none these are. A write that a lock holds gives no error (R214, R340, R346). [log 44
DEDUCED] -/
def Ray.sink (s : State) (c : Nat) (r : Ray) (n : Nat) (by_ : Option (Nat × SlotN)) : State × Except (Option Trap) Ray :=
  let out := r.stack.drop n
  if out = [] then (s, .ok r) else
  let all := if r.spill = 0 then [] else out ++ r.spilled
  let old := if r.spill = 0 then out else all.drop 64
  let every := framesOf r.frames (r.stack ++ r.spilled)
  let lost := every.drop (every.length - (old.filter fun e => e.frames.isNone).length)
  let kept := all.take 64
  let r1 := { r with stack := r.stack.take n, spilled := kept, trail := r.trail ||| trailOf old, dropped := lost ++ r.dropped }
  if r.spill = 0 then (s, .ok r1) else
  let from_ := if old = [] then r.spilled.length else 0
  let bs := (kept.take (kept.length - from_)).reverse.flatMap fun e => leBytes 8 e.word
  let a := r.spill + 8 * from_
  match s.clusterKey (clusterOf c) a, s.clusterKey (clusterOf c) (a + bs.length - 1) with
  | some key, some _ =>
    if (s.spanLock [(key, bs.length)] by_).isSome then (s, .error none)
    else ((s.pokeFull key bs).countRay c 5 out.length, .ok r1)
  | _, _ => (s, .error (some { cause := 7, val := BitVec.ofNat 64 a }))

/-- Puts an entry on the stack; the 33rd sends the bottom 16 to the spill block, or drops them (R340). -/
def Ray.push (s : State) (c : Nat) (r : Ray) (e : StackEntry) : State × Except (Option Trap) Ray :=
  if r.stack.length < 32 then (s, .ok { r with stack := e :: r.stack }) else
  match r.sink s c 16 none with
  | (s1, .ok r1) => (s1, .ok { r1 with stack := e :: r1.stack })
  | (s1, .error p) => (s1, .error p)

/-- Puts entries on the stack, the last on top; a write that a lock holds leaves the state s0 before them. [log 43 DEDUCED]
-/
def pushEntries (s0 s : State) (c : Nat) (r : Ray) : List StackEntry → RayRes
  | [] => .moved s r
  | e :: es =>
    match r.push s c e with
    | (s1, .ok r1) => pushEntries s0 s1 c r1 es
    | (s1, .error (some p)) => .writeFault s1 p
    | (_, .error none) => .held s0

/-- The children of an inner node that pass their box tests, in an order the spec leaves open (R329, R335, R413). -/
def nodeChildren (s : State) (r : Ray) (level : Nat) (bs : List Byte) : State × List StackEntry :=
  let f := r.frame
  let o := f.org.map units32
  let d := f.dir.map units32
  let kids := (List.range 4).filterMap fun i =>
    let w := dwordAt bs (0x60 + 8 * i)
    let kind := bits w 62 2
    if kind = 0 ∨ !childPasses o d (wordsAt bs (24 * i) 6) (frac32 (nextDown r.tmin)) (frac32 (nextUp r.tmax)) then none
    else some ⟨level + 1, kind - 1, bits w 0 40, bits w 56 6, none⟩
  let rec order : Nat → State → List StackEntry → State × List StackEntry
    | 0, s, es => (s, es)
    | _ + 1, s, [] => (s, [])
    | _ + 1, s, [e] => (s, [e])
    | k + 1, s, es =>
      let (i, s1) := s.choose es.length
      let (s2, rest) := order k s1 (es.eraseIdx i)
      (s2, (es[i]?).toList ++ rest)
  order 4 s kids

/-- A ray enters an instance: origin and direction transformed component by component, each rounded once (R335). [log 42
DEDUCED; 48 DEDUCED] -/
def RayFrame.enter (f : RayFrame) (bs : List Byte) (addr base off : Nat) : RayFrame :=
  let m (i : Nat) : Val := value .fp32 (wordAt bs (4 * i)).toNat
  let dot (v : List Word32) (i : Nat) (c : Val) : Word32 :=
    let x (j : Nat) : Val := (m (4 * i + j)).mul (value .fp32 (v.getD j 0).toNat)
    BitVec.ofNat 32 (round32 ((((x 0).add .rne (x 1)).add .rne (x 2)).add .rne c))
  { base := base, org := (List.range 3).map fun i => dot f.org i (m (4 * i + 3))
    dir := (List.range 3).map fun i => dot f.dir i (.zero false)
    inst := wordAt bs 0x30, recs := addr :: f.recs, off := off }

/-- Handles a considered candidate: accepted, or suspended for its any-hit program (R336). -/
def Ray.handle_ (r : Ray) (h : RayHit) (opaque_ : Bool) : Ray :=
  if opaque_ then (r.primDone).accept h
  else { r with status := 3, cand := some h, candOpaque := false, ahcount := min (r.ahcount + 1) 0xFFFF }

/-- Ends the ray at its first accepted hit under TERMFIRST (R332, R337). -/
def afterAccept (s : State) (r : Ray) : RayRes :=
  if r.status = 1 ∧ r.flags.getLsbD 1 ∧ r.best.isSome then .ended s { r with term := true } 4 0 else .moved s r

/-- Tests the next primitive of the leaf in progress; an opaque triangle needs no record (R335, R336, R338, R321). -/
def testPrim (s : State) (c : Nat) (r : Ray) (a : Nat) : RayRes :=
  let f := r.frame
  if (f.recs, a) ∈ r.tested then .moved s { r with prims := r.prims.tail } else
  rayRead s c a 48 fun s bs =>
  let o := f.org.map units32
  let d := f.dir.map units32
  let geom := wordAt bs 0x24
  let prim := wordAt bs 0x28
  let fl := wordAt bs 0x2C
  let skip : RayRes := .moved s r.primDone
  let hit (t u v : Word32) (kind : Nat) : RayHit :=
    ⟨t, f.inst, geom, prim, u, v, kind, [0, 0, 0, 0], r.unit.1, r.unit.2⟩
  if !(f.org ++ f.dir).all finite32 then skip else
  let proc := fl.getLsbD 1
  let box := wordsAt bs 0 6
  -- entry of a procedural primitive's box, or the candidate of a triangle
  let met : Option (Frac ⊕ RayHit) :=
    if proc then
      if box.any nan32 then none
      else (slab o d ((box.take 3).map boundUnits) ((box.drop 3).map boundUnits) r.lo r.hi).map .inl
    else
      let vs := wordsAt bs 0 9
      if !vs.all finite32 then none else
      let us := vs.map units32
      match triangle o d (us.take 3) ((us.drop 3).take 3) (us.drop 6) with
      | none => none
      | some (t, u, v, front) =>
        if r.flags.getLsbD (if front then 3 else 2) then none
        else if !r.considers t.round f.inst geom prim then none
        else some (.inr (hit t.round u.round v.round (if front then 1 else 2)))
  match met with
  | none => skip
  | some m =>
    let idx := r.sbtoff + geom.toNat * r.sbtstride
    if r.nh ≤ idx then .ended s r 7 idx else
    let sure : Option RayHit := match m with
      | .inr h => if fl.getLsbD 0 || r.flags.getLsbD 0 then some h else none
      | .inl _ => none
    match sure with
    | some h => afterAccept s (r.handle_ h true)
    | none =>
    rayRead s c (r.sbt + 64 * idx) 64 fun s rec_ =>
    let pcs := [dwordAt rec_ 0, dwordAt rec_ 8, dwordAt rec_ 16]
    let null := !(dwordAt rec_ 24).testBit 0 || pcs.any fun p => p % 4 != 0
    let anyhit := pcs.getD 1 0
    let opaque_ := fl.getLsbD 0 || r.flags.getLsbD 0 || null || anyhit == 0
    if r.predicting ∧ !opaque_ then .moved s { r with prims := r.prims.tail } else
    match m with
    | .inr h => afterAccept s (r.handle_ h opaque_)
    | .inl entry =>
      if null then
        let h := hit entry.round 0 0 3
        if r.considers h.t f.inst geom prim then afterAccept s (r.handle_ h true) else .moved s r.primDone
      else if pcs.getD 2 0 = 0 then .moved s r.primDone
      else .moved s { r with status := 2, cand := some (hit 0 0 0 3), candOpaque := opaque_ }

/-- The entry of a predicted unit or of the root (R338). -/
def Ray.rootEntry : StackEntry := ⟨0, 0, 0, 0, none⟩
def predEntry (u : Nat × Nat) : StackEntry := ⟨0, if u.2 = 0 then 2 else 1, u.1, u.2, none⟩

/-- Reads the descriptor, makes the hint lookup and starts the walk (R328, R342). -/
def openRay (s : State) (c : Nat) (r : Ray) : RayRes :=
  rayRead s c r.desc 64 fun s bs =>
  let gen := dwordAt bs 0x18 % 2 ^ 16
  let f := { r.frame with base := dwordAt bs 0 }
  let r1 := { r with
    opened := true, looked := true, sbt := dwordAt bs 8, nh := dwordAt bs 0x10 % 2 ^ 32, nm := dwordAt bs 0x10 / 2 ^ 32, gen := gen
    frames := [f] }
  let r2 := match s.partOf c with
    | some p =>
      if !r.looked then
        s.hintLookup (clusterOf c) p r1 ⟨dwordAt bs 0x18 / 2 ^ 16 % 4, Nat.mod_lt _ (by decide)⟩ gen
      else r1
    | none => r1
  let none_ := (f.dir.map units32).all (· == 0)
  if !r.lo.le r.hi ∨ !(f.org ++ f.dir).all finite32 ∨ none_ then .ended s r2 5 0
  else match r2.pred with
    | some u => .moved s { r2 with predicting := true, stack := [predEntry u] }
    | none => .moved s { r2 with stack := [Ray.rootEntry] }

/-- One part of the walk of an ACTIVE ray: its descriptor, a primitive, or the topmost stack entry (R335 to R340). [log 48
DEDUCED] -/
def rayStep (s : State) (c : Nat) (r : Ray) : RayRes :=
  if !r.opened then openRay s c r else
  match r.prims with
  | a :: _ => testPrim s c r a
  | [] =>
    match r.stack with
    | [] =>
      if r.spilled ≠ [] then .moved s { r with stack := r.spilled.take 16, spilled := r.spilled.drop 16 }
      else if r.todo ≠ [] then
        .moved s { r with stack := (r.todo.map (·.2)).take 1, frames := (r.todo.headD (r.frames, Ray.rootEntry)).1, todo := r.todo.tail }
      else if r.trail ≠ 0 then .restart
      else if r.predicting then
        .moved s { r with predicting := false, frames := r.frames.drop (r.frames.length - 1), stack := [Ray.rootEntry] }
      else .ended s r (if r.best.isSome then 4 else 5) 0
    | e :: es =>
      let a := (r.frame.base + 64 * e.offset) % 2 ^ 64
      let r0 := { r with stack := es }
      match e.frames with
      | some fs => .moved s { r0 with frames := fs }
      | none =>
        match e.kind with
        | 0 =>
          rayRead s c a 128 fun s bs =>
          let (s1, kids) := nodeChildren s r e.level bs
          pushEntries s s1 c { r0 with cur := a } kids.reverse
        | 1 => .moved s { r0 with cur := a, leaf := (e.offset, e.count), prims := (List.range e.count).map fun j => (a + 48 * j) % 2 ^ 64 }
        | _ =>
          rayRead s c a 64 fun s bs =>
          if r.cull &&& dwordAt bs 0x34 % 256 = 0 then .moved s { r0 with cur := a } else
          rayRead s c (dwordAt bs 0x38) 64 fun s ds =>
          let f := r.frame.enter bs a (dwordAt ds 0) e.offset
          match ({ r0 with cur := a } : Ray).push s c ⟨e.level, 2, e.offset, 0, some r.frames⟩ with
          | (s1, .ok r1) => pushEntries s s1 c { r1 with frames := f :: r.frames } [⟨e.level + 1, 0, 0, 0, none⟩]
          | (s1, .error (some p)) => .writeFault s1 p
          | (_, .error none) => .held s

/-- A restart takes up the entries that were dropped; every other subtree is completed (R340). [log 44 DEDUCED] -/
def Ray.restart (r : Ray) : Ray := { r with trail := 0, dropped := [], todo := r.dropped }

/-! ### The record -/

/-- The hint outcome of a ray that ends (R316). -/
def Ray.outcome (r : Ray) : Nat :=
  if r.hint = 3 then
    match r.best, r.pred with
    | some b, some u => if b.unit = u.1 then 3 else 4
    | _, _ => 4
  else r.hint

/-- Writes bytes of a ray record as an engine does (R334). -/
def State.putRay (s : State) (c : Nat) (h : Word) (off : Nat) (bs : List Byte) : State :=
  match s.clusterKey (clusterOf c) (h.toNat + off) with
  | some key => s.pokeFull key bs
  | none => s

/-- Writes the fields of a record that the unit writes; at the end, and in a drained record, its attributes too. The
outcome of a ray in flight that uses a prediction reads 3 (R316, R331, R346, R412). -/
def State.writeRay (s : State) (c : Nat) (r : Ray) (drained final : Bool) : State :=
  let w (x : Word32) : List Byte := leBytes 4 x.toNat
  let hit : List Byte := match r.best with
    | some b => w b.t ++ w b.u ++ w b.v ++ w b.prim ++ w b.geom ++ w b.inst
    | none => List.replicate 24 0
  let kind := match r.best with
    | some b => b.kind
    | none => 0
  let cand : List Byte := match r.cand with
    | some b => w b.t ++ w b.prim ++ w b.geom ++ w b.inst
    | none => List.replicate 16 0
  let vis := match r.pred, r.frames.getLast? with
    | some u, some f => (f.base + 64 * u.1) % 2 ^ 64
    | _, _ => 0
  let st := (((r.stack.take 12).flatMap fun (e : StackEntry) => leBytes 8 e.word) ++ List.replicate 96 0).take 96
  let s1 := s.putRay c r.handle 0x1C (w r.tmax)
  let s2 := s1.putRay c r.handle 0x30 (leBytes 4 (r.status + (if drained then 256 else 0) + r.ahcount * 2 ^ 16))
  let s3 := s2.putRay c r.handle 0x40 (hit ++ [BitVec.ofNat 8 r.hint, BitVec.ofNat 8 kind] ++ List.replicate 6 0 ++ cand)
  let s4 := if final || drained then s3.putRay c r.handle 0x70 (match r.best with
    | some b => b.attrs.flatMap w
    | none => List.replicate 16 0) else s3
  let s5 := s4.putRay c r.handle 0x80 (leBytes 8 r.cur ++
    leBytes 8 (r.trail.toNat * 2 ^ 32 + (r.frames.length - 1) % 256 * 2 ^ 16 + r.spilled.length * 2 ^ 8 + r.stack.length) ++ st)
  s5.putRay c r.handle 0xF8 (leBytes 8 vis)

/-- The bytes of a record that make the ray what it is: origin, direction, descriptor, and what units write: status, hit,
outcome, candidate, attributes but where an intersection routine is to write them, stack, visited (R331). [log 44 DEDUCED]
-/
def recordImage (bs : List Byte) : List Byte :=
  bs.take 0x0C ++ (bs.drop 0x10).take 0x0C ++ (bs.drop 0x28).take 8 ++
  (if bits (dwordAt bs 0x30) 0 8 = 2 then [] else (bs.drop 0x70).take 16) ++
  (bs.drop 0x30).take 4 ++ (bs.drop 0x40).take 0x30 ++ (bs.drop 0x80).take 0x70 ++ (bs.drop 0xF8).take 8

/-! ### Rays of a unit -/

/-- Replaces a ray in its unit. -/
def State.putRayState (s : State) (c : Nat) (r : Ray) : State :=
  s.modTv c fun v => { v with rays := v.rays.map fun x => if x.handle = r.handle then r else x }

/-- Posts an event of a ray to its owner's core (R343). -/
def State.rayEvent (s : State) (r : Ray) (ev : Nat) : State :=
  s.modTv r.owner.core fun v => { v with events := v.events ++ [(r.owner, r.handle, ev)] }

/-- Ends a ray: miss index checked, record written, table updated, slot freed, event posted (R316, R317, R321, R336,
R343). -/
def State.endRay (s : State) (c : Nat) (r : Ray) (code idx : Nat) : State :=
  let range := code = 5 ∧ r.nm ≤ r.miss
  let code' := if range then 7 else code
  let idx' := if range then r.nh + r.miss else idx
  let out := if r.hint = 3 ∧ code' ≠ 4 then 4 else r.outcome
  let r1 := { r with status := code', cand := none, hint := out, pred := r.pred }
  let s1 := s.writeRay c r1 false true
  let s2 := if out = 3 then s1.countRay c 3 1 else if out = 4 then s1.countRay c 4 1 else s1
  let s3 := match r.key, r.best with
    | some key, some b =>
      -- only ways that are the context's and the partition's now (R314)
      let ways := match s.partOf c with
        | some p => p.mode.hints[r.hidx].ways &&& p.cfg.ways
        | none => 0
      if code' = 4 ∧ !r.term ∧ ways ≠ 0 then
        s2.modCluster (clusterOf c) fun q =>
          { q with hints := hintUpdate q.hints key r.hctx ways r.gen (b.unit, b.count) }
      else s2
    | _, _ => s2
  let s4 := s3.modTv c fun v => { v with rays := v.rays.filter fun x => x.handle != r.handle }
  let s5 := if code' = 9 then s4 else s4.rayEvent r 3
  if code' = 7 ∧ r.flags.getLsbD 5 then s5.defer r.owner 29 4 r.handle (BitVec.ofNat 64 idx') else s5

/-- The record of a ray's failed read or write: handle bits in trval2 (R348). -/
def State.rayRecord (s : State) (c : Nat) (r : Ray) (p : Trap) : State :=
  s.engineRec c p.cause 4 p.val (BitVec.ofNat 64 (p.val2.toNat % 16 + r.handle.toNat % 2 ^ 32 * 2 ^ 32)) p.val3 0

end Sys2Proof.Machine
end

