-- ==== Sys2Proof/Machine/Raster.lean ====
section
/-! DEFINITION. Raster.lean: the meanings of RSETUP, RCOVER and RDEPTH (R351 to R354). -/

namespace Sys2Proof.Machine

/-! ### Blocks that may meet two lines -/

/-- Reads a 16-byte aligned block of at most 64 bytes as loads of one line each, and whether all was local (R132). -/
def readBlock (s : State) (c : Nat) (k : SlotN) (a n : Nat) : Got (List Byte × Bool) :=
  let m := min n (64 - a % 64)
  (blockFor s c k a m true).bind fun s x =>
  if n = m then .ok s x else
  (blockFor s c k ((a + m) % 2 ^ 64) (n - m) true).bind fun s y => .ok s (x.1 ++ y.1, x.2 && y.2)

/-- Stores 64 bytes at a 16-byte aligned address as one store: logged, buffered or posted (R132, R247, R352). -/
def storeBlock (s : State) (c : Nat) (k : SlotN) (a : Nat) (bs : List Byte) : Got Unit :=
  let m := 64 - a % 64
  (resolveFor s c k a .store).bind fun s t1 =>
  (resolveFor s c k ((a + 63) % 2 ^ 64) .store).bind fun s t2 =>
  (ownLockWait s c k t1 64).bind fun s _ =>
  (overlapWait s c k t1.key m).bind fun s _ =>
  (overlapWait s c k (t2.key / 64 * 64) (64 - m)).bind fun s _ =>
  match t1, t2 with
  | .global p, .global q =>
    let cells := cellsAt p.pa (bs.take m) ++ cellsAt (q.pa / 64 * 64) (bs.drop m)
    (softCloseIf s c k ((s.thr c k).bufFull [p.pa / 64, q.pa / 64])).bind fun s _ =>
    (ensureChunk s c k).bind fun s _ =>
    .ok ((s.buffer c k p.shared (cells.take m)).buffer c k q.shared (cells.drop m)) ()
  | t, _ => storeAt s c k t bs

/-! ### Triangles -/

/-- A coordinate in units of 2^-8 pixel; none when it is NaN, infinite or outside 32 bits (R352). [log 47 DESIGN CHOICE] -/
def snap (w : Word32) : Option (BitVec 32) :=
  if !finite32 w then none else
  let i := (toInteger .rne ((value .fp32 w.toNat).scale 8)).1
  if -(2 ^ 31) ≤ i ∧ i < 2 ^ 31 then some (BitVec.ofInt 32 i) else none

/-- Area of snapped vertices (R351). -/
def areaOf (x y : List Int) : Int :=
  let g (l : List Int) (i : Nat) : Int := l.getD i 0
  (g x 1 - g x 0) * (g y 2 - g y 0) - (g x 2 - g x 0) * (g y 1 - g y 0)

/-- A pixel bound of a box: of a value between two pixels one of them (R351). [log 47 DESIGN CHOICE] -/
def boxBound (i : Fin 4) (v : Int) : Int := v / 256 + (if v % 256 ≠ 0 ∧ Config.boxUp i then 1 else 0)

/-- The plane block of a vertex block (R351, R352). -/
def planeBlock (v : List Byte) : List Byte :=
  let co (i o : Nat) : Word32 := wordAt v (16 * i + 4 * o)
  let xs := (List.range 3).map fun i => co i 0
  let ys := (List.range 3).map fun i => co i 1
  let zs := (List.range 3).map fun i => co i 2
  let val (w : Word32) : BitVec 32 := (snap w).getD (Config.snapped w)
  let xi := xs.map fun w => (val w).toInt
  let yi := ys.map fun w => (val w).toInt
  let wide (w : Word32) : Bool := match snap w with
    | some i => decide (i.toInt < -(2 ^ 23) ∨ 2 ^ 23 < i.toInt)
    | none => true
  let a := areaOf xi yi
  let degen := (xs ++ ys).any wide || zs.any nan32 || a == 0
  let lo (l : List Int) : Int := l.foldl min (l.headD 0)
  let hi (l : List Int) : Int := l.foldl max (l.headD 0)
  let px (i : Fin 4) (v : Int) : List Byte := leBytes 2 (BitVec.ofInt 16 (boxBound i v)).toNat
  ((List.range 3).flatMap fun i => leBytes 4 (val (xs.getD i 0)).toNat ++ leBytes 4 (val (ys.getD i 0)).toNat) ++
  (zs.flatMap fun z => leBytes 4 z.toNat) ++ List.replicate 4 0 ++ leBytes 8 (BitVec.ofInt 64 a).toNat ++
  px 0 (lo xi) ++ px 1 (lo yi) ++ px 2 (hi xi) ++ px 3 (hi yi) ++ leBytes 8 (degen.toNat + (a < 0 : Bool).toNat * 2)

/-- RSETUP (R352). -/
def execRsetup (g : Guard) (rs1 rs2 : XReg) (s : State) : Out :=
  run { guard := g, src := [rs1, rs2], custom3 := true } (fun s c k =>
    let a := (s.thr c k).xv rs1
    let b := (s.thr c k).xv rs2
    if b.toNat % 16 ≠ 0 ∧ a.toNat % 16 = 0 then trap s c k { cause := 4, val := b } else
    (aligned s c k a.toNat 16 4).bind fun s _ =>
    (readBlock s c k a.toNat 48).bind fun s v =>
    (storeBlock s c k b.toNat (planeBlock v.1)).bind fun s _ =>
    deliver s c k v.2 {}) s

/-- A snapped coordinate, an area, a depth of a plane block (R351). -/
def planeInt (p : List Byte) (off : Nat) : Int := (wordAt p off).toInt
def planeArea (p : List Byte) : Int := (BitVec.ofNat 64 (dwordAt p 0x28)).toInt
def planeDegen (p : List Byte) : Bool := (p.getD 0x38 0).getLsbD 0

/-- E[k] of a centre, exact, in 2^-8 units, and the edge's extent (R353). -/
def edge (p : List Byte) (k : Nat) (px py : Int) : Int × Int × Int :=
  let a := (k + 1) % 3
  let b := (k + 2) % 3
  let x (i : Nat) : Int := planeInt p (8 * i)
  let y (i : Nat) : Int := planeInt p (8 * i + 4)
  ((x b - x a) * (py - y a) - (y b - y a) * (px - x a), x b - x a, y b - y a)

/-- The centre of a tile's pixel, in 2^-8 units (R353). -/
def centre (t i : Int) : Int := (t + i) * 256 + 128

/-- Coverage bit of a centre (R353). -/
def covers (p : List Byte) (px py : Int) : Bool :=
  let sg : Int := if planeArea p < 0 then -1 else if planeArea p = 0 then 0 else 1
  !planeDegen p && (List.range 3).all fun k =>
    let (e, dx, dy) := edge p k px py
    0 < sg * e || (sg * e == 0 && (0 < sg * dy || (dy == 0 && decide (sg * dx < 0))))

/-- A signed 16-bit field. -/
def sext16 (n : Nat) : Int := (BitVec.ofNat 16 n).toInt

/-- The 64 coverage bits of a tile (R353). -/
def coverMask (p : List Byte) (tx ty : Int) : Word :=
  BitVec.ofNat 64 (((List.range 64).map fun b =>
    if covers p (centre tx (b % 8 : Nat)) (centre ty (b / 8 : Nat)) then 2 ^ b else 0).sum)

/-- RCOVER (R353). -/
def execRcover (g : Guard) (rd rs1 rs2 : XReg) (s : State) : Out :=
  run { guard := g, src := [rs1, rs2], dst := [rd], custom3 := true } (fun s c k =>
    let a := (s.thr c k).xv rs1
    let o := ((s.thr c k).xv rs2).toNat
    (aligned s c k a.toNat 16 4).bind fun s _ =>
    (readBlock s c k a.toNat 64).bind fun s p =>
    deliver s c k p.2 { ws := [.x rd (coverMask p.1 (sext16 (o % 2 ^ 16)) (sext16 (o / 2 ^ 16 % 2 ^ 16)))] }) s

/-- The depth of a plane block at a centre, rounded once (R354). [log 47 DESIGN CHOICE] -/
def depthAt (p : List Byte) (px py : Int) : Word32 :=
  let e (k : Nat) : Int := (edge p k px py).1
  let z (k : Nat) : Word32 := wordAt p (0x18 + 4 * k)
  let a := planeArea p
  if a = 0 then Config.flatDepth [z 0, z 1, z 2] [e 0, e 1, e 2] else
  let v (k : Nat) : Val := (Val.ofInt (e k)).mul (value .fp32 (z k).toNat)
  let sum := ((v 0).add .rne (v 1)).add .rne (v 2)
  match sum with
  | .fin _ _ _ _ => if sum.isZero then 0 else BitVec.ofNat 32 (round32 (sum.divFin (.ofInt a)))
  | .inf n => BitVec.ofNat 32 (round32 (.inf (n != decide (a < 0))))
  | .nan _ => 0x7FC00000

/-- The depth test of a tile: remaining bits and the new depths (R354). -/
def depthTest (p : List Byte) (tile : List Byte) (mask : Word) : Word × List Byte :=
  let tx := sext16 (leNat (tile.take 2))
  let ty := sext16 (leNat ((tile.drop 2).take 2))
  let res := (List.range 64).map fun b =>
    let old := wordAt tile (0x10 + 4 * b)
    let z := depthAt p (centre tx (b % 8 : Nat)) (centre ty (b / 8 : Nat))
    if mask.getLsbD b && (value .fp32 z.toNat).lt (value .fp32 old.toNat) then (2 ^ b, z) else (0, old)
  (BitVec.ofNat 64 ((res.map (·.1)).sum), res.flatMap fun e => leBytes 4 e.2.toNat)

/-- RDEPTH: the tile lies in the own scratchpad (R354). -/
def execRdepth (g : Guard) (rd rs1 rs2 : XReg) (s : State) : Out :=
  run { guard := g, src := [rd, rs1, rs2], dst := [rd], custom3 := true } (fun s c k =>
    let t := s.thr c k
    let a := t.xv rs1
    let b := t.xv rs2
    let mask := t.xv rd
    (aligned s c k a.toNat 16 4).bind fun s _ =>
    match s.place c b.toNat, s.place c ((b.toNat + 271) % 2 ^ 64) with
    | .own off key, .own _ _ =>
      if b.toNat % 16 ≠ 0 then trap s c k { cause := 5, val := b } else
      (readBlock s c k a.toNat 64).bind fun s p =>
      (lockWait s c k (.own off key) 272).bind fun s _ =>
      (overlapWait s c k key 272).bind fun s _ =>
      (softCloseIf s c k ((s.thr c k).logFull 1)).bind fun s _ =>
      match badIn s.bad key 272 with
      | some u => trap s c k { cause := 31, val := b + BitVec.ofNat 64 (u - key) }
      | none =>
        let (m, zs) := depthTest p.1 (s.bytes key 272) mask
        deliver (s.storeLocal c k (cellsAt (key + 16) zs)) c k p.2 { ws := [.x rd m] }
    | _, _ => trap s c k { cause := 5, val := b }) s

end Sys2Proof.Machine
end

