-- ==== Sys2Proof/Machine/CopyBarrier.lean ====
section
/-! DEFINITION. CopyBarrier.lean: the meanings of CPYISS, CPYWAIT, CPYDONE, BARSET, BARRIVE, BARWAIT and BARSTAT, and the
sweep and release of a barrier (R285, R286, R361 to R370). -/

namespace Sys2Proof.Machine

/-! ### Copies -/

/-- The job a copy descriptor asks for; none if it breaks a limit (R286). -/
def copyJob (d : List Byte) (ch : Fin 8) (by_ : TRef) (slot : SlotN) (launch : BitVec 32) : Option CopyJob :=
  let w (i : Nat) : Nat := leNat ((d.drop (8 * i)).take 8)
  let rowBytes := w 2 % 2 ^ 32
  let rows := w 2 / 2 ^ 32
  let setFull := (w 5).testBit 0
  let kind := bits (w 5) 1 2
  if rowBytes = 0 ∨ 2 ^ 24 < rowBytes ∨ rows = 0 ∨ 65536 < rows ∨ 2 ≤ kind then none
  else if setFull ∧ (kind ≠ 0 ∨ w 1 % 4 ≠ 0 ∨ rowBytes % 4 ≠ 0 ∨ w 4 % 4 ≠ 0) then none
  else if kind = 1 ∧ 2 ^ 20 < rows * rowBytes then none
  else some
    { id := 0, ch := ch, src := BitVec.ofNat 64 (w 0), dst := BitVec.ofNat 64 (w 1), rowBytes := rowBytes, rows := rows
      sstride := BitVec.ofNat 64 (w 3), dstride := BitVec.ofNat 64 (w 4), setFull := setFull, toPort := kind == 1
      by_ := by_, slot := slot, launch := launch }

/-- A core whose movement slot waits for room in the job queue (R285). -/
def State.awaitsJob (s : State) (c : Nat) : Bool :=
  match (s.slot c 1).thread? with
  | some t => match t.st, t.wait with
    | .parked, .cond .jobRoom => true
    | _, _ => false
  | none => false

/-- A core is the one of its cluster that the job queue admits next: round robin from the last one admitted (R285). -/
def State.jobTurn (s : State) (c : Nat) : Bool :=
  let cl := clusterOf c
  (((List.range 8).map fun i => cl * 8 + ((s.cluster cl).rr + 1 + i) % 8).find? fun x => x == c || s.awaitsJob x) == some c

/-- A movement slot of the cluster has been told to perform its instruction: no other is until it has (R285). -/
def State.jobAnswered (s : State) (cl : Nat) : Bool :=
  (List.range 8).any fun i => match (s.slot (cl * 8 + i) 1).thread? with
    | some t => t.st == .runnable && t.redo
    | none => false

/-- CPYISS (R285). [log 16 DEDUCED] -/
def execCpyiss (g : Guard) (rd rs1 rs2 : XReg) (s : State) : Out :=
  run { guard := g, who := .movement, src := [rs1, rs2], dst := [rd] } (fun s c k =>
    (commitFirst s c k).bind fun s _ =>
    let t := s.thr c k
    let ch := t.xv rs2
    let p := t.xv rs1
    if h : ch.toNat < 8 then
      (aligned s c k p.toNat 64 4).bind fun s _ =>
      (resolveFor s c k p.toNat .load).bind fun s tg =>
      (destWait s c k tg).bind fun s _ =>
      (lockWait s c k tg 64).bind fun s _ =>
      (overlapWait s c k tg.key 64).bind fun s _ =>
      match badIn s.bad tg.key 64 with
      | some _ => trap s c k { cause := 31, val := p }
      | none =>
        match copyJob (s.bytes tg.key 64) ⟨ch.toNat, h⟩ (t.ref c) k t.launch with
        | none => illegal s c k p
        | some j =>
          let cl := clusterOf c
          let q := s.cluster cl
          (waitFor s c k .jobRoom (q.jobs.length < 32 && s.jobTurn c)).bind fun s _ =>
          let id := (q.chans[j.ch]).last + 1
          let s1 := s.modCluster cl fun q =>
            { q with
              jobs := q.jobs ++ [{ j with id := id }], rr := cicOf c
              chans := q.chans.set j.ch { q.chans[j.ch] with last := id } }
          deliver s1 c k tg.isLocal { ws := [.x rd id] }
    else illegal s c k ch) s

/-- CPYWAIT (R362). -/
def execCpywait (g : Guard) (rs1 rs2 : XReg) (s : State) : Out :=
  run { guard := g, src := [rs1, rs2] } (fun s c k =>
    let t := s.thr c k
    let ch := t.xv rs1
    let id := t.xv rs2
    if h : ch.toNat < 8 then
      let i : Fin 8 := ⟨ch.toNat, h⟩
      if ((s.cluster (clusterOf c)).chans[i]).last.toNat < id.toNat then illegal s c k id else
      (commitFirst s c k).bind fun s _ =>
      (waitFor s c k (.copy i id) (id.toNat ≤ ((s.core c).c.cpydone[i]).toNat)).bind fun s _ =>
      .ok s {}
    else illegal s c k ch) s

/-- CPYDONE (R362). -/
def execCpydone (g : Guard) (rd rs1 : XReg) (s : State) : Out :=
  run { guard := g, src := [rs1], dst := [rd] } (fun s c k =>
    let ch := (s.thr c k).xv rs1
    if h : ch.toNat < 8 then .ok s { ws := [.x rd ((s.core c).c.cpydone[(⟨ch.toNat, h⟩ : Fin 8)])] }
    else illegal s c k ch) s

/-- The job in progress on a channel is over, performed or abandoned: the channel's value and its copies in the cluster's
cores advance, and WAITEV bit 3 is latched (R361, R381). -/
def State.jobOver (s : State) (cl : Nat) (ch : Fin 8) : State :=
  match ((s.cluster cl).chans[ch]).job with
  | none => s
  | some j =>
    let s1 := s.modCluster cl fun q =>
      { q with chans := q.chans.set ch { q.chans[ch] with job := none, pos := 0, fault := false, done := j.id } }
    (List.range 8).foldl (fun s i =>
      (s.modCtx (cl * 8 + i) fun x => { x with cpydone := x.cpydone.set ch j.id }).latch (cl * 8 + i) 8) s1

/-! ### Barrier signals -/

/-- The rectangle of an armed register as signals carry it (R365). -/
def Barrier.rect (b : Barrier) : List Nat := [b.row0, b.rows, b.col0, b.cols]

/-- A barrier register of a core. -/
def State.bar (s : State) (c : Nat) (i : Fin 4) : Barrier := (s.core c).c.bars[i]

/-- Replaces a barrier register. -/
def State.setBar (s : State) (c : Nat) (i : Fin 4) (b : Barrier) : State :=
  s.modCtx c fun x => { x with bars := x.bars.set i b }

/-- Sends a signal of register i, due 2 cycles on at its receiver (R366). -/
def State.signal (s : State) (dst : Nat) (i : Fin 4) (kind : Fin 4) (slot : SlotN) (rect : List Nat) : State :=
  { s with signals := s.signals ++ [⟨dst, i, kind, slot, rect, (s.core dst).cycle + 2⟩] }

/-- The slots parked on a register at a release: a BARWAIT whose condition holds completes, a repeated BARRIVE arrives for
the new generation (R366, R367, R368). -/
def State.afterRelease (s : State) (c : Nat) (i : Fin 4) : State :=
  (List.finRange 8).foldl (fun s k =>
    match (s.slot c k).thread? with
    | none => s
    | some t =>
      let now := (s.core c).cycle
      let b := s.bar c i
      match t.st, t.wait with
      | .parked, .cond (.barwait j g) =>
        if j = i ∧ barPassed b.gen g then s.modThr c k fun t => { t with wait := .reply now true {} } else s
      | .parked, .barrive j rd =>
        if j = i then
          ((s.setBar c i { b with arr := b.arr ||| BitVec.ofNat 8 (2 ^ k.val) }).signal c i 0 k b.rect).modThr c k fun t =>
            { t with wait := .reply now true { ws := [.x rd (b.gen.setWidth 64)] } }
        else s
      | _, _ => s) s

/-- The release at one core: the next generation, latched for its threads, and passed on south and east (R366). -/
def State.releaseBar (s : State) (c : Nat) (i : Fin 4) : State :=
  let b := s.bar c i
  let s1 := s.setBar c i
    { b with gen := b.gen + 1, arr := 0, swept := 0, east := 0, south := 0, sentWest := false, sentNorth := false }
  let s2 := s1.latch c 128
  let s3 := if colOf c = b.col0 ∧ rowOf c + 1 < b.row0 + b.rows then s2.signal (c + 16) i 3 0 b.rect else s2
  let s4 := if colOf c + 1 < b.col0 + b.cols then s3.signal (c + 1) i 3 0 b.rect else s3
  s4.afterRelease c i

/-- What a core's register can now do: send west, send north, or at the corner complete the generation (R366). -/
def State.sweep (s : State) (c : Nat) (i : Fin 4) : State :=
  let b := s.bar c i
  let row := b.armed && b.swept == b.slots && (colOf c + 1 == b.col0 + b.cols || 0 < b.east)
  if !row then s
  else if colOf c ≠ b.col0 then
    if b.sentWest then s else (s.setBar c i { b with sentWest := true }).signal (c - 1) i 1 0 b.rect
  else if !(rowOf c + 1 == b.row0 + b.rows || 0 < b.south) then s
  else if rowOf c ≠ b.row0 then
    if b.sentNorth then s else (s.setBar c i { b with sentNorth := true }).signal (c - 16) i 2 0 b.rect
  else
    let s1 := s.releaseBar c i
    -- a core with no participants has arrived for the next generation already
    if b.slots = 0 then s1.signal c i 0 0 b.rect else s1

/-- A signal reaches a core (R365, R366). [log 20 DEDUCED] -/
def State.receive (s : State) (g : BarSignal) : State :=
  let b := s.bar g.core g.b
  if !b.armed then s.modCtx g.core fun x => { x with heldSignals := x.heldSignals ++ [g] }
  else if g.rect ≠ b.rect then s
  else match g.kind with
    | 0 => (s.setBar g.core g.b { b with swept := b.swept ||| b.arr &&& BitVec.ofNat 8 (2 ^ g.slot.val) }).sweep g.core g.b
    | 1 => (s.setBar g.core g.b { b with east := b.east + 1 }).sweep g.core g.b
    | 2 => (s.setBar g.core g.b { b with south := b.south + 1 }).sweep g.core g.b
    | 3 => (s.releaseBar g.core g.b).sweep g.core g.b

/-! ### Barrier instructions -/

/-- A slot of the core is parked in BARRIVE or BARWAIT on a register (R365). -/
def State.barParked (s : State) (c : Nat) (i : Fin 4) : Bool :=
  (s.core c).threads.any fun p =>
    match p.2.st, p.2.wait with
    | .parked, .cond (.barwait j _) => j == i
    | .parked, .barrive j _ => j == i
    | _, _ => false

/-- The register a configuration sets up on a core; none if it is refused (R365). [log 20 DEDUCED] -/
def State.barConfig (s : State) (c : Nat) (w : Word) : Option Barrier :=
  let n := w.toNat
  let row0 := bits n 0 5
  let rows := bits n 8 6
  let col0 := bits n 16 4
  let cols := bits n 24 5
  let mine (r : Nat) : Bool := match s.partOf c with
    | some p => p.cfg.rows.contains (dieOf c, r)
    | none => false
  if rows = 0 then some .reset
  else if 32 < row0 + rows ∨ cols = 0 ∨ 16 < col0 + cols then none
  else if rowOf c < row0 ∨ row0 + rows ≤ rowOf c ∨ colOf c < col0 ∨ col0 + cols ≤ colOf c then none
  else if !(List.range rows).all (fun i => mine (row0 + i)) then none
  else some { Barrier.reset with
    armed := true, row0 := row0, rows := rows, col0 := col0, cols := cols, slots := BitVec.ofNat 8 (bits n 32 8) }

/-- BARSET (R365); signals held while the register was unarmed then act in order. [log 20 DEDUCED] -/
def execBarset (g : Guard) (i : Fin 4) (rs2 : XReg) (s : State) : Out :=
  run { guard := g, src := [rs2] } (fun s c k =>
    let w := (s.thr c k).xv rs2
    (commitFirst s c k).bind fun s _ =>
    let b := s.bar c i
    if w &&& 0xFFFFFF00E0F0C0E0#64 ≠ 0 ∨ s.barParked c i ∨ b.arr ≠ 0 ∨ (b.armed ∧ (b.east ≠ 0 ∨ b.south ≠ 0)) then
      illegal s c k w
    else match s.barConfig c w with
      | none => illegal s c k w
      | some b' =>
        let s1 := s.setBar c i b'
        if !b'.armed then .ok s1 {} else
        let held := (s1.core c).c.heldSignals
        let s2 := s1.modCtx c fun x => { x with heldSignals := x.heldSignals.filter fun g => g.b != i }
        .ok (((held.filter fun g => g.b == i).foldl State.receive s2).sweep c i) {}) s

/-- BARRIVE (R367). [log 21 DEDUCED] -/
def execBarrive (g : Guard) (rd : XReg) (i : Fin 4) (s : State) : Out :=
  run { guard := g, dst := [rd] } (fun s c k =>
    (commitFirst s c k).bind fun s _ =>
    let b := s.bar c i
    if !b.armed ∨ !b.slots.getLsbD k then illegal s c k (BitVec.ofNat 64 i)
    else if b.arr.getLsbD k then .stop (s.park c k (.barrive i rd))
    else
      .ok ((s.setBar c i { b with arr := b.arr ||| BitVec.ofNat 8 (2 ^ k.val) }).signal c i 0 k b.rect)
        { ws := [.x rd (b.gen.setWidth 64)] }) s

/-- BARWAIT (R368). [log 21 DEDUCED] -/
def execBarwait (g : Guard) (i : Fin 4) (rs2 : XReg) (s : State) : Out :=
  run { guard := g, src := [rs2] } (fun s c k =>
    let w := (s.thr c k).xv rs2
    (commitFirst s c k).bind fun s _ =>
    let b := s.bar c i
    if !b.armed then illegal s c k
    else (waitFor s c k (.barwait i w) (barPassed b.gen w)).bind fun s _ => .ok s {}) s

/-- BARSTAT in the layout of R363 (R369). -/
def Barrier.word (b : Barrier) : Word :=
  BitVec.ofNat 64 (b.armed.toNat * 2 ^ 63 + b.cols * 2 ^ 58 + b.col0 * 2 ^ 54 + b.rows * 2 ^ 48 + b.row0 * 2 ^ 43 +
    b.arr.toNat * 2 ^ 32 + b.slots.toNat * 2 ^ 24 + b.gen.toNat % 2 * 2 ^ 16 + b.gen.toNat)

/-- BARSTAT (R369). -/
def execBarstat (g : Guard) (rd : XReg) (i : Fin 4) (s : State) : Out :=
  run { guard := g, dst := [rd] } (fun s c k =>
    (commitFirst s c k).bind fun s _ => .ok s { ws := [.x rd (s.bar c i).word] }) s

end Sys2Proof.Machine
end

