-- ==== Sys2Proof/Machine/Integer.lean ====
section
/-! DEFINITION. Integer.lean: the 71 base instructions and the CSR writes they perform (R105, R130 to R137). -/

namespace Sys2Proof.Machine


/-! ### Shared forms -/

/-- A register result computed from the thread (R130). -/
def alu (rd : XReg) (src : List XReg) (f : Thread → Word) (s : State) : Out :=
  run { src := src, dst := [rd] } (pure_ fun t => { ws := [.x rd (f t)] }) s

/-- A register-register operation. -/
def aluRR (rd rs1 rs2 : XReg) (f : Word → Word → Word) (s : State) : Out :=
  alu rd [rs1, rs2] (fun t => f (t.xv rs1) (t.xv rs2)) s

/-- A register-immediate operation on the sign-extended immediate. -/
def aluRI (rd rs1 : XReg) (imm : BitVec 12) (f : Word → Word → Word) (s : State) : Out :=
  alu rd [rs1] (fun t => f (t.xv rs1) (imm.signExtend 64)) s

/-- A W operation on the low words, its result sign-extended. -/
def onW (f : Word32 → Word32 → Word32) (a b : Word) : Word := (f (a.setWidth 32) (b.setWidth 32)).signExtend 64

/-- One for true. -/
def ofBool (b : Bool) : Word := if b then 1 else 0

/-- A transfer to an address: misaligned it traps with cause 0 and writes nothing (R102, R134). -/
def transfer (s : State) (c : Nat) (k : SlotN) (target : Word) (ws : List RegWrite) : Got Completion :=
  if target.toNat % 4 = 0 then .ok s { ws := ws, next := some target }
  else trap s c k { cause := 0, val := target }

/-- A conditional branch (R134). -/
def branch (rs1 rs2 : XReg) (imm : BitVec 12) (f : Word → Word → Bool) (s : State) : Out :=
  run { src := [rs1, rs2] } (fun s c k =>
    let t := s.thr c k
    if f (t.xv rs1) (t.xv rs2) then transfer s c k (t.a.pc + (imm.signExtend 64 <<< 1)) [] else .ok s {}) s

/-- A base load of n bytes (R132). -/
def load (rd rs1 : XReg) (imm : BitVec 12) (n : Nat) (ext : Nat → Word) (s : State) : Out :=
  run { src := [rs1], dst := [rd] } (fun s c k =>
    scalarLoad s c k ((s.thr c k).xv rs1 + imm.signExtend 64).toNat n fun v => { ws := [.x rd (ext v)] }) s

/-- A base store of n bytes (R132). -/
def store (rs2 rs1 : XReg) (imm : BitVec 12) (n : Nat) (s : State) : Out :=
  run { src := [rs1, rs2] } (fun s c k =>
    let t := s.thr c k
    scalarStore s c k (t.xv rs1 + imm.signExtend 64).toNat n (t.xv rs2)) s

/-- Sign extension of an n-bit value. -/
def sext (n : Nat) (v : Nat) : Word := (BitVec.ofNat n v).signExtend 64

/-- A division on the core divider: the thread parks until its reply (R133). -/
def divide (rd rs1 rs2 : XReg) (latency : Nat) (f : Word → Word → Word) (s : State) : Out :=
  run { src := [rs1, rs2], dst := [rd] } (fun s c k =>
    let t := s.thr c k
    .stop (s.park c k (.reply ((s.core c).cycle + latency) true { ws := [.x rd (f (t.xv rs1) (t.xv rs2))] }))) s

/-- Signed and unsigned quotients and remainders with the RISC-V results for zero and overflow (R133). -/
def sdivF {w : Nat} (a b : BitVec w) : BitVec w := if b = 0 then BitVec.allOnes w else a.sdiv b
def udivF {w : Nat} (a b : BitVec w) : BitVec w := if b = 0 then BitVec.allOnes w else a / b
def sremF {w : Nat} (a b : BitVec w) : BitVec w := if b = 0 then a else a.srem b
def uremF {w : Nat} (a b : BitVec w) : BitVec w := if b = 0 then a else a % b

/-- The high 64 bits of a 128-bit product. -/
def mulHigh (a b : BitVec 128) : Word := ((a * b) >>> 64).setWidth 64

/-! ### CSR writes -/

/-- Writes a CSR that has no behaviour of its own, by its field table (R120, R124, R137). -/
def writePlain (s : State) (c : Nat) (k : SlotN) (n : Nat) (v : Word) : State :=
  if n = 0x5C0 then s.modCtx c fun x => { x with trqbase := BitVec.ofNat 64 (v.toNat / 2 ^ 10 * 2 ^ 10) }
  else s.modThr c k fun t => { t with a := { t.a with csr := t.a.csr.write t.paired n v } }

/-- Writes `vstat`: parks until VBUSY is 0 (R121). -/
def writeVstat (s : State) (c : Nat) (k : SlotN) (v : Word) : Got Unit :=
  (waitFor s c k .strips ((s.thr c k).vq = [])).bind fun s _ => .ok (writePlain s c k 0x801 v) ()

/-- The repeat that a write of `repcnt` or `repbody` over the CSRs sets up: a written COUNT that is not zero makes the
written state the active repeat, its end computed before the write takes effect (R144, R415). [log 17 DEDUCED] -/
def repeatFor (s : State) (c : Nat) (k : SlotN) (csr : UserCsrs) (n : Nat) (v : Word) : Got (Word × Word × Word) :=
  let t := s.thr c k
  let u := csr.write false n v
  if u.count = 0 then .ok s (u.repcnt, u.repbody, t.a.repEnd)
  else (bodyEndFor s c k u.replen u.repbody.toNat).bind fun s e => .ok s (u.repcnt, u.repbody, BitVec.ofNat 64 e)

/-- Writes `repcnt` or `repbody` at once (R144, R415). -/
def writeRepeat (s : State) (c : Nat) (k : SlotN) (n : Nat) (v : Word) : Got Unit :=
  (repeatFor s c k (s.thr c k).a.csr n v).bind fun s r => .ok (s.modThr c k fun t => t.setRepeat r.1 r.2.1 r.2.2) ()

/-- Writes `supctl`: DLDET from 0 to 1 starts a detector pass of the die (R124, R264). -/
def writeSupctl (s : State) (c : Nat) (v : Word) : State :=
  let old := (s.core c).supBit 0
  let s1 := s.modCtx c fun x => { x with supctl := v &&& 0xFFFFFFFF000000FF }
  if !old && v.getLsbD 0 then s1.modDie (dieOf c) fun d => { d with passDue := true } else s1

/-- Writes a CSR whose write is in force at once (R120, R121, R124, R137). -/
def writeCsr (s : State) (c : Nat) (k : SlotN) (n : Nat) (v : Word) : Got Unit :=
  if n = 0x801 then writeVstat s c k v
  else if n = 0x5C1 then .ok (writeSupctl s c v) ()
  else .ok (writePlain s c k n v) ()

/-- Slots that may access a CSR (R52, R105). -/
def csrWho (n : Nat) : Who := if n < 0x800 then .sup else .any

/-- A Zicsr instruction: reads the old value into rd, and writes the new one when the instruction writes; a write to the
read-only range is illegal and pops nothing; one of the repeat is in force from the next instruction (R25, R105, R118,
R137). [log 17 DEDUCED] -/
def csrOp (rd : XReg) (csr : BitVec 12) (src : List XReg) (writes : Bool) (f : Thread → Word → Word) (s : State) : Out :=
  let n := csr.toNat
  let bad : Bool := writes && 0xC00 ≤ n
  run { who := csrWho n, src := if bad then [] else src, dst := if bad then [] else [rd] } (fun s c k =>
    if bad then illegal s c k
    else if writes ∧ (n = 0x807 ∨ n = 0x808) then
      let old := s.readCsr c k n
      -- over the COUNT that the end of a pass by this instruction itself leaves (R143)
      (repeatFor s c k ((s.thr c k).a.advance none 4).csr n (f (s.thr c k) old)).bind fun s r => .ok s { ws := [.x rd old, .rep r.1 r.2.1 r.2.2] }
    else
      let old := s.readCsr c k n
      let a := (s.thr c k).a
      (if writes then writeCsr s c k n (f (s.thr c k) old) else .ok s ()).bind fun s _ =>
      -- a write to `qmap` takes effect from the next instruction (R121): rd is as mapped before it
      if writes ∧ n = 0x802 then
        if a.mapped rd then .ok s { ws := [.push (a.mapHandle c rd) old] }
        else .ok (s.modThr c k fun t => { t with a := t.a.setX rd old }) {}
      else .ok s { ws := [.x rd old] }) s

/-! ### Meanings -/

/-- LUI (R130). -/
def execLui (rd : XReg) (imm : BitVec 20) (s : State) : Out :=
  alu rd [] (fun _ => (imm ++ (0#12)).signExtend 64) s

/-- AUIPC (R130). -/
def execAuipc (rd : XReg) (imm : BitVec 20) (s : State) : Out :=
  alu rd [] (fun t => t.a.pc + (imm ++ (0#12)).signExtend 64) s

/-- JAL (R134). -/
def execJal (rd : XReg) (imm : BitVec 20) (s : State) : Out :=
  run { dst := [rd] } (fun s c k =>
    let pc := (s.thr c k).a.pc
    transfer s c k (pc + (imm.signExtend 64 <<< 1)) [.x rd (pc + 4)]) s

/-- JALR clears bit 0 of its target (R134). -/
def execJalr (rd rs1 : XReg) (imm : BitVec 12) (s : State) : Out :=
  run { src := [rs1], dst := [rd] } (fun s c k =>
    let t := s.thr c k
    transfer s c k ((t.xv rs1 + imm.signExtend 64) &&& ~~~1#64) [.x rd (t.a.pc + 4)]) s

/-- BEQ: branch if equal (R134). -/
def execBeq (rs1 rs2 : XReg) (imm : BitVec 12) (s : State) : Out :=
  branch rs1 rs2 imm (fun a b => a == b) s

/-- BNE: branch if not equal (R134). -/
def execBne (rs1 rs2 : XReg) (imm : BitVec 12) (s : State) : Out :=
  branch rs1 rs2 imm (fun a b => a != b) s

/-- BLT: branch if signed less than (R134). -/
def execBlt (rs1 rs2 : XReg) (imm : BitVec 12) (s : State) : Out :=
  branch rs1 rs2 imm (fun a b => a.slt b) s

/-- BGE: branch if signed greater or equal (R134). -/
def execBge (rs1 rs2 : XReg) (imm : BitVec 12) (s : State) : Out :=
  branch rs1 rs2 imm (fun a b => !a.slt b) s

/-- BLTU: branch if unsigned less than (R134). -/
def execBltu (rs1 rs2 : XReg) (imm : BitVec 12) (s : State) : Out :=
  branch rs1 rs2 imm (fun a b => a.ult b) s

/-- BGEU: branch if unsigned greater or equal (R134). -/
def execBgeu (rs1 rs2 : XReg) (imm : BitVec 12) (s : State) : Out :=
  branch rs1 rs2 imm (fun a b => !a.ult b) s

/-- LB (R132). -/
def execLb (rd rs1 : XReg) (imm : BitVec 12) (s : State) : Out :=
  load rd rs1 imm 1 (sext 8) s

/-- LH (R132). -/
def execLh (rd rs1 : XReg) (imm : BitVec 12) (s : State) : Out :=
  load rd rs1 imm 2 (sext 16) s

/-- LW (R132). -/
def execLw (rd rs1 : XReg) (imm : BitVec 12) (s : State) : Out :=
  load rd rs1 imm 4 (sext 32) s

/-- LBU (R132). -/
def execLbu (rd rs1 : XReg) (imm : BitVec 12) (s : State) : Out :=
  load rd rs1 imm 1 (BitVec.ofNat 64) s

/-- LHU (R132). -/
def execLhu (rd rs1 : XReg) (imm : BitVec 12) (s : State) : Out :=
  load rd rs1 imm 2 (BitVec.ofNat 64) s

/-- LWU (R132). -/
def execLwu (rd rs1 : XReg) (imm : BitVec 12) (s : State) : Out :=
  load rd rs1 imm 4 (BitVec.ofNat 64) s

/-- LD (R132). -/
def execLd (rd rs1 : XReg) (imm : BitVec 12) (s : State) : Out :=
  load rd rs1 imm 8 (BitVec.ofNat 64) s

/-- SB (R132). -/
def execSb (rs2 rs1 : XReg) (imm : BitVec 12) (s : State) : Out :=
  store rs2 rs1 imm 1 s

/-- SH (R132). -/
def execSh (rs2 rs1 : XReg) (imm : BitVec 12) (s : State) : Out :=
  store rs2 rs1 imm 2 s

/-- SW (R132). -/
def execSw (rs2 rs1 : XReg) (imm : BitVec 12) (s : State) : Out :=
  store rs2 rs1 imm 4 s

/-- SD (R132). -/
def execSd (rs2 rs1 : XReg) (imm : BitVec 12) (s : State) : Out :=
  store rs2 rs1 imm 8 s

/-- ADDI (R130). -/
def execAddi (rd rs1 : XReg) (imm : BitVec 12) (s : State) : Out :=
  aluRI rd rs1 imm (fun a b => a + b) s

/-- SLTI (R130). -/
def execSlti (rd rs1 : XReg) (imm : BitVec 12) (s : State) : Out :=
  aluRI rd rs1 imm (fun a b => ofBool (a.slt b)) s

/-- SLTIU (R130). -/
def execSltiu (rd rs1 : XReg) (imm : BitVec 12) (s : State) : Out :=
  aluRI rd rs1 imm (fun a b => ofBool (a.ult b)) s

/-- XORI (R130). -/
def execXori (rd rs1 : XReg) (imm : BitVec 12) (s : State) : Out :=
  aluRI rd rs1 imm (fun a b => a ^^^ b) s

/-- ORI (R130). -/
def execOri (rd rs1 : XReg) (imm : BitVec 12) (s : State) : Out :=
  aluRI rd rs1 imm (fun a b => a ||| b) s

/-- ANDI (R130). -/
def execAndi (rd rs1 : XReg) (imm : BitVec 12) (s : State) : Out :=
  aluRI rd rs1 imm (fun a b => a &&& b) s

/-- ADDIW (R130). -/
def execAddiw (rd rs1 : XReg) (imm : BitVec 12) (s : State) : Out :=
  aluRI rd rs1 imm (fun a b => onW (· + ·) a b) s

/-- SLLI (R130). -/
def execSlli (rd rs1 : XReg) (sh : Fin 64) (s : State) : Out :=
  alu rd [rs1] (fun t => t.xv rs1 <<< sh.val) s

/-- SRLI (R130). -/
def execSrli (rd rs1 : XReg) (sh : Fin 64) (s : State) : Out :=
  alu rd [rs1] (fun t => t.xv rs1 >>> sh.val) s

/-- SRAI (R130). -/
def execSrai (rd rs1 : XReg) (sh : Fin 64) (s : State) : Out :=
  alu rd [rs1] (fun t => (t.xv rs1).sshiftRight sh.val) s

/-- SLLIW (R130). -/
def execSlliw (rd rs1 : XReg) (sh : Fin 32) (s : State) : Out :=
  alu rd [rs1] (fun t => (((t.xv rs1).setWidth 32 : Word32) <<< sh.val).signExtend 64) s

/-- SRLIW (R130). -/
def execSrliw (rd rs1 : XReg) (sh : Fin 32) (s : State) : Out :=
  alu rd [rs1] (fun t => (((t.xv rs1).setWidth 32 : Word32) >>> sh.val).signExtend 64) s

/-- SRAIW (R130). -/
def execSraiw (rd rs1 : XReg) (sh : Fin 32) (s : State) : Out :=
  alu rd [rs1] (fun t => (((t.xv rs1).setWidth 32 : Word32).sshiftRight sh.val).signExtend 64) s

/-- ADD (R130). -/
def execAdd (rd rs1 rs2 : XReg) (s : State) : Out :=
  aluRR rd rs1 rs2 (fun a b => a + b) s

/-- SUB (R130). -/
def execSub (rd rs1 rs2 : XReg) (s : State) : Out :=
  aluRR rd rs1 rs2 (fun a b => a - b) s

/-- SLL (R130). -/
def execSll (rd rs1 rs2 : XReg) (s : State) : Out :=
  aluRR rd rs1 rs2 (fun a b => a <<< (b.toNat % 64)) s

/-- SLT (R130). -/
def execSlt (rd rs1 rs2 : XReg) (s : State) : Out :=
  aluRR rd rs1 rs2 (fun a b => ofBool (a.slt b)) s

/-- SLTU (R130). -/
def execSltu (rd rs1 rs2 : XReg) (s : State) : Out :=
  aluRR rd rs1 rs2 (fun a b => ofBool (a.ult b)) s

/-- XOR (R130). -/
def execXor (rd rs1 rs2 : XReg) (s : State) : Out :=
  aluRR rd rs1 rs2 (fun a b => a ^^^ b) s

/-- SRL (R130). -/
def execSrl (rd rs1 rs2 : XReg) (s : State) : Out :=
  aluRR rd rs1 rs2 (fun a b => a >>> (b.toNat % 64)) s

/-- SRA (R130). -/
def execSra (rd rs1 rs2 : XReg) (s : State) : Out :=
  aluRR rd rs1 rs2 (fun a b => a.sshiftRight (b.toNat % 64)) s

/-- OR (R130). -/
def execOr (rd rs1 rs2 : XReg) (s : State) : Out :=
  aluRR rd rs1 rs2 (fun a b => a ||| b) s

/-- AND (R130). -/
def execAnd (rd rs1 rs2 : XReg) (s : State) : Out :=
  aluRR rd rs1 rs2 (fun a b => a &&& b) s

/-- ADDW (R130). -/
def execAddw (rd rs1 rs2 : XReg) (s : State) : Out :=
  aluRR rd rs1 rs2 (fun a b => onW (· + ·) a b) s

/-- SUBW (R130). -/
def execSubw (rd rs1 rs2 : XReg) (s : State) : Out :=
  aluRR rd rs1 rs2 (fun a b => onW (· - ·) a b) s

/-- SLLW (R130). -/
def execSllw (rd rs1 rs2 : XReg) (s : State) : Out :=
  aluRR rd rs1 rs2 (fun a b => onW (fun x y => x <<< (y.toNat % 32)) a b) s

/-- SRLW (R130). -/
def execSrlw (rd rs1 rs2 : XReg) (s : State) : Out :=
  aluRR rd rs1 rs2 (fun a b => onW (fun x y => x >>> (y.toNat % 32)) a b) s

/-- SRAW (R130). -/
def execSraw (rd rs1 rs2 : XReg) (s : State) : Out :=
  aluRR rd rs1 rs2 (fun a b => onW (fun x y => x.sshiftRight (y.toNat % 32)) a b) s

/-- MUL (R133). -/
def execMul (rd rs1 rs2 : XReg) (s : State) : Out :=
  aluRR rd rs1 rs2 (fun a b => a * b) s

/-- MULH (R133). -/
def execMulh (rd rs1 rs2 : XReg) (s : State) : Out :=
  aluRR rd rs1 rs2 (fun a b => mulHigh (a.signExtend 128) (b.signExtend 128)) s

/-- MULHSU (R133). -/
def execMulhsu (rd rs1 rs2 : XReg) (s : State) : Out :=
  aluRR rd rs1 rs2 (fun a b => mulHigh (a.signExtend 128) (b.setWidth 128)) s

/-- MULHU (R133). -/
def execMulhu (rd rs1 rs2 : XReg) (s : State) : Out :=
  aluRR rd rs1 rs2 (fun a b => mulHigh (a.setWidth 128) (b.setWidth 128)) s

/-- MULW (R133). -/
def execMulw (rd rs1 rs2 : XReg) (s : State) : Out :=
  aluRR rd rs1 rs2 (fun a b => onW (· * ·) a b) s

/-- DIV (R133). -/
def execDiv (rd rs1 rs2 : XReg) (s : State) : Out :=
  divide rd rs1 rs2 36 (sdivF) s

/-- DIVU (R133). -/
def execDivu (rd rs1 rs2 : XReg) (s : State) : Out :=
  divide rd rs1 rs2 36 (udivF) s

/-- REM (R133). -/
def execRem (rd rs1 rs2 : XReg) (s : State) : Out :=
  divide rd rs1 rs2 36 (sremF) s

/-- REMU (R133). -/
def execRemu (rd rs1 rs2 : XReg) (s : State) : Out :=
  divide rd rs1 rs2 36 (uremF) s

/-- DIVW (R133). -/
def execDivw (rd rs1 rs2 : XReg) (s : State) : Out :=
  divide rd rs1 rs2 20 (onW sdivF) s

/-- DIVUW (R133). -/
def execDivuw (rd rs1 rs2 : XReg) (s : State) : Out :=
  divide rd rs1 rs2 20 (onW udivF) s

/-- REMW (R133). -/
def execRemw (rd rs1 rs2 : XReg) (s : State) : Out :=
  divide rd rs1 rs2 20 (onW sremF) s

/-- REMUW (R133). -/
def execRemuw (rd rs1 rs2 : XReg) (s : State) : Out :=
  divide rd rs1 rs2 20 (onW uremF) s

/-- FENCE: commits the chunk, then parks until posted operations, engine writes and strips are complete (R135). -/
def execFence (s : State) : Out :=
  run {} (fun s c k =>
    (commitFirst s c k).bind fun s _ =>
    let t := s.thr c k
    (waitFor s c k .fence (s.fenceDone (t.ref c) t)).bind fun s _ => .ok s {}) s

/-- ECALL: cause 8 (R136). -/
def execEcall (s : State) : Out :=
  run {} (fun s c k => trap s c k { cause := 8 }) s

/-- EBREAK: cause 3 (R136). -/
def execEbreak (s : State) : Out :=
  run {} (fun s c k => trap s c k { cause := 3 }) s

/-- CSRRW (R137). -/
def execCsrrw (rd : XReg) (csr : BitVec 12) (rs1 : XReg) (s : State) : Out :=
  csrOp rd csr [rs1] (true) (fun t _ => t.xv rs1) s

/-- CSRRS (R137). -/
def execCsrrs (rd : XReg) (csr : BitVec 12) (rs1 : XReg) (s : State) : Out :=
  csrOp rd csr [rs1] (rs1 != 0) (fun t old => old ||| t.xv rs1) s

/-- CSRRC (R137). -/
def execCsrrc (rd : XReg) (csr : BitVec 12) (rs1 : XReg) (s : State) : Out :=
  csrOp rd csr [rs1] (rs1 != 0) (fun t old => old &&& ~~~(t.xv rs1)) s

/-- CSRRWI (R137). -/
def execCsrrwi (rd : XReg) (csr : BitVec 12) (uimm : Fin 32) (s : State) : Out :=
  csrOp rd csr [] (true) (fun _ _ => BitVec.ofNat 64 uimm.val) s

/-- CSRRSI (R137). -/
def execCsrrsi (rd : XReg) (csr : BitVec 12) (uimm : Fin 32) (s : State) : Out :=
  csrOp rd csr [] (uimm != 0) (fun _ old => old ||| BitVec.ofNat 64 uimm.val) s

/-- CSRRCI (R137). -/
def execCsrrci (rd : XReg) (csr : BitVec 12) (uimm : Fin 32) (s : State) : Out :=
  csrOp rd csr [] (uimm != 0) (fun _ old => old &&& ~~~(BitVec.ofNat 64 uimm.val)) s

/-! ### Device steps: the CSR writes as steps of their own -/

/-- The thread a device step acts on, by its slot (or the pair that holds it). [log 97 DEDUCED] -/
def onThread (s : State) (f : Nat → SlotN → Thread → State) : Out :=
  let c := s.subject.core
  let k := s.home c s.subject.slot
  match (s.slot c k).thread? with
  | some t => .next (f c k t)
  | none => .next s

/-- The state a part of an instruction leaves. -/
def Got.state {α : Type} : Got α → State
  | .ok s _ => s
  | .stop s => s

/-- CSR_WRITE: a write to a CSR with no behaviour of its own (R137). [log 97 DEDUCED] -/
def execCsrWrite (s : State) : Out :=
  onThread s fun c k _ =>
    if s.subject.num ∈ [0x801, 0x807, 0x808, 0x5C1] then s else writePlain s c k s.subject.num s.subject.val

/-- VSTAT_CSR_WRITE (R121). [log 97 DEDUCED] -/
def execVstatCsrWrite (s : State) : Out := onThread s fun c k _ => (writeVstat s c k s.subject.val).state

/-- REPEAT_CSR_WRITE (R415). [log 97 DEDUCED] -/
def execRepeatCsrWrite (s : State) : Out :=
  onThread s fun c k _ => (writeRepeat s c k s.subject.num s.subject.val).state

/-- DLDET_CSR_WRITE (R264). [log 97 DEDUCED] -/
def execDldetCsrWrite (s : State) : Out := onThread s fun c _ _ => writeSupctl s c s.subject.val

end Sys2Proof.Machine
end

