-- ==== Sys2Proof/Machine/MemSys.lean ====
section
/-! DEFINITION. MemSys.lean: predicates, LIMM and REP, and the KM, KA and memory-system instructions (R107, R108, R138 to
R144, R201 to R217). -/

namespace Sys2Proof.Machine

/-! ### Predicates -/

/-- A comparison of two registers into a predicate (R138). -/
def pcmp (g : Guard) (pd : PReg) (rs1 rs2 : XReg) (f : Word → Word → Bool) (s : State) : Out :=
  run { guard := g, src := [rs1, rs2] } (pure_ fun t => { ws := [.p pd (f (t.xv rs1) (t.xv rs2))] }) s

/-- An operation on two predicates (R138). -/
def plogic (g : Guard) (pd pa pb : PReg) (f : Bool → Bool → Bool) (s : State) : Out :=
  run { guard := g } (pure_ fun t => { ws := [.p pd (f (t.a.p pa) (t.a.p pb))] }) s

/-- PSEQ (R138). -/
def execPseq (g : Guard) (pd : PReg) (rs1 rs2 : XReg) (s : State) : Out := pcmp g pd rs1 rs2 (fun a b => a == b) s
/-- PSNE (R138). -/
def execPsne (g : Guard) (pd : PReg) (rs1 rs2 : XReg) (s : State) : Out := pcmp g pd rs1 rs2 (fun a b => a != b) s
/-- PSLT (R138). -/
def execPslt (g : Guard) (pd : PReg) (rs1 rs2 : XReg) (s : State) : Out := pcmp g pd rs1 rs2 (fun a b => a.slt b) s
/-- PSGE (R138). -/
def execPsge (g : Guard) (pd : PReg) (rs1 rs2 : XReg) (s : State) : Out := pcmp g pd rs1 rs2 (fun a b => !a.slt b) s
/-- PSLTU (R138). -/
def execPsltu (g : Guard) (pd : PReg) (rs1 rs2 : XReg) (s : State) : Out := pcmp g pd rs1 rs2 (fun a b => a.ult b) s
/-- PSGEU (R138). -/
def execPsgeu (g : Guard) (pd : PReg) (rs1 rs2 : XReg) (s : State) : Out := pcmp g pd rs1 rs2 (fun a b => !a.ult b) s
/-- PAND (R138). -/
def execPand (g : Guard) (pd pa pb : PReg) (s : State) : Out := plogic g pd pa pb (fun a b => a && b) s
/-- POR (R138). -/
def execPor (g : Guard) (pd pa pb : PReg) (s : State) : Out := plogic g pd pa pb (fun a b => a || b) s
/-- PANDN (R138). -/
def execPandn (g : Guard) (pd pa pb : PReg) (s : State) : Out := plogic g pd pa pb (fun a b => a && !b) s
/-- PXOR (R138). -/
def execPxor (g : Guard) (pd pa pb : PReg) (s : State) : Out := plogic g pd pa pb (fun a b => a != b) s

/-- PRD: pw with bit 0 reading 1 (R119, R138). -/
def execPrd (g : Guard) (rd : XReg) (s : State) : Out :=
  run { guard := g, dst := [rd] } (pure_ fun t => { ws := [.x rd ((t.a.pw ||| 1).setWidth 64)] }) s

/-- PWR (R139). -/
def execPwr (g : Guard) (rs1 rs2 : XReg) (s : State) : Out :=
  run { guard := g, src := [rs1, rs2] } (fun s c k =>
    let t := s.thr c k
    let m : Word32 := (t.xv rs2).setWidth 32
    let v : Word32 := (t.xv rs1).setWidth 32
    .ok (s.modThr c k fun t => { t with a := { t.a with pw := (t.a.pw &&& ~~~m ||| v &&& m) ||| 1 } }) {}) s

/-- LIMM: the sign-extended literal; 8 bytes long (R110, R141). -/
def execLimm (g : Guard) (rd : XReg) (lit : Word32) (s : State) : Out :=
  run { guard := g, dst := [rd] } (pure_ fun _ => { ws := [.x rd (lit.signExtend 64)] }) s (len := 8)

/-- REP: sets up a repeat; a nested one is illegal and pops nothing (R118, R142, R415). -/
def execRep (g : Guard) (rs1 rs2 : XReg) (s : State) : Out :=
  let nested : Bool := match s.thread? s.cur.1 s.cur.2 with
    | some t => t.a.csr.count != 0
    | none => false
  run { guard := g, src := if nested then [] else [rs1, rs2] } (fun s c k =>
    let t := s.thr c k
    if t.a.csr.count ≠ 0 then illegal s c k
    else
      let n := (t.xv rs1).toNat % 2 ^ 32
      let len := (t.xv rs2).toNat % 2 ^ 16
      (bodyEndFor s c k len ((t.a.pc + 4).toNat)).bind fun s e =>
      let count := if len = 0 then 0 else n
      let s1 := s.modThr c k fun t =>
        { t with a := { t.a with
            repEnd := BitVec.ofNat 64 e, endPend := false
            csr := { t.a.csr with
              repcnt := BitVec.ofNat 64 (len * 2 ^ 32 + count), repbody := t.a.pc + 4 } } }
      .ok s1 (if count = 0 then { next := some (BitVec.ofNat 64 e) } else {})) s

/-! ### LDX and STX -/

/-- The W wait of a KM access (R202). -/
def wclassWait (s : State) (c : Nat) (k : SlotN) (w : Fin 4) : Got Unit :=
  if w = 0 then .ok s () else waitFor s c k (.wclass (w.val - 1)) ((s.thr c k).psc (w.val - 1) = 0)

/-- LDX (R201). -/
def execLdx (g : Guard) (w size : Fin 4) (off3 : Fin 8) (rd rs1 : XReg) (s : State) : Out :=
  run { guard := g, src := [rs1], dst := [rd] } (fun s c k =>
    let n := 2 ^ size.val
    (wclassWait s c k w).bind fun s _ =>
    scalarLoad s c k ((s.thr c k).xv rs1 + BitVec.ofNat 64 (off3 * n)).toNat n fun v =>
      { ws := [.x rd (BitVec.ofNat 64 v)] }) s

/-- STX (R201). -/
def execStx (g : Guard) (w size : Fin 4) (off3 : Fin 8) (rs2 rs1 : XReg) (s : State) : Out :=
  run { guard := g, src := [rs1, rs2] } (fun s c k =>
    let n := 2 ^ size.val
    (wclassWait s c k w).bind fun s _ =>
    let t := s.thr c k
    scalarStore s c k (t.xv rs1 + BitVec.ofNat 64 (off3 * n)).toNat n (t.xv rs2)) s

/-- The place of a word with full/empty bits; any other address is refused (R187, R203, R211). -/
def fePlace (s : State) (c : Nat) (k : SlotN) (a cause : Nat) : Got Target :=
  let val := BitVec.ofNat 64 a
  match s.place c a with
  | .own off key => .ok s (.own off key)
  | .remote c' off key => .ok s (.remote c' off key)
  | .slate d key => .ok s (.slate d key)
  | .crucible _ _ => trap s c k { cause := 32, val := val, val2 := 1 }
  | _ => trap s c k { cause := cause, val := val }

/-- LDX.F: reads full words; finding one empty it commits the chunk and waits at the owner (R203). -/
def execLdxF (g : Guard) (w : Fin 4) (dbl : Bool) (off3 : Fin 8) (rd rs1 : XReg) (s : State) : Out :=
  run { guard := g, src := [rs1], dst := [rd] } (fun s c k =>
    let n := if dbl then 8 else 4
    (wclassWait s c k w).bind fun s _ =>
    let a := ((s.thr c k).xv rs1 + BitVec.ofNat 64 (off3 * n)).toNat
    (aligned s c k a n 4).bind fun s _ =>
    (fePlace s c k a 5).bind fun s tg =>
    (destWait s c k tg).bind fun s _ =>
    (lockWait s c k tg n).bind fun s _ =>
    (overlapWait s c k tg.key n).bind fun s _ =>
    if s.allFull tg.key n then
      (readFor s c k a tg n).bind fun s bs =>
      deliver s c k tg.isLocal { ws := [.x rd (BitVec.ofNat 64 (leNat bs))] }
    else (commitFirst s c k).bind fun s _ => .stop (s.park c k (.full tg.key n (BitVec.ofNat 64 a) rd))) s

/-- STX.F: writes and fills, or posts (R203). -/
def execStxF (g : Guard) (w : Fin 4) (dbl : Bool) (off3 : Fin 8) (rs2 rs1 : XReg) (s : State) : Out :=
  run { guard := g, src := [rs1, rs2] } (fun s c k =>
    let n := if dbl then 8 else 4
    (wclassWait s c k w).bind fun s _ =>
    let t := s.thr c k
    let a := (t.xv rs1 + BitVec.ofNat 64 (off3 * n)).toNat
    let bs := leBytes n (t.xv rs2).toNat
    (aligned s c k a n 6).bind fun s _ =>
    (fePlace s c k a 7).bind fun s tg =>
    (ownLockWait s c k tg n).bind fun s _ =>
    (overlapWait s c k tg.key n).bind fun s _ =>
    (commitFirst s c k).bind fun s _ =>
    match tg with
    | .own _ key => .ok (s.pokeFull key bs) {}
    | tg =>
      (roomWait s c k tg.cls 1).bind fun s _ =>
      .ok (s.postFor c k tg.cls tg.dest (.store tg.key bs true)) {}) s

/-! ### Atomics -/

/-- An integer atomic with its source operand; ACAS also reads its expected value from rd (R204). -/
def amo (aq rl dbl : Bool) (rd rs2 rs1 : XReg) (cas : Bool) (f : Nat → Nat → Nat → Nat → Option Nat) (s : State) : Out :=
  run { src := if cas then [rs1, rs2, rd] else [rs1, rs2], dst := [rd] } (fun s c k =>
    let t := s.thr c k
    let n := if dbl then 8 else 4
    let m := 2 ^ (8 * n)
    atomic s c k (t.xv rs1).toNat n aq rl (fun old => f m old ((t.xv rs2).toNat % m) ((t.xv rd).toNat % m)) rd) s

/-- The value of an n-byte number as a signed one; m is 2^(8n). -/
def asInt (m v : Nat) : Int := if m / 2 ≤ v then (v : Int) - m else v

/-- AADD (R204). -/
def execAadd (aq rl dbl : Bool) (rd rs2 rs1 : XReg) (s : State) : Out :=
  amo aq rl dbl rd rs2 rs1 false (fun m a b _ => some ((a + b) % m)) s
/-- ASWP (R204). -/
def execAswp (aq rl dbl : Bool) (rd rs2 rs1 : XReg) (s : State) : Out :=
  amo aq rl dbl rd rs2 rs1 false (fun _ _ b _ => some b) s
/-- AAND (R204). -/
def execAand (aq rl dbl : Bool) (rd rs2 rs1 : XReg) (s : State) : Out :=
  amo aq rl dbl rd rs2 rs1 false (fun _ a b _ => some (a &&& b)) s
/-- AOR (R204). -/
def execAor (aq rl dbl : Bool) (rd rs2 rs1 : XReg) (s : State) : Out :=
  amo aq rl dbl rd rs2 rs1 false (fun _ a b _ => some (a ||| b)) s
/-- AXOR (R204). -/
def execAxor (aq rl dbl : Bool) (rd rs2 rs1 : XReg) (s : State) : Out :=
  amo aq rl dbl rd rs2 rs1 false (fun _ a b _ => some (a ^^^ b)) s
/-- AMAX (R204). -/
def execAmax (aq rl dbl : Bool) (rd rs2 rs1 : XReg) (s : State) : Out :=
  amo aq rl dbl rd rs2 rs1 false (fun m a b _ => some (if asInt m a < asInt m b then b else a)) s
/-- AMIN (R204). -/
def execAmin (aq rl dbl : Bool) (rd rs2 rs1 : XReg) (s : State) : Out :=
  amo aq rl dbl rd rs2 rs1 false (fun m a b _ => some (if asInt m b < asInt m a then b else a)) s
/-- AMAXU (R204). -/
def execAmaxu (aq rl dbl : Bool) (rd rs2 rs1 : XReg) (s : State) : Out :=
  amo aq rl dbl rd rs2 rs1 false (fun _ a b _ => some (max a b)) s
/-- AMINU (R204). -/
def execAminu (aq rl dbl : Bool) (rd rs2 rs1 : XReg) (s : State) : Out :=
  amo aq rl dbl rd rs2 rs1 false (fun _ a b _ => some (min a b)) s
/-- ACAS (R204). -/
def execAcas (aq rl dbl : Bool) (rd rs2 rs1 : XReg) (s : State) : Out :=
  amo aq rl dbl rd rs2 rs1 true (fun _ a b e => if a = e then some b else none) s
/-- AFADD: FP32, round to nearest even, no flags (R204). -/
def execAfadd (aq rl : Bool) (rd rs2 rs1 : XReg) (s : State) : Out :=
  amo aq rl false rd rs2 rs1 false
    (fun _ a b _ => some (fpround .fp32 .rne ((value .fp32 a).add .rne (value .fp32 b))).1) s
/-- AFMAX: the VMAX rule for FP32, no flags (R155, R204). -/
def execAfmax (aq rl : Bool) (rd rs2 rs1 : XReg) (s : State) : Out :=
  amo aq rl false rd rs2 rs1 false (fun _ a b _ => some (fmaxBits .fp32 a b)) s
/-- AINCW (R204). -/
def execAincw (aq rl dbl : Bool) (rd rs2 rs1 : XReg) (s : State) : Out :=
  amo aq rl dbl rd rs2 rs1 false (fun m a b _ => some (if b ≤ a then 0 else (a + 1) % m)) s

/-! ### FENCER and LDRO -/

/-- The clusters of this module in a scope of R22. -/
def scopeClusters (c scope : Nat) : List Nat :=
  match scope with
  | 0 => [clusterOf c]
  | 1 => (List.range 64).map fun i => dieOf c * 64 + i
  | _ => List.range 512

/-- Physical lines of a translated range, page by page; a page that does not translate is skipped (R208). [log 10 DEDUCED]
-/
def State.linesOf (s : State) (c : Nat) (p : Part) (base len : Nat) : State × List Nat :=
  let stop := min (base + len) (2 ^ 56)
  if stop ≤ base then (s, []) else
  (List.range ((stop - 1) / 2 ^ 16 - base / 2 ^ 16 + 1)).foldl (fun (x : State × List Nat) i =>
    let lo := if i = 0 then base else (base / 2 ^ 16 + i) * 2 ^ 16
    let hi := min stop ((base / 2 ^ 16 + i + 1) * 2 ^ 16)
    let found (t : Trans) : State × List Nat :=
      let n := (hi - 1) / 64 - lo / 64 + 1
      ((x.1.noteWalk (clusterOf c) t).touch t false, x.2 ++ (List.range n).map fun j => t.pa / 64 + j)
    match x.1.walk p lo .load, x.1.walk p lo .fetch with
    | .ok t, _ => found t
    | .error _, .ok t => found t
    | .error _, .error _ => x) (s, [])

/-- FENCER: commits the chunk, sends the sampler invalidations, and parks until every kind is done (R208). [log 10 DEDUCED]
-/
def execFencer (g : Guard) (kinds : Fin 8) (scope : Fin 4) (rs1 rs2 : XReg) (s : State) : Out :=
  run { guard := g, src := [rs1, rs2] } (fun s c k =>
    let t := s.thr c k
    let base := (t.xv rs1).toNat
    let len := (t.xv rs2).toNat
    if 2 ^ 30 < len then illegal s c k (t.xv rs2) else
    (commitFirst s c k).bind fun s _ =>
    if len = 0 then .ok s {} else
    let r := t.ref c
    -- at domain scope the thread's invalidations are acknowledged first, and a module applies its pending ones (R255)
    (if kinds.val.testBit 0 ∧ scope = 3 then shAcksWait s c k else .ok s ()).bind fun s _ =>
    let s := if kinds.val.testBit 0 ∧ scope = 3 then s.applyShared else s
    let s1 :=
      match s.partOf c, kinds.val.testBit 0 with
      | some p, true =>
        let (s1, ls) := s.linesOf c p base len
        { s1 with samplerReqs := s1.samplerReqs ++ (scopeClusters c scope).map fun cl => (r, cl, p.cfg.part, ls) }
      | _, _ => s
    (waitFor s1 c k (.fencer kinds base len) (s1.fencerDone r kinds base len)).bind fun s _ => .ok s {}) s

/-- LDRO: a load through the sampler path, outside chunks (R209). -/
def execLdro (g : Guard) (rd rs1 : XReg) (size : Fin 4) (s : State) : Out :=
  run { guard := g, src := [rs1], dst := [rd] } (fun s c k =>
    let a := ((s.thr c k).xv rs1).toNat
    let n := 2 ^ size.val
    (aligned s c k a n 4).bind fun s _ =>
    match s.sampleAt c a n .sampler with
    | (s1, .error e) => accStop s1 c k e
    -- a hit parks for a rot too
    | (s1, .ok bs) => replyWait s1 c k { ws := [.x rd (BitVec.ofNat 64 (leNat bs))] } 8) s

/-! ### Full/empty bits -/

/-- Bytes from a place to the end of its scratchpad share or Slate allotment outside the Crucible (R210). -/
def State.partLeft (s : State) (c : Nat) (tg : Target) : Nat :=
  match tg with
  | .own off _ => (s.share c).2 - off
  | .remote _ off _ => (s.share c).2 - off
  | .slate d key =>
    match s.partOf c with
    | some p => let (lo, n, cr) := p.slateOf d
                slateKey d (lo + (n - cr)) - key
    | none => 0
  | _ => 0

/-- FECLR and FESET (R210). -/
def feRange (g : Guard) (rs1 rs2 : XReg) (v : Bool) (s : State) : Out :=
  run { guard := g, src := [rs1, rs2] } (fun s c k =>
    let t := s.thr c k
    let base := (t.xv rs1).toNat
    let len := (t.xv rs2).toNat
    if base % 4 ≠ 0 ∨ len % 4 ≠ 0 then trap s c k { cause := 6, val := t.xv rs1 } else
    if len = 0 then (commitFirst s c k).bind fun s _ => .ok s {} else
    (fePlace s c k base 7).bind fun s tg =>
    let n := s.partLeft c tg
    if n < len then
      let out := base + n
      match s.place c out with
      | .crucible _ _ => trap s c k { cause := 32, val := BitVec.ofNat 64 out, val2 := 1 }
      | _ => trap s c k { cause := 7, val := BitVec.ofNat 64 out }
    else
      (ownLockWait s c k tg len).bind fun s _ =>
      (commitFirst s c k).bind fun s _ =>
      match tg with
      | .own _ key => .ok (s.changeFull key len v) {}
      | tg => (roomWait s c k tg.cls 1).bind fun s _ =>
        .ok (s.postFor c k tg.cls tg.dest (.fe tg.key len v)) {}) s

/-- FECLR (R210). -/
def execFeclr (g : Guard) (rs1 rs2 : XReg) (s : State) : Out := feRange g rs1 rs2 false s
/-- FESET (R210). -/
def execFeset (g : Guard) (rs1 rs2 : XReg) (s : State) : Out := feRange g rs1 rs2 true s

/-- FETEST (R188, R211). -/
def execFetest (g : Guard) (pd : PReg) (rs1 : XReg) (s : State) : Out :=
  run { guard := g, src := [rs1] } (fun s c k =>
    let a := ((s.thr c k).xv rs1).toNat
    (aligned s c k a 4 4).bind fun s _ =>
    (fePlace s c k a 5).bind fun s tg =>
    (destWait s c k tg).bind fun s _ =>
    (lockWait s c k tg 4).bind fun s _ =>
    (readFor s c k a tg 4).bind fun s _ =>
    deliver s c k tg.isLocal { ws := [.p pd (s.isFull tg.key)] }) s

/-- CNTWAIT (R212). -/
def execCntwait (g : Guard) (mask : Fin 8) (s : State) : Out :=
  run { guard := g } (fun s c k =>
    let t := s.thr c k
    (waitFor s c k (.counters mask) ((List.range 3).all fun i => !mask.val.testBit i || t.psc i == 0)).bind fun s _ =>
    .ok s {}) s

/-- A byte with one half replaced (R213). -/
def withNibble (b : Byte) (hi : Bool) (v : BitVec 4) : Byte :=
  if hi then b &&& 0x0F#8 ||| (v.setWidth 8 <<< 4) else b &&& 0xF0#8 ||| v.setWidth 8

/-- STNIB (R213). -/
def stnib (g : Guard) (rs1 rs2 : XReg) (hi : Bool) (s : State) : Out :=
  run { guard := g, src := [rs1, rs2] } (fun s c k =>
    let t := s.thr c k
    let a := (t.xv rs1).toNat
    let v : BitVec 4 := (t.xv rs2).setWidth 4
    match s.place c a with
    | .own off key =>
      (lockWait s c k (.own off key) 1).bind fun s _ =>
      (overlapWait s c k key 1).bind fun s _ =>
      (softCloseIf s c k ((s.thr c k).logFull 1)).bind fun s _ =>
      .ok (s.storeLocal c k [(key, withNibble (s.byte key) hi v)]) {}
    | .remote c' _ key =>
      (gate s c k 0 1).bind fun s _ => .ok (s.postFor c k 0 c' (.nib key hi v)) {}
    | _ => trap s c k { cause := 7, val := t.xv rs1 }) s

/-- STNIB.LO (R213). -/
def execStnibLo (g : Guard) (rs1 rs2 : XReg) (s : State) : Out := stnib g rs1 rs2 false s
/-- STNIB.HI (R213). -/
def execStnibHi (g : Guard) (rs1 rs2 : XReg) (s : State) : Out := stnib g rs1 rs2 true s

/-! ### Locks, CHUNK, PFETCH -/

/-- LOCKR (R214). [log 132 DESIGN CHOICE] -/
def execLockr (g : Guard) (rs1 rs2 : XReg) (s : State) : Out :=
  run { guard := g, src := [rs1, rs2] } (fun s c k =>
    let t := s.thr c k
    let base := (t.xv rs1).toNat
    let len := (t.xv rs2).toNat
    let win := 0xFFFFFFFE00000000
    let n := (s.share c).2
    if base % 64 ≠ 0 ∨ len % 64 ≠ 0 ∨ len < 64 ∨ n < len then illegal s c k (t.xv rs2)
    else if base < win ∨ win + n ≤ base then trap s c k { cause := 5, val := t.xv rs1 }
    else if win + n < base + len then trap s c k { cause := 5, val := BitVec.ofNat 64 (win + n) }
    else
      (commitFirst s c k).bind fun s _ =>
      let claim := s.modCtx c fun x => { x with lock := some ⟨k, base - win, len⟩ }
      match (s.core c).c.lock with
      | none => .ok claim {}
      | some l => if l.holder = k then .ok claim {} else .stop (s.park c k (.lock (base - win) len))) s

/-- UNLOCKR: the holder, or slot 0 for any holder, releases the lock (R215). [log 96 DEDUCED] -/
def unlock (g : Guard) (s : State) : Out :=
  run { guard := g } (fun s c k =>
    match (s.core c).c.lock with
    | none => (commitFirst s c k).bind fun s _ => .ok s {}
    | some l =>
      if l.holder = k ∨ k = 0 then (commitFirst s c k).bind fun s _ => .ok (s.releaseLock c l.holder) {}
      else illegal s c k) s

/-- UNLOCKR, unguarded (R215). [log 96 DEDUCED] -/
def execUnlockr (s : State) : Out := unlock 0 s
/-- UNLOCKR guarded by p1. [log 96 DEDUCED] -/
def execUnlockrP1 (s : State) : Out := unlock 1 s
/-- UNLOCKR guarded by p2. -/
def execUnlockrP2 (s : State) : Out := unlock 2 s
/-- UNLOCKR guarded by p3. -/
def execUnlockrP3 (s : State) : Out := unlock 3 s
/-- UNLOCKR guarded by p4. -/
def execUnlockrP4 (s : State) : Out := unlock 4 s
/-- UNLOCKR guarded by p5. -/
def execUnlockrP5 (s : State) : Out := unlock 5 s
/-- UNLOCKR guarded by p6. -/
def execUnlockrP6 (s : State) : Out := unlock 6 s
/-- UNLOCKR guarded by p7. -/
def execUnlockrP7 (s : State) : Out := unlock 7 s

/-- CHUNK: commits, sets the limit of later chunks, and reads `chunkstat` (R216). -/
def execChunk (g : Guard) (rd rs1 : XReg) (s : State) : Out :=
  run { guard := g, src := [rs1], dst := [rd] } (fun s c k =>
    (commitFirst s c k).bind fun s _ =>
    let t := s.thr c k
    let code : Fin 4 := ⟨(t.xv rs1).toNat % 4, Nat.mod_lt _ (by decide)⟩
    .ok (s.modThr c k fun t => { t with clim := code }) { ws := [.x rd t.chunkstat] }) s

/-- PFETCH: for the first 64 KiB of its range, page by page: kind 1 obtains scene-shared lines homed here, kind 2 fills the
cluster's sampler cache; a hint that a program can observe by timing alone (R198, R217). [log 119 DEDUCED] -/
def State.prefetch (s : State) (c : Nat) (kind : Fin 3) (base len : Nat) : State :=
  match s.partOf c with
  | none => s
  | some p =>
    let n := min len (2 ^ 16)
    let stop := min (base + n) (2 ^ 56)
    if stop ≤ base then s else
    (List.range ((stop - 1) / 64 - base / 64 + 1)).foldl (fun s i =>
      match s.walk p ((base / 64 + i) * 64) .load with
      | .error _ => s
      | .ok t =>
        let s := s.noteWalk (clusterOf c) t
        let line := t.pa / 64
        if kind = 1 then
          if t.l2.pte.testBit 8 ∧ s.inDomain ∧ s.homeHere line then s.takeLine line false else s
        else if kind = 2 ∧ (ptePerm t.l1.pte &&& ptePerm t.l2.pte).getLsbD 3 then
          (s.sampled p.cfg.part c (line * 64) 64).1
        else s) s

/-- PFETCH (R217). [log 119 DEDUCED] -/
def execPfetch (g : Guard) (kind : Fin 3) (rs1 rs2 : XReg) (s : State) : Out :=
  run { guard := g, src := [rs1, rs2] } (fun s c k =>
    let t := s.thr c k
    .ok (s.prefetch c kind (t.xv rs1).toNat (t.xv rs2).toNat) {}) s

end Sys2Proof.Machine
end

