-- ==== Sys2Proof/Machine/Vector.lean ====
section
/-! DEFINITION. Vector.lean: the vector instructions at issue, their strips in the vector queue, and the execution and
completion of a strip (R58, R60, R146 to R167). -/

namespace Sys2Proof.Machine

/-! ### Issue -/

/-- Strips of the thread that have not executed. [log 129 DESIGN CHOICE] -/
def Thread.pendingStrips (t : Thread) : Nat := (t.vq.filter fun p => p.done.isNone).length

/-- Strips an instruction of the thread takes (R60). -/
def Thread.stripsFor (t : Thread) : Nat := if t.paired && 32 < t.a.csr.vl then 2 else 1

/-- Waits for room in the vector queue of 8 strips (R150). -/
def stripRoomWait (s : State) (c : Nat) (k : SlotN) : Got Unit :=
  let t := s.thr c k
  waitFor s c k (.stripRoom t.stripsFor) (t.pendingStrips + t.stripsFor ≤ 8)

/-- The elements of the two strips of an instruction. Of a store, what both would write of one line, or of a VSTL, goes with
the second, so that each line is logged or sent once (R60, R160). -/
def splitEls (i : Instr) (els : List VEl) : List VEl × List VEl :=
  let a := els.filter fun e => e.lane < 32
  let b := els.filter fun e => 32 ≤ e.lane
  let late (e : VEl) : Bool := isVstore i && match i with
    | .vstl _ _ _ => b != []
    | _ => b.any fun x => x.key / 64 == e.key / 64
  (a.filter fun e => !late e, a.filter late ++ b)

/-- Enters the strips of an instruction, lanes 0 to 31 first (R60, R150). -/
def State.enqueue (s : State) (c : Nat) (k : SlotN) (i : Instr) (x y : Word) (els : List VEl) (logged alone : Bool)
    (away : Bool := false) : State :=
  let now := (s.core c).cycle
  let w := s.curWord
  s.modThr c k fun t =>
    let two := t.stripsFor == 2
    let mk (odd last : Bool) (es : List VEl) : Strip :=
      { instr := i, odd := odd, vctl := t.a.csr.vctl, scalar := x, scalar2 := y, pc := t.a.pc, word := w, issued := now,
        no := t.chunkNo, done := none, flags := 0, lanes := List.replicate 5 none, last := last, els := es,
        logged := logged, alone := alone, away := away }
    { t with vq := t.vq ++
        if two then [mk false false (splitEls i els).1, mk true true (splitEls i els).2]
        else [mk false true els] }

/-- VFPEN of a core as NX to NV in bits 0 to 4 (R124). -/
def Core.vfpen (x : Core) : BitVec 5 := (x.c.supctl >>> 2).setWidth 5

/-- A vector instruction on registers: enters its strips; under VFPEN a floating one parks until they complete (R153). [log
83 DEDUCED] -/
def vecRun (i : Instr) (fp : Bool) (s : State) (src : List XReg := []) (x : Thread → Word := fun _ => 0)
    (y : Thread → Word := fun _ => 0) : Out :=
  run { src := src } (fun s c k =>
    (stripRoomWait s c k).bind fun s _ =>
    let t := s.thr c k
    let s1 := s.enqueue c k i (x t) (y t) [] false false
    if fp ∧ (s.core c).vfpen ≠ 0 then .stop (s1.park c k (.vec 0 (List.replicate 5 none))) else .ok s1 {}) s

/-- A type is floating for VFPEN (R153). -/
def isFp (t : VType) : Bool := (fmtOf t).isSome

/-! ### Waits on vector results -/

/-- Some strip that writes the v register has not completed. -/
def Thread.vPending (t : Thread) (r : VNum) : Bool := t.vq.any fun p => vdOf p.instr == some r
/-- Some strip that writes the k register has not completed. -/
def Thread.kPending (t : Thread) (r : KReg) : Bool := t.vq.any fun p => kdOf p.instr == some r

/-- Waits for the strips that write a v register (R151). [log 11 DEDUCED] -/
def vregWait (s : State) (c : Nat) (k : SlotN) (r : VNum) : Got Unit :=
  waitFor s c k (.vreg r) (!(s.thr c k).vPending r)

/-- Waits for the strips that write a k register (R151). [log 11 DEDUCED] -/
def kregWait (s : State) (c : Nat) (k : SlotN) (r : KReg) : Got Unit :=
  waitFor s c k (.kreg r) (!(s.thr c k).kPending r)

/-- Waits until no strip of the thread is left (R151). -/
def stripsWait (s : State) (c : Nat) (k : SlotN) : Got Unit := waitFor s c k .strips ((s.thr c k).vq = [])

/-! ### Memory forms -/

/-- A failed element: trval2 holds the lane, beside the code of cause 32 (R160). [log 120 DEDUCED] -/
def laneTrap (p : Trap) (lane : Nat) : Trap :=
  { p with val2 := if p.cause = 32 then BitVec.ofNat 64 (p.val2.toNat % 256 + lane * 256) else BitVec.ofNat 64 lane }

/-- As `accStop`, for one element of a vector access; an error in a page table keeps the code of R193 (R160, R188, R193).
[log 120 DEDUCED] -/
def laneStop {α : Type} (s : State) (c : Nat) (k : SlotN) (e : AccErr) (lane : Nat) : Got α :=
  match e with
  | .trap p => trap s c k (laneTrap p lane)
  | .table p => trap s c k p
  | .moving ipn => accStop s c k (.moving ipn)
  | .unowned line => accStop s c k (.unowned line)
  | .across m => accStop s c k (.across m)
  | .stage2 p ipa => accStop s c k (.stage2 (if p.cause = 31 then p else laneTrap p lane) ipa)

/-- A target as a strip holds it. -/
def vplaceOf : Target → VPlace
  | .lane _ => .lane
  | .own _ _ => .own
  | .remote c _ _ => .remote c
  | .slate _ _ => .slate
  | .global p => .global p.shared

/-- Checks and translates every active element, lowest lane first (R160). -/
def locateAll (s : State) (c : Nat) (k : SlotN) (need : Need) (n : Nat) :
    List (Nat × Nat) → List (Nat × Nat × Target) → Got (List (Nat × Nat × Target))
  | [], acc => .ok s acc.reverse
  | (lane, a) :: r, acc =>
    match s.resolve c a need with
    | (s1, .error e) => laneStop s1 c k e lane
    | (s1, .ok tg) => locateAll s1 c k need n r ((lane, a, tg) :: acc)

/-- Waits an element's place asks for before it is read or written (R214, R248). -/
def waitsFor (s : State) (c : Nat) (k : SlotN) (store : Bool) (n : Nat) : List (Nat × Nat × Target) → Got Unit
  | [] => .ok s ()
  | (_, _, tg) :: r =>
    (if store then ownLockWait s c k tg n
      else (destWait s c k tg).bind fun s _ => lockWait s c k tg n).bind fun s _ => waitsFor s c k store n r

/-- Reads the elements of a load: a local one when its strip executes, any other now (R160, R188). -/
def readAll (s : State) (c : Nat) (k : SlotN) (n : Nat) : List (Nat × Nat × Target) → List VEl → Got (List VEl)
  | [], acc => .ok s acc.reverse
  | (lane, a, tg) :: r, acc =>
    match badIn s.bad tg.key n with
    | some _ => trap s c k { cause := 31, val := BitVec.ofNat 64 a, val2 := BitVec.ofNat 64 lane }
    | none =>
      if tg.isLocal then readAll s c k n r (⟨lane, tg.key, n, vplaceOf tg, none⟩ :: acc)
      else (readFor s c k a tg n).bind fun s bs => readAll s c k n r (⟨lane, tg.key, n, vplaceOf tg, some (leNat bs)⟩ :: acc)

/-- The lines of some elements, each once. -/
def lineSet (es : List (Nat × Nat × Target)) (f : Target → Bool) : List Nat :=
  (es.filter fun e => f e.2.2).foldl (fun ls e => addLine ls (e.2.2.key / 64)) []

/-- A target in the memories of the thread's own core. -/
def isOwn (t : Target) : Bool := t.isLocal

/-- A translated target, and one in another core's memory or a Slate. -/
def isGlobal (t : Target) : Bool := match t with | .global _ => true | _ => false
/-- Posted destination. -/
def Target.isPosted (t : Target) : Bool := match t with | .remote _ _ _ => true | .slate _ _ => true | _ => false

/-- Posted operations of a class that the strips of the thread will still send, one for each line (R160). -/
def postedLines (es : List VEl) (cls : Fin 3) : Nat :=
  ((es.filter fun e => match e.place with | .remote _ => cls == 0 | .slate => cls == 1 | _ => false).foldl
    (fun ls e => addLine ls (e.key / 64)) []).length

/-- The addresses of a memory form by lane; a c32 element's imaginary part lies 4 bytes above (R159). -/
def laneAddrs (t : VType) (act : List Nat) (f : Nat → Word) : List (Nat × Nat) :=
  act.map fun l =>
    if t = .c32 then (l, (f (l / 2) + BitVec.ofNat 64 (4 * (l % 2))).toNat) else (l, (f l).toNat)

/-- A vector load at issue, from the addresses of its active lanes (R160). [log 103 DEDUCED] -/
def vloadAt (s : State) (c : Nat) (k : SlotN) (i : Instr) (n : Nat) (as_ : List (Nat × Nat)) : Got Completion :=
  match as_.find? fun e => e.2 % n != 0 with
  | some e => trap s c k { cause := 4, val := BitVec.ofNat 64 e.2, val2 := BitVec.ofNat 64 e.1 }
  | none =>
    (locateAll s c k .load n as_ []).bind fun s es =>
    (waitsFor s c k false n es).bind fun s _ =>
    let away := es.any fun e => !e.2.2.isLocal
    (if away then overlapWait s c k 0 (2 ^ 64) else .ok s ()).bind fun s _ =>
    (readAll s c k n es []).bind fun s els =>
    let s1 := s.enqueue c k i 0 0 els false false away
    if away then replyWait s1 c k {} else .ok s1 {}

/-- A vector store at issue (R160, R240). [log 13 DEDUCED; 103 DEDUCED] -/
def vstoreAt (s : State) (c : Nat) (k : SlotN) (i : Instr) (n : Nat) (as_ : List (Nat × Nat)) : Got Completion :=
  match as_.find? fun e => e.2 % n != 0 with
  | some e => trap s c k { cause := 6, val := BitVec.ofNat 64 e.2, val2 := BitVec.ofNat 64 e.1 }
  | none =>
    (locateAll s c k .store n as_ []).bind fun s es =>
    (waitsFor s c k true n es).bind fun s _ =>
    let own := match i with
      | .vstl _ _ _ => if as_ = [] then 0 else 1
      | _ => (lineSet es isOwn).length
    let far := (lineSet es Target.isPosted).length
    let glob := lineSet es isGlobal
    let logged := own ≤ 32
    (if far ≠ 0 ∨ !logged then commitFirst s c k else .ok s ()).bind fun s _ =>
    (roomWait s c k 0 (lineSet es fun t => t.isPosted && t.cls == 0).length).bind fun s _ =>
    (roomWait s c k 1 (lineSet es fun t => t.isPosted && t.cls == 1).length).bind fun s _ =>
    let alone := glob ≠ [] && (far ≠ 0 || !logged)
    (softCloseIf s c k ((own ≠ 0 && (s.thr c k).logFull own) || (glob ≠ [] && !alone && (s.thr c k).bufFull glob))).bind
      fun s _ =>
    (if glob ≠ [] ∧ !alone then ensureChunk s c k else .ok s ()).bind fun s _ =>
    let all := lineSet es fun t => match t with | .global p => p.shared | _ => false
    let s := s.obtain all
    let sh := all.filter fun l => !s.ownsLine l
    let s1 := if glob ≠ [] ∧ !alone then
        s.modThr c k fun t => t.modChunk fun ch =>
          { ch with writes := glob.foldl addLine ch.writes, shared := sh.foldl addLine ch.shared }
      else s
    .ok (s1.enqueue c k i 0 0 (es.map fun e => ⟨e.1, e.2.2.key, n, vplaceOf e.2.2, none⟩)
      (logged && (s1.thr c k).chunk.isSome) alone) {}

/-- Waits for what the addresses of a memory form depend on: the mask and an index register (R150). -/
def addressWait (s : State) (c : Nat) (k : SlotN) (vi : Option VNum) : Got Unit :=
  let v := (s.thr c k).a.csr.vctl
  (stripRoomWait s c k).bind fun s _ =>
  (if menOf v then kregWait s c k (midxOf v) else .ok s ()).bind fun s _ =>
  match vi with
  | some r => vregWait s c k r
  | none => .ok s ()

/-- A vector memory instruction: `f` gives the address of element e (R159). [log 11 DEDUCED] -/
def vmem (i : Instr) (t : VType) (store : Bool) (src : List XReg) (vi : Option VNum) (f : Thread → Nat → Word) (s : State) :
    Out :=
  run { src := src } (fun s c k =>
    (addressWait s c k vi).bind fun s _ =>
    let th := s.thr c k
    let as_ := laneAddrs t (activeLanes th.a th.a.csr.vctl t 0 64) (f th)
    if store then vstoreAt s c k i (laneBytes t) as_ else vloadAt s c k i (laneBytes t) as_) s

/-- Lane slice and byte in it that a lane of VLDL and VSTL names: for c32 those of its element, the imaginary part 4 bytes
above (R159). [log 104 DEDUCED] -/
def slicePlace (t : VType) (b : Word) (l : Nat) : Nat × Nat :=
  let e := if t = .c32 then l / 2 else l
  let up := if t = .c32 then 4 * (l % 2) else 0
  (e % 32, (b + BitVec.ofNat 64 (4 * (e / 32) + up)).toNat % 4096)

/-- VLDL and VSTL: a whole 32-bit lane at its place in the lane slices (R159, R184). [log 104 DEDUCED] -/
def vlane (i : Instr) (t : VType) (store : Bool) (rs1 : XReg) (s : State) : Out :=
  run { src := [rs1] } (fun s c k =>
    (addressWait s c k none).bind fun s _ =>
    let th := s.thr c k
    let b := th.xv rs1
    let as_ := (activeLanes th.a th.a.csr.vctl t 0 64).map fun l =>
      (l, 0xFFFFFFFF00000000 + (slicePlace t b l).1 * 4096 + (slicePlace t b l).2)
    match as_ with
    | e :: _ =>
      if b.toNat % 4 ≠ 0 then
        trap s c k { cause := if store then 6 else 4, val := b + BitVec.ofNat 64 (4 * ((if t = .c32 then e.1 / 2 else e.1) / 32)),
                     val2 := BitVec.ofNat 64 e.1 }
      else if store then vstoreAt s c k i 4 as_ else vloadAt s c k i 4 as_
    | [] => if store then vstoreAt s c k i 4 [] else vloadAt s c k i 4 []) s

/-! ### Meanings: registers -/

/-- VADD (R155). -/
def execVadd (t : VType) (vd vs1 vs2 : VNum) (s : State) : Out :=
  vecRun (.vadd t vd vs1 vs2) (isFp t) s

/-- VSUB (R155). -/
def execVsub (t : VType) (vd vs1 vs2 : VNum) (s : State) : Out :=
  vecRun (.vsub t vd vs1 vs2) (isFp t) s

/-- VMUL (R155). -/
def execVmul (t : VType) (vd vs1 vs2 : VNum) (s : State) : Out :=
  vecRun (.vmul t vd vs1 vs2) (isFp t) s

/-- VFMA (R155). -/
def execVfma (t : VType) (vd vs1 vs2 : VNum) (s : State) : Out :=
  vecRun (.vfma t vd vs1 vs2) (isFp t) s

/-- VFMS (R155). -/
def execVfms (t : VType) (vd vs1 vs2 : VNum) (s : State) : Out :=
  vecRun (.vfms t vd vs1 vs2) (isFp t) s

/-- VMIN (R155). -/
def execVmin (t : VType) (vd vs1 vs2 : VNum) (s : State) : Out :=
  vecRun (.vmin t vd vs1 vs2) (isFp t) s

/-- VMAX (R155). -/
def execVmax (t : VType) (vd vs1 vs2 : VNum) (s : State) : Out :=
  vecRun (.vmax t vd vs1 vs2) (isFp t) s

/-- VABS (R155). -/
def execVabs (t : VType) (vd vs1 : VNum) (s : State) : Out :=
  vecRun (.vabs t vd vs1) (isFp t) s

/-- VNEG (R155). -/
def execVneg (t : VType) (vd vs1 : VNum) (s : State) : Out :=
  vecRun (.vneg t vd vs1) (isFp t) s

/-- VCEQ (R155). -/
def execVceq (t : VType) (kd : KReg) (vs1 vs2 : VNum) (s : State) : Out :=
  vecRun (.vceq t kd vs1 vs2) (isFp t) s

/-- VCLT (R155). -/
def execVclt (t : VType) (kd : KReg) (vs1 vs2 : VNum) (s : State) : Out :=
  vecRun (.vclt t kd vs1 vs2) (isFp t) s

/-- VCLE (R155). -/
def execVcle (t : VType) (kd : KReg) (vs1 vs2 : VNum) (s : State) : Out :=
  vecRun (.vcle t kd vs1 vs2) (isFp t) s

/-- VSEL (R155). -/
def execVsel (t : VType) (vd vs1 vs2 : VNum) (s : State) : Out :=
  vecRun (.vsel t vd vs1 vs2) (isFp t) s

/-- VDIV (R39, R156). -/
def execVdiv (vd vs1 vs2 : VNum) (s : State) : Out :=
  vecRun (.vdiv vd vs1 vs2) true s

/-- VSQRT (R39, R156). -/
def execVsqrt (vd vs1 : VNum) (s : State) : Out :=
  vecRun (.vsqrt vd vs1) true s

/-- VRSQRT (R39, R156). -/
def execVrsqrt (vd vs1 : VNum) (s : State) : Out :=
  vecRun (.vrsqrt vd vs1) true s

/-- VRCP (R39, R156). -/
def execVrcp (vd vs1 : VNum) (s : State) : Out :=
  vecRun (.vrcp vd vs1) true s

/-- VEXP2 (R39, R156). -/
def execVexp2 (vd vs1 : VNum) (s : State) : Out :=
  vecRun (.vexp2 vd vs1) true s

/-- VLOG2 (R39, R156). -/
def execVlog2 (vd vs1 : VNum) (s : State) : Out :=
  vecRun (.vlog2 vd vs1) true s

/-- VSIN (R39, R156). -/
def execVsin (vd vs1 : VNum) (s : State) : Out :=
  vecRun (.vsin vd vs1) true s

/-- VCOS (R39, R156). -/
def execVcos (vd vs1 : VNum) (s : State) : Out :=
  vecRun (.vcos vd vs1) true s

/-- VAND (R157). -/
def execVand (t : VType) (vd vs1 vs2 : VNum) (s : State) : Out :=
  vecRun (.vand t vd vs1 vs2) false s

/-- VOR (R157). -/
def execVor (t : VType) (vd vs1 vs2 : VNum) (s : State) : Out :=
  vecRun (.vor t vd vs1 vs2) false s

/-- VXOR (R157). -/
def execVxor (t : VType) (vd vs1 vs2 : VNum) (s : State) : Out :=
  vecRun (.vxor t vd vs1 vs2) false s

/-- VSHL (R157). -/
def execVshl (t : VType) (vd vs1 vs2 : VNum) (s : State) : Out :=
  vecRun (.vshl t vd vs1 vs2) false s

/-- VSHR (R157). -/
def execVshr (t : VType) (vd vs1 vs2 : VNum) (s : State) : Out :=
  vecRun (.vshr t vd vs1 vs2) false s

/-- VSRA (R157). -/
def execVsra (t : VType) (vd vs1 vs2 : VNum) (s : State) : Out :=
  vecRun (.vsra t vd vs1 vs2) false s

/-- VCADD (R38, R158). -/
def execVcadd (vd vs1 vs2 : VNum) (s : State) : Out :=
  vecRun (.vcadd vd vs1 vs2) true s

/-- VCSUB (R38, R158). -/
def execVcsub (vd vs1 vs2 : VNum) (s : State) : Out :=
  vecRun (.vcsub vd vs1 vs2) true s

/-- VCMUL (R38, R158). -/
def execVcmul (vd vs1 vs2 : VNum) (s : State) : Out :=
  vecRun (.vcmul vd vs1 vs2) true s

/-- VCFMA (R38, R158). -/
def execVcfma (vd vs1 vs2 : VNum) (s : State) : Out :=
  vecRun (.vcfma vd vs1 vs2) true s

/-- VCCONJ (R38, R158). -/
def execVcconj (vd vs1 : VNum) (s : State) : Out :=
  vecRun (.vcconj vd vs1) true s

/-- VCMAG2 (R38, R158). -/
def execVcmag2 (vd vs1 : VNum) (s : State) : Out :=
  vecRun (.vcmag2 vd vs1) true s

/-- VCEXPJ (R38, R158). -/
def execVcexpj (vd vs1 : VNum) (s : State) : Out :=
  vecRun (.vcexpj vd vs1) true s

/-! ### Meanings: memory and moves -/

/-- VLD (R159, R160). -/
def execVld (t : VType) (vd : VNum) (rs1 : XReg) (s : State) : Out :=
  vmem (.vld t vd rs1) t false [rs1] none
    (fun th e => th.xv rs1 + BitVec.ofNat 64 (e * elemBytes t)) s

/-- VLDS (R159, R160). -/
def execVlds (t : VType) (vd : VNum) (rs1 rs2 : XReg) (s : State) : Out :=
  vmem (.vlds t vd rs1 rs2) t false [rs1, rs2] none
    (fun th e => th.xv rs1 + BitVec.ofNat 64 e * th.xv rs2) s

/-- VST (R159, R160). -/
def execVst (t : VType) (vs : VNum) (rs1 : XReg) (s : State) : Out :=
  vmem (.vst t vs rs1) t true [rs1] none
    (fun th e => th.xv rs1 + BitVec.ofNat 64 (e * elemBytes t)) s

/-- VSTS (R159, R160). -/
def execVsts (t : VType) (vs : VNum) (rs1 rs2 : XReg) (s : State) : Out :=
  vmem (.vsts t vs rs1 rs2) t true [rs1, rs2] none
    (fun th e => th.xv rs1 + BitVec.ofNat 64 e * th.xv rs2) s

/-- VGATH (R159, R160). -/
def execVgath (t : VType) (vd : VNum) (rs1 : XReg) (vi : VNum) (s : State) : Out :=
  vmem (.vgath t vd rs1 vi) t false [rs1] (some vi)
    (fun th e => th.xv rs1 + BitVec.ofNat 64 ((th.a.lane vi (if t = .c32 then 2 * e else e)).toNat * elemBytes t)) s

/-- VSCAT (R159, R160). -/
def execVscat (t : VType) (vs : VNum) (rs1 : XReg) (vi : VNum) (s : State) : Out :=
  vmem (.vscat t vs rs1 vi) t true [rs1] (some vi)
    (fun th e => th.xv rs1 + BitVec.ofNat 64 ((th.a.lane vi (if t = .c32 then 2 * e else e)).toNat * elemBytes t)) s

/-- VLDL (R159, R160). -/
def execVldl (t : VType) (vd : VNum) (rs1 : XReg) (s : State) : Out :=
  vlane (.vldl t vd rs1) t false rs1 s

/-- VSTL (R159, R160). -/
def execVstl (t : VType) (vs : VNum) (rs1 : XReg) (s : State) : Out :=
  vlane (.vstl t vs rs1) t true rs1 s

/-- VBCAST (R159). -/
def execVbcast (t : VType) (vd : VNum) (rs1 : XReg) (s : State) : Out :=
  vecRun (.vbcast t vd rs1) false s [rs1] fun th => th.xv rs1

/-- VINS (R159). -/
def execVins (t : VType) (vd : VNum) (rs1 rs2 : XReg) (s : State) : Out :=
  vecRun (.vins t vd rs1 rs2) false s [rs1, rs2] (fun th => th.xv rs1) fun th => th.xv rs2

/-- VMVX: one lane extended into rd, once the strips that write its register have completed (R151, R159). -/
def execVmvx (t : VType) (rd rs1 : XReg) (vs2 : VNum) (s : State) : Out :=
  run { src := [rs1], dst := [rd] } (fun s c k =>
    (vregWait s c k vs2).bind fun s _ =>
    let th := s.thr c k
    let w := th.a.lane vs2 ((th.xv rs1).toNat % (if th.paired then 64 else 32))
    let v : Word := match t with
      | .bf16 => BitVec.ofNat 64 (elemBits t w)
      | .f16 => BitVec.ofNat 64 (elemBits t w)
      | .u8 => BitVec.ofNat 64 (elemBits t w)
      | .i8 => (w.setWidth 8 : BitVec 8).signExtend 64
      | _ => w.signExtend 64
    .ok s { ws := [.x rd v] }) s

/-- VCFG: sets VL, and with rs2 the other fields (R161). -/
def execVcfg (rd rs1 rs2 : XReg) (s : State) : Out :=
  run { src := [rs1, rs2], dst := [rd] } (fun s c k =>
    let t := s.thr c k
    let vl := min (t.xv rs1).toNat (if t.paired then 64 else 32)
    let old := t.a.csr.vctl
    let mid : Word := if rs2 = 0 then old else old &&& ~~~(0x7FF00#64) ||| (t.xv rs2 &&& 0x7FF00#64)
    let v := vctlField t.paired (mid &&& ~~~(0x7F#64) ||| BitVec.ofNat 64 vl)
    .ok (s.modThr c k fun t => { t with a := { t.a with csr := { t.a.csr with vctl := v } } })
      { ws := [.x rd (BitVec.ofNat 64 vl)] }) s

/-! ### Meanings: reductions, conversions, permutation, masks -/

/-- VREDADD (R162). -/
def execVredadd (t : VType) (vd vs1 : VNum) (s : State) : Out :=
  vecRun (.vredadd t vd vs1) (isFp t) s

/-- VREDMAX (R162). -/
def execVredmax (t : VType) (vd vs1 : VNum) (s : State) : Out :=
  vecRun (.vredmax t vd vs1) (isFp t) s

/-- VREDMIN (R162). -/
def execVredmin (t : VType) (vd vs1 : VNum) (s : State) : Out :=
  vecRun (.vredmin t vd vs1) (isFp t) s

/-- VCVT: with DTYPE c32 the instruction is illegal (R163). -/
def execVcvt (t : VType) (vd vs1 : VNum) (s : State) : Out :=
  run {} (fun s c k =>
    let ty := dtypeOf (s.thr c k).a.csr.vctl
    if ty = .c32 then illegal s c k else
    (stripRoomWait s c k).bind fun s _ =>
    let s1 := s.enqueue c k (.vcvt t vd vs1) 0 0 [] false false
    if (isFp t || isFp ty) ∧ (s.core c).vfpen ≠ 0 then .stop (s1.park c k (.vec 0 (List.replicate 5 none)))
    else .ok s1 {}) s

/-- VPACK (R164). -/
def execVpack (vd vs1 : VNum) (fc : Fin 10) (s : State) : Out :=
  vecRun (.vpack vd vs1 fc) false s

/-- VUNPK (R164). -/
def execVunpk (vd vs1 : VNum) (fc : Fin 10) (s : State) : Out :=
  vecRun (.vunpk vd vs1 fc) false s

/-- VPERM (R165). -/
def execVperm (t : VType) (vd vs1 vs2 : VNum) (s : State) : Out :=
  vecRun (.vperm t vd vs1 vs2) false s

/-- VSLIDE (R165). -/
def execVslide (t : VType) (vd vs1 : VNum) (rs2 : XReg) (s : State) : Out :=
  vecRun (.vslide t vd vs1 rs2) false s [rs2] fun th => th.xv rs2

/-- VKOP and (R166). -/
def execVkopAnd (kd ka kb : KReg) (s : State) : Out :=
  vecRun (.vkopAnd kd ka kb) false s

/-- VKOP or (R166). -/
def execVkopOr (kd ka kb : KReg) (s : State) : Out :=
  vecRun (.vkopOr kd ka kb) false s

/-- VKOP xor (R166). -/
def execVkopXor (kd ka kb : KReg) (s : State) : Out :=
  vecRun (.vkopXor kd ka kb) false s

/-- VKOP not (R166). -/
def execVkopNot (kd ka : KReg) (s : State) : Out :=
  vecRun (.vkopNot kd ka) false s

/-- VKOP fromx: in the scalar pipeline, behind the strips that read or write masks (R150, R166). [log 12 DEDUCED] -/
def execVkopFromx (kd : KReg) (rs1 : XReg) (s : State) : Out :=
  run { src := [rs1] } (fun s c k =>
    (stripsWait s c k).bind fun s _ => .ok s { ws := [.k kd ((s.thr c k).xv rs1)] }) s

/-- VKOP tox (R151, R166). [log 12 DEDUCED; 130 DESIGN CHOICE] -/
def execVkopTox (rd : XReg) (ka : KReg) (s : State) : Out :=
  run { dst := [rd] } (fun s c k =>
    (kregWait s c k ka).bind fun s _ => .ok s { ws := [.x rd (s.thr c k).a.k[ka]] }) s

/-- VKOP count: the 1 bits of k[ka] below VLmax (R151, R166). [log 12 DEDUCED] -/
def execVkopCount (rd : XReg) (ka : KReg) (s : State) : Out :=
  run { dst := [rd] } (fun s c k =>
    (kregWait s c k ka).bind fun s _ =>
    let t := s.thr c k
    let n := ((List.range (if t.paired then 64 else 32)).filter fun l => t.a.kbit ka l).length
    .ok s { ws := [.x rd (BitVec.ofNat 64 n)] }) s

/-- VFENCE (R151, R167). -/
def execVfence (s : State) : Out :=
  run {} (fun s c k => (stripsWait s c k).bind fun s _ => .ok s {}) s

/-- VSTAT (R151, R167). -/
def execVstat (rd : XReg) (s : State) : Out :=
  run { dst := [rd] } (fun s c k =>
    (stripsWait s c k).bind fun s _ => .ok s { ws := [.x rd ((s.thr c k).userCsr 0x801)] }) s

/-! ### Strips -/

/-- Applies a strip's register results; a chunk that opened after the strip was issued holds them in its start (R154). [log
15 DEDUCED] -/
def Arch.applyRes (a : Arch) (r : VRes) : Arch :=
  let a1 := r.vs.foldl (fun (a : Arch) e => a.setLane r.vd e.1 e.2) a
  r.ks.foldl (fun (a : Arch) e => a.setK e.1 e.2) a1

/-- Changes a thread's registers, and those of every chunk start later than a number. [log 15 DEDUCED] -/
def Thread.modArchFrom (t : Thread) (no : Nat) (f : Arch → Arch) : Thread :=
  let g (ch : Chunk) : Chunk := if no < ch.no then { ch with start := f ch.start } else ch
  { t with a := f t.a, chunk := t.chunk.map g, closed := t.closed.map g }

/-- Changes the chunk of the thread that a strip belongs to. -/
def Thread.modChunkNo (t : Thread) (no : Nat) (f : Chunk → Chunk) : Thread :=
  let g (ch : Chunk) : Chunk := if ch.no = no then f ch else ch
  { t with chunk := t.chunk.map g, closed := t.closed.map g }

/-- Data register of a vector store. -/
def vsOf (i : Instr) : Option VNum :=
  match i with
  | .vst _ v _ => some v
  | .vsts _ v _ _ => some v
  | .vscat _ v _ _ => some v
  | .vstl _ v _ => some v
  | _ => none

/-- Type of a vector memory instruction. -/
def memType (i : Instr) : VType :=
  match i with
  | .vld t _ _ => t
  | .vlds t _ _ _ => t
  | .vgath t _ _ _ => t
  | _ => .f32

/-- The lanes a load writes, local ones read now (R160). [log 126 DESIGN CHOICE] -/
def State.loadRes (s : State) (p : Strip) : VRes :=
  { vd := (vdOf p.instr).getD 0
    vs := p.els.map fun e => (e.lane, placeLane (memType p.instr) (e.val.getD (s.num e.key e.n))) }

/-- Stores one element's cells in order, highest lane last, by line (R160). -/
def State.storeCells (s : State) (c : Nat) (k : SlotN) (p : Strip) (f : VPlace → Bool) : List Host.Cell :=
  match vsOf p.instr with
  | none => []
  | some v =>
    let a := (s.thr c k).a
    (p.els.filter fun e => f e.place).flatMap fun e => cellsAt e.key (leBytes e.n (a.lane v e.lane).toNat)

/-- Cells grouped by 64-byte line, each line once. [log 13 DEDUCED] -/
def byLine (cs : List Host.Cell) : List (List Host.Cell) :=
  (cs.foldl (fun ls e => addLine ls (e.1 / 64)) []).map fun l => cs.filter fun e => e.1 / 64 == l

/-- Performs a strip's local stores, logged by line in the chunk it belongs to (R160, R241). -/
def State.stripLocal (s : State) (c : Nat) (k : SlotN) (p : Strip) : State :=
  let cs := s.storeCells c k p fun x => match x with | .lane => true | .own => true | _ => false
  if cs = [] then s else
  let groups := match p.instr with
    | .vstl _ _ _ => [cs]
    | _ => byLine cs
  groups.foldl (fun s g =>
    let old := g.map fun e => (e.1, s.byte e.1)
    let s1 := s.pokeCells g.reverse
    if p.logged then s1.modThr c k fun t => t.modChunkNo p.no fun ch => { ch with undo := old :: ch.undo } else s1) s

/-- Performs a strip's global stores: buffered in its chunk; or, where posted stores of the same instruction let no chunk
stay open, committed as a chunk that holds nothing else (R160). [log 13 DEDUCED] -/
def State.stripGlobal (s : State) (c : Nat) (k : SlotN) (p : Strip) : State :=
  let cs := s.storeCells c k p fun x => match x with | .global _ => true | _ => false
  if cs = [] then s
  else if p.alone then
    let ls := cs.foldl (fun ls e => addLine ls (e.1 / 64)) []
    let s1 := ((s.pokeCells cs.reverse).record ls).shStored ((s.thr c k).ref c) ls
    let s2 := ls.foldl (fun s l => s.noteLine (clusterOf c) l) s1
    if p.last then
      (s2.modCore c fun x => x.countEv 6).modThr c k fun t => { t with cc := { t.cc with commit := t.cc.commit + 1 } }
    else s2
  else
    s.modThr c k fun t => t.modChunkNo p.no fun ch =>
      { ch with buf := cs.reverse ++ ch.buf.filter fun e => !cs.any fun x => x.1 == e.1 }

/-- Sends a strip's posted stores, one operation for each line (R160). -/
def State.stripPosted (s : State) (c : Nat) (k : SlotN) (p : Strip) : State :=
  let go (s : State) (f : VPlace → Bool) (cls : Fin 3) (dest : Nat → Nat) : State :=
    (byLine (s.storeCells c k p f)).foldl (fun s g =>
      s.postFor c k cls (dest ((g.head?.map (·.1)).getD 0)) (.cells g.reverse)) s
  let cores := (p.els.filterMap fun e => match e.place with | .remote d => some d | _ => none).foldl addLine []
  let s1 := cores.foldl (fun s d => go s (fun x => x == .remote d) 0 fun _ => d) s
  go s1 (fun x => x == .slate) 1 fun key => key / 64 * 64

/-- The strip belongs to a load whose elements have not all arrived: its thread still waits for the reply (R160). -/
def Thread.awaits (t : Thread) (p : Strip) : Bool :=
  match t.wait with
  | .reply _ _ _ => p.away && p.issued == t.parkedAt
  | _ => false

/-- An element in a scratchpad is held by the lock of another slot of the core (R214). -/
def State.elHeld (s : State) (c : Nat) (k : SlotN) (e : VEl) : Bool :=
  e.place == .own && match s.spadOf e.key with
    | some (d, off) => s.lockHolds d off e.n (some (c, k))
    | none => false

/-- A line that a strip commits by itself must wait: for the solo chunk of another thread, or for its ownership (R245,
R255). [log 13 DEDUCED; 90 DEDUCED] -/
def State.aloneHeld (s : State) (r : TRef) (e : VEl) : Bool :=
  (e.place == .global true && !s.ownsLine (e.key / 64)) ||
  match s.soloLines with
  | some (o, ls) => o != r && ls.contains (e.key / 64)
  | none => false

/-- The strip may execute: it was issued in an earlier cycle, its elements have arrived, its posted counters have room, and
no lock or solo chunk of another thread holds it (R60, R122, R160, R214, R245). -/
def State.stripReady (s : State) (c : Nat) (k : SlotN) (p : Strip) : Bool :=
  let t := s.thr c k
  p.issued < (s.core c).cycle && !t.awaits p && !p.els.any (s.elHeld c k) &&
  (!p.isStore || (t.psc0 + postedLines p.els 0 ≤ 0xFFFF && t.psc1 + postedLines p.els 1 ≤ 0xFFFF)) &&
  (!p.alone || !p.els.any (s.aloneHeld (t.ref c)))

/-- The next strip of the thread in a slot to execute (R60). -/
def State.nextStrip (s : State) (c : Nat) (k : SlotN) : Option Strip :=
  match (s.thr c k).vq.find? fun p => p.done.isNone with
  | some p => if s.stripReady c k p then some p else none
  | none => none

/-- Marks the first strip that has not executed. -/
def markDone (f : Strip → Strip) : List Strip → List Strip
  | [] => []
  | p :: ps => if p.done.isNone then f p :: ps else p :: markDone f ps

/-- Executes the next strip of the thread in a slot (R60, R160). [log 14 DEDUCED; 129 DESIGN CHOICE] -/
def State.runStrip (s : State) (c : Nat) (k : SlotN) : State :=
  let now := (s.core c).cycle
  let t := s.thr c k
  match s.nextStrip c k with
  | none => s
  | some p =>
    let e4 := match s.partOf c with
      | some q => q.mode.e4nan
      | none => false
    let r := if p.isStore then {}
      else if p.els ≠ [] then s.loadRes p
      else stripRes p.instr ⟨t.a, p.vctl, p.odd, p.last, p.scalar, p.scalar2, t.paired, e4⟩
    let s1 := if p.isStore then ((s.stripLocal c k p).stripGlobal c k p).stripPosted c k p else s
    s1.modThr c k fun t =>
      let t1 := t.modArchFrom p.no fun a => a.applyRes r
      { t1 with
        vq := markDone (fun p => { p with done := some now, flags := r.flags, lanes := r.lanes }) t.vq
        vimg := t.vimg || r.vs != [], dirty := t.dirty || r.vs != [] }

/-- The elements of a strip's instruction are local, so that its load takes the local latency (R152). -/
def Strip.local_ (p : Strip) : Bool := !p.away

/-- The strip has executed and completes by a cycle (R152). -/
def Strip.over (p : Strip) (now : Nat) : Bool :=
  match p.done with
  | some d => d + latencyOf p.instr p.local_ ≤ now
  | none => false

/-- Some strip of the thread completes by a cycle, each by its own latency (R152). -/
def Thread.stripDue (t : Thread) (now : Nat) : Bool := t.vq.any fun p => p.over now

/-- ORs flags into `vstat` (R31). [log 101 DEDUCED] -/
def UserCsrs.orFlags (u : UserCsrs) (f : BitVec 5) : UserCsrs := { u with vstat := u.vstat ||| f.setWidth 64 }

/-- Completes a strip of the thread in a slot that is due: its flags enter `vstat`; under VFPEN the waiting instruction, the
last in the queue, completes with its last strip, or traps with cause 34 (R150, R152, R153). [log 83 DEDUCED; 101 DEDUCED]
-/
def State.completeStrip (s : State) (c : Nat) (k : SlotN) : State :=
  let now := (s.core c).cycle
  let t := s.thr c k
  match t.vq.find? fun p => p.over now with
  | none => s
  | some p =>
    let s1 := s.modThr c k fun t =>
      { t.modArchFrom p.no fun a => { a with csr := a.csr.orFlags p.flags } with vq := t.vq.eraseP fun p => p.over now }
    match t.st, t.wait with
    | .parked, .vec f ls =>
      -- a strip of an earlier instruction of the thread
      if (t.vq.getLast?.map (·.issued)) != some p.issued then s1 else
      let f' := f ||| p.flags
      let ls' := (ls.zip p.lanes).map fun e => e.1.or e.2
      if ((s1.thr c k).vq.any fun q => q.issued == p.issued) then s1.modThr c k fun t => { t with wait := .vec f' ls' }
      else
        let hit := f' &&& (s.core c).vfpen
        if hit = 0 then
          s1.modThr c k fun t => { t.finish none 4 with resumedAt := now }
        else
          let low := (List.range 5).foldl (fun (m : Nat) b =>
            if hit.getLsbD b then match ls'.getD b none with | some l => min m l | none => m else m) 63
          { s1 with curWord := p.word }.takeTrap c k { cause := 34, val := hit.setWidth 64, val2 := BitVec.ofNat 64 low }
    | _, _ => s1

/-- STRIP_EXECUTE: the next strip of the subject's thread executes (R60, R61). -/
def execStripExecute (s : State) : Out := onThread s fun c k _ => s.runStrip c k

/-- STRIP_COMPLETE: a strip of the subject's thread completes (R152, R153). -/
def execStripComplete (s : State) : Out := onThread s fun c k _ => s.completeStrip c k

end Sys2Proof.Machine
end

