-- ==== Sys2Proof/Machine/Crucible.lean ====
section
/-! DEFINITION. Crucible.lean: regions and rows of the Crucible, the stream accumulator instructions, and what a bank does
(R42 to R46, R220 to R237). -/

namespace Sys2Proof.Machine

/-! ### Rows in memory -/

/-- Stride of a row of n elements (R220). -/
def rowStride (n : Nat) : Nat := 12 * n + 64

/-- A number of n bytes as two's complement. -/
def signedNum (n v : Nat) : Int := if 2 ^ (8 * n - 1) ≤ v then (v : Int) - 2 ^ (8 * n) else v

/-- The bytes of an integer in n bytes of two's complement. -/
def signedBytes (n : Nat) (i : Int) : List Byte := leBytes n (i % 2 ^ (8 * n)).toNat

/-- The row image of R222. -/
def Row.image (r : Row) : List Byte :=
  leBytes 26 r.s.toNat ++ List.replicate 6 0 ++ signedBytes 14 r.sx ++ [0] ++
  [BitVec.ofNat 8 (r.sat.toNat + 2 * r.inv.toNat)] ++ r.x.flatMap fun i => signedBytes 12 i

/-- The row that an image of n elements holds (R222). -/
def rowOfImage (bs : List Byte) (n : Nat) : Row :=
  let f := ((bs.drop 47).headD 0).toNat
  { x := (List.range n).map fun i => signedNum 12 (leNat ((bs.drop (48 + 12 * i)).take 12))
    sx := signedNum 14 (leNat ((bs.drop 32).take 14)), s := leNat (bs.take 26)
    sat := f.testBit 0, inv := f.testBit 1 }

/-- The lossy form of R222. -/
def Row.lossy (r : Row) (q : Int) : List Byte :=
  leBytes 8 (round64 (.ofInt r.s (2 * q))) ++ leBytes 8 (round64 (.ofInt r.sx q)) ++
  leBytes 4 (r.sat.toNat + 2 * r.inv.toNat) ++ leBytes 4 r.x.length ++ List.replicate 8 0 ++
  r.x.flatMap fun i => leBytes 4 (round32 (.ofInt i q))

/-- A row of n elements at a key; its head holds the statistics as an image does. -/
def State.rowAt (s : State) (key n : Nat) : Row := rowOfImage (s.bytes key (48 + 12 * n)) n
/-- Replaces a row. -/
def State.putRow (s : State) (key : Nat) (r : Row) : State := s.poke key r.image
/-- A row of zeros (R42). -/
def Row.zero (n : Nat) : Row := ⟨List.replicate n 0, 0, 0, false, false⟩

/-- A core of the die whose Slate holds a row, by whose `loc` its bank goes (R357). [log 60 DEDUCED] -/
def bankCore (key : Nat) : Nat := (key - 2 ^ 62) / 2 ^ 27 * 512

/-- An uncorrectable error in a row's storage sets INV, and the operation that met it leaves a record for the supervisor of
its core (R237). [log 31 DEDUCED] -/
def State.rowError (s : State) (c key n : Nat) (base : Word) : State :=
  match badIn s.bad key (48 + 12 * n) with
  | none => s
  | some _ =>
    let s1 := s.putRow key { s.rowAt key n with inv := true }
    ({ s1 with bad := s1.bad.filter fun u => !unitMeets u key (rowStride n) }).unitRec c (bankCore key) 31 5 base base 0 0

/-! ### Locating a row -/

/-- Where a Crucible address lies: region, row, offset in the row, key of the row (R224). -/
structure Located where
  reg : Region
  row : Nat
  off : Nat
  key : Nat
  deriving DecidableEq, Repr

/-- The region that holds a key of a die. -/
def Part.regionAt (p : Part) (d key : Nat) : Option Region :=
  p.regions.find? fun r => r.die == d && r.base ≤ key && key < r.base + r.rows * rowStride r.n

/-- The locate step: none for an address in no allocated region (R224). -/
def State.locate (s : State) (c a : Nat) : Option Located :=
  match s.place c a, s.partOf c with
  | .crucible d key, some p =>
    (p.regionAt d key).map fun r =>
      let o := key - r.base
      ⟨r, o / rowStride r.n, o % rowStride r.n, key - o % rowStride r.n⟩
  | _, _ => none

/-- A failed locate (R224). -/
def crucibleTrap {α : Type} (s : State) (c : Nat) (k : SlotN) (a : Word) (code : Nat) : Got α :=
  trap s c k { cause := 32, val := a, val2 := BitVec.ofNat 64 code }

/-- Locates a row base (R224). -/
def rowFor (s : State) (c : Nat) (k : SlotN) (a : Word) : Got Located :=
  match s.locate c a.toNat with
  | none => crucibleTrap s c k a 2
  | some l => if l.off = 0 then .ok s l else crucibleTrap s c k a 3

/-- Locates an element whose index is a multiple of 32 (R224). -/
def elemFor (s : State) (c : Nat) (k : SlotN) (a : Word) : Got (Located × Nat) :=
  match s.locate c a.toNat with
  | none => crucibleTrap s c k a 2
  | some l =>
    let i := (l.off - 48) / 12
    if l.off < 48 ∨ (l.off - 48) % 12 ≠ 0 ∨ i % 32 ≠ 0 ∨ l.reg.n ≤ i then crucibleTrap s c k a 3 else .ok s (l, i)

/-- The destination of a posted operation on a row: its bank (R248). [log 30 DEDUCED] -/
def bankDest (key : Nat) : Nat := key

/-- Waits while the bank of a row holds a record for its stamp (R356). -/
def bankWait (s : State) (c : Nat) (k : SlotN) (key : Nat) : Got Unit :=
  waitFor s c k (.bank key) ((s.heldStamp (bankCore key) 4).isNone)

/-- Waits until the thread's own additions are performed (R228). [log 29 DEDUCED] -/
def ownAddsWait (s : State) (c : Nat) (k : SlotN) : Got Unit := waitFor s c k (.wclass 1) ((s.thr c k).psc1 = 0)

/-! ### SACFG -/

/-- Bytes of regions of a partition on a die. -/
def Region.size (r : Region) : Nat := r.rows * rowStride r.n

/-- Crucible bytes that a launch reserved on each die (R225). -/
def Launch.crucible (l : Launch) : Nat := l.f 7 32 32 * 196672

/-- Reserved bytes of a placed launch on a die that no region has drawn (R225). [log 64 DEDUCED] -/
def Part.unusedOf (p : Part) (d : Nat) (l : Launch) : Nat :=
  if l.placed.contains d then
    l.crucible - ((p.regions.filter fun r => r.die == d).map fun r => match r.drawn with
      | some (id, n) => if id = l.id then n else 0
      | none => 0).sum
  else 0

/-- First key and bytes of a partition's Crucible on a die (R220). -/
def Part.crucibleOf (p : Part) (d : Nat) : Nat × Nat :=
  let (lo, n, cr) := p.slateOf d
  (slateKey d (lo + (n - cr)), min n cr)

/-- The lowest free span of a size in the Crucible of a die (R225). -/
def Part.freeSpan (p : Part) (d size : Nat) : Option Nat :=
  let (lo, n) := p.crucibleOf d
  let rs := p.regions.filter fun r => r.die == d
  let ok (a : Nat) : Bool := lo ≤ a && a + size ≤ lo + n && !rs.any fun r => a < r.base + r.size && r.base < a + size
  ((lo :: rs.map fun r => r.base + r.size).filter ok).min?

/-- A posted operation on a region is in flight (R225). -/
def State.regionBusy (s : State) (r : Region) : Bool :=
  s.posted.any fun p => p.op.span.2 != 0 && 2 ^ 62 ≤ p.op.span.1 && p.op.span.1 < r.base + r.size && r.base ≤ p.op.span.1

/-- The region that a SACFG descriptor asks for; none if it is refused (R221, R225). -/
def regionOf (d : List Byte) (die : Nat) : Option Region :=
  let w (i : Nat) : Nat := leNat ((d.drop (8 * i)).take 8)
  let n := bits (w 0) 32 16
  let eps := bits (w 1) 0 32
  if bits (w 0) 58 2 ≠ 0 ∨ bits (w 1) 32 32 ≠ 0 ∨ w 3 ≠ 0 ∨ bits (w 0) 56 2 = 3 then none
  else if n % 32 ≠ 0 ∨ n < 32 ∨ 16384 < n then none
  else if 0x7F800000 ≤ eps ∨ w 2 % 4 ≠ 0 then none
  else some
    { die := die, idx := bits (w 0) 60 4, base := 0, rows := bits (w 0) 0 32, n := n
      q := signedNum 1 (bits (w 0) 48 8), eps := BitVec.ofNat 32 eps, gamma := BitVec.ofNat 64 (w 2)
      ofmt := bits (w 0) 56 2, drawn := none }

/-- SACFG, its chunk committed first, since no squash may repeat what it does (R225, R254). [log 16 DEDUCED] -/
def execSacfg (g : Guard) (rd rs1 : XReg) (s : State) : Out :=
  run { guard := g, custom3 := false, src := [rs1], dst := [rd] } (fun s c k =>
    let a := (s.thr c k).xv rs1
    (aligned s c k a.toNat 32 4).bind fun s _ =>
    (commitFirst s c k).bind fun s _ =>
    (blockFor s c k a.toNat 32 false).bind fun s d =>
    let die := dieOf c
    match regionOf d.1 die, s.partOf c with
    | some r, some p =>
      let old := p.regions.find? fun x => x.die == die && x.idx == r.idx
      if r.rows = 0 then
        match old with
        | none => deliver s c k d.2 { ws := [.x rd 0] }
        | some x =>
          (waitFor s c k (.region die r.idx) (!s.regionBusy x)).bind fun s _ =>
          deliver (s.modPart p.cfg.part fun p => { p with regions := p.regions.erase x }) c k d.2 { ws := [.x rd 0] }
      else
        let used := ((p.regions.filter fun x => x.die == die).map Region.size).sum
        let mine := (s.thr c k).launch
        let kept := ((p.launches.filter fun l => l.id != mine).map (p.unusedOf die)).sum
        match old, p.freeSpan die r.size with
        | none, some base =>
          if (p.crucibleOf die).2 < used + kept + r.size then deliver s c k d.2 { ws := [.x rd 0] } else
          let own := match p.launches.find? fun l => l.id == mine with
            | some l => min r.size (p.unusedOf die l)
            | none => 0
          let r' := { r with base := base, drawn := if own = 0 then none else some (mine, own) }
          let s1 := s.modPart p.cfg.part fun p => { p with regions := p.regions ++ [r'] }
          let s2 := (List.range r.rows).foldl (fun s j => s.poke (base + j * rowStride r.n) (List.replicate (rowStride r.n) 0)) s1
          let off := base - slateKey die (p.slateOf die).1
          deliver s2 c k d.2 { ws := [.x rd (BitVec.ofNat 64 (0xFFFFFFC000000000 + off))] }
        | _, _ => deliver s c k d.2 { ws := [.x rd 0] }
    | _, _ => illegal s c k a) s

/-! ### SADD, SZERO -/

/-- The active lanes 0 to 31 of a register, with their words (R147, R226). -/
def Thread.addends (t : Thread) (vs : VNum) : List (Nat × Word32) :=
  ((List.range 32).filter fun l => laneActive t.a t.a.csr.vctl l).map fun l => (l, t.a.lane vs l)

/-- Sends the SADD of a register at an element (R226). -/
def saddTo (s : State) (c : Nat) (k : SlotN) (vs : VNum) (l : Located) (i : Nat) (base : Word) (bf : Bool) : Got Completion :=
  (vregWait s c k vs).bind fun s _ =>
  (kregWait s c k (midxOf (s.thr c k).a.csr.vctl)).bind fun s _ =>
  (gate s c k 1 1).bind fun s _ =>
  .ok (s.postFor c k 1 (bankDest l.key) (.sadd l.key l.reg.n base i l.reg.q ((s.thr c k).addends vs) bf)) {}

/-- SADD (R226). [log 29 DEDUCED] -/
def sadd (g : Guard) (vs : VNum) (rs1 : XReg) (bf : Bool) (s : State) : Out :=
  run { guard := g, src := [rs1] } (fun s c k =>
    let a := (s.thr c k).xv rs1
    (elemFor s c k a).bind fun s p => saddTo s c k vs p.1 p.2 (a - BitVec.ofNat 64 p.1.off) bf) s

/-- SADD.F32 (R226). -/
def execSaddF32 (g : Guard) (vs : VNum) (rs1 : XReg) (s : State) : Out := sadd g vs rs1 false s
/-- SADD.BF16 (R226). -/
def execSaddBf16 (g : Guard) (vs : VNum) (rs1 : XReg) (s : State) : Out := sadd g vs rs1 true s

/-- SZERO (R230). -/
def execSzero (g : Guard) (rs1 rs2 : XReg) (s : State) : Out :=
  run { guard := g, src := [rs1, rs2] } (fun s c k =>
    let t := s.thr c k
    let n := (t.xv rs2).toNat
    (rowFor s c k (t.xv rs1)).bind fun s l =>
    if n = 0 ∨ l.reg.rows - l.row < n then crucibleTrap s c k (t.xv rs1) 5 else
    (gate s c k 1 1).bind fun s _ =>
    .ok (s.postFor c k 1 (bankDest l.key) (.szero l.key l.reg.n n)) {}) s

/-! ### At the bank -/

/-- Adds the lanes of an SADD, and the first lane whose addition saturated (R43, R227). -/
def Row.addLanes (r : Row) (i : Nat) (q : Int) (bf : Bool) : List (Nat × Word32) → Row × Option Nat
  | [] => (r, none)
  | (l, w) :: rest =>
    let d := if bf then value .bf16 (w.toNat % 2 ^ 16) else value .fp32 w.toNat
    let r1 := ({ r with sat := false } : Row).saAdd (i + l) d q
    let (r2, m) := ({ r1 with sat := r.sat || r1.sat } : Row).addLanes i q bf rest
    (r2, if r1.sat then some (i + l) else m)

/-- Adds whole units to every element, and ORs flags in (R232, R310). -/
def Row.addRow (r : Row) (xs : List Int) (sat inv : Bool) : Row :=
  let r1 := (xs.zipIdx).foldl (fun (r : Row) p => r.addUnits p.2 p.1) r
  { r1 with sat := r1.sat || sat, inv := r1.inv || inv }

/-- A bank performs a posted SADD, SZERO or whole-row addition, as one indivisible update (R226, R230, R234, R310). [log 31
DEDUCED] -/
def State.bankOp (s : State) (src : TRef) (op : POp) : State :=
  match op with
  | .sadd key n base i q adds bf =>
    let s0 := s.rowError src.core key n base
    s0.putRow key ((s0.rowAt key n).addLanes i q bf adds).1
  | .szero key n rows =>
    (List.range rows).foldl (fun s j =>
      let s1 := s.putRow (key + j * rowStride n) (Row.zero n)
      { s1 with bad := s1.bad.filter fun u => !(u < key + j * rowStride n + rowStride n && key + j * rowStride n < u + unitSize u) }) s
  | .rowAdd key n base xs inv =>
    let s0 := s.rowError src.core key n base
    s0.putRow key ((s0.rowAt key n).addRow xs false inv)
  | _ => s

/-- The lowest saturated element and the row base of an SADD whose core traps saturation (R227). -/
def State.bankSat (s : State) (src : TRef) (op : POp) : Option (Word × Word) :=
  match op with
  | .sadd key n base i q adds bf =>
    if (s.core src.core).supBit 1 then
      (((s.rowAt key n).addLanes i q bf adds).2).map fun e => (base + BitVec.ofNat 64 (48 + 12 * e), base)
    else none
  | _ => none

/-! ### SNORM and SSQ -/

/-- Output format of a region (R221). -/
def Region.fmt (r : Region) : Fmt := match r.ofmt with | 0 => .bf16 | 1 => .e4m3 | _ => .fp32

/-- The γ values of elements, by the causes of a load (R228). [log 16 DEDUCED] -/
def gammas (s : State) (c : Nat) (k : SlotN) (p : Word) : List Nat → Got (List Word32)
  | [] => .ok s []
  | i :: is =>
    (if p = 0 then .ok s 0x3F800000 else
      (blockFor s c k (p + BitVec.ofNat 64 (4 * i)).toNat 4 false).bind fun s bs =>
      .ok s (BitVec.ofNat 32 (leNat bs.1))).bind fun s g =>
    (gammas s c k p is).bind fun s gs => .ok s (g :: gs)

/-- The partition's overflow mode for E4M3 (R33, R326). -/
def State.e4nan (s : State) (c : Nat) : Bool :=
  match s.partOf c with
  | some p => p.mode.e4nan
  | none => false

/-- SNORM (R228). [log 29 DEDUCED] -/
def snorm (g : Guard) (vd : VNum) (rs1 : XReg) (mode : NMode) (s : State) : Out :=
  run { guard := g, src := [rs1] } (fun s c k =>
    let a := (s.thr c k).xv rs1
    (elemFor s c k a).bind fun s p =>
    (ownAddsWait s c k).bind fun s _ =>
    (bankWait s c k p.1.key).bind fun s _ =>
    (waitFor s c k .strips ((s.thr c k).vq = [])).bind fun s _ =>
    let t := s.thr c k
    let ls := (List.range 32).filter fun l => laneActive t.a t.a.csr.vctl l
    (gammas s c k p.1.reg.gamma (ls.map fun l => p.2 + l)).bind fun s gs =>
    let s1 := s.rowError c p.1.key p.1.reg.n (a - BitVec.ofNat 64 p.1.off)
    let r := s1.rowAt p.1.key p.1.reg.n
    let reg := p.1.reg
    let v := (ls.zip gs).foldl (fun (v : VReg) e =>
      setLane v e.1 (BitVec.ofNat 32 (r.norm (p.2 + e.1) mode reg.q reg.eps e.2 reg.fmt (s.e4nan c)))) ((s1.thr c k).a.v[vd])
    replyWait s1 c k { ws := [.v false vd v] }) s

/-- SNORM.RMS (R228). -/
def execSnormRms (g : Guard) (vd : VNum) (rs1 : XReg) (s : State) : Out := snorm g vd rs1 .rms s
/-- SNORM.LAYER (R228). -/
def execSnormLayer (g : Guard) (vd : VNum) (rs1 : XReg) (s : State) : Out := snorm g vd rs1 .layer s
/-- SNORM.UNIT (R228). -/
def execSnormUnit (g : Guard) (vd : VNum) (rs1 : XReg) (s : State) : Out := snorm g vd rs1 .unit s

/-- SSQ (R229). -/
def execSsq (g : Guard) (rd rs1 : XReg) (s : State) : Out :=
  run { guard := g, src := [rs1], dst := [rd] } (fun s c k =>
    let a := (s.thr c k).xv rs1
    (rowFor s c k a).bind fun s l =>
    (ownAddsWait s c k).bind fun s _ =>
    (bankWait s c k l.key).bind fun s _ =>
    let s1 := s.rowError c l.key l.reg.n a
    let v := round64 (.ofInt (s1.rowAt l.key l.reg.n).s (2 * l.reg.q))
    replyWait s1 c k { ws := [.x rd (BitVec.ofNat 64 v)] }) s

/-! ### SEVICT, SLOAD, SEXPORT -/

/-- Writes a kept snapshot to its destination, and waits until every byte is performed; a fault keeps the snapshot (R231,
R233). -/
def writeSnap (s : State) (c : Nat) (k : SlotN) (dst : Word) (bs : List Byte) : Got Completion :=
  match s.place c dst.toNat, s.place c (dst.toNat + bs.length - 1) with
  | .lane _, _ => trap s c k { cause := 7, val := dst, source := 5 }
  | _, _ =>
    match s.spans c dst.toNat bs.length .store (spanFuel bs.length) with
    | (s1, .ok xs) =>
      (spanLockWait s1 c k xs).bind fun s _ =>
      replyWait ((s.spanWrite xs bs).modThr c k fun t => { t with snap := none }) c k {}
    | (s1, .error (a, e)) =>
      -- the bytes before the fault are written
      let n := (a + 2 ^ 64 - dst.toNat) % 2 ^ 64
      let (s2, xs) : State × List (Nat × Nat) := match s1.spans c dst.toNat n .store (spanFuel n) with
        | (s2, .ok xs) => (s2, xs)
        | (s2, .error _) => (s2, [])
      (spanLockWait s2 c k xs).bind fun s _ =>
      let s3 := s.spanWrite xs (bs.take n)
      match e with
      | .trap p =>
        trap s3 c k { p with val := BitVec.ofNat 64 a, val2 := if p.cause = 32 then p.val2 else BitVec.ofNat 64 n, source := 5 }
      | .table p => trap s3 c k { p with val := BitVec.ofNat 64 a, val2 := BitVec.ofNat 64 n, source := 5 }
      | .stage2 p ipa => accStop s3 c k (.stage2 { p with val2 := BitVec.ofNat 64 n, source := 5 } ipa)
      | e => accStop s3 c k e

/-- SEVICT and SEXPORT: the row's snapshot, taken once, is written (R231, R233). -/
def snapOut (g : Guard) (rs1 rs2 : XReg) (evict : Bool) (align : Nat) (s : State) : Out :=
  run { guard := g, src := [rs1, rs2] } (fun s c k =>
    let t := s.thr c k
    let dst := t.xv rs2
    match t.snap with
    | some p => (commitFirst s c k).bind fun s _ => writeSnap s c k dst p.bytes
    | none =>
      (rowFor s c k (t.xv rs1)).bind fun s l =>
      (aligned s c k dst.toNat align 6).bind fun s _ =>
      (commitFirst s c k).bind fun s _ =>
      (ownAddsWait s c k).bind fun s _ =>
      (bankWait s c k l.key).bind fun s _ =>
      let s1 := s.rowError c l.key l.reg.n (t.xv rs1)
      let r := s1.rowAt l.key l.reg.n
      let bs := if evict then r.image else r.lossy l.reg.q
      let s2 := if evict then s1.putRow l.key (Row.zero l.reg.n) else s1
      writeSnap (s2.modThr c k fun t => { t with snap := some ⟨l.key, l.reg.n, evict, bs⟩ }) c k dst bs) s

/-- SEVICT (R231). -/
def execSevict (g : Guard) (rs1 rs2 : XReg) (s : State) : Out := snapOut g rs1 rs2 true 16 s
/-- SEXPORT (R233). -/
def execSexport (g : Guard) (rs1 rs2 : XReg) (s : State) : Out := snapOut g rs1 rs2 false 8 s

/-- The checks of SLOAD on an image (R232). -/
def imageOk (bs : List Byte) (n : Nat) : Bool :=
  let r := rowOfImage bs n
  r.sx == r.x.sum && r.s == (r.x.map fun i => i * i).sum && r.x.all (fun i => -saMax ≤ i && i ≤ saMax) &&
  ((bs.drop 26).take 6).all (· == 0) && (bs.drop 46).headD 0 == 0 && (bs.drop 47).headD 0 &&& 0xFC#8 == 0

/-- SLOAD (R232). -/
def execSload (g : Guard) (rs1 rs2 : XReg) (s : State) : Out :=
  run { guard := g, src := [rs1, rs2] } (fun s c k =>
    let t := s.thr c k
    let src := t.xv rs2
    (rowFor s c k (t.xv rs1)).bind fun s l =>
    (aligned s c k src.toNat 16 4).bind fun s _ =>
    (ownAddsWait s c k).bind fun s _ =>
    (bankWait s c k l.key).bind fun s _ =>
    (commitFirst s c k).bind fun s _ =>
    let n := 12 * l.reg.n + 48
    match s.spans c src.toNat n .load (spanFuel n) with
    | (s1, .error (_, .trap p)) => trap s1 c k { p with source := 5 }
    | (s1, .error (_, .table p)) => trap s1 c k { p with source := 5 }
    | (s1, .error (_, .stage2 p ipa)) => accStop s1 c k (.stage2 { p with source := 5 } ipa)
    | (s1, .error (_, e)) => accStop s1 c k e
    | (s1, .ok xs) =>
      (spanDestWait s1 c k xs).bind fun s _ =>
      (spanLockWait s c k xs).bind fun s _ =>
      (overlapWait s c k 0 (2 ^ 64)).bind fun s _ =>
      match s.spanBad xs with
      | some o => trap s c k { cause := 31, val := src + BitVec.ofNat 64 o, source := 5 }
      | none =>
        let bs := s.spanBytes xs
        if !imageOk bs l.reg.n then crucibleTrap s c k (t.xv rs1) 4 else
        let img := rowOfImage bs l.reg.n
        let s1 := s.rowError c l.key l.reg.n (t.xv rs1)
        replyWait (s1.putRow l.key ((s1.rowAt l.key l.reg.n).addRow img.x img.sat img.inv)) c k {}) s

/-- The kept snapshot of a killed SEVICT is added back into its row (R231). -/
def State.restoreSnap (s : State) (x : Option Snap) : State :=
  match x with
  | some p =>
    if p.evicted then
      let img := rowOfImage p.bytes p.n
      s.putRow p.row ((s.rowAt p.row p.n).addRow img.x img.sat img.inv)
    else s
  | none => s

/-! ### Steps of the banks -/

/-- The acknowledgement of a posted operation sets out, with what an SADD's reply reports (R227, R247). -/
def State.acked (s : State) (p : Posted) (sat : Option (Word × Word) := none) : State :=
  { s with posted := s.posted.erase p, acks := s.acks ++ [⟨p.src, p.cls, p.launch, p.op.spans, sat⟩] }

/-- The switched-out context that holds a thread: its partition and the context (R386). -/
def State.away (s : State) (r : TRef) : Option (Nat × CoreCtx) :=
  if (s.partOfRef r) = (s.core r.core).part then none else
  (s.shadow.find? fun e => s.partOfRef r == some e.1 && e.2.1 == r.core).map fun e => (e.1, e.2.2)

/-- The core of a thread, with the thread's context in it also where that is switched out (R236, R387). -/
def State.coreFor (s : State) (r : TRef) : Core :=
  match s.away r with
  | none => s.core r.core
  | some (n, x) => { s.core r.core with c := x, part := some n }

/-- What a step does to the context of a thread's core, wherever that stands: a switched-out one takes the core's place for
it (R236, R387). [log 76 DEDUCED] -/
def State.inCtx (s : State) (r : TRef) (f : State → State) : State :=
  match s.away r with
  | none => f s
  | some (n, _) =>
    let k := s.core r.core
    let s1 := f (s.modCore r.core fun _ => s.coreFor r)
    let y := (s1.core r.core).c
    let s2 : State := { s1 with
      shadow := s1.shadow.map fun (e : Nat × Nat × CoreCtx) => if e.1 = n ∧ e.2.1 = r.core then (n, e.2.1, y) else e }
    s2.modCore r.core fun z => { z with c := k.c, part := k.part }

/-- A bank performs a posted operation and acknowledges it, for a thread of a halted partition too (R227, R234, R236, R247).
-/
def State.bankStep (s : State) (p : Posted) : State :=
  s.inCtx p.src fun s => (s.bankOp p.src p.op).acked p (s.bankSat p.src p.op)

/-- The posted operation at a place of `posted`, if its thread has no earlier one to the same destination (R248). [log 30
DEDUCED] -/
def State.postedAt (s : State) (i : Nat) : Option Posted :=
  match s.posted[i]? with
  | some p => if (s.posted.take i).any fun q => q.src == p.src && q.dests.any p.dests.contains then none else some p
  | none => none

/-- A posted SADD, SZERO or whole-row addition is performed at its bank and acknowledged: the subject's index names it in
`posted` (R234). [log 30 DEDUCED] -/
def execSaddBankUpdate (s : State) : Out :=
  match s.postedAt s.subject.idx with
  | some p => match p.op with
    | .sadd _ _ _ _ _ _ _ => .next (s.bankStep p)
    | .szero _ _ _ => .next (s.bankStep p)
    | .rowAdd _ _ _ _ _ => .next (s.bankStep p)
    | _ => .next s
  | none => .next s

/-- What an addition does whose row's storage an error has struck: the record stands in its thread's context (R237, R387).
-/
def State.errorFor (s : State) (p : Posted) (key n : Nat) (base : Word) : State :=
  match badIn s.bad key (48 + 12 * n) with
  | none => s
  | some _ => s.inCtx p.src fun s => s.rowError p.src.core key n base

/-- A posted addition meets an uncorrectable error in the storage of its row: INV is set, and the operation leaves a record
for the supervisor of the core that issued it; the subject's index names it in `posted` (R237). [log 31 DEDUCED] -/
def execCrucibleRowError (s : State) : Out :=
  match s.postedAt s.subject.idx with
  | some p => match p.op with
    | .sadd key n base _ _ _ _ => .next (s.errorFor p key n base)
    | .rowAdd key n base _ _ => .next (s.errorFor p key n base)
    | _ => .next s
  | none => .next s

end Sys2Proof.Machine
end

