-- ==== Sys2Proof/Machine/Tongs.lean ====
section
/-! DEFINITION. Tongs.lean: pair task instructions and the steps of the Tongs units (R295 to R311). -/

namespace Sys2Proof.Machine

/-! ### Packets -/

namespace Task

/-- Word 0. -/
def w0 (t : Task) : Nat := (t.w.getD 0 0).toNat
/-- DESC. -/
def desc (t : Task) : Nat := bits t.w0 0 4
/-- PQ. -/
def pq (t : Task) : Bool := t.w0.testBit 4
/-- Priority key (R297). -/
def key (t : Task) : Nat := bits t.w0 40 24 * 2 ^ 8 + bits t.w0 16 8
/-- Sets a flag bit of word 0. -/
def mark (t : Task) (i : Nat) : Task := { t with w := t.w.set 0 (t.w.getD 0 0 ||| BitVec.ofNat 64 (2 ^ i)) }
/-- The 32 bytes. -/
def bytes (t : Task) : List Byte := (List.range 4).flatMap fun i => leBytes 8 (t.w.getD i 0).toNat

end Task

/-- A task as it is pushed: STOLEN and SPILLED cleared (R304). -/
def freshTask (w : List Word) (launch : BitVec 32) : Task := ⟨w.set 0 (w.getD 0 0 &&& ~~~0x60#64), launch⟩

/-- A pair descriptor entry of a partition (R295). -/
def Part.pair (p : Part) (d : Nat) : PairDesc := p.pairs.toList.getD d .reset

/-- A task may go to a thread: its launch, a descriptor the thread serves, a valid entry (R302). -/
def Part.eligible (p : Part) (t : Thread) (x : Task) : Bool :=
  x.launch == t.launch && t.serve.getLsbD x.desc && (p.pair x.desc).pc != 0

/-! ### The frontier -/

/-- Follows the order of a FIFO frontier as it fills and empties (R305). -/
def Tongs.settle (t : Tongs) : Tongs :=
  if 3072 < t.front.length then { t with lifo := true }
  else if t.front.length < 2048 then { t with lifo := false } else t

/-- The heap's smallest packet, the newest among equal keys (R305). -/
def heapMin (h : List Task) : Option Task :=
  h.foldl (fun m x => match m with
    | none => some x
    | some y => if x.key ≤ y.key then some x else some y) none

/-- The eligible packet with the largest key, the oldest among equals (R302). -/
def heapMax (h : List Task) : Option Task :=
  h.foldl (fun m x => match m with
    | none => some x
    | some y => if y.key < x.key then some x else some y) none

/-- Frontier entries of a cluster that other launches' reservations keep free (R305). [log 32 DEDUCED] -/
def State.frontKept (s : State) (cl : Nat) (launch : BitVec 32) : Nat :=
  match s.partOf (cl * 8) with
  | none => 0
  | some p =>
    ((p.launches.filter fun l => l.id != launch && l.placed.contains (cl / 64) && l.rect.any fun c => clusterOf c == cl).map
      fun l => l.f 8 0 32 - ((s.cluster cl).tongs.front.filter fun x => x.launch == l.id).length).sum

/-- Changes a Tongs unit. -/
def State.modTongs (s : State) (cl : Nat) (f : Tongs → Tongs) : State :=
  s.modCluster cl fun q => { q with tongs := f q.tongs }

/-- What became of packets that were to be placed. -/
inductive Placed where
  | done | full
  /-- A spill write is stopped: by a stage-1 failure, or while Nolmon holds it (R308). -/
  | held (p : Option Trap)
  deriving DecidableEq, Repr

/-- Address of entry j of a partition's spill ring (R300). -/
def Part.ringAddr (p : Part) (j : Nat) : Nat := p.ringBase + 32 * (j % 2 ^ p.ringLog)

/-- Writes a packet to the tail of the spill ring; a dry run only counts its entry (R304, R305). -/
def State.spillTask (s : State) (c : Nat) (t : Task) (dry : Bool) : State × Placed :=
  match s.partOf c with
  | none => (s, .full)
  | some p =>
    if p.ringBase = 0 ∨ 2 ^ p.ringLog ≤ p.ring.length then (s, .full) else
    let x := t.mark 6
    if dry then (s.modPart p.cfg.part fun p => { p with ring := p.ring ++ [x] }, .done) else
    match s.engineKey c (p.ringAddr p.ringTail) .store with
    | (s1, .ok key) =>
      (((s1.poke key x.bytes).record [key / 64]).modPart p.cfg.part fun p =>
        { p with ring := p.ring ++ [x], ringTail := p.ringTail + 1 }, .done)
    | (s1, .error e) => (s1, .held e)

/-- Places one packet in a cluster: heap, frontier, or spill ring (R305). [log 32 DEDUCED] -/
def State.placeTask (s : State) (cl c : Nat) (t : Task) (dry : Bool) : State × Placed :=
  let g := (s.cluster cl).tongs
  let onward (s : State) (t : Task) : State × Placed :=
    if (s.cluster cl).tongs.front.length + s.frontKept cl t.launch < 4096 then
      (s.modTongs cl fun g => ({ g with front := g.front ++ [t] } : Tongs).settle, .done)
    else s.spillTask c t dry
  if !t.pq then onward s t
  else if g.heap.length < 256 then (s.modTongs cl fun g => { g with heap := g.heap ++ [t] }, .done)
  else match heapMin g.heap with
    | some m =>
      if m.key < t.key then
        onward (s.modTongs cl fun g => { g with heap := (g.heap.reverse.erase m).reverse ++ [t] }) m
      else onward s t
    | none => onward s t

/-- Places a batch in order, up to the first packet that is stopped (R304). -/
def State.placeAll (s : State) (cl c : Nat) (dry : Bool) : List Task → State × Placed
  | [] => (s, .done)
  | t :: ts =>
    match s.placeTask cl c t dry with
    | (s1, .done) => s1.placeAll cl c dry ts
    | r => r

/-- A batch finds free entries, on chip and in the spill ring, for all its packets (R304). -/
def State.hasRoom (s : State) (cl c : Nat) (ts : List Task) : Bool := (s.placeAll cl c true ts).2 == .done

/-- Places a batch as one step, its room counted first; otherwise the state is as before but for what Nolmon has been told
(R304). -/
def State.placeBatch (s : State) (cl c : Nat) (ts : List Task) : State × Placed :=
  if !s.hasRoom cl c ts then (s, .full) else
  match s.placeAll cl c false ts with
  | (s1, .done) => (s1, .done)
  | (s1, r) => ({ s with s2waits := s1.s2waits, refusedPages := s1.refusedPages }, r)

/-- Handle of a cluster's Tongs unit (R380). [log 60 DEDUCED] -/
def State.tongsHandle (s : State) (cl sub : Nat) : Word :=
  BitVec.ofNat 64 (2 ^ 63 + 2 * 2 ^ 60 + sub * 2 ^ 32 + (s.loc (cl * 8) 0).toNat % 2 ^ 32)

/-- Enters a launch's seed in its cluster, as the cluster's first core would, and whether it entered; a failed spill write
leaves a record (R304, R308, R379). [log 32 DEDUCED] -/
def State.enterSeed (s : State) (cl : Nat) (t : Task) : State × Bool :=
  match s.placeBatch cl (cl * 8) [t] with
  | (s1, .done) => (s1, true)
  | (s1, .held (some p)) =>
    ((s1.modTongs cl fun g => { g with seedFault := true }).engineRec (cl * 8) 15 3 p.val p.val2 p.val3 (s1.tongsHandle cl 0), false)
  | (s1, _) => (s1, false)

/-- Pushes a batch of a thread: it waits until the batch is placed; no room traps with cause 28 (R304, R308). -/
def pushBatch (s : State) (c : Nat) (k : SlotN) (ts : List Task) : Got Completion :=
  let cl := clusterOf c
  match s.placeBatch cl c ts with
  | (s1, .done) => replyWait s1 c k {}
  | (s1, .full) =>
    trap s1 c k { cause := 28, val := BitVec.ofNat 64 ((ts.headD ⟨[], 0⟩).desc), val2 := BitVec.ofNat 64 ts.length }
  | (s1, .held _) =>
    match (s1.cluster cl).tongs.batch with
    | some _ => .stop (s1.park c k (.cond .spill))
    | none =>
      .stop ((s1.modTongs cl fun g => { g with batch := some ((s1.thr c k).ref c, ts), batchFault := false }).park c k
        (.reply noDue false {}))

/-! ### PTCFG -/

/-- The entry an image gives; none if it is refused (R295, R299). -/
def pairOfImage (bs : List Byte) : Option PairDesc :=
  let w (i : Nat) : Nat := leNat ((bs.drop (8 * i)).take 8)
  let nfmt := bits (w 2) 40 8
  let th := bits (w 2) 0 32
  if bits (w 2) 48 16 ≠ 0 ∨ bits (w 2) 33 7 ≠ 0 ∨ w 5 ≠ 0 ∨ w 6 ≠ 0 ∨ w 7 ≠ 0 ∨ 1 < nfmt ∨ w 3 % 4 ≠ 0 then none
  else if nfmt = 0 ∧ (w 0 % 64 ≠ 0 ∨ w 1 % 64 ≠ 0 ∨ th = 0 ∨ 0x7F800000 ≤ th) then none
  else some ⟨BitVec.ofNat 64 (w 0), BitVec.ofNat 64 (w 1), BitVec.ofNat 32 th, (w 2).testBit 32, nfmt,
    BitVec.ofNat 64 (w 3), BitVec.ofNat 64 (w 4)⟩

/-- PTCFG (R299, R300). [log 16 DEDUCED; 32 DEDUCED] -/
def execPtcfg (g : Guard) (rs1 rs2 : XReg) (s : State) : Out :=
  run { guard := g, src := [rs1, rs2] } (fun s c k =>
    let t := s.thr c k
    let a := t.xv rs1
    let i := (t.xv rs2).toNat
    if 16 < i then illegal s c k (t.xv rs2) else
    (commitFirst s c k).bind fun s _ =>
    let n := if i = 16 then 32 else 64
    (aligned s c k a.toNat n 4).bind fun s _ =>
    (blockFor s c k a.toNat n false).bind fun s bs =>
    match s.partOf c with
    | none => illegal s c k a
    | some p =>
      if i = 16 then
        let w := leNat (bs.1.take 8)
        if p.ring ≠ [] then illegal s c k (BitVec.ofNat 64 p.ring.length)
        else if w % 32 < 10 ∨ 24 < w % 32 then illegal s c k
        else
          replyWait (s.modPart p.cfg.part fun p =>
            { p with ringBase := w / 2 ^ 16 * 2 ^ 16, ringLog := w % 32, ringHead := 0, ringTail := 0 }) c k {}
      else match pairOfImage bs.1 with
        | none => illegal s c k a
        | some e =>
          replyWait (s.modPart p.cfg.part fun p =>
            { p with pairs := p.pairs.set (i % 16) e (Nat.mod_lt _ (by decide)) }) c k {}) s

/-! ### PTSERVE, PDONE -/

/-- Parks a thread, changed as given once its chunk has committed, until Tongs delivers a packet; any repeat ends (R144,
R301). -/
def serveWait (s : State) (c : Nat) (k : SlotN) (f : Thread → Thread) : Got Completion :=
  (commitFirst s c k).bind fun s _ =>
  let s1 := s.modThr c k fun t => f { t with a := { t.a with csr := t.a.csr.setCount 0 } }
  let r := (s1.thr c k).ref c
  .stop ((s1.modTongs (clusterOf c) fun g => { g with parked := g.parked ++ [r] }).park c k (.cond .task))

/-- PTSERVE (R301). -/
def execPtserve (g : Guard) (rs1 : XReg) (s : State) : Out :=
  run { guard := g, who := .user, src := [rs1] } (fun s c k =>
    let t := s.thr c k
    let m := (t.xv rs1).toNat
    if m = 0 ∨ 2 ^ 16 ≤ m ∨ t.paired ∨ t.kind = .migrant then illegal s c k else
    serveWait s c k fun t => { t with kind := .task, serve := BitVec.ofNat 16 m }) s

/-- PDONE (R301). -/
def execPdone (g : Guard) (s : State) : Out :=
  run { guard := g } (fun s c k =>
    if (s.thr c k).kind = .task then serveWait s c k id else illegal s c k) s

/-! ### PTENQ -/

/-- PTENQ (R304). [log 16 DEDUCED] -/
def execPtenq (g : Guard) (rs1 : XReg) (s : State) : Out :=
  run { guard := g, src := [rs1] } (fun s c k =>
    let a := (s.thr c k).xv rs1
    (commitFirst s c k).bind fun s _ =>
    (aligned s c k a.toNat 32 4).bind fun s _ =>
    (blockFor s c k a.toNat 32 false).bind fun s bs =>
    let w := (List.range 4).map fun i => BitVec.ofNat 64 (leNat ((bs.1.drop (8 * i)).take 8))
    let t := freshTask w (s.thr c k).launch
    match s.partOf c with
    | some p => if t.w0.testBit 7 ∨ (p.pair t.desc).pc = 0 then illegal s c k a else pushBatch s c k [t]
    | none => illegal s c k a) s

/-! ### Nodes -/

/-- A node record (R296). -/
structure Node where
  addr : Nat
  cx : Nat
  cy : Nat
  cz : Nat
  r : Nat
  first : Nat
  count : Nat
  leaf : Bool
  row : Nat
  deriving DecidableEq, Repr

/-- A node record from its bytes; child count 0 is a leaf (R296). -/
def nodeOf (addr : Nat) (bs : List Byte) : Node :=
  let n (o l : Nat) : Nat := leNat ((bs.drop o).take l)
  ⟨addr, n 0 4, n 4 4, n 8 4, n 12 4, n 0x14 4, n 0x18 2, n 0x18 2 == 0 || (n 0x1A 1).testBit 0, n 0x24 4⟩

/-- Reads node i of a tree as one load, and whether it was local; a lane slice holds no nodes (R47, R132, R296).
-/
def nodeFor (s : State) (c : Nat) (k : SlotN) (root : Word) (i : Nat) : Got (Node × Bool) :=
  let a := (root + BitVec.ofNat 64 (64 * i)).toNat
  match s.place c a with
  | .lane _ => trap s c k { cause := 5, val := BitVec.ofNat 64 a }
  | _ => (blockFor s c k a 64 true).bind fun s bs => .ok s (nodeOf a bs.1, bs.2)

/-- Reads a node that is to be tested or split: a child count above 16 is refused (R296, R303). -/
def treeNode (s : State) (c : Nat) (k : SlotN) (root : Word) (i : Nat) : Got (Node × Bool) :=
  (nodeFor s c k root i).bind fun s n =>
  if 16 < n.1.count then illegal s c k (BitVec.ofNat 64 n.1.addr) else .ok s n

/-- The entry that word 0 names; an invalid one, or one without nodes, is refused (R298). -/
def entryFor (s : State) (c : Nat) (k : SlotN) (w0 : Word) : Got PairDesc :=
  let d := w0.toNat % 16
  match s.partOf c with
  | some p => if (p.pair d).pc = 0 ∨ (p.pair d).nfmt = 1 then illegal s c k (BitVec.ofNat 64 d) else .ok s (p.pair d)
  | none => illegal s c k (BitVec.ofNat 64 d)

/-- The decision code of two nodes under an entry (R303). -/
def openCode (e : PairDesc) (a b : Node) : Nat :=
  let v := value .fp32
  let sq (x y : Nat) : Val := let d := (v x).add .rne (v y).flip
                              d.mul d
  let sum := ((sq a.cx b.cx).add .rne (sq a.cy b.cy)).add .rne (sq a.cz b.cz)
  let dist := value .fp32 (round32 (sqrtVal sum).1)
  if ((v a.r).add .rne (v b.r)).lt ((v e.theta.toNat).mul dist) then 0
  else if a.leaf && b.leaf then 4
  else if a.leaf then 2
  else if b.leaf then 1
  else if e.policy then 3
  else if (v b.r).lt (v a.r) || (v a.r).eq (v b.r) then 1
  else 2

/-- TOPEN (R303). -/
def execTopen (g : Guard) (rd rs1 rs2 : XReg) (s : State) : Out :=
  run { guard := g, src := [rs1, rs2], dst := [rd] } (fun s c k =>
    let t := s.thr c k
    let w1 := (t.xv rs2).toNat
    (entryFor s c k (t.xv rs1)).bind fun s e =>
    (treeNode s c k e.rootA (w1 % 2 ^ 32)).bind fun s a =>
    (treeNode s c k e.rootB (w1 / 2 ^ 32)).bind fun s b =>
    let code := openCode e a.1 b.1
    deliver s c k (a.2 && b.2) { ws := [.x rd (BitVec.ofNat 64 code), .p 1 (code == 0)] }) s

/-- The nodes that stand in for a node named for splitting: its children in order, or a leaf itself; each with its index
(R304). -/
def partsOf (s : State) (c : Nat) (k : SlotN) (root : Word) (i : Nat) (n : Node) (split : Bool) :
    Got (List (Nat × Node)) :=
  let rec go (s : State) : Nat → Nat → Got (List (Nat × Node))
    | 0, _ => .ok s []
    | f + 1, j =>
      (treeNode s c k root j).bind fun s x =>
      (go s f (j + 1)).bind fun s xs => .ok s ((j, x.1) :: xs)
  if split && !n.leaf then go s n.count n.first else .ok s [(i, n)]

/-- A child packet of PFORK (R304). -/
def childTask (t : Thread) (w0 : Word) (ia ib : Nat) (a b : Node) : Task :=
  let n := w0.toNat
  let key := round32 ((value .fp32 a.r).add .rne (value .fp32 b.r))
  let d := min (bits n 8 8 + 1) 255
  ⟨[BitVec.ofNat 64 (key / 2 ^ 8 * 2 ^ 40 + bits n 24 16 * 2 ^ 24 + key % 2 ^ 8 * 2 ^ 16 + d * 2 ^ 8 + bits n 4 1 * 2 ^ 4 + bits n 0 4),
    BitVec.ofNat 64 (ib % 2 ^ 32 * 2 ^ 32 + ia % 2 ^ 32), t.a.csr.scalea, t.a.csr.scaleb], t.launch⟩

/-- PFORK (R304). -/
def execPfork (g : Guard) (rc rs1 rs2 : XReg) (s : State) : Out :=
  run { guard := g, src := [rc, rs1, rs2] } (fun s c k =>
    let t := s.thr c k
    let code := (t.xv rc).toNat
    let w0 := t.xv rs1
    let w1 := (t.xv rs2).toNat
    (commitFirst s c k).bind fun s _ =>
    if code = 0 ∨ 3 < code then .ok s {} else
    (entryFor s c k w0).bind fun s e =>
    (treeNode s c k e.rootA (w1 % 2 ^ 32)).bind fun s a =>
    (treeNode s c k e.rootB (w1 / 2 ^ 32)).bind fun s b =>
    (partsOf s c k e.rootA (w1 % 2 ^ 32) a.1 (code % 2 == 1)).bind fun s as =>
    (partsOf s c k e.rootB (w1 / 2 ^ 32) b.1 (2 ≤ code)).bind fun s bs =>
    (commitFirst s c k).bind fun s _ =>
    pushBatch s c k (as.flatMap fun x => bs.map fun y => childTask (s.thr c k) w0 x.1 y.1 x.2 y.2)) s

/-! ### NACC, NDOWN -/

/-- The region of an entry, with its address; none allocated there is code 2 (R309, R310). -/
def regionFor (s : State) (c : Nat) (k : SlotN) (e : PairDesc) : Got Region :=
  if e.region = 0 then crucibleTrap s c k 0 2 else
  match s.locate c e.region.toNat with
  | some l => .ok s l.reg
  | none => crucibleTrap s c k e.region 2

/-- Address of a row of an entry's region. -/
def rowAddr (e : PairDesc) (r : Region) (row : Nat) : Word := e.region + BitVec.ofNat 64 (row * rowStride r.n)

/-- NACC (R309). -/
def execNacc (g : Guard) (vs : VNum) (rs1 rs2 : XReg) (s : State) : Out :=
  run { guard := g, src := [rs1, rs2] } (fun s c k =>
    let t := s.thr c k
    let sel := t.xv rs2
    if bits sel.toNat 48 15 ≠ 0 then illegal s c k sel else
    (entryFor s c k (t.xv rs1)).bind fun s e =>
    (regionFor s c k e).bind fun s r =>
    (nodeFor s c k (if sel.getLsbD 63 then e.rootB else e.rootA) (bits sel.toNat 0 32)).bind fun s nd =>
    let i := bits sel.toNat 32 16
    let base := rowAddr e r nd.1.row
    let a := base + BitVec.ofNat 64 (48 + 12 * i)
    if r.rows ≤ nd.1.row then crucibleTrap s c k a 6
    else if i % 32 ≠ 0 ∨ r.n ≤ i then crucibleTrap s c k a 3
    else (elemFor s c k a).bind fun s p =>
      (saddTo s c k vs p.1 p.2 base false).bind fun s f => deliver s c k nd.2 f) s

/-- Reads the rows of a node's children in order (R310). -/
def childRows (s : State) (c : Nat) (k : SlotN) (root : Word) : Nat → Nat → Got (List Nat)
  | 0, _ => .ok s []
  | f + 1, j =>
    (treeNode s c k root j).bind fun s x =>
    (childRows s c k root f (j + 1)).bind fun s xs => .ok s (x.1.row :: xs)

/-- NDOWN in either form (R310). -/
def ndown (g : Guard) (rs1 rs2 : XReg) (up : Bool) (s : State) : Out :=
  run { guard := g, src := [rs1, rs2] } (fun s c k =>
    let t := s.thr c k
    let sel := t.xv rs2
    if bits sel.toNat 32 31 ≠ 0 then illegal s c k sel else
    (entryFor s c k (t.xv rs1)).bind fun s e =>
    let root := if sel.getLsbD 63 then e.rootB else e.rootA
    (regionFor s c k e).bind fun s r =>
    (treeNode s c k root (bits sel.toNat 0 32)).bind fun s nd =>
    let n := if nd.1.leaf then 0 else nd.1.count
    (childRows s c k root n nd.1.first).bind fun s rows =>
    match (nd.1.row :: rows).find? fun j => r.rows ≤ j with
    | some j => crucibleTrap s c k (rowAddr e r j) 6
    | none =>
      (ownAddsWait s c k).bind fun s _ =>
      (bankWait s c k r.base).bind fun s _ =>
      (gate s c k 1 n).bind fun s _ =>
      if n = 0 then .ok s {} else
      let key (j : Nat) : Nat := r.base + j * rowStride r.n
      let s1 := rows.foldl (fun s j =>
        let from_ := if up then j else nd.1.row
        let dst := if up then nd.1.row else j
        let s1 := s.rowError c (key from_) r.n (rowAddr e r from_)
        let x := s1.rowAt (key from_) r.n
        s1.postFor c k 1 (bankDest (key dst)) (.rowAdd (key dst) r.n (rowAddr e r dst) x.x x.inv)) s
      replyWait s1 c k {}) s

/-- NDOWN (R310). -/
def execNdown (g : Guard) (rs1 rs2 : XReg) (s : State) : Out := ndown g rs1 rs2 false s
/-- NDOWN.UP (R310). -/
def execNdownUp (g : Guard) (rs1 rs2 : XReg) (s : State) : Out := ndown g rs1 rs2 true s

/-! ### Steps of Tongs -/

/-- Tongs reads entry j of the spill ring; the cause and values of a failure, none while Nolmon holds it (R308). -/
def State.ringRead (s : State) (cl : Nat) (p : Part) (j : Nat) : State × Except (Option (Nat × Trap)) Unit :=
  let a := p.ringAddr (p.ringHead + j)
  match s.engineKey (cl * 8) a .load with
  | (s1, .ok key) =>
    match badIn s1.bad key 32 with
    | some _ => (s1, .error (some (31, { cause := 31, val := BitVec.ofNat 64 a })))
    | none => (s1, .ok ())
  | (s1, .error (some t)) => (s1, .error (some (13, t)))
  | (s1, .error none) => (s1, .error none)

/-- A failed read of the spill ring pauses refills with a record (R308, R379). -/
def State.ringFault (s : State) (cl cause : Nat) (t : Trap) : State :=
  (s.modTongs cl fun g => { g with refillFault := true }).engineRec (cl * 8) cause 3 t.val t.val2 t.val3 (s.tongsHandle cl 1)

/-- The packet Tongs chooses for a thread, and the state without it (R302). -/
def State.chooseTask (s : State) (cl : Nat) (p : Part) (t : Thread) : Option (Task × State) :=
  let g := (s.cluster cl).tongs
  let lifo := p.mode.flifo || g.lifo
  match heapMax (g.heap.filter (p.eligible t)) with
  | some x => some (x, s.modTongs cl fun g => { g with heap := g.heap.erase x })
  | none =>
    let pick := if lifo then g.front.reverse.find? (p.eligible t) else g.front.find? (p.eligible t)
    match pick with
    | some x =>
      let rest := if lifo then (g.front.reverse.erase x).reverse else g.front.erase x
      some (x, s.modTongs cl fun g => ({ g with front := rest } : Tongs).settle)
    | none =>
      if g.refillFault then none else
      match p.ring.find? (p.eligible t) with
      | some x =>
        match s.ringRead cl p (p.ring.idxOf x) with
        | (s1, .ok _) => some (x, s1.modPart p.cfg.part fun p => { p with ring := p.ring.erase x, ringHead := p.ringHead + 1 })
        | (_, .error _) => none
      | none => none

/-- A thread is parked for a packet. -/
def Thread.serving (t : Thread) : Bool :=
  match t.st, t.wait with
  | .parked, .cond .task => true
  | _, _ => false

/-- The first parked task thread of a cluster for which there is a packet (R302). -/
def State.nextServed (s : State) (cl : Nat) : Option (TRef × Task × State) :=
  match s.partOf (cl * 8) with
  | none => none
  | some p =>
    (s.cluster cl).tongs.parked.findSome? fun r =>
      ((s.findRef r).filter Thread.serving).bind fun t => (s.chooseTask cl p t).map fun x => (r, x.1, x.2)

/-- What comes of a packet that only the spill ring holds for a parked thread and whose read fails: a record, or a request
to Nolmon (R302, R308). [log 32 DEDUCED] -/
def State.servedFault (s : State) (cl : Nat) : Option State :=
  match s.partOf (cl * 8) with
  | none => none
  | some p =>
    if (s.cluster cl).tongs.refillFault then none else
    (s.cluster cl).tongs.parked.findSome? fun r =>
      ((s.findRef r).filter Thread.serving).bind fun t =>
        if (s.chooseTask cl p t).isSome then none else
        (p.ring.find? (p.eligible t)).bind fun x =>
          match s.ringRead cl p (p.ring.idxOf x) with
          | (s1, .error (some e)) => some (s1.ringFault cl e.1 e.2)
          | (s1, .error none) => some s1
          | (_, .ok _) => none

/-- A packet is written into a task thread, which resumes at its descriptor's entry pc (R63, R129, R302). -/
def execTaskDelivery (s : State) : Out :=
  let cl := s.subject.cluster
  match s.nextServed cl, s.partOf (cl * 8) with
  | some (r, x, s1), some p =>
    let e := p.pair x.desc
    let w (i : Nat) : Word := x.w.getD i 0
    .next ((s1.modTongs cl fun g => { g with parked := g.parked.filter fun q => q != r }).modRef r fun t =>
      { t with
        a := { t.a with
          x := (((t.a.x.set 10 (w 0)).set 11 (w 1)).set 12 (w 2)).set 13 (w 3)
          csr := { t.a.csr with fmtsh := BitVec.ofNat 64 (bits (w 0).toNat 24 16), scalea := w 2, scaleb := w 3 } }
        wait := .reply (s.core r.core).cycle false { next := some e.pc } })
  | _, _ => .next ((s.servedFault cl).getD s)

/-- What a unit may steal: the first parked thread with nothing eligible, the victim, and the packets (R306). -/
def State.steal (s : State) (cl : Nat) : Option (Nat × List Task) :=
  match s.partOf (cl * 8) with
  | none => none
  | some p =>
    (s.cluster cl).tongs.parked.findSome? fun r =>
      ((s.findRef r).filter Thread.serving).bind fun t =>
        if (s.chooseTask cl p t).isSome then none else
        let mine (v : Nat) : List Task := (s.cluster v).tongs.front.filter (p.eligible t)
        let near := (List.range 64).flatMap fun d =>
          (if d ≤ cl % 64 then [cl - d] else []) ++ (if cl % 64 + d < 64 then [cl + d] else [])
        (near.find? fun v => v != cl && (s.core (v * 8)).part == some p.cfg.part && 2 ≤ (mine v).length).map fun v =>
          (v, (mine v).take ((mine v).length / 2))

/-- An idle unit steals the older half of the eligible packets of the nearest cluster of its die that has two (R306). -/
def execTaskSteal (s : State) : Out :=
  let cl := s.subject.cluster
  match s.steal cl with
  | none => .next s
  | some (v, ts) =>
    let kept := match ts with
      | t :: _ => s.frontKept cl t.launch
      | [] => 0
    if 4096 < (s.cluster cl).tongs.front.length + ts.length + kept then .next s else
    let s1 := s.modTongs v fun g => ({ g with front := ts.foldl List.erase g.front } : Tongs).settle
    .next (s1.modTongs cl fun g => ({ g with front := g.front ++ ts.map fun t => t.mark 5 } : Tongs).settle)

/-- Takes packets from the spill ring's head until the frontier holds 1,024 or the ring is empty; a failed read pauses the
refill with a record (R305, R308). [log 32 DEDUCED] -/
def State.refillFront (s : State) (cl : Nat) : Nat → State
  | 0 => s
  | f + 1 =>
    match s.partOf (cl * 8) with
    | none => s
    | some p =>
      let g := (s.cluster cl).tongs
      match p.ring with
      | [] => s
      | x :: xs =>
        if 1024 ≤ g.front.length ∨ g.refillFault ∨ 4096 ≤ g.front.length + s.frontKept cl x.launch then s else
        match s.ringRead cl p 0 with
        | (s1, .ok _) =>
          ((s1.modPart p.cfg.part fun p => { p with ring := xs, ringHead := p.ringHead + 1 }).modTongs cl fun g =>
            ({ g with front := g.front ++ [x] } : Tongs).settle).refillFront cl f
        | (s1, .error (some e)) => s1.ringFault cl e.1 e.2
        | (s1, .error none) => s1

/-- A cluster whose frontier holds fewer than 1,024 packets takes packets from the spill ring (R305). -/
def execFrontierRefill (s : State) : Out := .next (s.refillFront s.subject.cluster 1025)

/-- Retries the batch that a cluster's Tongs holds at a spill write; a stage-1 failure leaves a record (R308, R379). -/
def State.retryBatch (s : State) (cl : Nat) : State :=
  let g := (s.cluster cl).tongs
  match g.batch with
  | none => s
  | some (w, ts) =>
    match s.placeBatch cl w.core ts with
    | (s1, .done) =>
      (s1.modTongs cl fun g => { g with batch := none, batchFault := false }).modRef w fun t =>
        match t.wait with
        | .reply _ _ f => { t with wait := .reply (s.core w.core).cycle false f }
        | _ => t
    | (s1, .full) =>
      (s1.modTongs cl fun g => { g with batch := none, batchFault := false }).trapRef w
        { cause := 28, val := BitVec.ofNat 64 ((ts.headD ⟨[], 0⟩).desc), val2 := BitVec.ofNat 64 ts.length } 0
    | (s1, .held (some p)) =>
      (s1.modTongs cl fun g => { g with batchFault := true }).engineRec w.core 15 3 p.val p.val2 p.val3
        (s1.tongsHandle cl 0)
    | (s1, .held none) => s1

/-- A fault on a spill write or a refill read holds the packets and sends a record (R308). [log 32 DEDUCED] -/
def execTongsSpillFault (s : State) : Out :=
  let cl := s.subject.cluster
  let g := (s.cluster cl).tongs
  if g.batch.isSome ∧ !g.batchFault then .next (s.retryBatch cl) else .next (s.refillFront cl 1025)

/-- The clusters of a partition's rows. -/
def Part.clusters (p : Part) : List Nat := p.cfg.rows.flatMap fun r => [r.1 * 64 + r.2 * 2, r.1 * 64 + r.2 * 2 + 1]

/-- The cores of a partition's rows. -/
def Part.cores (p : Part) : List Nat := p.cfg.rows.flatMap fun r => (List.range 16).map fun q => r.1 * 512 + r.2 * 16 + q

/-- The thread's PFORK or PTENQ has issued and has not completed: it reads, or waits (R304, R307). -/
def Thread.pushing (t : Thread) : Bool :=
  (t.st == .parked || (t.st == .runnable && t.redo)) && match decodeWord t.word.toNat 0 with
    | .ok (.pfork _ _ _ _) => true
    | .ok (.ptenq _ _) => true
    | _ => false

/-- The tasks of a launch are exhausted: no packet, no push, steal or seed of it left, and every task thread of it parked
in PTSERVE or PDONE, the strips it has issued complete (R273, R307). -/
def State.exhausted (s : State) (p : Part) (id : BitVec 32) : Bool :=
  let mine (x : Task) : Bool := x.launch == id
  let own (c : Nat) : List Thread :=
    ((s.core c).threads.map (·.2)).filter fun t => t.launch == id
  let away (c : Nat) : List Swapped :=
    (s.core c).swapped.filter fun w => w.part == p.cfg.part && w.t.launch == id && w.t.kind == .task
  p.cores.all (fun c => (s.core c).part == some p.cfg.part) && !p.ring.any mine &&
  p.clusters.all (fun cl =>
    let g := (s.cluster cl).tongs
    !g.heap.any mine && !g.front.any mine && !g.seeds.any mine && !match g.batch with
      | some (_, ts) => ts.any mine
      | none => false) &&
  p.cores.all (fun c => (own c).all (fun t => !t.pushing && (t.kind != .task || (t.serving && t.vq == []))) && away c == [])

/-- The task threads of a launch. -/
def State.taskSlots (s : State) (p : Part) (id : BitVec 32) : List (Nat × SlotN) :=
  p.cores.flatMap fun c => (s.core c).threads.filterMap fun e =>
    if e.2.launch == id && e.2.kind == .task then some (c, e.1) else none

/-- Every task thread of the subject's launch completes its PDONE as RETIRE (R307). -/
def execTasksExhausted (s : State) : Out :=
  match s.part? s.subject.part with
  | none => .next s
  | some p =>
    if !s.exhausted p s.subject.launch then .next s else
    .next ((s.taskSlots p s.subject.launch).foldl (fun s e =>
      let r := (s.thr e.1 e.2).ref e.1
      (s.modTongs (clusterOf e.1) fun g => { g with parked := g.parked.filter fun q => q != r }).endThread e.1 e.2) s)

/-- Seeds held for a cluster that come first in their launch's list (R304). -/
def firstSeeds : List Task → List Task
  | [] => []
  | t :: ts => t :: (firstSeeds ts).filter fun x => x.launch != t.launch

/-- A seed held for a cluster enters once there is room for it, each launch's in list order (R304). -/
def execHeldSeedEntry (s : State) : Out :=
  let cl := s.subject.cluster
  let g := (s.cluster cl).tongs
  match (firstSeeds g.seeds).find? fun t => s.hasRoom cl (cl * 8) [t] with
  | none => .next s
  | some t =>
    if g.seedFault then .next s else
    match s.enterSeed cl t with
    | (s1, true) => .next (s1.modTongs cl fun g => { g with seeds := g.seeds.erase t })
    | (s1, false) => .next s1

end Sys2Proof.Machine
end

