-- ==== Sys2Proof/Machine/System.lean ====
section
/-! DEFINITION. System.lean: the meanings of TRPOP, XRDT, XWRT, XRESUME, XKILL, TCSWAP, DBRK and STAMP (R126, R288 to R294,
R380, R381). -/

namespace Sys2Proof.Machine

/-! ### Trap records -/

/-- Removes the oldest record of a core's queue and gives TRPOP's value: its handle and index; a record held back then
enters (R288, R375). -/
def State.popRec (s : State) (c : Nat) : Option (State × Word) :=
  let x := (s.core c).c
  match x.trapQ with
  | [] => none
  | r :: rs =>
    let idx := (x.trapSeq + 2 ^ 16 - x.trapQ.length) % 16
    let h := if r.handle.toNat / 2 ^ 63 = 1 then 0 else r.handle.toNat % 2 ^ 48
    let s1 := s.modCtx c fun x => { x with trapQ := rs }
    let s2 := match x.heldRecs with
      | [] => s1
      | y :: ys => (s1.modCtx c fun x => { x with heldRecs := ys }).enterRec c y
    some (s2, BitVec.ofNat 64 (idx * 2 ^ 56 + h))

/-- TRPOP (R288). -/
def execTrpop (g : Guard) (rd : XReg) (s : State) : Out :=
  run { guard := g, who := .sup, dst := [rd] } (fun s c k =>
    (commitFirst s c k).bind fun s _ =>
    match s.popRec c with
    | some (s1, v) => .ok s1 { ws := [.x rd v] }
    | none => .stop (s.park c k (.cond (.trapq rd)))) s

/-! ### The thread a handle names -/

/-- A thread of the core: the slot it is bound in, or its entry SWAPPED from there. -/
inductive Peer where
  | bound (j : SlotN) (t : Thread)
  | swapped (w : Swapped)
  deriving DecidableEq, Repr

/-- Its registers. -/
def Peer.thread : Peer → Thread
  | .bound _ t => t
  | .swapped w => w.t

/-- The slot it is in, or was in when it was swapped. -/
def Peer.slot : Peer → SlotN
  | .bound j _ => j
  | .swapped w => w.slot

/-- The thread of a core, bound or SWAPPED, that a handle names (R267, R289). -/
def State.peer (s : State) (c : Nat) (h : Word) : Option Peer :=
  match s.refOf h with
  | none => none
  | some r =>
    if r.core ≠ c then none else
    match (s.core c).slotOf r.serial with
    | some j => some (.bound j (s.thr c j))
    | none => ((s.core c).swapped.find? fun w => w.t.serial == r.serial && !w.moving).map .swapped

/-- The thread a handle names, or cause 2 with the handle (R289, R290, R291). -/
def peerFor (s : State) (c : Nat) (k : SlotN) (h : Word) : Got Peer :=
  match s.peer c h with
  | some p => .ok s p
  | none => illegal s c k h

/-- Every strip of the named thread of the core has completed. -/
def State.peerIdle (s : State) (c serial : Nat) : Bool :=
  match (s.core c).slotOf serial with
  | some j => (s.thr c j).vq == []
  | none => true

/-! ### XRDT and XWRT -/

/-- The state number names a k register or a lane (R126). -/
def stripState (n : Nat) : Bool := (64 ≤ n && n < 72) || (0x20000 ≤ n && n < 0x20800)

/-- The state of a thread by number, and accumulator words of its core (R126). -/
def State.xrdt (s : State) (c : Nat) (j : SlotN) (t : Thread) (n : Nat) : Word :=
  if h : n < 32 then t.a.xr ⟨n, h⟩
  else if n = 32 then t.tr.trcause
  else if n = 33 then t.tr.trval
  else if n = 34 then t.tr.trpc
  else if n = 35 then t.tr.trval2
  else if n = 36 then (t.a.pw ||| 1).setWidth 64
  else if 64 ≤ n ∧ n < 72 then t.a.k[n % 8]
  else if 0x1800 ≤ n ∧ n ≤ 0x1809 then t.userCsr (n - 0x1000)
  else if 0x1CC0 ≤ n ∧ n ≤ 0x1CC6 then s.roCsr c j t (n - 0x1000)
  else if 0x20000 ≤ n ∧ n < 0x20800 then
    if n % 64 < 32 ∨ t.paired then
      (t.a.lane ⟨(n - 0x20000) / 64 % 32, Nat.mod_lt _ (by decide)⟩ (n % 64)).setWidth 64
    else 0
  else if 0x30000 ≤ n ∧ n < 0x34000 then
    (((s.core c).c.mx.acc[(n - 0x30000) / 4096 % 4]).getD (n % 4096) 0).setWidth 64
  else 0

/-- XRDT (R289). -/
def execXrdt (g : Guard) (rd rs1 rs2 : XReg) (s : State) : Out :=
  run { guard := g, who := .sup, src := [rs1, rs2], dst := [rd] } (fun s c k =>
    let h := (s.thr c k).xv rs1
    let n := ((s.thr c k).xv rs2).toNat
    (peerFor s c k h).bind fun s _ =>
    (commitFirst s c k).bind fun s _ =>
    (peerFor s c k h).bind fun s p =>
    let t := p.thread
    (waitFor s c k (.peer t.serial) (!stripState n || s.peerIdle c t.serial)).bind fun s _ =>
    match p with
    | .bound j t => .ok s { ws := [.x rd (if t.st = .runnable then 0 else s.xrdt c j t n)] }
    | .swapped w =>
      (areaWait s c k (if w.inArea then s.areaStop c w false else none)).bind fun s _ =>
      deliver s c k (!w.inArea) { ws := [.x rd (s.xrdt c w.slot w.t n)] }) s

/-- XWRT of a state number (R126); a repeat left active has its end computed before the thread next issues (R415). -/
def Thread.xwrt (t : Thread) (n : Nat) (v : Word) : Thread :=
  if h : n < 32 then { t with a := t.a.setX ⟨n, h⟩ v }
  else if n = 32 then { t with tr := { t.tr with trcause := BitVec.ofNat 64 (bits v.toNat 0 17) } }
  else if n = 33 then { t with tr := { t.tr with trval := v } }
  else if n = 34 then { t with tr := { t.tr with trpc := v } }
  else if n = 35 then { t with tr := { t.tr with trval2 := v } }
  else if n = 36 then { t with a := { t.a with pw := v.setWidth 32 ||| 1 } }
  else if 64 ≤ n ∧ n < 72 then { t with a := { t.a with k := t.a.k.set (n % 8) v } }
  else if 0x1800 ≤ n ∧ n ≤ 0x1809 then
    let u := t.a.csr.write t.paired (n - 0x1000) v
    { t with a := { t.a with csr := u, endPend := if n = 0x1807 ∨ n = 0x1808 then u.count ≠ 0 else t.a.endPend } }
  else if 0x20000 ≤ n ∧ n < 0x20800 then
    if n % 64 < 32 ∨ t.paired then
      { t with
        a := t.a.setLane ⟨(n - 0x20000) / 64 % 32, Nat.mod_lt _ (by decide)⟩ (n % 64) (v.setWidth 32)
        vimg := true, dirty := true }
    else t
  else t

/-- XWRT (R289). -/
def execXwrt (g : Guard) (rv rs1 rs2 : XReg) (s : State) : Out :=
  run { guard := g, who := .sup, src := [rs1, rs2, rv] } (fun s c k =>
    let t := s.thr c k
    let h := t.xv rs1
    (peerFor s c k h).bind fun s _ =>
    (commitFirst s c k).bind fun s _ =>
    (peerFor s c k h).bind fun s p =>
    match p with
    | .bound j y =>
      if y.st = .trapped ∨ y.st = .stopped then
        .ok (s.modThr c j fun y => y.xwrt (t.xv rs2).toNat (t.xv rv)) {}
      else .ok s {}
    | .swapped _ => .ok s {}) s

/-! ### XRESUME -/

/-- The repeat end of a thread that resumes cannot be computed: it traps again at trpc (R415). -/
def State.resumeFault (s : State) (c : Nat) (j : SlotN) (p : Trap) : State :=
  let pc := (s.thr c j).tr.trpc
  let s1 := { s with curWord := s.peekWord c pc.toNat }.modThr c j fun t =>
    { t with a := { t.a with pc := pc }, held := if pc = t.heldPc then t.held else Vector.replicate 4 none
             counted := t.counted && pc == t.a.pc }
  s1.trapNow c j { p with hasWord := p.val != pc, issued := false }

/-- A TRAPPED thread becomes RUNNABLE at trpc, its repeat end computed first where an XWRT asked for it; a fetch fault
there traps it again (R290, R415). -/
def State.resumeThread (s : State) (c : Nat) (j : SlotN) : State :=
  let t := s.thr c j
  let go (s : State) : State := s.modThr c j fun t => { t.resumeAt with resumedAt := (s.core c).cycle }
  if !t.a.endPend ∨ t.a.csr.count = 0 then go s else
  match s.bodyEnd c t.a.csr.replen t.a.csr.repbody.toNat with
  | (s1, .ok e) => go (s1.modThr c j fun t => { t with a := { t.a with repEnd := BitVec.ofNat 64 e, endPend := false } })
  | (s1, .error (.trap p)) => s1.resumeFault c j p
  | (s1, .error (.table p)) => s1.resumeFault c j p
  | (s1, .error (.unowned _)) => go s1
  | (s1, .error (.across _)) => go s1
  | (s1, .error (.moving ipn)) => s1.modThr c j fun t => { t with st := .parked, wait := .cond (.resume ipn) }
  | (s1, .error (.stage2 p ipa)) =>
    let w : S2Wait := ⟨t.ref c, p.val, p.cause, p.val2, ipa, ((s.core c).part).getD 0⟩
    { s1 with s2waits := s1.s2waits ++ [w] }.modThr c j fun t =>
      { t with st := .parked, wait := .cond (.resume (ipa / 2 ^ 16)) }

/-- What an engine handle names (R380). -/
inductive EngineRef where
  | copy (cl : Nat) (ch : Fin 8)
  | tongs (cl : Nat) (refill : Bool)
  | spill (core : Nat) (read : Bool)
  deriving DecidableEq, Repr

/-- The engine that a handle names for slot 0 of a core, if it has a fault pending for SUB; none with a reserved bit set
(R380, R381). -/
def State.engineOf (s : State) (c : Nat) (h : Word) : Option EngineRef :=
  let n := h.toNat
  let sub := bits n 32 4
  let cl := clusterOf c
  if n / 2 ^ 63 = 0 ∨ bits n 36 24 ≠ 0 then none else
  match bits n 60 3 with
  | 1 =>
    if g : sub < 8 then
      if n % 2 ^ 32 = (s.loc (cl * 8) 0).toNat % 2 ^ 32 ∧ ((s.cluster cl).chans[sub]).fault then some (.copy cl ⟨sub, g⟩)
      else none
    else none
  | 2 =>
    let t := (s.cluster cl).tongs
    if n % 2 ^ 32 ≠ (s.loc (cl * 8) 0).toNat % 2 ^ 32 then none
    else if sub = 0 ∧ (t.batchFault ∨ t.seedFault) then some (.tongs cl false)
    else if sub = 1 ∧ t.refillFault then some (.tongs cl true)
    else none
  | 3 =>
    let x := (s.core c).c.spill
    if n % 2 ^ 32 ≠ (s.loc c 0).toNat % 2 ^ 32 then none
    else if sub = 0 ∧ x.writeFault then some (.spill c false)
    else if sub = 1 ∧ x.readFault then some (.spill c true)
    else none
  | _ => none

/-- Bit 63 marks an engine handle (R380). -/
def isEngine (h : Word) : Bool := h.getLsbD 63

/-- Resumes a faulted engine (R261, R308, R379, R381). -/
def State.resumeEngine (s : State) (e : EngineRef) : State :=
  match e with
  | .copy cl ch => s.modCluster cl fun q => { q with chans := q.chans.set ch { q.chans[ch] with fault := false } }
  | .tongs cl false =>
    let s1 := s.modTongs cl fun g => { g with batchFault := false, seedFault := false }
    if (s.cluster cl).tongs.batchFault then s1.retryBatch cl else s1
  | .tongs cl true => (s.modTongs cl fun g => { g with refillFault := false }).refillFront cl 1025
  | .spill c false => s.modCtx c fun x => { x with spill := { x.spill with writeFault := false } }
  | .spill c true => (s.modCtx c fun x => { x with spill := { x.spill with readFault := false } }).refillTiers c 80

/-- XRESUME (R290). -/
def execXresume (g : Guard) (rs1 : XReg) (s : State) : Out :=
  run { guard := g, who := .sup, src := [rs1] } (fun s c k =>
    let h := (s.thr c k).xv rs1
    if isEngine h then
      match s.engineOf c h with
      | none => illegal s c k h
      | some _ =>
        (commitFirst s c k).bind fun s _ =>
        match s.engineOf c h with
        | some e => .ok (s.resumeEngine e) {}
        | none => illegal s c k h
    else
      (peerFor s c k h).bind fun s _ =>
      (commitFirst s c k).bind fun s _ =>
      (peerFor s c k h).bind fun s p =>
      match p with
      | .bound j t => if t.st = .trapped then .ok (s.resumeThread c j) {} else .ok s {}
      | .swapped _ => .ok s {}) s

/-! ### XKILL -/

/-- Ends a bound thread in any state: chunk undone, wait withdrawn, strips and snapshot given up (R291). [log 36 DEDUCED] -/
def State.killThread (s : State) (c : Nat) (j : SlotN) : State :=
  let s1 := (s.judgeClosed c j).1
  let t := s1.thr c j
  let s2 := match t.chunk with
    | some ch => s1.pokeCells ch.undo.flatten.reverse
    | none => s1
  -- an MGANG already sent runs to its end (R172)
  let s3 := match t.wait with
    | .gang _ _ _ => s2.release (t.ref c)
    | _ => s2.withdraw c j
  let s4 := (s3.restoreSnap t.snap).modCtx c fun x =>
    { x with heldPackets := x.heldPackets.filter fun p => !(p.departs && p.sender == some (t.ref c)) }
  { s4 with s2waits := s4.s2waits.filter fun w => w.who != t.ref c }.endThread c j

/-- Ends a SWAPPED thread (R291); its messages become orphans (R283). -/
def State.killSwapped (s : State) (c : Nat) (w : Swapped) : State :=
  let r := w.t.ref c
  let s1 := (s.dropRegs c w.slot w.t.regs).dropRegs c (w.slot + 1) w.t.regsOdd
  let s2 := ((s1.restoreSnap w.t.snap).dropOut w.t).leaveDeferred c w.t |>.dropChildren r
  ((s2.dropSwapped r).modCtx c fun x =>
    { x with heldPackets := x.heldPackets.filter fun p => !(p.departs && p.sender == some r) }).bindPackets c 8

/-- Abandons the work of a faulted engine (R379, R381); none where the table has nothing to abandon. -/
def State.killEngine (s : State) (e : EngineRef) : Option State :=
  match e with
  | .copy cl ch => some (s.jobOver cl ch)
  | .tongs cl false =>
    match (s.cluster cl).tongs.batch with
    | none => if (s.cluster cl).tongs.seedFault then some (s.modTongs cl fun g => { g with seedFault := false }) else none
    | some (w, ts) =>
      if !(s.cluster cl).tongs.batchFault then some (s.modTongs cl fun g => { g with seedFault := false }) else
      some ((s.modTongs cl fun g => { g with batch := none, batchFault := false }).trapRef w
        { cause := 28, val := BitVec.ofNat 64 ((ts.headD ⟨[], 0⟩).desc), val2 := BitVec.ofNat 64 ts.length } 0)
  | .tongs _ true => none
  | .spill _ _ => none

/-- XKILL (R291). -/
def execXkill (g : Guard) (rs1 : XReg) (s : State) : Out :=
  run { guard := g, who := .sup, src := [rs1] } (fun s c k =>
    let h := (s.thr c k).xv rs1
    if isEngine h then
      match (s.engineOf c h).bind s.killEngine with
      | none => illegal s c k h
      | some _ =>
        (commitFirst s c k).bind fun s _ =>
        match (s.engineOf c h).bind s.killEngine with
        | some s1 => .ok { s1 with curWord := s.curWord } {}
        | none => illegal s c k h
    else
      (peerFor s c k h).bind fun s p =>
      if p.slot.val < 2 then illegal s c k h else
      (commitFirst s c k).bind fun s _ =>
      (peerFor s c k h).bind fun s p =>
      match p with
      | .bound j _ => .ok (s.killThread c j) {}
      | .swapped w => .ok (s.killSwapped c w) {}) s

/-! ### TCSWAP -/

/-- The thread of a slot, at the slot that holds it: for the odd slot of a pair the even one. -/
def State.holder (s : State) (c : Nat) (j : SlotN) : Option (SlotN × Thread) :=
  let i := s.home c j
  ((s.slot c i).thread?).map fun t => (i, t)

/-- Restores a swapped thread into a slot at once, or with the load of its context from the context area, where the swap-out
may just have written it (R292, R382). -/
def tcRestore (s : State) (c : Nat) (k j : SlotN) (back : Option Swapped) (rd : XReg) (h : Word) : Got Completion :=
  match back.bind fun b => (s.core c).swapped.find? fun w => w.t.serial == b.t.serial with
  | none => .ok (s.fill c) { ws := [.x rd h] }
  | some w => deliver ((s.restore c j w false).fill c) c k (!w.inArea) { ws := [.x rd h] }

/-- TCSWAP (R292). [log 37 DEDUCED] -/
def execTcswap (g : Guard) (rd rs1 rs2 : XReg) (s : State) : Out :=
  run { guard := g, who := .sup, src := [rs1, rs2], dst := [rd] } (fun s c k =>
    let t := s.thr c k
    let n := (t.xv rs1).toNat
    let b := t.xv rs2
    if hn : n < 8 then
      let j : SlotN := ⟨n, hn⟩
      if n < 2 ∨ (s.core c).removed.getLsbD j then illegal s c k else
      (commitFirst s c k).bind fun s _ =>
      let out := s.holder c j
      let back : Option Swapped := match s.peer c b with
        | some (.swapped w) => some w
        | _ => none
      let mine (i : SlotN) : Bool := (s.slot c i).isEmpty || match out with
        | some (o, y) => i == o || (y.paired && i == o + 1)
        | none => false
      let pair : Bool := match back with
        | some w => w.t.paired
        | none => false
      if b ≠ 0 ∧ back.isNone then illegal s c k b
      else if pair ∧ (n % 2 = 1 ∨ !mine (j + 1) ∨ (s.core c).removed.getLsbD (j + 1)) then illegal s c k b
      else
      (areaWait s c k (back.bind fun w => if w.inArea then s.areaStop c w false else none)).bind fun s _ =>
      match out with
        | none => tcRestore s c k j back rd 0
        | some (o, y) =>
          if back.isNone ∧ 32 ≤ (s.core c).swapped.length then illegal s c k else
          (waitFor s c k (.peer y.serial) (y.vq == [])).bind fun s _ =>
          (areaWait s c k (s.swapStall c)).bind fun s _ =>
          tcRestore (s.swapOut c o true false false) c k j back rd (s.handle c o y)
    else illegal s c k) s

/-! ### DBRK and STAMP -/

/-- DBRK: in a session the instruction completes and its thread is STOPPED (R293). [log 35 DEDUCED] -/
def execDbrk (g : Guard) (rs1 : XReg) (s : State) : Out :=
  run { guard := g, src := [rs1] } (fun s c k =>
    let v := (s.thr c k).xv rs1
    match s.partOf c with
    | some p =>
      if p.session.isSome then
        (commitFirst s c k).bind fun s _ =>
        let pc := (s.thr c k).a.pc
        let s1 := s.modPart p.cfg.part fun p => { p with dbrks := p.dbrks ++ [((s.loc c k).setWidth 32, pc, v)] }
        .stop ((complete s1 c k {}).modThr c k fun t => { t with st := .stopped })
      else trap s c k { cause := 37, val := v }
    | none => trap s c k { cause := 37, val := v }) s

/-- STAMP (R294). -/
def execStamp (g : Guard) (rd : XReg) (s : State) : Out :=
  run { guard := g, dst := [rd] } (fun s c k =>
    (commitFirst s c k).bind fun s _ =>
    (waitFor s c k .stamp (s.mayStamp c 0)).bind fun s _ =>
    let (v, x) := (s.core c).stamps.draw s.rot
    .ok (s.modCore c fun y => { y with stamps := x }) { ws := [.x rd v] }) s

end Sys2Proof.Machine
end

