-- ==== Sys2Proof/Machine/ThreadOps.lean ====
section
/-! DEFINITION. ThreadOps.lean: the meanings of SPAWN, MSPAWN, MIGR, RETIRE, WAITEV, PAIRON and PAIROFF (R267 to R276). -/

namespace Sys2Proof.Machine

/-! ### Creating threads -/

/-- The registers of a thread that SPAWN binds (R270). -/
def Thread.spawned (t : Thread) (pc arg handle : Word) (outside : Bool) : Thread :=
  let x := (((Vector.replicate 32 (0 : Word)).set 10 arg).set 11 (t.launch.setWidth 64)).set 12 handle
  { Thread.reset with
    a := { Arch.reset with
      pc := pc, x := x
      csr := { UserCsrs.reset with
        vctl := vctlField false t.a.csr.vctl, qlimit := t.a.csr.qlimit, fmtsh := t.a.csr.fmtsh
        scalea := t.a.csr.scalea, scaleb := t.a.csr.scaleb } }
    launch := t.launch, prio := t.prio, outside := outside }

/-- SPAWN (R270). -/
def execSpawn (g : Guard) (rd rs1 rs2 : XReg) (s : State) : Out :=
  run { guard := g, who := .user, src := [rs1, rs2], dst := [rd] } (fun s c k =>
    if rs1 = 0 ∧ rs2 = 0 then .ok s { ws := [.x rd (s.handle c k (s.thr c k))] } else
    (commitFirst s c k).bind fun s _ =>
    let t := s.thr c k
    let pc := t.xv rs1
    if pc.toNat % 4 ≠ 0 then trap s c k { cause := 0, val := pc } else
    let pick : Option (SlotN × Bool) :=
      match s.freeSlot c (s.maskBit c t.launch false) with
      | some i => some (i, false)
      | none => (s.freeSlot c fun _ => true).map fun i => (i, true)
    match pick with
    | none => .ok s { ws := [.x rd 0] }
    | some (i, outside) =>
      let s1 := s.bindIn c i (t.spawned pc (t.xv rs2) (s.handle c k t) outside)
      .ok s1 { ws := [.x rd (s1.handle c i (s1.thr c i))] }) s

/-- A task thread, or one whose launch enables no migrants (R271). -/
def State.launchBars (s : State) (c : Nat) (t : Thread) : Bool :=
  t.kind == .task || match s.launchOf c t.launch with
    | some l => l.migMask == 0
    | none => true

/-- A task or paired thread, or one whose launch enables no migrants, may not send one (R271). -/
def State.noMigrants (s : State) (c : Nat) (t : Thread) : Bool := s.launchBars c t || t.paired

/-- `trval2` of that refusal: the launch ID, or 0 for a thread that is refused as paired (R271, R373). -/
def State.barredVal (s : State) (c : Nat) (t : Thread) : Word := if s.launchBars c t then t.launch.setWidth 64 else 0

/-- Owner core of a migration target (R271). [log 28 DEDUCED] -/
def ownerFor (s : State) (c : Nat) (k : SlotN) (a : Nat) : Got Nat :=
  match s.place c a with
  | .own _ _ => .ok s c
  | .remote c' _ _ => .ok s c'
  | .global va =>
    (resolveFor s c k a .load).bind fun s _ =>
    let cs := match s.launchOf c (s.thr c k).launch with
      | some l => l.rect
      | none => []
    .ok s (cs.getD (va / 2 ^ 16 % cs.length) c)
  | _ => trap s c k { cause := 5, val := BitVec.ofNat 64 a }

/-- The packet of MSPAWN or MIGR (R64, R272). -/
def State.packetFor (s : State) (c : Nat) (k : SlotN) (pc target : Word) (own departs : Bool) (dest : Nat) : Packet :=
  let t := s.thr c k
  { pc := pc, pw := t.a.pw
    origin := if own ∧ t.migr.migrant then t.migr.origin else (s.loc c k).setWidth 32
    launch := t.launch
    hops := if own then min (t.migr.hops + 1) 0xFFFF else 1
    spawned := if own then t.migr.spawned else true
    standin := false
    a := (List.finRange 8).map fun i => t.a.x[10 + i.val]
    target := target
    spawner := if own then t.migr.spawner else t.ref c
    dest := dest, sender := some (t.ref c), departs := departs, since := none }

/-- MSPAWN (R272). [log 28 DEDUCED] -/
def execMspawn (g : Guard) (rd rs1 rs2 : XReg) (s : State) : Out :=
  run { guard := g, who := .user, src := [rs1, rs2], dst := [rd] } (fun s c k =>
    let t := s.thr c k
    if s.noMigrants c t then illegal s c k (s.barredVal c t) else
    let pc := t.xv rs2
    (ownerFor s c k (t.xv rs1).toNat).bind fun s o =>
    if pc.toNat % 4 ≠ 0 then trap s c k { cause := 0, val := pc } else
    (waitFor s c k .outRoom ((s.thr c k).migr.out < 255)).bind fun s _ =>
    (commitFirst s c k).bind fun s _ =>
    (drainWait s c k).bind fun s _ =>
    let p := s.packetFor c k pc (t.xv rs1) false false o
    let n := (s.thr c k).migr.out + 1
    let s1 := (s.modThr c k fun t => { t with migr := { t.migr with out := n } }).sendPacket c p
    .stop (s1.park c k (.reply noDue false { ws := [.x rd (BitVec.ofNat 64 n)] }))) s

/-- MIGR: the thread waits in its slot until its packet is accepted (R272). -/
def execMigr (g : Guard) (rs1 : XReg) (s : State) : Out :=
  run { guard := g, who := .user, src := [rs1] } (fun s c k =>
    let t := s.thr c k
    if s.noMigrants c t then illegal s c k (s.barredVal c t) else
    (ownerFor s c k (t.xv rs1).toNat).bind fun s o =>
    (waitFor s c k .outZero ((s.thr c k).migr.out = 0)).bind fun s _ =>
    (commitFirst s c k).bind fun s _ =>
    (drainWait s c k).bind fun s _ =>
    (waitFor s c k .strips ((s.thr c k).vq = [])).bind fun s _ =>
    let p := s.packetFor c k ((s.thr c k).a.pc + 4) (t.xv rs1) true true o
    let s1 := s.modThr c k fun t => { t with a := { t.a with csr := t.a.csr.setCount 0 } }
    let s2 := ((s1.releaseLock c k).unregister c k).orphan c t.serial
    .stop ((s2.sendPacket c p).park c k (.reply noDue false {}))) s

/-! ### Ending and waiting -/

/-- RETIRE (R273). -/
def execRetire (g : Guard) (s : State) : Out :=
  run { guard := g, who := .user } (fun s c k =>
    (commitFirst s c k).bind fun s _ =>
    (waitFor s c k .strips ((s.thr c k).vq = [])).bind fun s _ =>
    .stop (s.endThread c k)) s

/-- The pending events that a thread's `evmask` selects, with the latched ones among them cleared; none while none is
pending (R274). -/
def State.takeEvents (s : State) (c : Nat) (k : SlotN) : Option (State × Word) :=
  let t := s.thr c k
  let n := s.events c t &&& t.a.csr.evmask.toNat
  if n = 0 then none
  else some (s.modThr c k fun t => { t with evl := t.evl &&& ~~~(BitVec.ofNat 8 (n &&& 0xC8)) }, BitVec.ofNat 64 n)

/-- WAITEV (R274). -/
def execWaitev (g : Guard) (rd : XReg) (s : State) : Out :=
  run { guard := g, dst := [rd] } (fun s c k =>
    if (s.thr c k).a.csr.evmask = 0 then .ok s { ws := [.x rd 0] } else
    match s.takeEvents c k with
    | some (s1, v) => .ok s1 { ws := [.x rd v] }
    | none => .stop (s.park c k (.cond (.event rd)))) s

/-! ### Pairs -/

/-- What a thread has outstanding comes to belong to another: posted operations, engine commands, rays, and by `respawn` its
migrants (R129, R275). -/
def State.retarget (s : State) (a b : TRef) : State :=
  let f (r : TRef) : TRef := if r = a then b else r
  let s1 := s.modCtx a.core fun x =>
    { x with
      mx := { x.mx with queue := x.mx.queue.map fun m => { m with by_ := f m.by_ } }
      outbox := x.outbox.map fun m => { m with sender := f m.sender }
      tv := { x.tv with
        rays := x.tv.rays.map fun y => { y with owner := f y.owner }
        children := x.tv.children.map fun y => (y.1, f y.2)
        events := x.tv.events.map fun y => (f y.1, y.2) } }
  let s2 := s1.modCluster (clusterOf a.core) fun q =>
    { q with
      jobs := q.jobs.map fun j => { j with by_ := f j.by_ }
      chans := q.chans.map fun h => { h with job := h.job.map fun j => { j with by_ := f j.by_ } } }
  { s2 with
    posted := s2.posted.map fun p =>
      { p with src := f p.src, op := match p.op with | .msg m => .msg { m with sender := f m.sender } | o => o }
    acks := s2.acks.map fun p => { p with dst := f p.dst } }

/-- The thread that a join leaves in the even slot (R58, R129, R275). [log 19 DEDUCED; 114 DESIGN CHOICE] -/
def joined (e o : Thread) : Thread :=
  { e with
    paired := true
    a := { e.a with vOdd := o.a.v, csr := { e.a.csr with vstat := e.a.csr.vstat ||| o.a.csr.vstat } }
    psc0 := e.psc0 + o.psc0, psc1 := e.psc1 + o.psc1, psc2 := e.psc2 + o.psc2
    migr := { e.migr with out := e.migr.out + o.migr.out }
    evl := e.evl ||| o.evl, outside := e.outside || o.outside
    vimg := e.vimg || o.vimg, dirty := e.dirty || o.vimg
    regsOdd := o.regs
    deferred := e.deferred ++ o.deferred.filter fun d => !e.deferred.any fun x => x.cause == d.cause }

/-- Joins the threads of slots i and i + 1, both at PAIRON; the odd thread ceases to exist (R275). [log 18 DEDUCED; 19
DEDUCED] -/
def State.join (s : State) (c : Nat) (i : SlotN) : State :=
  let e := s.thr c i
  let o := s.thr c (i + 1)
  let s1 := s.orphan c o.serial
  let s2 := s1.modCtx c fun x => { x with lock := x.lock.map fun l => if l.holder = i + 1 then { l with holder := i } else l }
  (((s2.setThr c i (joined e o)).setSlot c (i + 1) .odd).retarget (o.ref c) (e.ref c)).respawn (o.ref c) (e.ref c)

/-- PAIRON (R275). A thread already paired has no other thread to join and stays parked. [log 18 DEDUCED; 19 DEDUCED] -/
def execPairon (g : Guard) (rd : XReg) (s : State) : Out :=
  run { guard := g, who := .user, dst := [rd] } (fun s c k =>
    (commitFirst s c k).bind fun s _ =>
    (waitFor s c k .strips ((s.thr c k).vq = [])).bind fun s _ =>
    let m := pairMate k
    let t := s.thr c k
    let now := (s.core c).cycle
    if (s.slot c m).isEmpty ∨ (s.core c).removed.getLsbD m then .ok s { ws := [.x rd 0] } else
    match s.slot c m with
    | .thread o =>
      match o.st, o.wait with
      | .parked, .cond (.partner rd') =>
        if t.kind ≠ .resident ∨ o.kind ≠ .resident ∨ t.launch ≠ o.launch then
          .ok (s.modThr c m fun o => { o with wait := .reply now true { ws := [.x rd' 0] } }) { ws := [.x rd 0] }
        else if k.val % 2 = 0 then .ok (s.join c k) { ws := [.x rd 1] }
        else .stop ((s.join c m).modThr c m fun e => { e with wait := .reply now true { ws := [.x rd' 1] } })
      | _, _ => .stop (s.park c k (.cond (.partner rd)))
    | _ => .stop (s.park c k (.cond (.partner rd)))) s

/-- PAIROFF: each half goes on at pc + 4 (R276). -/
def execPairoff (g : Guard) (s : State) : Out :=
  run { guard := g, who := .user } (fun s c k =>
    (commitFirst s c k).bind fun s _ =>
    if !(s.thr c k).paired then .ok s {} else
    (waitFor s c k .strips ((s.thr c k).vq = [])).bind fun s _ =>
    .ok ((s.split c k).modThr c (k + 1) fun o => { o.finish none 4 with resumedAt := (s.core c).cycle }) {}) s

end Sys2Proof.Machine
end

