-- ==== Sys2Proof/Machine/Traversal.lean ====
section
/-! DEFINITION. Traversal.lean: the meanings of TRACE, TRESUME, TWAIT, TACCEPT, TIGNORE, TTERM, TSPAWN, TRSAVE and HHTINV, and
the steps of a traversal unit (R341 to R350). -/

namespace Sys2Proof.Machine

/-! ### Handles and rays -/

/-- The handle of a record at an own-scratchpad or cluster-window address, 256 bytes within a share; none elsewhere (R331,
R334). -/
def State.recordHandle (s : State) (c : Nat) (a : Nat) : Option Word :=
  let h : Nat :=
    if 0xFFFFFFFE00000000 ≤ a ∧ a < 0xFFFFFFFE00060000 then
      0xFFFFFFFD00000000 + cicOf c * 2 ^ 19 + (a - 0xFFFFFFFE00000000)
    else a
  if 0xFFFFFFFD00000000 ≤ h ∧ h < 0xFFFFFFFD00400000 then
    match s.clusterKey (clusterOf c) h, s.clusterKey (clusterOf c) (h + 255) with
    | some _, some _ => some (BitVec.ofNat 64 h)
    | _, _ => none
  else none

/-- An aligned handle in the issuing cluster's window, or cause 2 with the value (R341). -/
def handleFor (s : State) (c : Nat) (k : SlotN) (h : Word) : Got Nat :=
  match s.clusterKey (clusterOf c) h.toNat, s.clusterKey (clusterOf c) (h.toNat + 255) with
  | some key, some _ =>
    if h.toNat % 64 ≠ 0 ∨ h.toNat < 0xFFFFFFFD00000000 ∨ 0xFFFFFFFD00400000 ≤ h.toNat then illegal s c k h else .ok s key
  | _, _ => illegal s c k h

/-- The equipped cores of a cluster. -/
def unitsOf (cl : Nat) : List Nat := [cl * 8 + 3, cl * 8 + 7]

/-- The unit of a cluster that holds a ray, and the ray. -/
def State.rayAt (s : State) (cl : Nat) (h : Word) : Option (Nat × Ray) :=
  (unitsOf cl).findSome? fun c => ((s.core c).c.tv.rays.find? fun r => r.handle == h).map fun r => (c, r)

/-- The gate of a traversal command: chunk committed, `psc0` zero (R80, R240, R341). -/
def engineGate (s : State) (c : Nat) (k : SlotN) : Got Unit :=
  (commitFirst s c k).bind fun s _ => waitFor s c k (.wclass 0) ((s.thr c k).psc0 = 0)

/-- A unit has a slot for a TRACE or a drained record: queued children start first (R342, R345). -/
def State.rayRoom (s : State) (c : Nat) : Bool :=
  let v := (s.core c).c.tv
  v.rays.length < 64 && v.children.isEmpty

/-! ### TRACE -/

/-- The ray of a record (R331). -/
def rayOf (bs : List Byte) (h : Word) (owner : TRef) (part : Nat) : Ray :=
  let b (i : Nat) : Nat := (bs.getD i 0).toNat
  { handle := h, owner := owner, part := part, status := 1, flags := wordAt bs 0x20
    tmin := wordAt bs 0x0C, tmax := wordAt bs 0x1C, cull := b 0x24, sbtoff := b 0x25, sbtstride := b 0x26, miss := b 0x27
    desc := dwordAt bs 0x28, opened := false, looked := false, sbt := 0, nh := 0, nm := 0, gen := 0, hint := 0, hctx := 0, hidx := 0
    ways := 0, key := none, pred := none, predicting := false, ahcount := 0
    frames := [⟨0, wordsAt bs 0 3, wordsAt bs 0x10 3, 0xFFFFFFFF, [], 0⟩], stack := [], spilled := []
    spill := dwordAt bs 0xF0, trail := 0, dropped := [], todo := [], prims := [], leaf := (0, 0), cur := 0, tested := [], best := none
    cand := none, candOpaque := false, term := false }

/-- A record that ends INVALID (R342). -/
def badRecord (bs : List Byte) : Bool :=
  bits (wordAt bs 0x20).toNat 6 26 != 0 || bits (dwordAt bs 0x30) 40 24 != 0 || 8 < bits (dwordAt bs 0x30) 32 8 ||
  nan32 (wordAt bs 0x0C) || nan32 (wordAt bs 0x1C)

/-- Starts the ray of a record in a unit: fields zeroed, ACTIVE, or INVALID at once (R342, R345). -/
def State.startRay (s : State) (c : Nat) (h : Word) (key : Nat) (owner : TRef) (child : Bool) : State :=
  let bs := s.bytes key 256
  let r := rayOf bs h owner (((s.core c).part).getD 0)
  let s1 := ((s.modTv c fun v => { v with rays := v.rays ++ [r] }).countRay c 0 1).countRay c 1 (if child then 1 else 0)
  let z (n : Nat) : List Byte := List.replicate n 0
  let s2 := (((s1.pokeFull (key + 0x40) (z 0x40)).pokeFull (key + 0x80) (z 16)).pokeFull (key + 0xF8) (z 8)).pokeFull
    (key + 0x30) (leBytes 4 1)
  if badRecord bs then s2.endRay c r 8 0 else s2

/-- TRACE (R342). -/
def execTrace (g : Guard) (rd rs1 : XReg) (s : State) : Out :=
  run { guard := g, src := [rs1], dst := [rd], custom3 := true } (fun s c k =>
    let a := (s.thr c k).xv rs1
    (aligned s c k a.toNat 64 4).bind fun s _ =>
    match s.recordHandle c a.toNat with
    | none => trap s c k { cause := 5, val := a }
    | some h =>
      (handleFor s c k h).bind fun s key =>
      (engineGate s c k).bind fun s _ =>
      (spanLockWait s c k [(key, 256)]).bind fun s _ =>
      match badIn s.bad (key + 0x30) 1 with
      | some _ => trap s c k { cause := 31, val := a }
      | none =>
        if s.byte (key + 0x30) ≠ 0 then illegal s c k h else
        (waitFor s c k .rayRoom (s.rayRoom c)).bind fun s _ =>
        .ok (s.startRay c h key ((s.thr c k).ref c) false) { ws := [.x rd h] }) s

/-! ### TWAIT -/

/-- Takes the oldest event of a thread's rays, or of one ray (R343). -/
def State.takeRay (s : State) (c : Nat) (r : TRef) (h : Word) : Option (State × Word) :=
  let mine (e : TRef × Word × Nat) : Bool := e.1 == r && (h == 0 || e.2.1 == h)
  match (s.core c).c.tv.events.find? mine with
  | some e => some (s.modTv c fun v => { v with events := v.events.eraseP mine }, e.2.1 ||| BitVec.ofNat 64 e.2.2)
  | none => none

/-- The thread owns a ray, started or queued, that matches (R343, R345). [log 46 DEDUCED] -/
def State.ownsRay (s : State) (c : Nat) (r : TRef) (h : Word) : Bool :=
  (unitsOf (clusterOf c)).any fun u =>
    ((s.core u).c.tv.rays.any fun y => y.owner == r && (h == 0 || y.handle == h)) ||
    (s.core u).c.tv.children.any fun y => y.2 == r && (h == 0 || y.1 == h)

/-- TWAIT's wait is over. -/
def State.rayWaitOver (s : State) (c : Nat) (r : TRef) (h : Word) : Bool :=
  (s.takeRay c r h).isSome || !s.ownsRay c r h

/-- TWAIT (R343). -/
def execTwait (g : Guard) (rd rs1 : XReg) (s : State) : Out :=
  run { guard := g, src := [rs1], dst := [rd], custom3 := true } (fun s c k =>
    let h := (s.thr c k).xv rs1
    (if h = 0 then .ok s 0 else handleFor s c k h).bind fun s _ =>
    (commitFirst s c k).bind fun s _ =>
    let r := (s.thr c k).ref c
    match s.takeRay c r h with
    | some (s1, v) => .ok s1 { ws := [.x rd v] }
    | none => (waitFor s c k (.rayEvent h rd) (!s.ownsRay c r h)).bind fun s _ => .ok s { ws := [.x rd 0] }) s

/-! ### Answers -/

/-- The ray of a drained record, loaded from it at whatever handle the record stands, with what the unit that drained it
knew beyond it: of records that show the same bytes, the last one drained at this handle (R331, R344, R346). A record that
no unit wrote so has the walk begin again at the root with its best hit. [log 44 DEDUCED] -/
def State.loadRay (s : State) (h : Word) (bs : List Byte) (owner : TRef) (part : Nat) : Ray :=
  let f := rayOf bs h owner part
  let code := bits (dwordAt bs 0x30) 0 8
  let same (e : Ray × List Byte) : Bool := e.1.part == part && e.2 == recordImage bs
  match (s.drained.find? fun e => same e && e.1.handle == h) <|> s.drained.find? same with
  | some (r, _) =>
    { r with
      handle := h, owner := owner, status := code, flags := f.flags, tmin := f.tmin, tmax := f.tmax, cull := f.cull, sbtoff := f.sbtoff
      sbtstride := f.sbtstride, miss := f.miss, spill := f.spill }
  | none =>
    let w (o : Nat) : Word32 := wordAt bs o
    let hk := bits (dwordAt bs 0x58) 0 8
    { f with
      status := code, looked := true, hint := hk, ahcount := bits (dwordAt bs 0x30) 16 16
      best := if bits (dwordAt bs 0x58) 8 8 = 0 then none else
        some ⟨w 0x40, w 0x54, w 0x50, w 0x4C, w 0x44, w 0x48, bits (dwordAt bs 0x58) 8 8, wordsAt bs 0x70 4, 0, 0⟩
      term := true
      cand := if code = 2 ∨ code = 3 then some ⟨w 0x60, w 0x6C, w 0x68, w 0x64, 0, 0, 3, wordsAt bs 0x70 4, 0, 0⟩ else none }

/-- What an answer finds: the unit, the ray, and whether it is to be loaded from a drained record. -/
def State.answered (s : State) (c key : Nat) (h : Word) (owner : TRef) : Option (Nat × Ray × Bool) :=
  match s.rayAt (clusterOf c) h with
  | some (u, r) => some (u, r, false)
  | none =>
    let bs := s.bytes key 256
    if (dwordAt bs 0x30).testBit 8 then
      some (c, s.loadRay h bs owner (((s.core c).part).getD 0), true)
    else none

/-- A ray goes on after an answer: its record shows ACTIVE, or the state the answer led to (R344). -/
def State.goOn (s : State) (u : Nat) (r : Ray) : State :=
  let s1 := (s.putRayState u r).writeRay u r false false
  if r.status = 3 then s1.rayEvent r 2 else s1

/-- What an answer makes of a ray: an ended ray has a code; none if the state does not accept it (R344). -/
def Ray.answer (r : Ray) (loaded : Bool) (how : Instr) (report : Word) (bare : Bool) (attrs : List Word32) :
    Option (Ray × Bool) :=
  let act := { r with status := 1 }
  match how with
  | .tresume _ _ _ =>
    if report.toNat / 2 ^ 33 ≠ 0 then none else
    match r.status with
    | 2 =>
      match r.cand with
      | none => none
      | some x =>
        if !report.getLsbD 32 then some ({ act with cand := none }.primDone, false) else
        let t : Word32 := report.setWidth 32
        if !act.considers t x.inst x.geom x.prim then some ({ act with cand := none }.primDone, false)
        else
          let y := act.handle_ { x with t := t, u := 0, v := 0, kind := 3, attrs := attrs } r.candOpaque
          some (y, y.status == 1 && y.flags.getLsbD 1)
    | 6 => if bare then some (act, false) else none
    | 1 => if loaded then some (act, false) else none
    | _ => none
  | .taccept _ _ =>
    match r.status, r.cand with
    | 3, some x => some (act.primDone.accept x, r.flags.getLsbD 1)
    | _, _ => none
  | .tignore _ _ => if r.status = 3 then some ({ act with cand := none }.primDone, false) else none
  | .tterm _ _ =>
    match r.status, r.cand with
    | 3, some x => some (act.primDone.accept x, true)
    | _, _ => none
  | _ => none

/-- An answer instruction (R344). -/
def answer (g : Guard) (rs1 rs2 : XReg) (how : Instr) (s : State) : Out :=
  run { guard := g, src := [rs1, rs2], custom3 := true } (fun s c k =>
    let h := (s.thr c k).xv rs1
    let report := (s.thr c k).xv rs2
    (handleFor s c k h).bind fun s key =>
    (engineGate s c k).bind fun s _ =>
    (spanLockWait s c k [(key, 256)]).bind fun s _ =>
    let owner := (s.thr c k).ref c
    match s.answered c key h owner with
    | none => illegal s c k h
    | some (u, r, load) =>
      match r.answer load how report (rs2 == 0) (wordsAt (s.bytes key 256) 0x70 4) with
      | none => illegal s c k h
      | some (y, ends) =>
        (waitFor s c k .rayRoom (!load || s.rayRoom c)).bind fun s _ =>
        let s1 := if load then
            s.modTv u fun v => { v with rays := v.rays ++ [y] }
          else s
        .ok (if ends then s1.endRay u { y with term := true } 4 0 else s1.goOn u y) {}) s

/-- TRESUME (R344). -/
def execTresume (g : Guard) (rs1 rs2 : XReg) (s : State) : Out := answer g rs1 rs2 (.tresume g rs1 rs2) s
/-- TACCEPT (R344). -/
def execTaccept (g : Guard) (rs1 : XReg) (s : State) : Out := answer g rs1 0 (.taccept g rs1) s
/-- TIGNORE (R344). -/
def execTignore (g : Guard) (rs1 : XReg) (s : State) : Out := answer g rs1 0 (.tignore g rs1) s
/-- TTERM (R344). -/
def execTterm (g : Guard) (rs1 : XReg) (s : State) : Out := answer g rs1 0 (.tterm g rs1) s

/-! ### TSPAWN, TRSAVE, HHTINV -/

/-- The state code of a ray: its unit's, or that of its drained record. -/
def State.rayCode (s : State) (cl key : Nat) (h : Word) : Option Nat :=
  match s.rayAt cl h with
  | some (_, r) => some r.status
  | none => if (s.num (key + 0x30) 2).testBit 8 then some (s.num (key + 0x30) 1) else none

/-- TSPAWN (R345). [log 45 DEDUCED] -/
def execTspawn (g : Guard) (rd rs1 rs2 : XReg) (s : State) : Out :=
  run { guard := g, src := [rs1, rs2], dst := [rd], custom3 := true } (fun s c k =>
    let h := (s.thr c k).xv rs1
    let ch := (s.thr c k).xv rs2
    (handleFor s c k h).bind fun s key =>
    (handleFor s c k ch).bind fun s ckey =>
    (engineGate s c k).bind fun s _ =>
    (spanLockWait s c k [(ckey, 256)]).bind fun s _ =>
    if s.rayCode (clusterOf c) key h ≠ some 3 then illegal s c k
    else if s.byte (ckey + 0x30) ≠ 0 then illegal s c k ch
    else
      let depth := s.num (key + 0x34) 1 + 1
      if 8 < depth then .ok s { ws := [.x rd 0, .p 1 false] } else
      let s1 := s.pokeFull (ckey + 0x34) [BitVec.ofNat 8 depth]
      let q := (s1.core c).c.tv.children
      -- beyond 64 the last child's record names the next (R345)
      let link := if 65 ≤ q.length then (q.getLast?.bind fun e => s1.clusterKey (clusterOf c) (e.1.toNat + 0x40)).toList else []
      (spanLockWait s1 c k (link.map fun a => (a, 8))).bind fun s1 _ =>
      let s2 := if 65 ≤ q.length then s1.putRay c ((q.getLast?.map (·.1)).getD 0) 0x40 (leBytes 8 ch.toNat) else s1
      .ok (s2.modTv c fun v => { v with children := v.children ++ [(ch, (s.thr c k).ref c)] })
        { ws := [.x rd ch, .p 1 true] }) s

/-- Walks a ray to the end of the leaf in progress, or to the suspension or fault it meets first; its descriptor is read and
its hint lookup made first (R346, R412). [log 44 DEDUCED] -/
def State.drainRay (s : State) (c : Nat) (h : Word) : Nat → State
  | 0 => s
  | f + 1 =>
    match (s.core c).c.tv.rays.find? fun r => r.handle == h with
    | none => s
    | some r =>
      if r.status ≠ 1 ∨ (r.prims = [] ∧ r.opened) then s else
      match rayStep s c r with
      | .moved s1 r1 =>
        let s2 := s1.putRayState c r1
        (if r1.status = 2 ∨ r1.status = 3 then s2.rayEvent r1 (r1.status - 1) else s2).drainRay c h f
      | .ended s1 r1 code idx => s1.endRay c r1 code idx
      | .fault s1 p => (s1.putRayState c { r with status := 6 }).rayRecord c r p
      | .writeFault s1 p => (s1.rayRecord c r p).endRay c r 9 0
      | .held s1 => s1
      | .restart => s

/-- Writes the whole record of a drained ray, its stack beyond the 12 entries of the record in the spill block, and frees
its slot; a spill block that cannot be written ends the ray ABORTED (R340, R346, R348). [log 44 DEDUCED] -/
def State.saveRay (s : State) (u key : Nat) (r : Ray) (by_ : Option (Nat × SlotN)) : State :=
  match r.sink s u 12 by_ with
  | (s1, .ok r1) =>
    let s2 := (s1.writeRay u r1 true false).modTv u fun v => { v with rays := v.rays.filter fun x => x.handle != r.handle }
    { s2 with drained := (r1, recordImage (s2.bytes key 256)) :: s2.drained }
  | (s1, .error (some p)) => (s1.rayRecord u r p).endRay u r 9 0
  | (s1, .error none) => s1

/-- TRSAVE (R346). -/
def execTrsave (g : Guard) (rs1 : XReg) (s : State) : Out :=
  run { guard := g, src := [rs1], custom3 := true } (fun s c k =>
    let h := (s.thr c k).xv rs1
    (handleFor s c k h).bind fun s key =>
    (engineGate s c k).bind fun s _ =>
    (spanLockWait s c k [(key, 256)]).bind fun s _ =>
    match s.rayAt (clusterOf c) h with
    | none => .ok s {}
    | some (u, r) =>
      let block := match s.clusterKey (clusterOf c) r.spill with
        | some b => [(b, 512)]
        | none => []
      (spanLockWait s c k block).bind fun s _ =>
      let s1 := s.drainRay u h (r.prims.length + 2)
      match (s1.core u).c.tv.rays.find? fun r => r.handle == h with
      | none => replyWait s1 c k {}
      | some r1 => replyWait (s1.saveRay u key r1 (some (c, k))) c k {}) s

/-- Clears V of the entries of a context, or of a context and generation, in ways of a cluster (R319, R347). -/
def State.clearHints (s : State) (cl : Nat) (ways : BitVec 8) (ctx : Nat) (gen : Option Nat) : State :=
  s.modCluster cl fun q => { q with hints := q.hints.filter fun h =>
    !(ways.getLsbD h.way && h.ctx == ctx && match gen with
      | some n => h.gen == n
      | none => true) }

/-- HHTINV (R347). -/
def execHhtinv (g : Guard) (mode : Fin 2) (rs1 rs2 : XReg) (s : State) : Out :=
  run { guard := g, src := [rs1, rs2], custom3 := true } (fun s c k =>
    let x := (s.thr c k).xv rs1
    let y := (s.thr c k).xv rs2
    if x.toNat / 2 ^ 12 ≠ 0 then illegal s c k x
    else if y.toNat / 2 ^ 16 ≠ 0 then illegal s c k y
    else
      (engineGate s c k).bind fun s _ =>
      match s.partOf c with
      | none => .ok s {}
      | some p =>
        let cls := p.cfg.rows.flatMap fun r => [r.1 * 64 + r.2 * 2, r.1 * 64 + r.2 * 2 + 1]
        let gen := if mode = 1 then some y.toNat else none
        replyWait (cls.foldl (fun s cl => s.clearHints cl p.cfg.ways x.toNat gen) s) c k {}) s

/-! ### Steps of a traversal unit -/

/-- A queued child ray starts, or a thread that waits for a slot performs its instruction again; children whose owner is
gone are discarded (R345, R349). [log 45 DEDUCED] -/
def execChildRayStart (s : State) : Out :=
  let c := s.subject.core
  let v := (s.core c).c.tv
  if 64 ≤ v.rays.length then .next s else
  match v.children with
  | (h, o) :: rest =>
    if s.recordHeld c h then .next s else
    let s1 := s.modTv c fun v => { v with children := rest }
    match s.findRef o, s.clusterKey (clusterOf c) h.toNat with
    | some _, some key => .next (s1.startRay c h key o true)
    | _, _ => .next s1
  | [] =>
    match (s.core c).threads.find? fun p => p.2.st == .parked && p.2.wait == .cond .rayRoom with
    | some (k, _) => .next (s.modThr c k fun t =>
        { t with st := .runnable, wait := .none, redo := true, resumedAt := (s.core c).cycle })
    | none => .next s

/-- The ray that a step names: the subject's core and value. -/
def State.subjectRay (s : State) : Option Ray :=
  (s.core s.subject.core).c.tv.rays.find? fun r => r.handle == s.subject.val

/-- The owner of a ray is gone, and the ray stands at a node boundary or is suspended: it ends ABORTED (R349). [log 46
DEDUCED] -/
def State.rayOver (s : State) (r : Ray) : Bool := (s.findRef r.owner).isNone && (r.status != 1 || r.prims == [])

/-- A ray of a unit that is to end ABORTED now, its record free to be written (R214, R349). [log 46 DEDUCED] -/
def State.rayAborts (s : State) (c : Nat) : Option Word :=
  ((s.core c).c.tv.rays.find? fun r => s.rayOver r && !s.recordHeld c r.handle).map (·.handle)

/-- A ray takes the next part of its walk; a candidate it considers is accepted or suspends it, with its record written
and an event (R336, R343). -/
def execRayCandidate (s : State) : Out :=
  let c := s.subject.core
  match s.subjectRay with
  | none => .next s
  | some r =>
    if r.status ≠ 1 ∨ s.rayOver r then .next s else
    match rayStep s c r with
    | .moved s1 r1 =>
      let s2 := s1.putRayState c r1
      if r1.status = 2 ∨ r1.status = 3 then
        .next (if s.recordHeld c r.handle then s else (s2.writeRay c r1 false false).rayEvent r1 (r1.status - 1))
      else .next s2
    | .held s1 => .next s1
    | _ => .next s

/-- A walk whose stack is empty with a trail starts again from the root (R340). -/
def execStackRestart (s : State) : Out :=
  let c := s.subject.core
  match s.subjectRay with
  | none => .next s
  | some r =>
    if r.status ≠ 1 ∨ s.rayOver r then .next s else
    match rayStep s c r with
    | .restart => .next ((s.putRayState c r.restart).countRay c 2 1)
    | _ => .next s

/-- A ray ends: HIT, MISS or SBT_RANGE, or ABORTED when its owner is gone (R336, R349). -/
def execRayEnd (s : State) : Out :=
  let c := s.subject.core
  match s.subjectRay with
  | none => .next s
  | some r =>
    if s.recordHeld c r.handle then .next s
    else if s.rayOver r then .next (s.endRay c r 9 0)
    else if r.status ≠ 1 then .next s else
    match rayStep s c r with
    | .ended s1 r1 code idx => .next (s1.endRay c r1 code idx)
    | _ => .next s

/-- A failed read parks the ray FAULTED; a failed write of its spill block ends it ABORTED; a record goes to slot 0
(R348). -/
def execRayFault (s : State) : Out :=
  let c := s.subject.core
  match s.subjectRay with
  | none => .next s
  | some r =>
    if r.status ≠ 1 ∨ s.rayOver r ∨ s.recordHeld c r.handle then .next s else
    match rayStep s c r with
    | .fault s1 p =>
      let r1 := { r with status := 6 }
      .next (((s1.putRayState c r1).writeRay c r1 false false).rayRecord c r p)
    | .writeFault s1 p => .next ((s1.rayRecord c r p).endRay c r 9 0)
    | _ => .next s

end Sys2Proof.Machine
end

