-- ==== Sys2Proof/Machine/Waits.lean ====
section
/-! DEFINITION. Waits.lean: what a parked thread waits for, replies, expiries, timing-error replays, deferred traps, the
deadlock detector and Prefect (R49, R80, R175, R263 to R266, R356, R368, R372). -/

namespace Sys2Proof.Machine

/-! ### Replies -/

/-- The page is not held by Nolmon for the thread, and is not being moved (R193, R200). [log 87 DEDUCED] -/
def State.pageFree (s : State) (r : TRef) (ipn : Nat) : Bool :=
  !(s.s2waits.any fun w => w.who == r) && !s.movingPages.contains (((s.core r.core).part).getD 0, ipn)

/-- The condition that a thread parked in a slot waits for holds; conditions that another step answers never do here. -/
def State.condHolds (s : State) (c : Nat) (k : SlotN) (t : Thread) (w : Cond) : Bool :=
  let r := t.ref c
  let x := (s.core c).c
  match w with
  | .counters m => (List.range 3).all fun i => !m.testBit i || t.psc i == 0
  | .wclass i => t.psc i == 0
  | .drained => t.psc0 == 0 && t.psc1 == 0 && t.psc2 == 0
  | .room i => t.psc i < 0xFFFF
  | .fence => s.fenceDone r t
  | .fencer kinds b n => s.fencerDone r kinds b n
  | .dest d => !s.sentTo r d
  | .range o off n => !s.lockHolds o off n (some (c, k))
  | .strips => t.vq == []
  | .stores => !t.storesPending
  | .overlap key n => !t.overlaps key n
  | .vreg v => !t.vPending v
  | .kreg v => !t.kPending v
  | .stripRoom n => t.pendingStrips + n ≤ 8
  | .outRoom => t.migr.out < 255
  | .outZero => t.migr.out == 0
  | .qwait h free n _ => (s.qwaitNow c h free n).isSome
  | .outbox => x.outbox.length < 8
  | .event _ => s.events c t &&& t.a.csr.evmask.toNat != 0
  | .partner _ => false
  | .trapq _ => x.trapQ != []
  | .copy ch id => if h : ch < 8 then id.toNat ≤ (x.cpydone[ch]).toNat else false
  | .jobRoom => (s.cluster (clusterOf c)).jobs.length < 32 && s.jobTurn c && !s.jobAnswered (clusterOf c)
  | .barwait _ _ => false
  | .matrixRoom => s.mQueued c < 8
  | .matrixIdle => x.mx.idle
  | .task => false
  | .spill => (s.cluster (clusterOf c)).tongs.batch.isNone
  | .rayRoom => false
  | .rayEvent h _ => s.rayWaitOver c r h
  | .token => s.token == some r
  | .stamp => s.mayStamp c 0
  | .peer n => s.peerIdle c n
  | .resume ipn => s.pageFree r ipn
  | .packet => false
  | .stage2 ipn => s.pageFree r ipn
  | .moving ipn => s.pageFree r ipn
  | .fetch ipn => s.pageFree r ipn
  | .refetch => t.trapReady
  | .solo line =>
    match s.soloLines with
    | some (o, ls) => o == r || !ls.contains line
    | none => true
  | .judged => t.closable
  | .limit => t.closable
  | .own line => s.ownsLine line
  | .port m => !s.mgmt.moving.any fun e => e.1 == m
  | .bank key => (s.heldStamp (bankCore key) 4).isNone
  | .shAcks => !s.shUnacked.any fun e => e.2.contains r
  | .coldRoom d => (s.core d).swapped.length < 32
  | .region d i =>
    match s.partOf c with
    | some p => match p.regions.find? fun y => y.die == d && y.idx == i with
      | some y => !s.regionBusy y
      | none => true
    | none => true

/-- The reply to the thread in a slot is here: what it waits for has come about. -/
def State.replyHere (s : State) (c : Nat) (k : SlotN) : Bool :=
  match (s.slot c k).thread? with
  | none => false
  | some t =>
    match t.st, t.wait with
    | .parked, .reply due _ _ => due ≤ (s.core c).cycle
    | .parked, .given due => due ≤ (s.core c).cycle
    | .parked, .cond w => s.condHolds c k t w
    | _, _ => false

/-- The thread resumes at a turn after the present cycle (R49). -/
def State.resumed (s : State) (c : Nat) (k : SlotN) : State :=
  match (s.slot c k).thread? with
  | some _ => s.modThr c k fun t => { t with resumedAt := (s.core c).cycle }
  | none => s

/-- The thread's waiting instruction is to be performed now. [log 7 DEDUCED] -/
def State.again (s : State) (c : Nat) (k : SlotN) : State :=
  s.modThr c k fun t => { t with st := .runnable, wait := .none, redo := true }

/-- What the reply does: the waiting instruction completes, or is to be performed now. -/
def State.answer (s : State) (c : Nat) (k : SlotN) : State :=
  match (s.thr c k).wait with
  | .reply _ _ fin => complete s c k fin
  | .given _ => s.again c k
  | .cond w =>
    match w with
    | .fencer _ _ _ => complete s c k {}
    | .qwait h free n rd =>
      match s.qwaitNow c h free n with
      | some v => complete s c k { ws := [.x rd v] }
      | none => s
    | .event rd =>
      match s.takeEvents c k with
      | some (s1, v) => complete s1 c k { ws := [.x rd v] }
      | none => s
    | .trapq rd =>
      match s.popRec c with
      | some (s1, v) => complete s1 c k { ws := [.x rd v] }
      | none => s
    | .fetch _ => s.modThr c k fun t => { t with st := .runnable, wait := .none }
    | .limit => s.modThr c k fun t => { t with st := .runnable, wait := .none }
    | .refetch => s.modThr c k fun t => { t with st := .runnable, wait := .none }
    | .resume _ => s.resumeThread c k
    | _ => s.again c k
  | _ => s

/-- A reply reaches the parked thread of the subject's core and slot (R49). [log 6 DEDUCED] -/
def execReplyArrival (s : State) : Out :=
  let c := s.subject.core
  let k := s.subject.slot
  if s.replyHere c k then .next ((s.answer c k).resumed c k) else .next s

/-! ### Timing errors -/

/-- A thread issues in the present cycle of its core (R48, R49, R51). -/
def State.canIssue (s : State) (c : Nat) : Option SlotN :=
  let x := s.core c
  if x.turnDone || x.halted || x.wait != 0 then none else
  let k := s.home c ⟨x.cycle % 8, Nat.mod_lt _ (by decide)⟩
  match (s.slot c k).thread? with
  | some t => if t.st = .runnable ∧ t.resumedAt < x.cycle then some k else none
  | none => none

/-- A timing error in the instruction of the subject core's present turn: it reissues at the thread's next turn (R80). It
strikes before the instruction's pops, or with the flag after them, so that the popped values are held (R417). [log 9
DEDUCED] -/
def execTimingErrorReplay (s : State) : Out :=
  let c := s.subject.core
  match s.canIssue c with
  | none => .next s
  | some _ => .next (s.modCore c fun x =>
      if s.subject.flag then { x with strikes := true }
      else { (x.countEv 1).struck with turnDone := true, issued := x.issued + 1 })

/-- Replays of a core in the last 1,024 cycles (R80). [log 9 DEDUCED] -/
def Core.recentReplays (x : Core) : List Nat := x.replays.filter fun n => x.cycle < n + 1024

/-- Voltage steps that Bellows has raised a row by, less those it has dropped. -/
def Mgmt.volts (m : Mgmt) (d r : Nat) : Int :=
  match m.voltage.find? fun e => e.1 == d && e.2.1 == r with
  | some e => e.2.2
  | none => 0

/-- Changes a row's voltage steps. -/
def Mgmt.setVolts (m : Mgmt) (d r : Nat) (n : Int) : Mgmt :=
  { m with voltage := (d, r, n) :: m.voltage.filter fun e => !(e.1 == d && e.2.1 == r) }

/-- More than 4 replays in 1,024 cycles are reported, and the row's voltage rises by one step (R80). [log 9 DEDUCED] -/
def execReplayRateReport (s : State) : Out :=
  let c := s.subject.core
  if (s.core c).recentReplays.length ≤ 4 then .next s else
  let m := s.mgmt
  .next { s.modCore c fun x => { x with replays := [] } with
    mgmt := m.setVolts (dieOf c) (rowOf c) (m.volts (dieOf c) (rowOf c) + 1) }

/-! ### Bounded waits -/

/-- What the expiry of a bounded wait reports: `trval` and `trval2`; none for a wait without bound (R263). -/
def State.limitVals (s : State) (c : Nat) (k : SlotN) (t : Thread) : Option (Word × Word) :=
  let ends (h : Word) : Word :=
    match qref c h with
    | some q => BitVec.ofNat 64 ((s.queue q).head.toNat * 2 ^ 32 + (s.queue q).tail.toNat)
    | none => 0
  match t.wait with
  | .pop h _ _ => some (h, ends h)
  | .push h _ _ _ => some (h, ends h)
  | .cond (.qwait h _ _ _) => some (h, ends h)
  | .mbxPut o i _ =>
    -- one on its way is not held at the mailbox yet
    if ((s.core o).c.mbx[i]).puts.any fun x => x.1 == t.ref c then some ((QRef.mbx o i).handle, 0) else none
  | .mbxGet o i _ => some ((QRef.mbx o i).handle, 0)
  | .recv _ _ => some (s.handle c k t, 0)
  | .full _ _ a _ => some (a, 0)
  | _ => none

/-- The wait of the thread in a slot has lasted longer than LIMIT (R263). [log 38 DEDUCED] -/
def State.expired (s : State) (c : Nat) (k : SlotN) : Bool :=
  match (s.slot c k).thread? with
  | none => false
  | some t =>
    t.st == .parked && (s.limitVals c k t).isSome && t.trapReady && t.a.csr.limit != 0 &&
    t.parkedAt + t.a.csr.limit < (s.core c).cycle

/-- A bounded wait expires: it is abandoned, and its instruction traps with cause 24 (R263). [log 38 DEDUCED] -/
def execWaitLimitExpiry (s : State) : Out :=
  let c := s.subject.core
  let k := s.subject.slot
  match s.expired c k, s.limitVals c k (s.thr c k) with
  | true, some (v, v2) => .next (s.trapBetween c k { cause := 24, val := v, val2 := v2 })
  | _, _ => .next s

/-- BARTO bounds barrier and gang waits on a core, and this one has lasted longer (R124, R368). -/
def State.bartoOver (s : State) (c : Nat) (t : Thread) : Bool :=
  let x := s.core c
  t.st == .parked && t.trapReady && x.supBit 7 && x.barto != 0 && t.parkedAt + 8 * x.barto < x.cycle

/-- The corner core of a barrier register's rectangle (R363). -/
def Barrier.corner (b : Barrier) (c : Nat) : Nat := dieOf c * 512 + b.row0 * 16 + b.col0

/-- `trval` of a barrier wait (R264, R368). -/
def State.barVal (s : State) (corner : Nat) (n : Fin 4) : Word :=
  BitVec.ofNat 64 ((s.loc corner 0).toNat % 2 ^ 32 * 2 ^ 32 + n)

/-- What the timeout of a barrier wait reports (R368). -/
def State.barrierVals (s : State) (c : Nat) (t : Thread) : Option (Word × Word) :=
  match t.wait with
  | .cond (.barwait b g) => some (s.barVal ((s.bar c b).corner c) b, g)
  | .barrive b _ => some (s.barVal ((s.bar c b).corner c) b, (s.bar c b).gen.setWidth 64)
  | _ => none

/-- A barrier wait longer than BARTO rots traps with cause 26 (R368). -/
def execBarrierTimeout (s : State) : Out :=
  let c := s.subject.core
  let k := s.subject.slot
  match (s.slot c k).thread? with
  | none => .next s
  | some t =>
    match s.bartoOver c t, s.barrierVals c t with
    | true, some (v, v2) => .next (s.trapBetween c k { cause := 26, val := v, val2 := v2 })
    | _, _ => .next s

/-- The thread's MGANG waits at the wired barrier: it heads the queue and its span is not complete (R175). [log 54 DEDUCED]
-/
def State.gangWaits (s : State) (c : Nat) (t : Thread) : Bool :=
  match (s.mx c).queue.head? with
  | some m => m.by_ == t.ref c && (match m.op with | .gang _ _ => true | _ => false) && !s.gangReady c
  | none => false

/-- A gang wait longer than BARTO rots traps with cause 26, and the MGANG is removed from the queue (R175). [log 54 DEDUCED]
-/
def execGangTimeout (s : State) : Out :=
  let c := s.subject.core
  let k := s.subject.slot
  match (s.slot c k).thread? with
  | none => .next s
  | some t =>
    match t.wait with
    | .gang g id _ =>
      if s.bartoOver c t ∧ s.gangWaits c t then
        .next (s.trapBetween c k { cause := 26, val := BitVec.ofNat 64 id, val2 := BitVec.ofNat 64 g })
      else .next s
    | _ => .next s

/-! ### Deferred traps -/

/-- A wait that has performed nothing, which a deferred trap ends at once (R372). [log 7 DEDUCED] -/
def Wait.idle : Wait → Bool
  | .pop _ _ _ => true
  | .push _ _ _ again => again
  | .mbxPut _ _ _ => true
  | .mbxGet _ _ _ => true
  | .recv _ _ => true
  | .full _ _ _ _ => true
  | .lock _ _ => true
  | .barrive _ _ => true
  | .gang _ _ _ => true
  | .cond w =>
    match w with
    | .fencer _ _ _ => false
    | .dest _ => false
    | .range _ _ _ => false
    | .overlap _ _ => false
    | .stores => false
    | .solo _ => false
    | .region _ _ => false
    | .spill => false
    | .packet => false
    | .stage2 _ => false
    | .moving _ => false
    | .resume _ => false
    | _ => true
  | _ => false

/-- The pending deferred trap with the earliest stamp (R372). -/
def Thread.nextDeferred (t : Thread) : Option Deferred :=
  t.deferred.foldl (fun m d => match m with
    | some x => if d.stamp.toNat < x.stamp.toNat then some d else some x
    | none => some d) none

/-- A deferred trap may be taken: before the next instruction of a runnable thread, or at once in a wait that has performed
nothing (R372). [log 49 DEDUCED] -/
def Thread.deferReady (t : Thread) : Bool :=
  t.deferred != [] && t.trapReady &&
  match t.st with
  | .runnable => !t.redo
  | .parked => t.wait.idle
  | _ => false

/-- Takes the next deferred trap of the thread in a slot; a squash keeps it pending (R371, R372). -/
def State.takeDeferred (s : State) (c : Nat) (k : SlotN) : State :=
  match (s.thr c k).nextDeferred with
  | none => s
  | some d =>
    let p : Trap :=
      { cause := d.cause.toNat, val := d.trval, val2 := d.trval2, source := d.source.toNat, flags := d.flags
        val3 := if d.cause = 25 then d.stamp else 0 }
    let s1 := s.trapBetween c k p
    if (s1.thr c k).st = .trapped then s1.modThr c k fun t => { t with deferred := t.deferred.erase d } else s1

/-- A pending deferred trap is taken (R372). [log 49 DEDUCED] -/
def execDeferredTrap (s : State) : Out :=
  let c := s.subject.core
  let k := s.subject.slot
  match (s.slot c k).thread? with
  | some t => if t.deferReady then .next (s.takeDeferred c k) else .next s
  | none => .next s

/-! ### The deadlock detector -/

/-- A thread of a die as a pass sees it: where it stands, and its wait if it is blocked in one (R264). -/
structure Node_ where
  ref : TRef
  slot : SlotN
  loc : Nat
  wait : Wait
  regs : List (Word × Bool × Bool)
  deriving DecidableEq, Repr

/-- The threads of a core, bound or SWAPPED. [log 50 DEDUCED] -/
def State.nodesOf (s : State) (c : Nat) : List Node_ :=
  let on := (s.core c).supBit 0
  let see (b : Bool) (w : Wait) : Wait := if on && b then w else .none
  ((s.core c).threads.map fun p =>
    ⟨p.2.ref c, p.1, (s.loc c p.1).toNat % 2 ^ 32, see (p.2.st == .parked) p.2.wait, p.2.regs ++ p.2.regsOdd⟩) ++
  (s.core c).swapped.map fun w => ⟨w.t.ref c, w.slot, (s.loc c w.slot).toNat % 2 ^ 32, see true w.blocked, w.t.regs ++ w.t.regsOdd⟩

/-- The listed cores of a die. -/
def State.coresOn (s : State) (d : Nat) : List Nat := (s.cores.map (·.1)).filter fun c => dieOf c == d

/-- The object and parties of a blocked thread: `trval`, its bits for PUSH and BAR, and the threads it waits for, none for a
participant that no thread stands for (R264). A thread that is not blocked has none. [log 50 DEDUCED] -/
def State.blockedOn (s : State) (ns : List Node_) (n : Node_) : Option (Word × Nat × List (Option TRef)) :=
  let c := n.ref.core
  -- without a descriptor area no registrations are seen (R323)
  let served (q : QRef) (prod : Bool) : List (Option TRef) :=
    if (s.heldArea q.cluster 0).isNone then [] else
    (ns.filter fun m => clusterOf m.ref.core == q.cluster && m.regs.any fun e =>
      e.1 == q.handle && if prod then e.2.1 else e.2.2).map fun m => some m.ref
  let at_ (d : Nat) (k : SlotN) : List (Option TRef) :=
    match ns.filter fun m => m.ref.core == d && m.slot == k with
    | [] => [none]
    | ms => ms.map fun m => some m.ref
  let onCore (d : Nat) : List (Option TRef) :=
    match ns.filter fun m => m.ref.core == d with
    | [] => [none]
    | ms => ms.map fun m => some m.ref
  let barrier (i : Fin 4) : Option (Word × Nat × List (Option TRef)) :=
    let b := s.bar c i
    let missing := ((List.range (b.rows * b.cols)).map fun j =>
      dieOf c * 512 + (b.row0 + j / b.cols) * 16 + b.col0 + j % b.cols).flatMap fun d =>
        let x := s.bar d i
        -- a core that is not armed yet may still arrive; one already released, or armed otherwise, has no one to wait for
        if !x.armed then onCore d
        else if x.rect == b.rect && x.gen != b.gen + 1 then
          (List.finRange 8).flatMap fun (k : SlotN) => if x.slots.getLsbD k && !x.arr.getLsbD k then at_ d k else []
        else []
    -- with a signal on the wires the waiter is not blocked on the same object when it is read again
    if s.signals.any fun g => g.b == i && g.rect == b.rect && dieOf g.core == dieOf c then none
    else some (s.barVal (b.corner c) i, 2 ^ 33, missing)
  match n.wait with
  | .pop h _ _ =>
    match qref c h with
    | some q => if (s.queue q).count = 0 then some (h, 0, served q true) else none
    | none => none
  | .push h _ _ _ =>
    match qref c h with
    | some q => if (s.queue q).free ≤ (s.queue q).kept then some (h, 2 ^ 32, served q false) else none
    | none => none
  | .cond (.barwait i _) => barrier i
  | .barrive i _ => barrier i
  | .gang g _ _ =>
    let head := match (s.mx c).queue.head? with
      | some m => m.by_ == n.ref
      | none => false
    let missing := ((spanOf c g).filter fun d => (s.gangHead d).isNone).flatMap onCore
    if !head then none else some (s.barVal (c - colOf c % g) Config.wiredBarrier, 2 ^ 33, missing)
  | _ => none

/-- The largest set of blocked threads whose parties all belong to it (R264). [log 50 DEDUCED] -/
def deadSet (f : Node_ → Option (Word × Nat × List (Option TRef))) : Nat → List Node_ → List Node_
  | 0, ds => ds
  | fuel + 1, ds =>
    let keep := ds.filter fun n =>
      match f n with
      | some (_, _, ps) => ps.all fun p => match p with
        | some r => ds.any fun m => m.ref == r
        | none => false
      | none => false
    if keep = ds then ds else deadSet f fuel keep

/-- A member of the set traps with cause 25 (R264). [log 51 DESIGN CHOICE] -/
def State.deadTrap (s : State) (f : Node_ → Option (Word × Nat × List (Option TRef))) (ds : List Node_) (stamp : Word)
    (n : Node_) : State :=
  match f n with
  | none => s
  | some (v, b, ps) =>
    let locs := (ds.filter fun m => ps.contains (some m.ref)).map (·.loc)
    let low := match locs.min? with
      | some l => l
      | none => (Config.noParty n.loc).toNat
    let p : Trap :=
      { cause := 25, val := v, val2 := BitVec.ofNat 64 (ds.length % 2 ^ 16 * 2 ^ 48 + b + low), val3 := stamp, source := 6 }
    (s.trapRef n.ref p stamp).modCore n.ref.core fun x =>
      { x with swapped := x.swapped.map fun w => if w.t.serial = n.ref.serial then { w with blocked := .none } else w }

/-- One pass of a die's detector (R264). [log 52 DEDUCED] -/
def State.deadlockPass (s : State) (d : Nat) : State :=
  let ns := (s.coresOn d).flatMap s.nodesOf
  let f := s.blockedOn ns
  let ds := deadSet f (ns.length + 1) (ns.filter fun n => (f n).isSome)
  if ds = [] then s else
  let (v, x) := s.mgmt.stamps.draw s.rot
  ds.foldl (fun s n => s.deadTrap f ds v n) { s with mgmt := { s.mgmt with stamps := x } }

/-- A pass of a die's detector is due: every 65,536 cycles, and after a write that sets DLDET (R264). -/
def State.passDue (s : State) (d : Nat) : Bool := (s.die d).passDue || (s.die d).lastPass + 65536 ≤ s.clock

/-- The detector of the subject's die makes a pass, once the source of its stamp may draw one (R264, R356). -/
def execDeadlockPass (s : State) : Out :=
  let d := s.subject.die
  if s.passDue d && s.mayStamp 0 6 then
    .next ((s.modDie d fun x => { x with passDue := false, lastPass := if x.lastPass + 65536 ≤ s.clock then s.clock else x.lastPass }).deadlockPass d)
  else .next s

/-! ### Prefect -/

/-- A stage of a cluster's pipeline as Prefect reads it: input queue, output handle, entry pc, thresholds (R324). -/
structure Stage where
  s : Nat
  input : QRef
  output : Word
  pc : Word
  low : Nat
  high : Nat
  depth : Nat
  deriving DecidableEq, Repr

/-- The stages of a cluster that take part (R324). -/
def State.stages (s : State) (cl : Nat) : List Stage :=
  match s.partOf (cl * 8) with
  | none => []
  | some p =>
    let e := s.ctl p (0x2008 + 16 * cl)
    if e % 2 = 0 then [] else
    (List.range 8).filterMap fun i =>
      match s.clusterKey cl (e / 64 * 64 + 32 * i) with
      | none => none
      | some key =>
        let w (j : Nat) : Nat := s.num (key + 8 * j) 8
        let l := bits (w 2) 0 16
        let h := bits (w 2) 16 16
        let q := (List.finRange 64).find? fun q =>
          let x := s.queue (.cq cl q)
          x.active && x.sen && x.stage == i
        match q with
        | some q =>
          if (w 2).testBit 32 && l < h && w 0 % 4 == 0 && w 2 / 2 ^ 33 == 0 && w 3 == 0 then
            some ⟨i, .cq cl q, BitVec.ofNat 64 (w 1), BitVec.ofNat 64 (w 0), l, h, (s.queue (.cq cl q)).count⟩
          else none
        | none => none

/-- The threads of a role on a core, and whether every one is bound and PARKED popping the queue (R265). -/
def State.idleRole (s : State) (c role : Nat) (q : QRef) : Bool :=
  let x := s.core c
  let ts := x.threads.filter fun p => p.2.role == role
  ts != [] && !(x.swapped.any fun w => w.t.role == role) &&
  ts.all fun p => match p.2.st, p.2.wait with
    | .parked, .pop h _ _ => qref c h == some q
    | _, _ => false

/-- Some thread of the core has the role. -/
def State.hasRole (s : State) (c role : Nat) : Bool :=
  (s.core c).threads.any (fun p => p.2.role == role) || (s.core c).swapped.any fun w => w.t.role == role

/-- The donors of a cluster that Prefect may move: core and stage (R265). [log 53 DESIGN CHOICE] -/
def State.donors (s : State) (cl : Nat) (ss : List Stage) : List (Nat × Stage) :=
  ((List.range 8).map fun i => cl * 8 + i).flatMap fun c => (ss.filter fun g =>
    (s.queue g.input).count == 0 && g.depth < g.low && s.idleRole c (8 + g.s) g.input &&
    !(0 < g.depth && !(List.range 8).any fun i => cl * 8 + i != c && s.hasRole (cl * 8 + i) (8 + g.s)) &&
    match (s.core c).movedAt with
    | some m => m + 65536 ≤ (s.core c).cycle
    | none => true).map fun g => (c, g)

/-- The receiver stage of a cluster (R265). -/
def receiver (ss : List Stage) : Option Stage :=
  ss.foldl (fun m g => if g.depth ≤ g.high then m else match m with
    | some x => if x.depth - x.high < g.depth - g.high then some g else some x
    | none => some g) none

/-- The field of `qmap` that names a queue from a core, without its enable bit (R120). -/
def mapField (c : Nat) : QRef → Option Nat
  | .lq d q => if d = c then some q else none
  | .cq _ q => some (64 + q)
  | _ => none

/-- Moves the registrations of a thread, or of a pair's odd slot, from the first queue of each pair to its second, all at
once; none when an activation is refused (R259, R266). -/
def State.moveRegsBy (s : State) (c : Nat) (k : SlotN) (pairs : List (QRef × QRef)) (odd : Bool) : Option State :=
  let regs := if odd then (s.thr c k).regsOdd else (s.thr c k).regs
  let old (q : QRef) : Bool × Bool := match regs.find? fun e => e.1 == q.handle with
    | some e => e.2
    | none => (false, false)
  let from_ := pairs.map (·.1)
  let new (q : QRef) : Bool × Bool :=
    let own := if from_.contains q then [] else [old q]
    let got := (pairs.filter fun p => p.2 == q).map fun p => old p.1
    ((own ++ got).any (·.1), (own ++ got).any (·.2))
  let qs := (from_ ++ pairs.map (·.2)).eraseDups.filter fun q => new q != old q
  let gains := qs.filter fun q => (new q).1 || (new q).2
  let ends := qs.filter fun q => !((new q).1 || (new q).2)
  (gains ++ ends).foldl (fun o q => o.bind fun s => s.setReg c k q (new q).1 (new q).2 odd) (some s)

/-- Rebinds one thread of a donor from stage g to stage t (R266). [log 53 DESIGN CHOICE; 115 DEDUCED] -/
def State.rebind (s : State) (c : Nat) (k : SlotN) (g t : Stage) : Option State :=
  let s1 := s.abandon c k
  let out (x : Stage) : Option QRef := (qref c x.output).filter fun q => (regTarget c q.handle).isSome || (match q with | .lq _ _ => true | _ => false)
  let pairs : List (QRef × QRef) := (g.input, t.input) ::
    match out g, out t with
    | some a, some b => [(a, b)]
    | _, _ => []
  let s2 := (s1.moveRegsBy c k pairs false).bind fun s => s.moveRegsBy c k pairs true
  s2.map fun s => s.modThr c k fun x =>
    let old := x.a.csr.qmap.toNat
    let f (i : Nat) : Nat :=
      let m := bits old (8 * i) 8
      match pairs.find? fun p => mapField c p.1 == some (m % 128) with
      | some p => match mapField c p.2 with
        | some v => m / 128 * 128 + v
        | none => m
      | none => m
    { x with
      role := 8 + t.s, resumedAt := (s.core c).cycle, counted := false
      a := { (x.a.setX 10 (BitVec.ofNat 64 t.s)) with
        pc := t.pc
        csr := { x.a.csr with
          qmap := BitVec.ofNat 64 (f 0 + f 1 * 2 ^ 8 + f 2 * 2 ^ 16 + f 3 * 2 ^ 24 + old / 2 ^ 32 * 2 ^ 32) } } }

/-- The move of a donor core, if every activation it would make is accepted (R259, R266). [log 53 DESIGN CHOICE] -/
def State.prefectMove (s : State) (c : Nat) (g t : Stage) : State :=
  let ks := ((s.core c).threads.filter fun p => p.2.role == 8 + g.s).map (·.1)
  match ks.foldl (fun (o : Option State) k => o.bind fun s => s.rebind c k g t) (some s) with
  | some s1 => s1.modCore c fun x => { x with movedAt := some x.cycle }
  | none => s

/-- Prefect samples a cluster (R265). -/
def State.prefect (s : State) (cl : Nat) : State :=
  let ss := s.stages cl
  match receiver ss with
  | none => s
  | some t =>
    match s.donors cl (ss.filter fun g => g.s != t.s) with
    | [] => s
    | d :: ds =>
      let (i, s1) := s.choose (ds.length + 1)
      let e := (d :: ds).getD i d
      s1.prefectMove e.1 e.2 t

/-- Prefect of the subject's die samples every cluster of the die, every 4,096 cycles (R265). -/
def execPrefectSample (s : State) : Out :=
  let d := s.subject.die
  if s.clock < (s.die d).lastSample + 4096 then .next s else
  .next (((List.range 64).map fun i => d * 64 + i).foldl State.prefect
    (s.modDie d fun x => { x with lastSample := s.clock }))

end Sys2Proof.Machine
end

