-- ==== Sys2Proof/Machine/Commit.lean ====
section
/-! DEFINITION. Commit.lean: chunks closing and committing, the commit token, posted operations and acknowledgements,
messages, sampler and scene-shared invalidations (R199, R208, R240 to R248, R255, R262, R281, R283). -/

namespace Sys2Proof.Machine

/-! ### Chunks -/

/-- The thread's open chunk has reached its instruction limit (R240). -/
def Thread.atLimit (t : Thread) : Bool :=
  match t.chunk with
  | some ch => ch.limit ≤ ch.insns
  | none => false

/-- The thread's open chunk is to close: it has reached its limit, or a debug stop holds the thread (R240). [log 79 DEDUCED]
-/
def Thread.toClose (t : Thread) : Bool := t.atLimit || (t.st == .stopped && t.chunk.isSome)

/-- A chunk that reached its instruction limit closes without holding its thread, its vector stores to be performed before
it is judged; a second close waits for the first (R240, R242). So does the chunk of a thread that a debug stop holds. [log
79 DEDUCED] -/
def execChunkLimitClose (s : State) : Out :=
  let c := s.subject.core
  let k := s.subject.slot
  match (s.slot c k).thread? with
  | some t => if t.toClose ∧ t.closable then .next (s.softClose c k).1 else .next s
  | none => .next s

/-- An arbiter judges the closed chunk of the subject's thread: accepted or squashed (R242, R244). -/
def execChunkCommit (s : State) : Out :=
  let c := s.subject.core
  let k := s.subject.slot
  match (s.slot c k).thread? with
  | some t =>
    match t.closed with
    | some ch => if t.judgeable ch then .next (s.judgeClosed c k).1 else .next s
    | none => .next s
  | none => .next s

/-- The commit token is free: unheld, or its holder has no solo chunk and is not about to open one (R245). [log 90 DEDUCED]
-/
def State.tokenFree (s : State) : Bool :=
  match s.token with
  | none => true
  | some r =>
    match s.findRef r with
    | none => true
    | some t =>
      t.soloChunk.isNone && !t.redo && t.wait != .cond .token

/-- The commit token goes to the thread that asked first (R245). [log 90 DEDUCED] -/
def execCommitTokenGrant (s : State) : Out :=
  match s.tokenQ with
  | r :: rs => if s.tokenFree then .next { s with token := some r, tokenQ := rs } else .next s
  | [] => .next s

/-! ### Posted operations -/

/-- The operation performed at its destination; a lock on its range holds it (R214, R219, R248). -/
def State.performPosted (s : State) (p : Posted) : Option State :=
  let held (key n : Nat) : Bool := (s.spanLock [(key, n)] none).isSome
  match p.op with
  | .store key bs full =>
    if held key bs.length then none else some ((if full then s.pokeFull key bs else s.poke key bs).acked p)
  | .nib key hi v => if held key 1 then none else some ((s.poke key [withNibble (s.byte key) hi v]).acked p)
  | .cells cs => if cs.any fun e => held e.1 1 then none else some ((s.pokeCells cs).acked p)
  | .fe key n v => if held key n then none else some ((s.changeFull key n v).acked p)
  | .mbx c i v =>
    if h : i < 4 then some ({ s with posted := s.posted.erase p }.putMbx c ⟨i, h⟩ p.src v p.launch) else none
  | _ => none

/-- A posted store, full/empty change, nibble or mailbox put is performed: the subject's index names it in `posted`
(R247, R248, R284). -/
def execPostedOpArrival (s : State) : Out :=
  match (s.postedAt s.subject.idx).bind s.performPosted with
  | some s1 => .next s1
  | none => .next s

/-- An acknowledgement is taken off its thread's counter: the subject's index names it. One for a SWAPPED thread waits until
the thread is restored; that of an SADD that saturated makes cause 33 pending (R129, R227, R247, R383). [log 93 DEDUCED] -/
def execPostedAck (s : State) : Out :=
  match s.acks[s.subject.idx]? with
  | some a =>
    if s.isSwapped a.dst then .next s else
    let s1 := { s with acks := s.acks.erase a }.modRef a.dst fun t => t.subPsc a.cls
    .next (match a.sat with
      | some (v, b) => s1.defer a.dst 33 5 v b
      | none => s1)
  | none => .next s

/-- A sent push is performed at its queue's owner, into the entry kept for it or for the oldest held pop, which leaves that
entry to a parked push; a lock on what it writes holds it (R214, R259, R262). -/
def State.performSent (s : State) (p : Posted) : Option State :=
  match p.op with
  | .push c h v =>
    match qref c h with
    | some q =>
      if !s.popWaits q && (s.queueLocked q true none).isSome then none else
      some ((((s.setQueue q { s.queue q with kept := (s.queue q).kept - 1 }).performPush q v).servePush q).acked p)
    | none => none
  | _ => none

/-- A sent push reaches its owner: the subject's index names it in `posted` (R262). -/
def execQueuePushPerform (s : State) : Out :=
  match (s.postedAt s.subject.idx).bind s.performSent with
  | some s1 => .next s1
  | none => .next s

/-! ### Messages -/

/-- Messages to a core that have left their senders' buffers and are not yet in its inbox. -/
def State.msgsTo (s : State) (c : Nat) : Nat :=
  let sent := (s.posted.filter fun p => match p.op with
    | .msg m => m.dst.core == c
    | _ => false).length
  let waiting := (s.cores.map fun e => (e.2.c.outbox.filter fun m => m.dst.core == c).length).sum
  sent - waiting

/-- The message of a core's outbound buffer that may leave next for an inbox with a free entry: the first to its core
(R281). -/
def State.msgOut (s : State) (c i : Nat) : Option Msg :=
  let ms := (s.core c).c.outbox
  match ms[i]? with
  | some m =>
    if (ms.take i).any (fun x => x.dst.core == m.dst.core) then none
    else if (s.core m.dst.core).c.inbox.length + s.msgsTo m.dst.core < 64 then some m else none
  | none => none

/-- A message leaves the outbound buffer of the subject's core: the subject's index names it (R281). -/
def execMessageDepart (s : State) : Out :=
  let c := s.subject.core
  match s.msgOut c s.subject.idx with
  | some _ => .next (s.modCtx c fun x => { x with outbox := x.outbox.eraseIdx s.subject.idx })
  | none => .next s

/-- A message enters the inbox of its core: held for its thread, moved to the message area of a context in the context
area, or orphaned (R283). -/
def State.deliverMsg (s : State) (m : Msg) : State :=
  let c := m.dst.core
  let away := (s.core c).swapped.find? fun w => w.t.serial == m.dst.serial
  let toInbox (m : Msg) : State := s.modCtx c fun x => { x with inbox := x.inbox ++ [m] }
  match away with
  | some w =>
    if w.inArea ∧ w.msgs.length < 16 then
      s.modCore c fun x => { x with swapped := x.swapped.map fun v =>
        if v.t.serial = m.dst.serial then { v with msgs := v.msgs ++ [[m.payload, m.header]] } else v }
    else toInbox m
  | none =>
    match (s.core c).slotOf m.dst.serial with
    | some k => (toInbox m).serveRecv c k
    | none => (toInbox { m with orphan := true }).serveRecv c 0

/-- The message has departed: as many equal ones are posted as still stand in buffers, and one more. -/
def State.departed (s : State) (m : Msg) : Bool :=
  let sent := (s.posted.filter fun p => p.op == .msg m).length
  let waiting := (s.cores.map fun e => (e.2.c.outbox.filter fun x => x == m).length).sum +
    (s.shadow.map fun e => (e.2.2.outbox.filter fun x => x == m).length).sum
  waiting < sent

/-- A message reaches its inbox and is acknowledged: the subject's index names it in `posted` (R247, R281, R283). -/
def execMessageArrival (s : State) : Out :=
  match s.postedAt s.subject.idx with
  | some p =>
    match p.op with
    | .msg m => if s.departed m then .next ((s.deliverMsg m).acked p) else .next s
    | _ => .next s
  | none => .next s

/-! ### Sampler and scene-shared lines -/

/-- Removes lines of a partition from a cluster's sampler cache. -/
def State.dropSampler (s : State) (cl part : Nat) (lines : List Nat) : State :=
  s.modCluster cl fun q => { q with sampler := q.sampler.filter fun l => !(l.part == part && lines.contains l.line) }

/-- The subject's cluster removes the lines of the first invalidation asked of it, and confirms (R208). With the flag, the
request of another module's domain-scope fence arrives for `num` lines from the subject's address on: this module applies
its pending invalidations, then every cluster removes the lines (R255). -/
def execSamplerInvalidate (s : State) : Out :=
  let cl := s.subject.cluster
  if s.subject.flag then
    if !s.inDomain then .next s else
    let ls := (List.range s.subject.num).map fun i => s.subject.addr + i
    .next ((List.range 512).foldl (fun t cl => t.dropSampler cl s.subject.part ls) s.applyShared)
  else
  match s.samplerReqs.find? fun q => q.2.1 == cl with
  | none => .next s
  | some q => .next { s.dropSampler cl q.2.2.1 q.2.2.2 with samplerReqs := s.samplerReqs.erase q }

/-- The home of the subject's line gives it to a module, every other copy invalidated: another module when the home is here,
or this one wherever the home is, with acknowledgements outstanding if the subject's index says so; with the flag, the
module takes a shared copy instead (R199, R255). [log 55 DEDUCED] -/
def execShOwnershipRequest (s : State) : Out :=
  let line := s.subject.addr
  let m := s.subject.num
  if !s.inDomain then .next s
  else if s.subject.flag then .next (s.shCopy line m)
  else if m = s.modnum.val then .next (s.takeLine line (s.subject.idx != 0))
  else if !s.homeHere line then .next s
  else .next { s.loseLine line with shDir := (line, m, [m]) :: s.shDir.filter fun e => e.1 != line }

/-- The home module's invalidation of a line is acknowledged here at once and applied later; the subject gives the line and
the bytes its owner leaves in it. With the flag, the last acknowledgement arrives of the invalidations that this module's
ownership of the line caused (R255). [log 55 DEDUCED] -/
def execShInvalidationReceive (s : State) : Out :=
  let line := s.subject.addr
  if !s.inDomain then .next s
  else if s.subject.flag then .next { s with shUnacked := s.shUnacked.filter fun e => e.1 != line }
  else if s.subject.bytes.length ≠ 64 then .next s
  else .next { s.loseLine line with shPending := s.shPending ++ [(line, s.subject.bytes)] }

/-- The first pending invalidation of the subject's line is applied: later loads read the new bytes (R255). [log 55 DEDUCED]
-/
def execShInvalidationApply (s : State) : Out :=
  match s.shPending.find? fun e => e.1 == s.subject.addr with
  | none => .next s
  | some e => .next { s.poke (e.1 * 64) e.2 with shPending := s.shPending.erase e }

end Sys2Proof.Machine
end

