-- ==== Sys2Proof/Machine/Paging.lean ====
section
/-! DEFINITION. Paging.lean: line migration, walks, what Nolmon does at a stage-2 failure, translation requests, page
consolidation, patrol scrub, budgets, energy accounts and the error log (R188, R192 to R200, R325, R360, R410). -/

namespace Sys2Proof.Machine

/-! ### Accounts, budgets, the error log -/

/-- Adds nJ to an account held in whole µJ with a remainder (R360). -/
def addEnergy (acc rem n : Nat) : Nat × Nat := (acc + (rem + n) / 1000, (rem + n) % 1000)

/-- Charges the energy of a piece of work, which the spec does not state, to a partition, or to device overhead (R360). [log
58 DESIGN CHOICE] -/
def State.charge (s : State) (part : Option Nat) : State :=
  let e := Config.energy s.freeN
  let s1 := { s with freeN := s.freeN + 1 }
  match part.bind s.part? with
  | some p =>
    let (a, r) := addEnergy p.energy p.energyRem e
    s1.modPart p.cfg.part fun p => { p with energy := a, energyRem := r }
  | none =>
    let (a, r) := addEnergy s.mgmt.overhead s.mgmt.overheadRem e
    { s1 with mgmt := { s.mgmt with overhead := a, overheadRem := r } }

/-- Charges the work of a core to its partition, and counts it as the core's own (R360, R403). -/
def State.chargeCore (s : State) (c : Nat) : State :=
  (s.charge (s.core c).part).modCore c fun x => { x with msEnergy := x.msEnergy + Config.energy s.freeN }

/-- Activities of the budget table, in R325's order. -/
abbrev Activity := Fin 7

/-- An activity that has used its budget stops until the next period; trace drain, and context save and restore, never do
(R325). -/
def Mgmt.mayRun (m : Mgmt) (i : Activity) : Bool := i == 3 || i == 6 || (m.budgets[i]).used < (m.budgets[i]).budget

/-- Uses units of an activity's resource; use beyond the budget of an activity that never stops counts as overrun (R325,
R360). -/
def Mgmt.spend (m : Mgmt) (i : Activity) (n : Nat) : Mgmt :=
  let b := m.budgets[i]
  let more := if i = 3 ∨ i = 6 then (b.used + n - b.budget) - (b.used - b.budget) else 0
  { m with budgets := m.budgets.set i { b with used := b.used + n, overruns := b.overruns + more } }

/-- An activity runs once: it uses units of its resource that the spec does not state. -/
def State.spend (s : State) (i : Activity) : State :=
  { s with mgmt := s.mgmt.spend i (Config.cost s.freeN), freeN := s.freeN + 1 }

/-- An activity runs once, for an owner that the charging rules name or for the device: its energy goes to the account that
its entry names (R325, R360). [log 58 DESIGN CHOICE] -/
def State.act (s : State) (i : Activity) (owner : Option Nat) : State :=
  (s.spend i).charge (if (s.mgmt.budgets[i]).account = 0 then none else owner)

/-- Nolmon writes an entry of the budget table, with the values R325 admits; what the activity has used stays (R325). -/
def State.writeBudget (s : State) (i p b r a : Nat) : State :=
  if h : i < 7 then
    if s.mgmt.booted ∧ 10 ≤ p ∧ p ≤ 30 ∧ r < 4 ∧ a < 2 then
      let e := s.mgmt.budgets[i]
      let bs := s.mgmt.budgets.set i { e with period := p, budget := b, resource := r, account := a }
      { s with mgmt := { s.mgmt with budgets := bs } }
    else s
  else s

/-- A stamped error record enters Nolmon's log; one of a partition's own memory Nolmon passes to it as well (R410). -/
def State.putError (s : State) (e : ErrRec) (owner : Option Nat) : State :=
  let s1 := { s with mgmt := { s.mgmt with errors := s.mgmt.errors ++ [e] } }
  match owner with
  | some n => s1.modPart n fun p => { p with memErrors := p.memErrors ++ [e] }
  | none => s1

/-- Writes a stamped error record to Nolmon's log, or holds it for its stamp (R356, R410). -/
def State.logError (s : State) (kind unit addr count : Nat) (owner : Option Nat) : State :=
  if s.mayStamp 0 6 then
    let (v, x) := s.mgmt.stamps.draw s.rot
    { s with mgmt := { s.mgmt with stamps := x } }.putError ⟨v, kind, unit, addr, count⟩ owner
  else s.holdRec 0 6 (.error kind unit addr count owner)

/-- The unit that stores a byte, as error records name it: home slice of translated memory, core of a scratchpad or lane
slice, die of a Slate (R410). [log 125 DESIGN CHOICE] -/
def storageUnit (key : Nat) : Nat :=
  if key < 2 ^ 60 then homeDie key * 64 + homeSlice key
  else if key < 2 ^ 61 then (key - 2 ^ 60) / 2 ^ 19
  else if key < 2 ^ 62 then (key - 2 ^ 61) / 2 ^ 19
  else (key - 2 ^ 62) / 2 ^ 27

/-- A new period of the subject's activity begins: what it used is forgotten (R325). -/
def execBudgetPeriod (s : State) : Out :=
  if h : s.subject.idx < 7 then
    let b := s.mgmt.budgets[s.subject.idx]
    if s.rot < b.start + 2 ^ b.period then .next s else
    let b' := { b with used := 0, start := s.rot }
    .next { s with mgmt := { s.mgmt with budgets := s.mgmt.budgets.set s.subject.idx b' } }
  else .next s

/-- Patrol scrub rewrites the line or word at the subject's key: a corrected error leaves no trace in the data, and a unit
marked uncorrectable is left as it is and reported; the subject's flag says that an error was corrected (R188, R410). The
energy is the page owner's, the subject's partition if there is one (R360). [log 125 DESIGN CHOICE] -/
def execPatrolScrub (s : State) : Out :=
  if !s.mgmt.mayRun 0 then .next s else
  let u := unitOf s.subject.addr
  let owner := if s.subject.flag then some s.subject.part else none
  let s1 := s.act 0 owner
  if s.bad.contains u then .next (s1.logError 1 (storageUnit u) u 1 owner)
  else if s.subject.val ≠ 0 then .next (s1.logError 0 (storageUnit u) u s.subject.val.toNat owner)
  else .next s1

/-! ### Line migration -/

/-- Slice that owns a line: the one it migrated to, or its home slice (R196, R197). -/
def State.ownerSlice (s : State) (line : Nat) : Nat :=
  let d := homeDie (line * 64)
  (((s.die d).moved.find? fun e => e.1 == line).map (·.2.1)).getD (d * 64 + homeSlice (line * 64))

/-- A partition lets its lines migrate (R326). [log 99 DEDUCED] -/
def State.migrates (s : State) (n : Nat) : Bool :=
  match s.part? n with
  | some p => p.mode.l2mig
  | none => false

/-- The cluster to which a line is to move after four consecutive accesses, and their partition, which lets lines migrate
(R197, R326). [log 99 DEDUCED] -/
def State.mover (s : State) (line : Nat) : Option (Nat × Nat) :=
  match (s.die (homeDie (line * 64))).runs.find? fun e => e.1 == line with
  | some e =>
    if s.migrates e.2.2.1 && (decide (4 ≤ e.2.2.2) && e.2.1 != s.ownerSlice line) then some (e.2.1, e.2.2.1) else none
  | none => none

/-- A line of a die that is to move (R197). -/
def State.migrationDue (s : State) (d : Nat) : Option Nat :=
  ((s.die d).runs.find? fun e => (s.mover e.1).isSome).map (·.1)

/-- A line moves to a cluster's slice; its home keeps a forwarding entry, of at most 4,096 with the oldest recalled (R197).
[log 99 DEDUCED] -/
def Die.migrate (x : Die) (line cl home part : Nat) : Die :=
  let rest := x.moved.filter fun e => e.1 != line
  let mine := rest.filter fun e => homeSlice (e.1 * 64) == home % 64
  let kept := match mine with
    | m :: _ => if 4096 ≤ mine.length then rest.erase m else rest
    | [] => rest
  { x with
    moved := if cl = home then rest else kept ++ [(line, cl, part)]
    runs := x.runs.filter fun e => e.1 != line }

/-- The subject's line migrates (R197). [log 99 DEDUCED] -/
def execLineMigration (s : State) : Out :=
  let line := s.subject.addr
  match s.mover line with
  | none => .next s
  | some (cl, n) =>
    let d := homeDie (line * 64)
    .next (s.modDie d fun x => x.migrate line cl (d * 64 + homeSlice (line * 64)) n)

/-- The subject's migrated line is evicted: written back, its forwarding entry removed (R197). -/
def execMigratedLineEviction (s : State) : Out :=
  .next (s.modDie (homeDie (s.subject.addr * 64)) fun x => { x with moved := x.moved.filter fun e => e.1 != s.subject.addr })

/-! ### Walks and stage-2 failures -/

/-- The kind of access the subject's number names: 0 load, 1 store, 2 fetch, 3 sampler. -/
def needOf (n : Nat) : Need := match n with | 1 => .store | 2 => .fetch | 3 => .sampler | _ => .load

/-- A walk for an access of the subject's core to the subject's address: both stages, A and D bits, the TLB; a stage-2
failure is reported to Nolmon (R192, R193). -/
def execPageWalk (s : State) : Out :=
  let u := s.subject
  match s.resolve u.core u.addr (needOf u.num) false with
  | (s1, .error (.stage2 p ipa)) =>
    let w : S2Wait := ⟨⟨u.core, 0⟩, p.val, p.cause, p.val2, ipa, ((s.core u.core).part).getD 0⟩
    .next { s1 with s2waits := if w ∈ s1.s2waits then s1.s2waits else s1.s2waits ++ [w] }
  | (s1, _) => .next s1

/-- The wait stands at an intermediate page of a partition. -/
def S2Wait.at_ (w : S2Wait) (part ipn : Nat) : Bool := w.part == part && w.ipa / 2 ^ 16 == ipn

/-- Removes the TLB entries of a partition that a test names, in every cluster and core. -/
def State.dropTlb (s : State) (part : Nat) (f : TlbEntry → Bool) : State :=
  let kept (es : List TlbEntry) : List TlbEntry := es.filter fun x => !(x.part == part && f x)
  { s with
    clusters := s.clusters.map fun e => (e.1, { e.2 with tlb := kept e.2.tlb })
    cores := s.cores.map fun e => (e.1, { e.2 with utlb := kept e.2.utlb }) }

/-- A cached translation goes through an intermediate page. -/
def TlbEntry.through (e : TlbEntry) (ipn : Nat) : Bool := e.ipn ≤ ipn && ipn < e.ipn + e.pages

/-- The cores at which an engine waits for Nolmon at a page. -/
def State.enginesAt (s : State) (part ipn : Nat) : List Nat :=
  ((s.s2waits.filter fun w => w.who.serial == 0 && w.at_ part ipn).map fun w => w.who.core).eraseDups

/-- The engines of a core that Nolmon held go on: Tongs batches, the migrant spill path, contexts to be written or restored
(R193, R261, R308, R385). -/
def State.enginesGo (s : State) (cs : List Nat) : State :=
  cs.foldl (fun s c =>
    let s1 := if ((s.cluster (clusterOf c)).tongs.batch).isSome then s.retryBatch (clusterOf c) else s
    ((s1.refillTiers c 80).spillCache c (((s.core c).part).getD 0)).fill c) s

/-- Nolmon repairs a stage-2 entry and releases the accesses that wait for the page. The subject gives the partition, the
intermediate page, and the entry's physical address and new value; an entry in a unit marked uncorrectable is repaired with
the whole unit, which clears the mark (R188, R193). [log 87 DEDUCED] -/
def execStage2Repair (s : State) : Out :=
  let u := s.subject
  if !s.s2waits.any (·.at_ u.part u.idx) then .next s else
  let es := s.enginesAt u.part u.idx
  let unit := unitOf u.addr
  let s0 := s.poke u.addr (leBytes 8 u.val.toNat)
  let s1 := (s0.poke unit (s0.bytes unit 64)).dropTlb u.part fun e => e.through u.idx
  .next ({ s1 with s2waits := s.s2waits.filter fun w => !w.at_ u.part u.idx }.enginesGo es)

/-- A refusal reaches the thread that waits: its access traps, its fetch, or its resumption (R193, R415). [log 57 DEDUCED]
-/
def State.refuseThread (s : State) (w : S2Wait) : State :=
  let p : Trap := { cause := w.cause, val := w.va, val2 := w.trval2, val3 := BitVec.ofNat 64 w.ipa }
  let c := w.who.core
  match (s.core c).slotOf w.who.serial with
  | none => s
  | some k =>
    let t := s.thr c k
    match t.wait with
    | .cond (.resume _) =>
      let s1 := { s with curWord := s.peekWord c t.tr.trpc.toNat }.modThr c k fun t =>
        { t with a := { t.a with pc := t.tr.trpc }, counted := t.counted && t.tr.trpc == t.a.pc }
      s1.trapNow c k { p with hasWord := w.va != t.tr.trpc, issued := false }
    | .cond (.fetch _) => s.trapBetween c k { p with hasWord := w.va != t.a.pc }
    | _ => s.trapBetween c k p

/-- Nolmon refuses: the threads that wait for the page trap, and engines fault by their own rules (R193). [log 57 DEDUCED]
-/
def execStage2Refusal (s : State) : Out :=
  let u := s.subject
  let ws := s.s2waits.filter (·.at_ u.part u.idx)
  let ready (w : S2Wait) : Bool := match (s.core w.who.core).slotOf w.who.serial with
    | some k => (s.thr w.who.core k).trapReady
    | none => true
  if ws = [] ∨ !ws.all ready then .next s else
  let es := s.enginesAt u.part u.idx
  let s1 := { s with
    s2waits := s.s2waits.filter fun w => !w.at_ u.part u.idx
    refusedPages := if es = [] then s.refusedPages else (u.part, u.idx) :: s.refusedPages }
  .next (((ws.filter fun w => w.who.serial != 0).foldl State.refuseThread s1).enginesGo es)

/-! ### Translation requests -/

/-- The outstanding request of a partition's translation control block: kind and sequence (R195). -/
def State.invalRequest (s : State) (p : Part) : Option (Nat × Nat) :=
  let w := s.ctl p 0x18
  if w / 2 ^ 32 = s.ctl p 0x20 / 2 ^ 32 then none else some (w % 256, w / 2 ^ 32)

/-- A strip that has still to store to translated places found at its issue. -/
def Strip.stores (p : Strip) : Bool :=
  p.done.isNone && p.isStore && p.els.any fun e => match e.place with
    | .global _ => true
    | _ => false

/-- Chunks of a partition with accesses of translated pages that are not yet performed, by number; pending vector stores
count by theirs. [log 56 DEDUCED] -/
def State.openChunks (s : State) (p : Part) : List (TRef × Nat) :=
  p.cores.flatMap fun c => (s.core c).threads.flatMap fun e =>
    (([e.2.chunk, e.2.closed].filterMap fun ch => ch.map (·.no)) ++ (e.2.vq.filter Strip.stores).map (·.no)).map fun n =>
      (e.2.ref c, n)

/-- An engine command that reads translated places found at its issue. -/
def MCmd.global (m : MCmd) : Bool :=
  match m.op with
  | .bld _ _ _ _ data scales => (data ++ scales).any fun e => e.1 < 2 ^ 60
  | .mma _ _ _ _ _ _ scales => scales.any fun e => e.1 < 2 ^ 60
  | _ => false

/-- Engine commands of a partition that use translations made at their issue. [log 56 DEDUCED] -/
def State.openCmds (s : State) (p : Part) : List (Nat × MCmd) :=
  p.cores.flatMap fun c => ((s.mx c).queue.filter MCmd.global).map fun m => (c, m)

/-- The chunk is still open or unjudged, or a vector store of its number is pending. [log 56 DEDUCED] -/
def State.chunkLives (s : State) (e : TRef × Nat) : Bool :=
  match s.findRef e.1 with
  | some t => (t.vq.any fun p => p.stores && p.no == e.2) || [t.chunk, t.closed].any fun ch => match ch with
    | some ch => ch.no == e.2
    | none => false
  | none => false

/-- Some access that used a translation from before a request is still to be performed (R195). -/
def State.inFlight (s : State) (w : List (TRef × Nat) × List (Nat × MCmd)) : Bool :=
  w.1.any s.chunkLives || w.2.any fun m => (s.mx m.1).queue.contains m.2

/-- Nolmon writes a request into its block of a partition: the translations are removed, and the accesses that used one are
noted (R195). [log 56 DEDUCED] -/
def State.s2Start (s : State) (n base len kind : Nat) (gone : TlbEntry → Bool) : State :=
  match s.part? n with
  | none => s
  | some p => (s.dropTlb n gone).modPart n fun q =>
      { q with s2 := ⟨base, len, kind, q.s2.req + 1, q.s2.done, some (s.openChunks p, s.openCmds p)⟩ }

/-- The done sequence of Nolmon's block follows its request once the noted accesses are performed (R195). [log 56 DEDUCED]
-/
def State.s2Finish (s : State) (n : Nat) : State :=
  match (s.part? n).bind (·.s2.waits) with
  | some w => if s.inFlight w then s else s.modPart n fun q => { q with s2 := { q.s2 with done := q.s2.req, waits := none } }
  | none => s

/-- Goes on with the request of Nolmon's block, or else makes one (R195). -/
def State.s2Request (s : State) (n base len kind : Nat) (gone : TlbEntry → Bool) : State :=
  match (s.part? n).bind (·.s2.waits) with
  | some _ => s.s2Finish n
  | none => s.s2Start n base len kind gone

/-- A cached translation meets a range of intermediate addresses. -/
def TlbEntry.meetsIpa (base len : Nat) (e : TlbEntry) : Bool :=
  e.ipn * 2 ^ 16 < base + len && base < (e.ipn + e.pages) * 2 ^ 16

/-- Goes on with the request of a partition's block, of a kind that a test names: the translations are removed, and the done
sequence is written once every access that used one of them is performed (R195). [log 56 DEDUCED] -/
def State.inval (s : State) (n : Nat) (kind : Nat → Bool) (gone : Nat → TlbEntry → Bool) : State :=
  match s.part? n with
  | none => s
  | some p =>
    match s.invalRequest p with
    | none => s
    | some (k, seq) =>
      if !kind k then s else
      let start (s : State) : State :=
        let s1 := if k = 3 then s.modPart n fun p => { p with s1root := s.ctl p 0 } else s
        (s1.dropTlb n (gone k)).modPart n fun q => { q with inval := some (seq, s.openChunks p, s.openCmds p) }
      let finish (s : State) : State :=
        match (s.part? n).bind (·.inval) with
        | some (q, chs, ms) =>
          if q = seq ∧ !s.inFlight (chs, ms) then
            (s.setCtl p 0x20 (seq * 2 ^ 32)).modPart n fun p => { p with inval := none }
          else s
        | none => s
      match p.inval with
      | some (q, _, _) => if q = seq then finish s else finish (start s)
      | none => finish (start s)

/-- An entry translates some address of a range. -/
def TlbEntry.meets (e : TlbEntry) (base len : Nat) : Bool :=
  e.vpn * 2 ^ 16 < base + len && base < (e.vpn + e.pages) * 2 ^ 16

/-- Kind 0: the translations of a range (R195). With the subject's flag it is a request of Nolmon's block, whose range is
of intermediate addresses. -/
def execTlbInvalidateRange (s : State) : Out :=
  let u := s.subject
  if u.flag then
    .next (s.s2Request u.part u.addr u.num 0 (TlbEntry.meetsIpa u.addr u.num))
  else
    match s.part? u.part with
    | some p => .next (s.inval u.part (fun k => k == 0) fun _ e => e.meets (s.ctl p 8) (s.ctl p 0x10))
    | none => .next s

/-- Kind 1, and kinds 4 to 255: every translation of the partition (R195). -/
def execTlbInvalidateAll (s : State) : Out :=
  if s.subject.flag then .next (s.s2Request s.subject.part 0 0 1 fun _ => true)
  else .next (s.inval s.subject.part (fun k => k == 1 || 4 ≤ k) fun _ _ => true)

/-- Kind 2: every translation but those with G = 1 (R195). [log 131 DESIGN CHOICE] -/
def execTlbInvalidateNonglobal (s : State) : Out :=
  if s.subject.flag then .next (s.s2Request s.subject.part 0 0 2 fun e => !e.global)
  else .next (s.inval s.subject.part (fun k => k == 2) fun _ e => !e.global)

/-- Kind 3: the stage-1 root is read again, and every translation removed (R195). -/
def execRootRereadInvalidate (s : State) : Out :=
  let u := s.subject
  if u.flag then
    .next ((s.modPart u.part fun p => { p with cfg := { p.cfg with s2root := u.val.toNat } }).s2Request u.part 0 0 3 fun _ => true)
  else .next (s.inval u.part (fun k => k == 3) fun _ _ => true)

/-! ### Page consolidation -/

/-- The 64 KiB page of a partition that Bellows may move, or go on moving once it has begun: policy, budget, page size, home
tier, no scene sharing (R200). [log 98 DEDUCED] -/
def State.movable (s : State) (p : Part) (ipn : Nat) : Option Leaf :=
  if p.mode.bpol = 0 ∧ !s.movingPages.contains (p.cfg.part, ipn) ∨ !s.mgmt.mayRun 5 then none else
  match s.walk2 p.cfg.s2root (ipn * 2 ^ 16) with
  | .ok (pa, l) => if l.lvl = 3 ∧ !l.pte.testBit 8 ∧ pa < 2 ^ 40 then some l else none
  | .error _ => none

/-- Some chunk, pending vector store or engine command holds a place in a frame. [log 98 DEDUCED] -/
def State.frameUsed (s : State) (p : Part) (pfn : Nat) : Bool :=
  let hit (line : Nat) : Bool := line / 1024 == pfn
  (p.cores.any fun c => (s.core c).threads.any fun e => [e.2.chunk, e.2.closed].any fun ch => match ch with
    | some ch => ch.reads.any hit || ch.writes.any hit
    | none => false) ||
  (p.cores.any fun c => (s.core c).threads.any fun e => e.2.vq.any fun q => q.stores && q.els.any fun x => hit (x.key / 64)) ||
  (s.openCmds p).any fun m => match m.2.op with
    | .bld _ _ _ _ data scales => (data ++ scales).any fun e => e.1 / 2 ^ 16 == pfn
    | .mma _ _ _ _ _ _ scales => scales.any fun e => e.1 / 2 ^ 16 == pfn
    | _ => false

/-- The entries of a page table that are not all zero: a table of n entries lists what memory lists of it. -/
def State.ptes (s : State) (tbl n : Nat) : List Nat :=
  (((s.mem.filter fun e => tbl ≤ e.1 && e.1 < tbl + 8 * n).map fun e => (e.1 - tbl) / 8).eraseDups).map fun i => s.num (tbl + 8 * i) 8

/-- The frames that a partition's stage-2 tree maps or lies in: first frame and number (R190, R191). -/
def State.frames (s : State) (root : Nat) : List (Nat × Nat) :=
  let rec go : Nat → Nat → Nat → List (Nat × Nat)
    | 0, _, _ => []
    | f + 1, lvl, tbl =>
      let (lo, n) := levelField lvl
      (tbl / 2 ^ 16, 1) :: ((s.ptes tbl (2 ^ n)).filter pteV).flatMap fun e =>
        if pteLeaf e then [((if e.testBit 9 then 2 ^ 28 else 0) + ptePfn e, 2 ^ lo / 2 ^ 16)] else go f (lvl + 1) (ptePfn e * 2 ^ 16)
  go 4 0 root

/-- Channel of an HBM5 frame, with its stack (R189). -/
def channelOf (pfn : Nat) : Nat × Nat := (pfn / 2 ^ 20, pfn % 32)

/-- Frames that the partitions' stage 2 uses: first frame and number. -/
def State.usedFrames (s : State) : List (Nat × Nat) := s.parts.flatMap fun e => s.frames e.2.cfg.s2root

/-- A frame of HBM5 on another channel, one that is kept, that no partition's stage 2 uses (R189, R200). [log 98 DEDUCED] -/
def State.freeFrame (s : State) (old f : Nat) : Bool :=
  f < 2 ^ 24 && channelOf f != channelOf old && !s.mgmt.asleep.contains (channelOf f) &&
  !s.usedFrames.any fun x => x.1 ≤ f && f < x.1 + x.2

/-- A run of frames has one on a channel: a page of 2 MiB or more has (R189, R200). -/
def onChannel (ch : Nat × Nat) (x : Nat × Nat) : Bool :=
  x.1 < 2 ^ 24 && (List.range (min x.2 32)).any fun i => channelOf (x.1 + i) == ch

/-- A channel from which the last page has moved enters self-refresh; one that is used again has left it (R200). -/
def State.settle (s : State) (ch : Nat × Nat) : State :=
  let used := s.usedFrames
  let empty (c : Nat × Nat) : Bool := !used.any (onChannel c)
  { s with mgmt := { s.mgmt with asleep := ((if s.mgmt.asleep.contains ch then s.mgmt.asleep else s.mgmt.asleep ++ [ch])).filter empty } }

/-- The L2 lines of a frame go back to memory: none of them is held away from its home (R197, R200). -/
def State.flushFrame (s : State) (pfn : Nat) : State :=
  { s with dies := s.dies.map fun e => (e.1, { e.2 with
      moved := e.2.moved.filter fun x => x.1 / 1024 != pfn, runs := e.2.runs.filter fun x => x.1 / 1024 != pfn }) }

/-- Bellows moves the subject's page to the frame its number names: first stores to the page begin to wait, and when no
access of the old frame is left its L2 lines go back, it is copied, the entry rewritten, and its lines leave the sampler
caches; a channel so emptied enters self-refresh (R200). [log 98 DEDUCED] -/
def execPageConsolidation (s : State) : Out :=
  let u := s.subject
  match s.part? u.part with
  | none => .next s
  | some p =>
    match s.movable p u.idx with
    -- a page that can no longer be moved is let go, and its stores with it
    | none => .next (if s.mgmt.mayRun 5 then { s with movingPages := s.movingPages.erase (u.part, u.idx) } else s)
    | some l =>
      let pg := (u.part, u.idx)
      if !s.movingPages.contains pg then
        if p.s2.waits.isSome then .next (s.s2Finish u.part) else
        let s1 := s.s2Start u.part (u.idx * 2 ^ 16) (2 ^ 16) 0 fun e => e.through u.idx
        .next { s1 with movingPages := s.movingPages ++ [pg] }
      else if p.s2.waits.isSome then .next (s.s2Finish u.part)
      else
        let old := ptePfn l.pte
        if s.frameUsed p old ∨ !s.freeFrame old u.num then .next s else
        let s1 := s.act 5 none
        let marks := (s.bad.filter fun x => unitStart x / 2 ^ 16 == old).map fun x => x - old * 2 ^ 16 + u.num * 2 ^ 16
        let s2 := s1.poke (u.num * 2 ^ 16) (s.bytes (old * 2 ^ 16) (2 ^ 16)) |> fun y => { y with bad := y.bad ++ marks }
        let s3 := s2.poke l.at_ (leBytes 8 (l.pte - old * 2 ^ 16 + u.num * 2 ^ 16))
        let s4 := (s3.flushFrame old).dropTlb u.part fun e => e.through u.idx
        .next (({ s4 with
          movingPages := s.movingPages.erase pg
          clusters := s4.clusters.map fun e =>
            (e.1, { e.2 with sampler := e.2.sampler.filter fun x => x.line / 1024 != old }) } : State).settle (channelOf old))

end Sys2Proof.Machine
end

