-- ==== Sys2Proof/Machine/Copies.lean ====
section
/-! DEFINITION. Copies.lean: the steps of the copy units and the barrier signals (R286, R287, R361, R366, R392, R394). -/

namespace Sys2Proof.Machine

/-! ### Rows -/

/-- As much of a range as passes its checks: its pieces, their bytes, and what stops the rest (R193, R287). -/
def State.reach (s : State) (c a n : Nat) (need : Need) : State × List (Nat × Nat) × Option AccErr :=
  match s.place c a with
  | .lane _ => (s, [], some (.trap { cause := need.refusedCause, val := BitVec.ofNat 64 a }))
  | _ =>
    match s.spans c a n need (spanFuel n) false with
    | (s1, .ok xs) => (s1, xs, none)
    | (s1, .error (b, e)) =>
      match s1.spans c a ((b + 2 ^ 64 - a) % 2 ^ 64) need (spanFuel n) false with
      | (s2, .ok xs) => (s2, xs, some e)
      | (s2, .error _) => (s2, [], some e)

/-- Bytes of pieces. -/
def spanLen (xs : List (Nat × Nat)) : Nat := (xs.map (·.2)).sum

/-- The pieces of the first n bytes. -/
def takeSpans : List (Nat × Nat) → Nat → List (Nat × Nat)
  | [], _ => []
  | e :: es, n => if n = 0 then [] else if n ≤ e.2 then [(e.1, n)] else e :: takeSpans es (n - e.2)

/-- Some line of the pieces lies in a solo chunk (R245). -/
def State.soloMeets (s : State) (xs : List (Nat × Nat)) : Bool :=
  match s.soloLines with
  | some (_, ls) => (spanLines xs).any fun l => ls.contains l
  | none => false

/-- How a copy stops. -/
inductive CopyStop where
  /-- At an address that faults. -/
  | fault (a : Word)
  /-- Held by a lock, a solo chunk, Nolmon or a page being moved. -/
  | held
  deriving DecidableEq, Repr

/-- What a failed check means to an engine: a fault, a refusal of Nolmon's, or a wait for Nolmon (R193). [log 85 DEDUCED] -/
def State.engineStop (s : State) (c : Nat) (a : Word) (e : AccErr) : State × CopyStop :=
  match e with
  | .trap _ => (s, .fault a)
  | .table _ => (s, .fault a)
  | .moving _ => (s, .held)
  | .unowned _ => (s, .held)
  | .across _ => (s, .held)
  | .stage2 p ipa =>
    let pg := (((s.core c).part).getD 0, ipa / 2 ^ 16)
    if pg ∈ s.refusedPages then ({ s with refusedPages := s.refusedPages.filter fun q => q != pg }, .fault a)
    else
      let w : S2Wait := ⟨⟨c, 0⟩, p.val, p.cause, p.val2, ipa, ((s.core c).part).getD 0⟩
      ({ s with s2waits := if w ∈ s.s2waits then s.s2waits else s.s2waits ++ [w] }, .held)

/-- Sets the full bits of pieces that have them (R187). -/
def State.fillSpans (s : State) (xs : List (Nat × Nat)) : State :=
  xs.foldl (fun s e => if e.1 < 2 ^ 60 then s else s.changeFull e.1 e.2 true) s

/-- Copies a row from an offset in it on: the state, the bytes written, and what stopped it (R286, R287). -/
def State.copyRow (s : State) (j : CopyJob) (row off : Nat) : State × Nat × Option CopyStop :=
  let c := j.by_.core
  let n := j.rowBytes - off
  let a := j.src + BitVec.ofNat 64 row * j.sstride + BitVec.ofNat 64 off
  let b := j.dst + BitVec.ofNat 64 row * j.dstride + BitVec.ofNat 64 off
  let (s1, xs, e1) := s.reach c a.toNat n .load
  let (s2, ys, e2) := s1.reach c b.toNat n .store
  let bad := s2.spanBad xs
  let m1 := min (spanLen xs) (bad.getD (spanLen xs))
  let m := min m1 (spanLen ys)
  let xs' := takeSpans xs m
  let ys' := takeSpans ys m
  if (s2.spanLock (xs' ++ ys') none).isSome ∨ s2.soloMeets ys' then (s2, 0, some .held) else
  let s3 := s2.spanWrite ys' (s2.spanBytes xs')
  let s4 := if j.setFull then s3.fillSpans ys' else s3
  if m = n then (s4, m, none)
  else
    let at_ (p : Word) : Word := p + BitVec.ofNat 64 m
    if m1 ≤ spanLen ys then
      match bad, e1 with
      | some o, _ => if o = m then (s4, m, some (.fault (at_ a))) else
        match e1 with
        | some e => let (s5, r) := s4.engineStop c (at_ a) e; (s5, m, some r)
        | none => (s4, m, some .held)
      | none, some e => let (s5, r) := s4.engineStop c (at_ a) e; (s5, m, some r)
      | none, none => (s4, m, some .held)
    else match e2 with
      | some e => let (s5, r) := s4.engineStop c (at_ b) e; (s5, m, some r)
      | none => (s4, m, some .held)

/-- Copies n more rows of a job from a byte of it on: the state, the next byte, and what stopped it. [log 59 DEDUCED] -/
def State.copyRows (s : State) (j : CopyJob) (pos : Nat) : Nat → State × Nat × Option CopyStop
  | 0 => (s, pos, none)
  | f + 1 =>
    if j.rows * j.rowBytes ≤ pos then (s, pos, none) else
    match s.copyRow j (pos / j.rowBytes) (pos % j.rowBytes) with
    | (s1, m, none) => s1.copyRows j (pos + m) f
    | (s1, m, some r) => (s1, pos + m, some r)

/-! ### Messages to a port -/

/-- The message of a port job, or what stops the reading of it (R286). -/
def State.portBytes (s : State) (j : CopyJob) : Nat → Nat → State × Except CopyStop (List Byte)
  | 0, _ => (s, .ok [])
  | f + 1, row =>
    let c := j.by_.core
    let a := j.src + BitVec.ofNat 64 row * j.sstride
    match s.reach c a.toNat j.rowBytes .load with
    | (s1, xs, some e) =>
      let (s2, r) := s1.engineStop c (a + BitVec.ofNat 64 (spanLen xs)) e
      (s2, .error r)
    | (s1, xs, none) =>
      match s1.spanBad xs with
      | some o => (s1, .error (.fault (a + BitVec.ofNat 64 o)))
      | none =>
        if (s1.spanLock xs none).isSome then (s1, .error .held) else
        match s1.portBytes j f (row + 1) with
        | (s2, .ok bs) => (s2, .ok (s1.spanBytes xs ++ bs))
        | (s2, .error r) => (s2, .error r)

/-- A send queue entry whose doubleword at 0x10 accepts jobs: EN set and a valid MODE; reserved bits are ignored (R8, R394).
-/
def sendOpen (w2 : Nat) : Bool := w2.testBit 0 && bits w2 1 2 ≤ 1

/-- Hands a port job's rows to the port as one message: the state and what stops it (R286, R392, R394). [log 59 DEDUCED] -/
def State.sendJob (s : State) (j : CopyJob) : State × Option CopyStop :=
  let h := j.dst.toNat
  let port := h % 8
  let sq := bits h 4 12
  match s.partOf j.by_.core with
  | none => (s, some (.fault j.dst))
  | some p =>
    let g := p.ports.toList.getD port ⟨0, false, 0, false, 0, 0⟩
    if h / 2 ^ 16 ≠ 0 ∨ h.testBit 3 ∨ !g.sen ∨ g.nsq ≤ sq then (s, some (.fault j.dst)) else
    let e := g.sbase + 32 * sq
    -- the entry is read and SENT written in stage 2, as a host access (R388, R393)
    match s.ipaStop p e 32 true with
    | some f =>
      let pg := (p.cfg.part, f.1 / 2 ^ 16)
      if pg ∈ s.refusedPages then ({ s with refusedPages := s.refusedPages.filter fun q => q != pg }, some (.fault j.dst))
      else (s.ipaReport j.by_.core p f, some .held)
    | none =>
    let dw (o : Nat) : Nat := (s.ipaRead p (e + o) 8).getD 0
    match s.ipaRead p (e + 16) 8, s.ipaRead p (e + 24) 8 with
    | some w2, some sent =>
      if !sendOpen w2 then (s, some (.fault j.dst)) else
      match s.portBytes j j.rows 0 with
      | (s1, .error r) => (s1, some r)
      | (s1, .ok bs) =>
        let s2 := (s1.ipaWrite p (e + 24) (leBytes 8 (sent + 1))).getD s1
        ({ s2 with ueOut := s2.ueOut ++ [{ port := port, sq := sq, part := p.cfg.part, remote := dw 0, job := dw 8 % 2 ^ 32
                                           rq := bits (dw 8) 32 12, mode := bits w2 1 2, bytes := bs }] }, none)
    | _, _ => (s, some .held)

/-! ### Channels -/

/-- Handle of a channel of a copy unit (R380). -/
def State.copyHandle (s : State) (cl ch : Nat) : Word :=
  BitVec.ofNat 64 (2 ^ 63 + 2 ^ 60 + ch * 2 ^ 32 + (s.loc (cl * 8) 0).toNat % 2 ^ 32)

/-- The channel's next job in ID order leaves the job queue, if it has none in progress (R285). -/
def Cluster.nextJob (q : Cluster) (ch : Fin 8) : Cluster :=
  match (q.chans[ch]).job, q.jobs.find? fun j => j.ch == ch with
  | none, some j => { q with jobs := q.jobs.erase j, chans := q.chans.set ch { q.chans[ch] with job := some j, pos := 0 } }
  | _, _ => q

/-- A job whose every byte is transferred. -/
def CopyJob.whole (j : CopyJob) (pos : Nat) : Bool := j.rows * j.rowBytes ≤ pos

/-- A fault stalls the channel at its byte, with a record for slot 0 of the issuing core (R287). -/
def State.copyFault (s : State) (cl : Nat) (ch : Fin 8) (j : CopyJob) (a : Word) : State :=
  (s.modCluster cl fun q => { q with chans := q.chans.set ch { q.chans[ch] with fault := true } }).engineRec j.by_.core 36 2 a
    (BitVec.ofNat 64 (ch * 2 ^ 61 + j.id.toNat % 2 ^ 61)) 0 (s.copyHandle cl ch)

/-- A channel of the subject's cluster, its index the subject's, starts its next job and transfers its rows. How many of
them before another step comes is open (R285 to R287). [log 59 DEDUCED] -/
def execCopyJobStart (s : State) : Out :=
  let cl := s.subject.cluster
  let ch : Fin 8 := ⟨s.subject.idx % 8, Nat.mod_lt _ (by decide)⟩
  let s1 := s.modCluster cl fun q => q.nextJob ch
  let h := (s1.cluster cl).chans[ch]
  match h.job with
  | none => .next s
  | some j =>
    if h.fault ∨ j.whole h.pos then .next s1 else
    if j.toPort then
      match s1.sendJob j with
      | (s2, none) => .next (s2.modCluster cl fun q =>
          { q with chans := q.chans.set ch { q.chans[ch] with pos := j.rows * j.rowBytes } })
      | (s2, some (.fault a)) => .next (s2.copyFault cl ch j a)
      | (s2, some .held) => .next s2
    else
      let (i, s2) := s1.choose (j.rows - h.pos / j.rowBytes)
      match s2.copyRows j h.pos (i + 1) with
      | (s3, pos, r) =>
        let s4 := s3.modCluster cl fun q => { q with chans := q.chans.set ch { q.chans[ch] with pos := pos } }
        match r with
        | some (.fault a) => .next (s4.copyFault cl ch j a)
        | _ => .next s4

/-- A transfer of the subject's cluster and channel is complete: `cpydone` advances in each core's copy (R361). -/
def execCopyJobComplete (s : State) : Out :=
  let cl := s.subject.cluster
  let ch : Fin 8 := ⟨s.subject.idx % 8, Nat.mod_lt _ (by decide)⟩
  let h := (s.cluster cl).chans[ch]
  match h.job with
  | some j => if j.whole h.pos then .next (s.jobOver cl ch) else .next s
  | none => .next s

/-! ### Barrier signals -/

/-- The signal at a place of `signals`, if it is due and the first of its register and kind at its core (R366). -/
def State.signalAt (s : State) (i : Nat) : Option BarSignal :=
  match s.signals[i]? with
  | some g =>
    if g.due ≤ (s.core g.core).cycle ∧
      !(s.signals.take i).any (fun x => x.core == g.core && x.b == g.b && x.kind == g.kind) then some g else none
  | none => none

/-- A core's own arrival, or one from its east or south neighbour, reaches its sweep (R366). -/
def execBarrierArrivalSignal (s : State) : Out :=
  match s.signalAt s.subject.idx with
  | some g => if g.kind = 3 then .next s else .next ({ s with signals := s.signals.eraseIdx s.subject.idx }.receive g)
  | none => .next s

/-- A release reaches a core: GEN advances, ARR is cleared, the release goes on (R366). -/
def execBarrierReleaseSignal (s : State) : Out :=
  match s.signalAt s.subject.idx with
  | some g => if g.kind = 3 then .next ({ s with signals := s.signals.eraseIdx s.subject.idx }.receive g) else .next s
  | none => .next s

end Sys2Proof.Machine
end

