-- ==== Sys2Proof/Machine/Crypto.lean ====
section
/-! DEFINITION. Crypto.lean: the published algorithms that R2 applies: the sponge functions of FIPS 202 and the verification of
ML-DSA-87 signatures of FIPS 204 (R2, R398, R405). -/

namespace Sys2Proof.Machine

/-! ### The sponge functions -/

/-- Word of the 5 × 5 sponge state in column x and row y, each modulo 5. -/
def spongeWord (a : List Word) (x y : Nat) : Word := a.getD (x % 5 + y % 5 * 5) 0

/-- Each column is mixed with the parities of its two neighbours (FIPS 202, 3.2.1). -/
def mixColumns (a : List Word) : List Word :=
  let parity := (List.range 5).map fun x => (List.range 5).foldl (fun p y => p ^^^ spongeWord a x y) 0
  let mix := (List.range 5).map fun x => parity.getD ((x + 4) % 5) 0 ^^^ (parity.getD ((x + 1) % 5) 0).rotateLeft 1
  (List.range 25).map fun i => a.getD i 0 ^^^ mix.getD (i % 5) 0

/-- Words are rotated and moved, along the one cycle of the 24 that move (FIPS 202, 3.2.2 and 3.2.3). -/
def moveWords (a : List Word) : List Word :=
  let step (w : List Word × (Nat × Nat) × Word) (t : Nat) : List Word × (Nat × Nat) × Word :=
    let at_ := (w.2.1.2, (2 * w.2.1.1 + 3 * w.2.1.2) % 5)
    (w.1.set (at_.1 + at_.2 * 5) (w.2.2.rotateLeft ((t + 1) * (t + 2) / 2)), at_, spongeWord w.1 at_.1 at_.2)
  ((List.range 24).foldl step (a, (1, 0), spongeWord a 1 0)).1

/-- The one nonlinear step, along rows (FIPS 202, 3.2.4). -/
def mixRows (a : List Word) : List Word :=
  (List.range 25).map fun i => a.getD i 0 ^^^ (~~~(spongeWord a (i + 1) (i / 5)) &&& spongeWord a (i + 2) (i / 5))

/-- The next state of the 8-bit register that makes the round constants (FIPS 202, 3.2.5). -/
def nextRound (r : Nat) : Nat := if r < 128 then 2 * r else (2 * r) ^^^ 0x171

/-- The register after j steps. -/
def roundReg (r : Nat) : Nat → Nat
  | 0 => r
  | j + 1 => nextRound (roundReg r j)

/-- A round constant: seven bits of the register at places 2^j - 1 (FIPS 202, 3.2.5). -/
def roundConst (r : Nat) : Word :=
  (List.range 7).foldl (fun c j => if (roundReg r j).testBit 0 then c ||| BitVec.ofNat 64 (2 ^ (2 ^ j - 1)) else c) 0

/-- The permutation of 1,600 bits: 24 rounds (FIPS 202, 3.3). -/
def permute (a : List Word) : List Word :=
  ((List.range 24).foldl (fun (w : List Word × Nat) _ =>
    let b := mixRows (moveWords (mixColumns w.1))
    (b.set 0 (b.headD 0 ^^^ roundConst w.2), roundReg w.2 7)) (a, 1)).1

/-- Takes in a message of whole blocks of `rate` bytes. -/
def absorb (rate : Nat) : Nat → List Byte → List Word → List Word
  | 0, _, a => a
  | n + 1, m, a =>
    let b := (List.range 25).map fun i =>
      if i < rate / 8 then a.getD i 0 ^^^ BitVec.ofNat 64 (leNat ((m.drop (8 * i)).take 8)) else a.getD i 0
    absorb rate n (m.drop rate) (permute b)

/-- Gives out n blocks. -/
def squeeze (rate : Nat) : Nat → List Word → List Byte
  | 0, _ => []
  | n + 1, a => ((a.flatMap fun w => leBytes 8 w.toNat).take rate) ++ squeeze rate n (permute a)

/-- The sponge over a message with the suffix of a function, n bytes of it (FIPS 202, 4 and 5.1). -/
def sponge (rate : Nat) (suffix : Byte) (m : List Byte) (n : Nat) : List Byte :=
  let p := m ++ suffix :: List.replicate (rate - 1 - m.length % rate) 0
  let q := p.modify (p.length - 1) fun b => b ||| 0x80
  (squeeze rate ((n + rate - 1) / rate) (absorb rate (q.length / rate) q (List.replicate 25 0))).take n

/-- SHA3-512. [log 121 PRESUMED] -/
def sha3 (m : List Byte) : List Byte := sponge 72 0x06 m 64
/-- SHAKE128, n bytes. -/
def shake128 (m : List Byte) (n : Nat) : List Byte := sponge 168 0x1F m n
/-- SHAKE256, n bytes. -/
def shake256 (m : List Byte) (n : Nat) : List Byte := sponge 136 0x1F m n

/-! ### ML-DSA-87 -/

/-- The modulus, 2^23 - 2^13 + 1 (FIPS 204, 4). -/
def dsaQ : Nat := 8380417
/-- Twice the low-order rounding range, (q - 1) / 16. -/
def dsaStep : Nat := (dsaQ - 1) / 16
/-- Infinity norm that a response stays below: γ1 - β. -/
def dsaBound : Nat := 2 ^ 19 - 120

/-- Consecutive fields of n bits of a byte string, least significant first. -/
def fields (n count : Nat) (bs : List Byte) : List Nat :=
  let v := leNat bs
  (List.range count).map fun i => v / 2 ^ (n * i) % 2 ^ n

/-- Power of the 512th root of unity 1753, by its exponent. -/
def rootPow (e : Nat) : Nat := 1753 ^ (e % 512) % dsaQ

/-- Exponent of the point at which entry i of a transform evaluates: 2 × (i with its eight bits reversed) + 1. -/
def pointExp (i : Nat) : Nat := 2 * (List.range 8).foldl (fun r b => 2 * r + i / 2 ^ b % 2) 0 + 1

/-- The transform of a polynomial: its values at 256 points (FIPS 204, 2.5). -/
def transform (w : List Nat) : List Nat :=
  (List.range 256).map fun i =>
    let x := rootPow (pointExp i)
    w.foldr (fun c v => (c + x * v) % dsaQ) 0

/-- The polynomial of a transform; 8347681 is the inverse of 256. -/
def untransform (v : List Nat) : List Nat :=
  (List.range 256).map fun j =>
    8347681 * ((List.range 256).foldl (fun t i => (t + v.getD i 0 * rootPow (512 * 256 - pointExp i * j)) % dsaQ) 0) % dsaQ

/-- An entry of the matrix, in transformed form: fields of 23 bits of a stream, those not below the modulus left out (FIPS
204, algorithm 30). The stream is cut at 3,024 bytes, past any length met. -/
def matrixEntry (seed : List Byte) (r c : Nat) : List Nat :=
  let bs := shake128 (seed ++ [BitVec.ofNat 8 c, BitVec.ofNat 8 r]) 3024
  (((fields 24 1008 bs).map fun w => w % 2 ^ 23).filter fun w => w < dsaQ).take 256

/-- Places the next sign of a challenge: at the first stream byte not above i (FIPS 204, algorithm 29). -/
def placeSign (signs : Nat) (w : List Nat × List Nat) (n : Nat) : List Nat × List Nat :=
  let i := 196 + n
  let rest := w.2.dropWhile fun j => i < j
  let j := rest.headD 0
  let c := w.1.set i (w.1.getD j 0)
  (c.set j (if signs.testBit n then dsaQ - 1 else 1), rest.drop 1)

/-- The challenge: 60 coefficients 1 or -1, the others 0. The stream is cut at 1,096 bytes, past any length met. -/
def challenge (seed : List Byte) : List Nat :=
  let bs := shake256 seed 1096
  ((List.range 60).foldl (placeSign (leNat (bs.take 8))) (List.replicate 256 0, (bs.drop 8).map fun b => b.toNat)).1

/-- The places of the hint bits of eight polynomials; none where they are not coded as they must be (FIPS 204, algorithm
21). -/
def hintPlaces (y : List Byte) : Option (List (List Nat)) :=
  let at_ := y.map fun b => b.toNat
  let ends := at_.drop 75
  let go (w : Option (Nat × List (List Nat))) (e : Nat) : Option (Nat × List (List Nat)) :=
    match w with
    | none => none
    | some (b, out) =>
      let ps := (at_.take e).drop b
      if e < b ∨ 75 < e ∨ !(ps.zip (ps.drop 1)).all fun x => x.1 < x.2 then none else some (e, out ++ [ps])
  match ends.foldl go (some (0, [])) with
  | some (e, out) => if ((at_.take 75).drop e).all fun b => b == 0 then some out else none
  | none => none

/-- High-order part of a coefficient, with its hint (FIPS 204, algorithms 36 and 40). -/
def withHint (hint : Bool) (r : Nat) : Nat :=
  let low := r % dsaStep
  let up := dsaStep / 2 < low
  let high := (r / dsaStep + if up then 1 else 0) % 16
  if !hint then high
  else if up ∨ low = 0 then (high + 15) % 16 else (high + 1) % 16

/-- ML-DSA-87 verification of a signature of a message under a public key, with an empty context (FIPS 204, algorithms 3 and
8). [log 121 PRESUMED] -/
def dsaVerify (key m sig : List Byte) : Bool :=
  let seed := key.take 32
  let tag := sig.take 64
  let z := (List.range 7).map fun i =>
    (fields 20 256 ((sig.drop (64 + 640 * i)).take 640)).map fun v => (2 ^ 19 + dsaQ - v) % dsaQ
  key.length == 2592 && sig.length == 4627 &&
  z.all (fun w => w.all fun v => v < dsaBound || dsaQ - dsaBound < v) &&
  match hintPlaces (sig.drop 4544) with
  | none => false
  | some hs =>
    let rep := shake256 (shake256 key 64 ++ 0 :: 0 :: m) 64
    let zt := z.map transform
    let ct := transform (challenge tag)
    let high := (List.range 8).flatMap fun r =>
      let t := transform ((fields 10 256 ((key.drop (32 + 320 * r)).take 320)).map fun v => v * 2 ^ 13)
      let row := (List.range 7).map fun c => (matrixEntry seed r c, zt.getD c [])
      let v := (List.range 256).map fun i =>
        (row.foldl (fun x e => x + e.1.getD i 0 * e.2.getD i 0) 0 + (dsaQ - ct.getD i 0) * t.getD i 0) % dsaQ
      ((untransform v).zip (List.range 256)).map fun x => withHint ((hs.getD r []).contains x.2) x.1
    let code := (List.range 1024).map fun i => BitVec.ofNat 8 (high.getD (2 * i) 0 + 16 * high.getD (2 * i + 1) 0)
    shake256 (rep ++ code) 64 == tag

end Sys2Proof.Machine
end

