-- ==== Sys2Proof/Machine/Packets.lean ====
section
/-! DEFINITION. Packets.lean: arrival and acceptance of migrant packets, refill of the tiers, the swap of a waiting migrant,
and Bellows slot removal and return (R67 to R69, R79, R256, R261). -/

namespace Sys2Proof.Machine

/-- A migrant packet, held by the subject's core, arrives at the core it goes to (R67, R68, R261). -/
def execMigrantArrival (s : State) : Out := .next (s.deliverHeld s.subject.core s.subject.idx)

/-- A packet that was refused for want of room is accepted once space frees (R256). -/
def execPacketAcceptance (s : State) : Out := .next (s.deliverHeld s.subject.core s.subject.idx)

/-- A core's freed tier entries are refilled from the tier behind, and a head packet may bind (R67, R68). -/
def execSpillRefill (s : State) : Out :=
  .next ((s.refillTiers s.subject.core 80).bindPackets s.subject.core 8)

/-! ### The swap of a waiting migrant -/

/-- The threads SWAPPED from a core leave room for one more (R382). -/
def State.swapRoom (s : State) (c : Nat) : Bool := (s.core c).swapped.length < 32

/-- A thread may be swapped out now: its strips are complete (R154, R383). -/
def Thread.swapReady (t : Thread) : Bool := t.vq == []

/-- The bound migrant in a slot has been PARKED in one wait for 1,024 cycles with packets waiting throughout (R69). -/
def State.parkedLong (s : State) (c : Nat) (k : SlotN) : Bool :=
  let x := s.core c
  match (s.slot c k).thread? with
  | some t =>
    t.kind == .migrant && t.st == .parked && x.c.runQ != [] && max t.parkedAt x.c.runQSince + 1024 ≤ x.cycle &&
    t.swapReady && s.swapRoom c
  | none => false

/-- The packet that stands in for a swapped migrant (R69). [log 94 DEDUCED] -/
def State.standin (s : State) (c : Nat) (k : SlotN) (t : Thread) : Packet :=
  { pc := 0, pw := 0, origin := 0, launch := t.launch, hops := 0, spawned := false, standin := true
    a := [s.handle c k t], target := t.migr.target, spawner := ⟨0, 0⟩, dest := c, sender := none, departs := false
    since := none }

/-- A migrant parked for 1,024 cycles with packets waiting is swapped out; its slot goes to the head packet first, and a
stand-in enters the run queue's tail (R69). -/
def execMigrantParkSwap (s : State) : Out :=
  let c := s.subject.core
  let k := s.subject.slot
  if !s.parkedLong c k then .next s else
  match s.swapStall c with
  | some e => .next (s.ipaReport c e.1 e.2)
  | none =>
  let p := s.standin c k (s.thr c k)
  let s1 := (s.swapOut c k false true false).fillPacketFirst c k
  .next ((s1.sendPacket c p).deliverNext c p)

/-! ### Slot removal -/

/-- Bellows may remove a user slot: the die is hot, the slot is not removed, and its thread may be swapped (R79, R382,
R404). [log 62 DEDUCED] -/
def State.mayRemove (s : State) (c : Nat) (k : SlotN) : Bool :=
  2 ≤ k.val && (s.die (dieOf c)).hot && !(s.core c).removed.getLsbD k &&
  match s.thread? c k with
  | some t => t.swapReady && s.swapRoom c
  | none => true

/-- Bellows removes the subject's slot; its thread, whatever its state, is swapped out and waits for restore on the core
(R59, R79). -/
def execSlotRemoval (s : State) : Out :=
  let c := s.subject.core
  let k := s.subject.slot
  if !s.mayRemove c k then .next s else
  let h := s.home c k
  let gone (s : State) : State := s.modCore c fun x => { x with removed := x.removed ||| BitVec.ofNat 8 (2 ^ k.val) }
  match s.thread? c k, s.swapStall c with
  | some _, some e => .next (s.ipaReport c e.1 e.2)
  | some _, none => .next ((gone (s.swapOut c h false false false)).fill c)
  | none, _ => .next (gone s)

/-- Bellows may return a slot: at most one per core in 64 cycles, once the die is cool again (R79, R404). [log 62 DEDUCED]
-/
def State.mayReturn (s : State) (c : Nat) (k : SlotN) : Bool :=
  let x := s.core c
  x.removed.getLsbD k && !(s.die (dieOf c)).hot && (x.lastReturn == 0 || x.lastReturn + 64 ≤ x.cycle)

/-- Bellows returns the subject's slot, which is filled at once (R79, R414). -/
def execSlotReturn (s : State) : Out :=
  let c := s.subject.core
  let k := s.subject.slot
  if !s.mayReturn c k then .next s else
  .next ((s.modCore c fun x =>
    { x with removed := x.removed &&& ~~~(BitVec.ofNat 8 (2 ^ k.val)), lastReturn := x.cycle }).fill c)

end Sys2Proof.Machine
end

