-- ==== Sys2Proof/Machine/Trace.lean ====
section
/-! DEFINITION. Trace.lean: the byte rings of a partition, trace records and stall-map frames (R325, R359, R407 to R409). -/

namespace Sys2Proof.Machine

/-! ### Rings -/

/-- A byte ring as the device reads it at a write: base, log2 of its size, TAIL and HEAD (R409). -/
structure ByteRing where
  base : Nat
  log : Nat
  tail : Nat
  head : Nat
  deriving DecidableEq, Repr

/-- The ring controlled by the block at an offset of the control page; none while it takes nothing (R409). -/
def State.byteRing (s : State) (p : Part) (off : Nat) : Option ByteRing :=
  let w := s.ctl p off
  let log := w % 64
  if (s.ctl p (off + 8)).testBit 0 ∧ 16 ≤ log ∧ log ≤ 30 then
    some ⟨w / 2 ^ 16 * 2 ^ 16, log, s.ctl p (off + 0x10), s.ctl p (off + 0x18)⟩
  else none

/-- The ring has room for n bytes (R409). -/
def ByteRing.room (r : ByteRing) (n : Nat) : Bool := (r.tail + 2 ^ 64 - r.head) % 2 ^ 64 + n ≤ 2 ^ r.log

/-- Writes bytes at the ring's tail, then advances TAIL; none for want of room or at a stage-2 failure (R409). -/
def State.ringWrite (s : State) (p : Part) (off : Nat) (bs : List Byte) : Option State :=
  match s.byteRing p off with
  | none => none
  | some r =>
    if !r.room bs.length then none else
    let at_ := r.tail % 2 ^ r.log
    let n := 2 ^ r.log - at_
    let fuel := bs.length / 2 ^ 16 + 2
    ((s.ipaWriteAll p (r.base + at_) (bs.take n) fuel).bind fun s1 => s1.ipaWriteAll p r.base (bs.drop n) fuel).map fun s2 =>
      s2.setCtl p (off + 0x10) ((r.tail + bs.length) % 2 ^ 64)

/-! ### Trace records -/

/-- Offset of the trace ring control and of the stall-map ring control (R400). -/
def traceCtl : Nat := 0x100
def stallCtl : Nat := 0x140

/-- The 32 bytes of a trace record (R407). -/
def TraceRec.bytes (r : TraceRec) : List Byte :=
  leBytes 8 r.stamp.toNat ++ leBytes 8 (r.kind % 256 * 2 ^ 56 + r.slot % 8 * 2 ^ 32 + r.core % 2 ^ 32) ++
  leBytes 8 r.pc.toNat ++ leBytes 8 r.data.toNat

/-- The partition takes trace records: a session with trace is open, and its ring takes bytes (R407, R409). -/
def State.tracing (s : State) (n : Nat) : Bool :=
  match s.part? n with
  | some p => (match p.session with | some x => x.trace | none => false) && (s.byteRing p traceCtl).isSome
  | none => false

/-- A free value for a field that R407 leaves open. -/
def State.openField (s : State) : Word × State := (Config.traceField s.freeN, { s with freeN := s.freeN + 1 })

/-- A TRUNC record of a core with a reason and the session's last sequence number, still without its stamp (R407). [log 65
DEDUCED] -/
def State.truncRec (s : State) (c n reason : Nat) : TraceRec × State :=
  let w := match (s.part? n).bind (·.session) with
    | some x => x.written
    | none => 0
  let (pc, s1) := s.openField
  ({ kind := 255, slot := 0, core := (s.loc c 0).toNat % 2 ^ 32, pc := pc
     data := BitVec.ofNat 64 ((Config.traceSeq w).toNat * 256 + reason), stamp := 0 }, s1)

/-- Writes trace records of a partition; none for want of room. The work is charged to it (R325, R360). -/
def State.putTrace (s : State) (n : Nat) (rs : List TraceRec) : Option State :=
  match s.part? n with
  | none => none
  | some p =>
    (s.ringWrite p traceCtl (rs.flatMap TraceRec.bytes)).map fun s1 =>
      (s1.act 3 (some n)).modPart n fun p =>
        { p with session := p.session.map fun x => { x with written := x.written + rs.length } }

/-- Writes one record of a core, after a TRUNC if records of that core have been dropped; none for want of room, or of a
stamp for the TRUNC (R356, R407). -/
def State.putNext (s : State) (c n : Nat) (r : TraceRec) : Option State :=
  if (s.core c).traceDropped.contains n then
    if !s.mayStamp c 0 then none else
    let (t, s1) := s.truncRec c n 2
    let (v, x) := (s1.source c 0).draw s1.rot
    ((s1.setSource c 0 x).putTrace n [{ t with stamp := v }, r]).map fun s2 => s2.modCore c fun x => { x with traceDropped := x.traceDropped.filter fun m => m != n }
  else s.putTrace n [r]

/-- What stops the next n bytes of a ring in stage 2 (R193, R409). -/
def State.ringStop (s : State) (p : Part) (off n : Nat) : Option (Nat × Trap) :=
  (s.byteRing p off).bind fun r =>
    if !r.room n then none else
    let at_ := r.tail % 2 ^ r.log
    let m := min n (2 ^ r.log - at_)
    (s.ipaStop p (r.base + at_) m true) <|> s.ipaStop p r.base (n - m) true

/-- A trace ring that stage 2 stops is reported to Nolmon (R193). -/
def State.traceReport (s : State) (c n : Nat) : State :=
  match (s.part? n).bind fun p => (s.ringStop p traceCtl 64).map fun e => (p, e) with
  | some e => s.ipaReport c e.1 e.2
  | none => s

/-- A traced event of a core: its record is written, or held while the ring is full, or dropped behind 64 held ones
(R407). -/
def State.trace (s : State) (c n : Nat) (r : TraceRec) : State :=
  if !s.tracing n then s else
  let s1 := s.traceReport c n
  let hold : State := s1.modCore c fun x =>
    if x.traceHeld.length < 64 then { x with traceHeld := x.traceHeld ++ [(n, r)] } else { x with traceDropped := addLine x.traceDropped n }
  if (s.core c).traceHeld.any fun e => e.1 == n then hold else (s.putNext c n r).getD hold

/-- A traced event with its stamp drawn from a unit of the core, or held for its stamp (R356, R357, R407). [log 65 DEDUCED]
-/
def State.traceEvent (s : State) (c n unit : Nat) (r : TraceRec) : State :=
  if !s.tracing n then s
  else if s.mayStamp c unit then
    let (v, x) := (s.source c unit).draw s.rot
    (s.setSource c unit x).trace c n { r with stamp := v }
  else s.holdRec c unit (.trace c n r)

/-- A launch is placed or ends: the record of the die's dispatcher (R357, R407). [log 65 DEDUCED] -/
def State.traceLaunch (s : State) (n d kind : Nat) (data : Option Word) : State :=
  if !s.tracing n then s else
  let (pc, s1) := s.openField
  let (sl, s2) := s1.openField
  let (v, s3) := match data with
    | some v => (v, s2)
    | none => s2.openField
  s3.traceEvent (d * 512) n 7
    { kind := kind, slot := sl.toNat % 8, core := (s.loc (d * 512) 0).toNat % 2 ^ 32, pc := pc, data := v, stamp := 0 }

/-- The oldest record that the subject's core holds for the subject's partition is written once the ring has room (R407).
-/
def execTraceHeldRecordDrain (s : State) : Out :=
  let c := s.subject.core
  let n := s.subject.part
  match (s.core c).traceHeld.find? fun e => e.1 == n with
  | some e =>
    if !s.tracing n then .next s else
    match s.putNext c n e.2 with
    | some s1 => .next (s1.modCore c fun x => { x with traceHeld := x.traceHeld.erase e })
    | none => .next (s.traceReport c n)
  | none => .next s

/-- A launch queue reset flushes every record held for the partition, at whatever core, and appends a TRUNC of reason 1
(R407). [log 65 DEDUCED] -/
def State.flushTrace (s : State) (n : Nat) (c : Nat) : State :=
  if !s.tracing n then s else
  let s1 := (s.cores.map (·.1)).foldl (fun s d =>
    (((s.core d).traceHeld.filter fun e => e.1 == n).foldl (fun s e => (s.putNext d n e.2).getD s) s).modCore d fun x =>
      { x with traceHeld := x.traceHeld.filter fun e => e.1 != n }) s
  let (t, s2) := s1.truncRec c n 1
  s2.traceEvent c n 0 t

/-! ### Stamps held -/

/-- A held record takes its stamp and goes where it was to go (R356, R375, R407, R410). -/
def State.stampHeld (s : State) (v : Word) : HeldRec → State
  | .trap c image r => s.sendRec c image { r with stamp := v }
  | .trace c n r => s.trace c n { r with stamp := v }
  | .error kind unit addr count owner => s.putError ⟨v, kind, unit, addr, count⟩ owner

/-- The first record that the source of the subject's core and unit holds draws its stamp (R356). [log 40 DEDUCED] -/
def execStampHoldRelease (s : State) : Out :=
  let c := s.subject.core
  let u := s.subject.num
  match s.heldStamp c u with
  | none => .next s
  | some e =>
    if !(s.source c u).ready s.rot then .next s else
    let (v, x) := (s.source c u).draw s.rot
    .next (({ s with unstamped := s.unstamped.erase e }.setSource c u x).stampHeld v e.what)

/-! ### Stall maps -/

/-- A link of a core leaves the mesh of its die: 0 north, 1 east, 2 south, 3 west (R359). -/
def edgeLink (c link : Nat) : Bool :=
  match link with
  | 0 => rowOf c == 0
  | 1 => colOf c == 15
  | 2 => rowOf c == 31
  | _ => colOf c == 0

/-- A saturating 32-bit count one higher (R355). -/
def satUp (x : BitVec 32) : BitVec 32 := if x = BitVec.allOnes 32 then x else x + 1

/-- A flit of a virtual channel leaves a core's router on a link, or one that is ready stands for a cycle for want of a slot
downstream; a link that leaves the mesh edge carries none (R359). [log 66 DESIGN CHOICE] -/
def State.countLink (s : State) (c link vc : Nat) (stall : Bool) : State :=
  if edgeLink c link || 4 ≤ link || 4 ≤ vc then s else
  let i := 4 * link + vc
  s.modCore c fun x => if stall then { x with stalls := x.stalls.set i (satUp (x.stalls.getD i 0)) }
    else { x with flits := x.flits.set i (satUp (x.flits.getD i 0)) }

/-- A link counter as a capture takes it; zero at the mesh edge (R359). -/
def State.linkValue (s : State) (c : Nat) (stall : Bool) (link vc : Nat) : Nat :=
  if edgeLink c link then 0 else
  (((if stall then (s.core c).stalls else (s.core c).flits).getD (4 * link + vc) 0 : BitVec 32)).toNat

/-- The 128-byte block of a core (R359). -/
def State.stallBlock (s : State) (c : Nat) : List Byte :=
  (List.range 16).flatMap fun i =>
    leBytes 4 (s.linkValue c false (i / 4) (i % 4)) ++ leBytes 4 (s.linkValue c true (i / 4) (i % 4))

/-- The rows that a partition owns on a die. -/
def Part.rowsOn (p : Part) (d : Nat) : List Nat := (p.cfg.rows.filter fun r => r.1 == d).map (·.2)

/-- The cores of a partition's rows on a die, in row then column order. -/
def Part.coresOn (p : Part) (d : Nat) : List Nat :=
  ((List.range 32).filter fun r => (p.rowsOn d).contains r).flatMap fun r => (List.range 16).map fun q => d * 512 + r * 16 + q

/-- The frame of a partition and a die (R408). -/
def State.stallFrame (s : State) (p : Part) (d : Nat) (stamp : Word) (cs : List Nat) : List Byte :=
  let rs := p.rowsOn d
  leBytes 8 stamp.toNat ++ leBytes 4 d ++ leBytes 4 (Config.rowsField (rs.min?.getD 0) rs.length).toNat ++
  leBytes 8 p.mode.smk ++ leBytes 40 0 ++ cs.flatMap s.stallBlock

/-- A frame of a partition and a die waits for Nolmon: a stage-2 failure on its bytes has been reported (R193, R409). -/
def State.frameWaits (s : State) (p : Part) (d : Nat) : Bool :=
  match s.ringStop p stallCtl (64 + 128 * (p.coresOn d).length) with
  | some e => s.s2waits.any fun w => w.who.serial == 0 && w.at_ p.cfg.part (e.1 / 2 ^ 16)
  | none => false

/-- A capture of the subject's partition and die is due, at a stamp that the router may draw (R359, R326, R356). -/
def State.captureDue (s : State) (n d : Nat) : Bool :=
  match s.part? n with
  | some p => s.mgmt.mayRun 4 && s.mayStamp (d * 512) 5 && !s.frameWaits p d && (p.lastFrame.toList.getD d 0) + 2 ^ p.mode.smk ≤ s.rot && p.rowsOn d != []
  | none => false

/-- The die captures and clears its link counters into a frame, which is written to the stall-map ring or, for want of room,
dropped; a stage-2 failure is reported, and the capture waits (R193, R359, R408, R409). -/
def execStallMapCapture (s : State) : Out :=
  let n := s.subject.part
  let d := s.subject.die
  match s.part? n, s.captureDue n d with
  | some p, true =>
    let cs := p.coresOn d
    match s.ringStop p stallCtl (64 + 128 * cs.length) with
    | some e => .next (s.ipaReport (d * 512) p e)
    | none =>
    let (v, x) := (s.source (d * 512) 5).draw s.rot
    let frame := s.stallFrame p d v cs
    let s1 := cs.foldl (fun s c => s.modCore c fun x => { x with flits := [], stalls := [] })
      ((s.setSource (d * 512) 5 x).modPart n fun p =>
        { p with lastFrame := p.lastFrame.set (d % 8) s.rot (Nat.mod_lt _ (by decide)) })
    match s1.byteRing p stallCtl with
    | none => .next s1
    | some _ =>
      match s1.ringWrite p stallCtl frame with
      | some s2 => .next (s2.act 4 (some n))
      | none => .next (s1.setCtl p (stallCtl + 0x20) (s.ctl p (stallCtl + 0x20) + 1))
  | _, _ => .next s

end Sys2Proof.Machine
end

