-- ==== Sys2Proof/Machine/Dispatcher.lean ====
section
/-! DEFINITION. Dispatcher.lean: the launch queue, the die dispatchers, and the ends of launches (R70 to R77, R304, R402). -/

namespace Sys2Proof.Machine

/-- Puts an element into a sorted list, behind those it does not precede. -/
def insertBy {α : Type} (lt : α → α → Bool) (a : α) : List α → List α
  | [] => [a]
  | x :: xs => if lt a x then a :: x :: xs else x :: insertBy lt a xs

/-- A list sorted, equal elements in their order. -/
def sortBy {α : Type} (lt : α → α → Bool) (xs : List α) : List α := xs.foldl (fun ys a => insertBy lt a ys) []

/-! ### The queue -/

/-- The launch queue as its control block gives it (R74). -/
structure LaunchQueue where
  base : Nat
  count : Nat
  producer : Nat
  consumer : Nat
  deriving DecidableEq, Repr

/-- Reads the control block at 0x40 of the control page; none when the entry count is not one of R74's. [log 61 DEDUCED] -/
def State.launchQueue (s : State) (p : Part) : Option LaunchQueue :=
  let n := s.ctl p 0x48
  if 16 ≤ n ∧ n ≤ 65536 ∧ n &&& (n - 1) = 0 then some ⟨s.ctl p 0x40, n, s.ctl p 0x50, s.ctl p 0x58⟩ else none

/-- The lowest core of a partition's rows on a die, or of all its rows. [log 61 DEDUCED] -/
def Part.lowCore (p : Part) (d : Nat) : Nat :=
  match (p.coresOn d).head? with
  | some c => c
  | none => (p.cores.min?).getD (d * 512)

/-- The partition's contexts are on its cores (R386). -/
def State.running (s : State) (p : Part) : Bool := p.cores.all fun c => (s.core c).part == some p.cfg.part

/-- The launch at an index of the queue, if it has been read. -/
def Part.launchAt (p : Part) (i : Nat) : Option Launch := p.launches.find? fun l => l.order == i

/-- Dies of a launch's mask. -/
def Launch.dies (l : Launch) : List Nat := (List.range 8).filter fun d => l.dieMask.testBit d

/-- Every die of the mask has taken and placed the launch (R74). -/
def Launch.placedAll (l : Launch) : Bool := l.dies.all fun d => l.placed.contains d

/-- Replaces a launch, by its index in the queue. -/
def Part.setLaunch (p : Part) (l : Launch) : Part :=
  { p with launches := p.launches.map fun x => if x.order = l.order then l else x }

/-- The consumer index moves past entries that every die has taken, and those that ended (R74). -/
def Part.consumed (p : Part) (producer : Nat) : Nat → Nat → Nat
  | 0, i => i
  | f + 1, i =>
    let over_ := p.endedIdx.contains i || match p.launchAt i with
      | some l => l.ending.isNone && l.placedAll
      | none => false
    if i < producer && over_ then p.consumed producer f (i + 1) else i

/-- Advances the consumer index (R74). [log 63 DEDUCED] -/
def State.advance (s : State) (n : Nat) : State :=
  match s.part? n with
  | none => s
  | some p =>
    match s.launchQueue p with
    | none => s
    | some q =>
      let i := p.consumed q.producer q.count q.consumer
      (if i = q.consumer then s else s.setCtl p 0x58 i).modPart n fun p =>
        { p with endedIdx := p.endedIdx.filter fun j => i ≤ j }

/-! ### Checks -/

/-- Role of a slot in the role map (R70). -/
def Launch.role (l : Launch) (k : Nat) : Nat := l.f 8 (32 + 4 * k) 4

/-- The limits of R70 and the cases of R71 that the descriptor alone and the partition's rows decide. [log 63 DEDUCED] -/
def Launch.valid (l : Launch) (p : Part) : Bool :=
  l.id != 0 && l.f 1 0 2 == 0 && l.dieMask != 0 && 1 ≤ l.f 3 16 8 && l.f 3 8 8 + l.f 3 16 8 ≤ 32 && 1 ≤ l.f 3 32 8 &&
  l.f 3 24 8 + l.f 3 32 8 ≤ 16 && l.f 7 0 12 == 0 && l.slotMask % 4 == 0 && l.migMask % 4 == 0 &&
  (l.slotMask != 0 || l.migMask != 0) && l.f 6 32 8 ≤ 2 && (l.f 6 32 8 == 0 || l.f 6 40 8 ≤ 15) && l.f 12 0 4 == 0 &&
  ((List.range 8).all fun k => k < 2 || l.role k < 5 || 7 < l.role k) &&
  l.dies.all fun d => (List.range (l.f 3 16 8)).all fun r => p.cfg.rows.contains (d, l.f 3 8 8 + r)

/-- The named pair descriptor entry suits the seed kind (R70, R304). -/
def Launch.pairOk (l : Launch) (p : Part) : Bool :=
  let e := p.pair (l.f 6 40 8)
  l.f 6 32 8 == 0 || (e.pc != 0 && e.nfmt == (if l.f 6 32 8 = 1 then 0 else 1))

/-- Bytes of a partition's Crucible on a die that are neither reserved nor held by undrawn parts of regions (R71). -/
def Part.crucibleFree (p : Part) (d : Nat) : Nat :=
  let kept := ((p.launches.filter fun l => l.placed.contains d).map Launch.crucible).sum
  let held := ((p.regions.filter fun r => r.die == d).map fun r => match r.drawn with
    | some (_, n) => r.size - n
    | none => r.size).sum
  p.mode.cruc * 2 ^ 20 - kept - held

/-- The capacity of the partition covers the launch's reservations everywhere (R71). -/
def Launch.fits (l : Launch) (p : Part) : Bool :=
  l.f 7 0 32 ≤ p.cfg.spadBytes && l.crucible ≤ p.mode.cruc * 2 ^ 20 && l.f 8 0 32 ≤ 4096

/-- What reading a launch's seeds gives. -/
inductive SeedRead where
  | ok (ts : List Task)
  | bad
  | held
  deriving DecidableEq, Repr

/-- The seed tasks of bytes read: STOLEN and SPILLED cleared, DESC from the launch; none for a reserved bit (R304). -/
def Launch.seedsOf (l : Launch) (bs : List Byte) : Option (List Task) :=
  let n := l.f 6 0 32
  let one (i : Nat) : Task :=
    let w (j : Nat) : Word := BitVec.ofNat 64 (leNat ((bs.drop (32 * i + 8 * j)).take 8))
    freshTask [(w 0 &&& ~~~15#64) ||| BitVec.ofNat 64 (l.f 6 40 4), w 1, w 2, w 3] l.id
  let ts := (List.range n).map one
  if ts.any fun t => t.w0.testBit 7 then none else some ts

/-- Reads and checks a launch's seeds, as one engine of a core would (R193, R304). -/
def State.readSeeds (s : State) (c : Nat) (l : Launch) : State × SeedRead :=
  if l.f 6 32 8 = 0 then (s, .ok []) else
  let a := l.f 5 0 64
  if a % 32 ≠ 0 then (s, .bad) else
  if l.f 6 0 32 = 0 then (s, .ok []) else
  match s.reach c a (32 * l.f 6 0 32) .load with
  | (s1, xs, none) =>
    if (s1.spanBad xs).isSome then (s1, .bad)
    else match l.seedsOf (s1.spanBytes xs) with
      | some ts => (s1, .ok ts)
      | none => (s1, .bad)
  | (s1, _, some e) =>
    match s1.engineStop c (BitVec.ofNat 64 a) e with
    | (s2, .fault _) => (s2, .bad)
    | (s2, .held) => (s2, .held)

/-- Predecessors that hold the launch when a dispatcher first reads it: launches ahead in the ring, or running (R75). -/
def Launch.heldBy (l : Launch) (p : Part) : List (BitVec 32) :=
  ([BitVec.ofNat 32 (l.f 4 0 32), BitVec.ofNat 32 (l.f 4 32 32)].filter fun i =>
    i != 0 && p.launches.any fun x => x.id == i && x.order < l.order).eraseDups

/-- A launch that becomes eligible begins to wait at its priority on each die of its mask (R76). -/
def Launch.await (l : Launch) (clock : Nat) : Launch :=
  if l.preds = [] then { l with eff := l.dies.map fun d => (d, l.f 3 62 2, clock) } else l

/-- The descriptor of an entry: its sixteen doublewords; none while it cannot be read (R74). [log 63 DEDUCED] -/
def State.readEntry (s : State) (c : Nat) (q : LaunchQueue) (i : Nat) : State × Option (List Word) :=
  match s.engineKey c ((q.base + 128 * (i % q.count)) % 2 ^ 64) .load with
  | (s1, .ok key) =>
    if (badIn s1.bad key 128).isSome then (s1, none)
    else (s1, some ((List.range 16).map fun j => BitVec.ofNat 64 (s1.num (key + 8 * j) 8)))
  | (s1, .error _) => (s1, none)

/-- A launch as its entry is first read, by a die. -/
def Launch.fresh (w : List Word) (i : Nat) : Launch :=
  { id := (w.getD 0 0).setWidth 32, d := w, order := i, taken := [], placed := [], preds := [], eff := [], seeds := [], ending := none }

/-- Enters a launch in the partition's list, in queue order. -/
def Part.addLaunch (p : Part) (l : Launch) : Part :=
  { p with launches := p.launches.filter (fun x => x.order < l.order) ++ [l] ++ p.launches.filter fun x => l.order < x.order }

/-- A die has read an entry: its next one follows. -/
def Part.readOn (p : Part) (d i : Nat) : Part :=
  { p with readIdx := p.readIdx.set (d % 8) (i + 1) (Nat.mod_lt _ (by decide)) }

/-- The first reading of an entry: it is invalid, too large, or queued (R71, R75). -/
def State.firstRead (s : State) (p : Part) (d i : Nat) (w : List Word) : State :=
  let n := p.cfg.part
  let l := Launch.fresh w i
  let enter (s : State) (l : Launch) : State :=
    s.modPart n fun p => (p.addLaunch { l with taken := [d] }).readOn d i
  if !l.valid p ∨ p.launches.any (fun x => x.id == l.id) then enter s { l with ending := some 1 }
  else if !l.fits p then enter s { l with ending := some 2 }
  else enter s (({ l with preds := l.heldBy p } : Launch).await s.clock)

/-- The index of the entry that a die reads next. [log 61 DEDUCED] -/
def Part.nextRead (p : Part) (q : LaunchQueue) (d : Nat) : Nat := max (p.readIdx.toList.getD d 0) q.consumer

/-- The dispatcher of the subject's die reads the next published entry of the subject's partition; none during a reset (R74,
R402). [log 63 DEDUCED] -/
def execLaunchEntryRead (s : State) : Out :=
  let n := s.subject.part
  let d := s.subject.die
  match s.part? n with
  | none => .next s
  | some p =>
    match s.launchQueue p with
    | none => .next s
    | some q =>
      let i := p.nextRead q d
      if q.producer ≤ i ∨ p.rowsOn d = [] ∨ !s.running p ∨ p.resetting.isSome then .next s
      else if p.endedIdx.contains i then .next (s.modPart n fun p => p.readOn d i)
      else match p.launchAt i with
        | some l => .next (s.modPart n fun p => (p.setLaunch { l with taken := l.taken ++ [d] }).readOn d i)
        | none =>
          match s.readEntry (p.lowCore d) q i with
          | (s1, some w) => .next (s1.firstRead p d i w)
          | (s1, none) => .next s1

/-! ### Placement -/

/-- Cores of the rectangle on a die. -/
def Launch.rectOn (l : Launch) (d : Nat) : List Nat := l.rect.filter fun c => dieOf c == d

/-- Slots of the slot mask. -/
def Launch.slots (l : Launch) : List SlotN := (List.finRange 8).filter fun k => l.slotMask.testBit k

/-- The bound threads, by their slots, that a placement on a core pre-empts (R59, R77). -/
def State.preempted (s : State) (l : Launch) (c : Nat) : List SlotN :=
  (l.slots.filterMap fun k => (s.thread? c k).map fun _ => s.home c k).eraseDups

/-- The target slots of a core are EMPTY, or held by threads of lower priority that can be swapped (R77, R382). [log 63
DEDUCED] -/
def State.slotsFor (s : State) (l : Launch) (d c : Nat) : Bool :=
  let e := l.prioOn d
  l.slots.all (fun k => !(s.core c).removed.getLsbD k && match s.thread? c k with
    | some t => t.prio < e && t.swapReady
    | none => true) &&
  ((s.preempted l c).length == 0 || (s.core c).swapped.length + (s.preempted l c).length ≤ 32)

/-- The clusters of the rectangle on a die, ascending. -/
def Launch.clustersOn (l : Launch) (d : Nat) : List Nat := sortBy (· < ·) ((l.rectOn d).map clusterOf).eraseDups

/-- The launch's reservations fit what is free on a die (R71). -/
def Part.freeFor (p : Part) (l : Launch) (d : Nat) : Bool :=
  let on := p.launches.filter fun x => x.placed.contains d
  (l.rectOn d).all (fun c => ((on.filter fun x => (x.rectOn d).contains c).map fun x => x.f 7 0 32).sum + l.f 7 0 32 ≤ p.cfg.spadBytes) &&
  (l.crucible == 0 || l.crucible ≤ p.crucibleFree d) &&
  (l.clustersOn d).all fun cl => ((on.filter fun x => (x.clustersOn d).contains cl).map fun x => x.f 8 0 32).sum + l.f 8 0 32 ≤ 4096

/-- The launch can be placed on a die at once (R75, R77). -/
def State.canPlace (s : State) (p : Part) (l : Launch) (d : Nat) : Bool :=
  p.freeFor l d && (l.rectOn d).all fun c => s.slotsFor l d c

/-- The launches that wait eligible on a die, the highest effective priority first, then the earliest (R75). -/
def Part.waiting (p : Part) (d : Nat) : List Launch :=
  sortBy (fun a b => b.prioOn d < a.prioOn d || (a.prioOn d == b.prioOn d && a.order < b.order))
    (p.launches.filter fun l => l.ending.isNone && l.preds == [] && l.taken.contains d && l.dies.contains d && !l.placed.contains d)

/-- The launch to be placed: the first that can be, of strictly lower priority than every one that waits ahead (R75). -/
def State.nextPlaced (s : State) (p : Part) (d : Nat) : Option Launch :=
  let rec go : Option Nat → List Launch → Option Launch
    | _, [] => none
    | m, l :: ls =>
      let may := match m with
        | some e => l.prioOn d < e
        | none => true
      if may && s.canPlace p l d then some l else go (some (l.prioOn d)) ls
  go none (p.waiting d)

/-- Index of a resident thread among the launch's threads, and their count (R72). -/
def Launch.indexOf (l : Launch) (c : Nat) (k : SlotN) : Nat :=
  (l.rect.takeWhile fun x => x != c).length * l.slots.length + (l.slots.takeWhile fun x => x != k).length
def Launch.threadCount (l : Launch) : Nat := l.dies.length * l.f 3 16 8 * l.f 3 32 8 * l.slots.length

/-- A resident thread of a launch (R72, R56, R76). -/
def Launch.thread (l : Launch) (d c : Nat) (k : SlotN) : Thread :=
  let dw (i : Nat) : Word := l.d.getD i 0
  let a := ((((Arch.reset).setX 10 (dw 2)).setX 11 (l.id.setWidth 64)).setX 12 (BitVec.ofNat 64 (l.indexOf c k))).setX 13
    (BitVec.ofNat 64 l.threadCount)
  { Thread.reset with
    a := { a with
      pc := dw 1
      csr := { UserCsrs.reset with
        vctl := vctlField false (BitVec.ofNat 64 (l.f 13 32 32)), qlimit := BitVec.ofNat 64 (l.f 13 0 32)
        fmtsh := BitVec.ofNat 64 (l.f 9 0 16), scalea := dw 10, scaleb := dw 11 } }
    launch := l.id, role := l.role k.val, prio := l.prioOn d }

/-- Swaps out and binds on one core: the whole of a launch's slots there (R72, R77). -/
def State.placeCore (s : State) (l : Launch) (d c : Nat) : State :=
  let s1 := (s.preempted l c).foldl (fun s k => s.swapOut c k false false false) s
  let s2 := l.slots.foldl (fun s k => s.bindIn c k (l.thread d c k)) s1
  s2.fill c

/-- Deals the launch's seeds to the clusters of the rectangle, and enters those of a die's own clusters, each behind those
of the launch that are held (R304). -/
def State.placeSeeds (s : State) (l : Launch) (d : Nat) : State :=
  let cls := sortBy (· < ·) (l.rect.map clusterOf).eraseDups
  (l.seeds.mapIdx fun i t => (cls.getD (i % cls.length) 0, t)).foldl (fun s e =>
    if e.1 / 64 ≠ d then s
    else if (s.cluster e.1).tongs.seeds.any fun t => t.launch == l.id then s.modTongs e.1 fun g => { g with seeds := g.seeds ++ [e.2] }
    else match s.enterSeed e.1 e.2 with
      | (s1, true) => s1
      | (s1, false) => s1.modTongs e.1 fun g => { g with seeds := g.seeds ++ [e.2] }) s

/-- Places a launch on a die as a whole (R72, R75, R77, R304). -/
def State.placeLaunch (s : State) (n d : Nat) (l : Launch) : State :=
  let s1 := (l.rectOn d).foldl (fun s c => s.placeCore l d c) s
  let s2 := s1.modPart n fun p => p.setLaunch { l with placed := l.placed ++ [d] }
  ((s2.placeSeeds l d).traceLaunch n d 3 none).advance n

/-- The first core of a launch's rectangle on a die where a thread must be swapped out and a context's block cannot be
written to the area: the placement waits for Nolmon (R385). -/
def State.stalledAt (s : State) (l : Launch) (d : Nat) : Option (Nat × Part × Nat × Trap) :=
  (l.rectOn d).findSome? fun c => if s.preempted l c = [] then none else (s.swapStall c).map fun e => (c, e)

/-- Places a launch; before it is placed on any die its pair descriptor entry and its seeds are checked (R71, R304). -/
def State.checkAndPlace (s : State) (p : Part) (d : Nat) (l : Launch) : State :=
  let n := p.cfg.part
  if l.placed ≠ [] then s.placeLaunch n d l
  else if !l.pairOk p then s.modPart n fun p => p.setLaunch { l with ending := some 1 }
  else match s.readSeeds (p.lowCore d) l with
    | (s1, .held) => s1
    | (s1, .bad) => s1.modPart n fun p => p.setLaunch { l with ending := some 1 }
    | (s1, .ok ts) => s1.placeLaunch n d { l with seeds := ts }

/-- The dispatcher of the subject's die takes and places the next launch of the subject's partition; one that no longer fits
the partition's capacity, and has started nowhere, ends with NOSPACE (R71, R75). [log 64 DEDUCED] -/
def execLaunchPlacement (s : State) : Out :=
  let n := s.subject.part
  let d := s.subject.die
  match s.part? n with
  | none => .next s
  | some p =>
    if !s.running p ∨ p.resetting.isSome then .next s else
    match (p.waiting d).find? fun l => l.placed == [] && !l.fits p with
    | some l => .next (s.modPart n fun p => p.setLaunch { l with ending := some 2 })
    | none =>
      match s.nextPlaced p d with
      | some l =>
        match s.stalledAt l d with
        | some (c, e) => .next (s.ipaReport c e.1 e.2)
        | none => .next (s.checkAndPlace p d l)
      | none => .next s

/-- Module clock periods of 1 ms at 1.05 GHz. -/
def msPeriods : Nat := 1050000

/-- The launch's next promotion on a die is due (R76). -/
def Launch.promoteDue (l : Launch) (d clock : Nat) : Bool :=
  l.ending.isNone && !l.placed.contains d &&
  match l.eff.find? fun e => e.1 == d with
  | some e => e.2.1 < 3 && e.2.2 + msPeriods ≤ clock
  | none => false

/-- A launch that has waited 1 ms at one level on the subject's die is promoted there (R76); the subject's index is the
launch's index in the queue. -/
def execPriorityPromotion (s : State) : Out :=
  let n := s.subject.part
  let d := s.subject.die
  match (s.part? n).bind fun p => p.launchAt s.subject.idx with
  | none => .next s
  | some l =>
    if !l.promoteDue d s.clock then .next s else
    .next (s.modPart n fun p => p.setLaunch
      { l with eff := l.eff.map fun e => if e.1 = d then (d, e.2.1 + 1, e.2.2 + msPeriods) else e })

/-! ### Completion -/

/-- Something of a launch of a partition is left on a core: a thread, bound or SWAPPED, or a packet (R73). -/
def Core.holdsLaunch (x : Core) (n : Nat) (id : BitVec 32) : Bool :=
  x.threads.any (fun e => e.2.launch == id) || x.swapped.any (fun w => w.part == n && w.t.launch == id) ||
  (x.c.runQ ++ x.c.heldPackets ++ x.c.spill.ring ++ x.c.spill.global).any fun q => q.launch == id

/-- Something of a launch is left in a cluster: pair tasks, copies (R73). -/
def Cluster.holdsLaunch (x : Cluster) (id : BitVec 32) : Bool :=
  (x.tongs.heap ++ x.tongs.front ++ x.tongs.seeds ++ (match x.tongs.batch with | some b => b.2 | none => [])).any (fun t => t.launch == id) ||
  x.jobs.any (fun j => j.launch == id) || x.chans.toList.any fun h => match h.job with
    | some j => j.launch == id
    | none => false

/-- A launch placed everywhere has nothing left: threads, packets, tasks, copies, posted operations (R73). -/
def State.launchOver (s : State) (p : Part) (l : Launch) : Bool :=
  l.ending.isNone && l.placedAll && s.running p &&
  !p.cores.any (fun c => (s.core c).holdsLaunch p.cfg.part l.id) && !p.clusters.any (fun cl => (s.cluster cl).holdsLaunch l.id) &&
  !p.ring.any (fun t => t.launch == l.id) &&
  !s.posted.any (fun o => o.launch == l.id && s.partOfRef o.src == some p.cfg.part) &&
  !s.acks.any fun a => a.launch == l.id && s.partOfRef a.dst == some p.cfg.part

/-- The die whose dispatcher writes the launch's record (R73). -/
def Launch.endDie (l : Launch) : Nat := l.dies.headD 0

/-- Writes the completion record as a release store, where one is named; false while a stage-2 failure stalls it, or while
the dispatcher waits for its stamp (R70, R73, R356). -/
def State.writeEnd (s : State) (p : Part) (l : Launch) (status : Nat) : State × Bool :=
  let d := l.endDie
  let c := p.lowCore d
  let a := l.f 12 0 64
  if a = 0 ∨ a % 16 ≠ 0 then (s, true) else
  if !s.mayStamp (d * 512) 7 then (s, false) else
  match s.engineKey c a .store with
  | (s1, .ok key) =>
    let (v, x) := (s1.source (d * 512) 7).draw s1.rot
    let s2 := (s1.setSource (d * 512) 7 x).poke key (leBytes 8 v.toNat ++ leBytes 4 status ++ leBytes 4 l.id.toNat)
    (if key < 2 ^ 60 then s2.record [key / 64] else s2, true)
  | (s1, .error (some t)) => (s1.engineRec c t.cause 8 (BitVec.ofNat 64 a) t.val2 t.val3 0, true)
  | (s1, .error none) => (s1, false)

/-- What the end of a launch does to a successor that has been read (R75). -/
def Launch.resolve (l : Launch) (id : BitVec 32) (status clock : Nat) : Launch :=
  if l.ending.isSome ∨ !l.preds.contains id then l
  else if status = 0 then ({ l with preds := l.preds.erase id } : Launch).await clock
  else { l with ending := some 3 }

/-- Entries between the indices that no dispatcher has read and that name the launch end with PREDFAIL (R75). -/
def State.failUnread (s : State) (n : Nat) (id : BitVec 32) : State :=
  match s.part? n with
  | none => s
  | some p =>
    match s.launchQueue p with
    | none => s
    | some q =>
      ((List.range (min q.count (q.producer - q.consumer))).map fun j => q.consumer + j).foldl (fun s i =>
        match s.part? n with
        | some p =>
          if (p.launchAt i).isSome || p.endedIdx.contains i then s else
          match s.readEntry (p.lowCore 0) q i with
          | (s1, some w) =>
            let l := Launch.fresh w i
            if id ≠ 0 ∧ (l.f 4 0 32 = id.toNat ∨ l.f 4 32 32 = id.toNat) then s1.modPart n fun p => p.addLaunch { l with ending := some 3 }
            else s1
          | (s1, none) => s1
        | none => s) s

/-- A launch ends: its record, its trace record, and its successors, in one step (R73, R75). [log 64 DEDUCED] -/
def State.endLaunch (s : State) (n : Nat) (l : Launch) (status : Nat) : State × Bool :=
  match s.part? n with
  | none => (s, true)
  | some p =>
    match s.writeEnd p l status with
    | (s1, false) => (s1.modPart n fun p => p.setLaunch { l with ending := some status }, false)
    | (s1, true) =>
      let s2 := s1.modPart n fun p =>
        { p with
          launches := (p.launches.filter fun x => x.order != l.order).map fun x => x.resolve l.id status s.clock
          regions := p.regions.map fun r => match r.drawn with
            | some (id, _) => if id = l.id ∧ l.placed.contains r.die then { r with drawn := none } else r
            | none => r
          endedIdx := p.endedIdx ++ [l.order] }
      let s3 := if status = 0 ∨ p.resetting.isSome then s2 else s2.failUnread n l.id
      ((s3.traceLaunch n l.endDie 4 (some (BitVec.ofNat 64 status))).advance n, true)

/-- The subject's launch, by its index in the queue, ends: it is complete, or its status is decided and its record is still
to be written (R71, R73, R75). -/
def execLaunchCompletion (s : State) : Out :=
  let n := s.subject.part
  match s.part? n with
  | none => .next s
  | some p =>
    match p.launchAt s.subject.idx with
    | none => .next s
    | some l =>
      match l.ending with
      | some st => .next (s.endLaunch n l st).1
      | none => if s.launchOver p l then .next (s.endLaunch n l 0).1 else .next s

/-! ### The launch queue reset -/

/-- Ends every thread of a launch as if by XKILL, with its packets and tasks (R291, R402). [log 64 DEDUCED] -/
def State.killLaunch (s : State) (p : Part) (id : BitVec 32) : State :=
  let onCore (s : State) (c : Nat) : State :=
    let s1 := s.modCtx c fun x =>
      let keep (q : Packet) : Bool := q.launch != id
      let ring := x.spill.ring.filter keep
      let global := x.spill.global.filter keep
      { x with runQ := x.runQ.filter keep, spill := { x.spill with
          ring := ring, global := global, tail := (x.spill.head + ring.length) % 64
          gtail := (x.spill.ghead + global.length) % 2 ^ 16 } }
    let s2 := ((s1.core c).swapped.filter fun w => w.part == p.cfg.part && w.t.launch == id).foldl (fun s w => s.killSwapped c w) s1
    let s3 := ((s2.core c).threads.filter fun e => e.2.launch == id).foldl (fun s e =>
      match (s.slot c e.1).thread? with
      | some t => if t.launch = id then s.killThread c e.1 else s
      | none => s) s2
    s3.modCtx c fun x => { x with heldPackets := x.heldPackets.filter fun q => q.launch != id }
  let s1 := p.cores.foldl onCore s
  let s2 := p.clusters.foldl (fun s cl => s.modTongs cl fun g =>
    { g with
      heap := g.heap.filter fun t => t.launch != id, front := g.front.filter fun t => t.launch != id
      seeds := g.seeds.filter fun t => t.launch != id
      batch := g.batch.filter fun b => !b.2.any fun t => t.launch == id }) s1
  s2.modPart p.cfg.part fun p =>
    let ring := p.ring.filter fun t => t.launch != id
    { p with ring := ring, ringTail := p.ringHead + ring.length }

end Sys2Proof.Machine
end

