-- ==== Sys2Proof/Machine/Manage.lean ====
section
/-! DEFINITION. Manage.lean: requests of a partition to the device and to Nolmon: the mode table, management operations and
the debug session (R326, R327, R401, R402, R406, R416). -/

namespace Sys2Proof.Machine

/-! ### The mode table -/

/-- The fields of the mode table as the block in the control page holds them (R326). -/
def State.modeFields (s : State) (p : Part) : ModeTable :=
  let w := s.ctl p 0xC0
  { clen := bits w 0 2, cruc := bits w 8 8, smk := bits w 16 8, bpol := bits w 24 2, flifo := w.testBit 26, l2mig := w.testBit 27,
    lend := w.testBit 28, e4nan := w.testBit 29
    hints := Vector.ofFn fun (h : Fin 4) =>
      let x := s.ctl p (0xE0 + 8 * h.val)
      ⟨bits x 0 12, x.testBit 16, signedNum 1 (bits x 24 8), BitVec.ofNat 8 (bits x 32 8)⟩ }

/-- No reserved bit of the block is set (R326). -/
def State.modeReserved (s : State) (p : Part) : Bool :=
  let w := s.ctl p 0xC0
  bits w 2 6 == 0 && w / 2 ^ 30 == 0 && s.ctl p 0xC8 % 2 ^ 32 == 0 && s.ctl p 0xD8 == 0 &&
  (List.range 4).all fun h =>
    let x := s.ctl p (0xE0 + 8 * h)
    bits x 12 4 == 0 && bits x 17 7 == 0 && x / 2 ^ 40 == 0

/-- Every field is valid, and no two enabled hint contexts have one CTX (R326, R327). -/
def ModeTable.valid (m : ModeTable) : Bool :=
  m.clen != 3 && m.cruc ≤ 64 && 8 ≤ m.smk && m.smk ≤ 24 && m.bpol != 3 &&
  (List.finRange 4).all fun i => (List.finRange 4).all fun j =>
    i == j || !(m.hints[i]).en || !(m.hints[j]).en || (m.hints[i]).ctx != (m.hints[j]).ctx

/-- The policy is permitted to the partition (R327, R399). -/
def PartCfg.permits (c : PartCfg) (bpol : Nat) : Bool := bpol == 0 || (bpol == 1 && c.capped) || (bpol == 2 && c.efficiency)

/-- The STATUS of a mode table request (R327). [log 67 DEDUCED; 123 DESIGN CHOICE] -/
def State.modeStatus (s : State) (p : Part) : Nat :=
  let m := s.modeFields p
  if !s.modeReserved p ∨ !m.valid then 1
  else if m.cruc ≠ p.mode.cruc ∧ p.regions ≠ [] then 2
  else if !p.cfg.permits m.bpol then 3
  else if (p.cfg.rows.map (·.1)).any fun d => (p.slateOf d).2.1 < m.cruc * 2 ^ 20 then 4
  else 0

/-- A request clears the old entries of a hint context: it disables it, or changes its CTX, C or WAYS (R319). -/
def HintCtx.cleared (a b : HintCtx) : Bool := (a.en && !b.en) || a.ctx != b.ctx || a.c != b.c || a.ways != b.ways

/-- Migrated lines of a partition's pages go home, and its counts of accesses are forgotten (R197). -/
def State.recall (s : State) (n : Nat) : State :=
  { s with dies := s.dies.map fun e => (e.1, { e.2 with
      moved := e.2.moved.filter fun x => x.2.2 != n
      runs := e.2.runs.filter fun x => x.2.2.1 != n }) }

/-- Bellows begins a policy on the rows of a partition: dividers 1, rows at least at the voltage of the 1.05 GHz clock
(R403). [log 77 DEDUCED] -/
def State.fullClock (s : State) (p : Part) : State :=
  let s1 := p.cores.foldl (fun s c => s.modCore c fun x => { x with nextDivider := 1, windowStart := x.cycle, issued := 0 }) s
  p.cfg.rows.foldl (fun s r =>
    if s.mgmt.volts r.1 r.2 < 0 then { s with mgmt := s.mgmt.setVolts r.1 r.2 0 } else s) s1

/-- Applies a mode table: hint entries cleared, migrated lines recalled, another policy begun (R319, R327, R403). -/
def State.applyMode (s : State) (p : Part) (m : ModeTable) : State :=
  let s1 := (List.finRange 4).foldl (fun (s : State) (i : Fin 4) =>
    if (p.mode.hints[i]).cleared (m.hints[i]) then
      p.clusters.foldl (fun s cl => s.clearHints cl p.cfg.ways (p.mode.hints[i]).ctx none) s
    else s) s
  let s2 := if m.l2mig then s1 else s1.recall p.cfg.part
  let s3 := if m.bpol = p.mode.bpol ∨ !s.running p then s2 else s2.fullClock p
  s3.modPart p.cfg.part fun p => { p with mode := m }

/-- A mode table request of the subject's partition is checked and applied whole, or not at all (R327). [log 67 DEDUCED] -/
def execModeTableRequest (s : State) : Out :=
  match s.part? s.subject.part with
  | none => .next s
  | some p =>
    let seq := s.ctl p 0xC8 / 2 ^ 32
    if seq = s.ctl p 0xD0 / 2 ^ 32 then .next s else
    let st := s.modeStatus p
    let s1 := if st = 0 then s.applyMode p (s.modeFields p) else s
    .next (s1.setCtl p 0xD0 (seq * 2 ^ 32 + st))

/-! ### The system image -/

/-- An image verifies under a key over its SHA3-512 digest (R398). [log 121 PRESUMED] -/
def imageVerifies (key image sig : List Byte) : Bool := dsaVerify key (sha3 image) sig

/-- The system image of a partition verifies under its owner key (R398). -/
def PartCfg.imageOk (c : PartCfg) : Bool := imageVerifies c.ownerKey c.image c.imageSig

/-- A thread of the system image in slot 0 or 1 (R54, R398, R400). [log 75 DEDUCED] -/
def Part.imageThread (p : Part) (k : SlotN) : Thread :=
  { Thread.reset with a :=
      if k = 0 then { (Arch.reset.setX 10 (BitVec.ofNat 64 p.cfg.ctlPage)) with pc := p.cfg.entry0 }
      else { Arch.reset with pc := p.cfg.entry1 } }

/-- A verified image starts in a slot of a core (R54, R398). [log 75 DEDUCED] -/
def State.startImage (s : State) (p : Part) (c : Nat) (k : SlotN) : State :=
  if p.cfg.imageOk then s.bindIn c k (p.imageThread k) else s

/-- The supervisor thread of a core is killed, and a new one starts at the image's entry (R401). -/
def State.restartSup (s : State) (p : Part) (c : Nat) : State :=
  let s1 := match (s.slot c 0).thread? with
    | some _ => s.killThread c 0
    | none => s
  s1.startImage p c 0

/-! ### Management operations -/

/-- The outstanding operation of a partition's management request block: operation, operands, sequence (R401). -/
def State.mgmtRequest (s : State) (p : Part) : Option (Nat × Word × Word × Nat) :=
  let seq := s.ctl p 0x98 / 2 ^ 32
  if seq = s.ctl p 0xA0 / 2 ^ 32 then none
  else some (s.ctl p 0x80, BitVec.ofNat 64 (s.ctl p 0x88), BitVec.ofNat 64 (s.ctl p 0x90), seq)

/-- Nolmon reports an operation's status with its sequence (R416). -/
def State.mgmtDone (s : State) (p : Part) (seq status : Nat) : State := s.setCtl p 0xA0 (seq * 2 ^ 32 + status)

/-- A reserved bit of the block is set: 0x18[31:0], or 0x28 to 0x3F (R195, R401). -/
def State.mgmtReserved (s : State) (p : Part) : Bool :=
  s.ctl p 0x98 % 2 ^ 32 != 0 || [0xA8, 0xB0, 0xB8].any fun o => s.ctl p o != 0

/-- The core of the partition's rows that a `loc` names (R416). -/
def State.coreNamed (s : State) (p : Part) (l : Word) : Option Nat :=
  if l.toNat / 2 ^ 32 ≠ 0 then none else (s.coreOfLoc l.toNat).filter fun c => p.cores.contains c

/-- Performs the subject partition's outstanding operation if a test names it, once the partition is on its rows: one with a
reserved bit set is refused, any other gives its state and status (R376, R401, R416). [log 68 DESIGN CHOICE] -/
def mgmtOp (s : State) (mine : Nat → Word → Word → Bool) (f : State → Part → Word → Word → State × Nat) : Out :=
  match s.part? s.subject.part with
  | none => .next s
  | some p =>
    match s.mgmtRequest p with
    | none => .next s
    | some (op, a, b, seq) =>
      if !mine op a b ∨ !s.running p then .next s
      else if s.mgmtReserved p then .next (s.mgmtDone p seq 1)
      else
        let (s1, st) := f s p a b
        .next (s1.mgmtDone p seq st)

/-- Operation 1: XRESUME of a slot 0; an operation that the table does not know is refused (R401, R416). -/
def execMgmtSlot0Resume (s : State) : Out :=
  mgmtOp s (fun op _ _ => op = 1 ∨ op = 0 ∨ 6 < op) fun s p a _ =>
    if s.ctl p 0x80 ≠ 1 then (s, 1) else
    match s.coreNamed p a with
    | none => (s, 1)
    | some c =>
      match (s.slot c 0).thread? with
      | some t => if t.st = .trapped then (s.resumeThread c 0, 0) else (s, 2)
      | none => (s, 2)

/-- Operation 2: XKILL of a slot 0, whose supervisor thread restarts at the image's entry (R401). -/
def execMgmtSlot0Kill (s : State) : Out :=
  mgmtOp s (fun op _ _ => op = 2) fun s p a _ =>
    match s.coreNamed p a with
    | none => (s, 1)
    | some c =>
      match (s.slot c 0).thread? with
      | some _ => (s.restartSup p c, 0)
      | none => (s, 2)

/-! ### Resets -/

/-- The engine that reads an entry is held by a stage-2 failure (R193). -/
def State.entryHeld (s : State) (c : Nat) (q : LaunchQueue) (i : Nat) : Bool :=
  match (s.engineKey c ((q.base + 128 * (i % q.count)) % 2 ^ 64) .load).2 with
  | .error none => true
  | _ => false

/-- Entries between the indices that no dispatcher has read end with KILLED; one held by a stage-2 failure is still to be
read, and one that cannot be read, which names no record, is passed over (R193, R402). -/
def State.killUnread (s : State) (n : Nat) (q : LaunchQueue) : State :=
  ((List.range (min q.count (q.producer - q.consumer))).map fun j => q.consumer + j).foldl (fun s i =>
    match s.part? n with
    | some p =>
      if (p.launchAt i).isSome || p.endedIdx.contains i then s else
      match s.readEntry (p.lowCore 0) q i with
      | (s1, some w) => s1.modPart n fun p => p.addLaunch { Launch.fresh w i with ending := some 4 }
      | (s1, none) =>
        if s1.entryHeld (p.lowCore 0) q i then s1 else s1.modPart n fun p => { p with endedIdx := p.endedIdx ++ [i] }
    | none => s) s

/-- A launch queue reset begins: running launches and queued ones are to end with KILLED, and dispatching from the queue
stops (R402). [log 69 DEDUCED] -/
def State.resetQueue (s : State) (p : Part) (op seq : Nat) : State :=
  let n := p.cfg.part
  let s1 := (p.launches.filter fun l => l.placed != []).foldl (fun s l => s.killLaunch p l.id) s
  let s2 := s1.modPart n fun p =>
    { p with
      resetting := some (op, seq)
      launches := p.launches.map fun l => if l.ending.isNone then { l with ending := some 4 } else l }
  match s.launchQueue p with
  | none => s2
  | some q => (s2.killUnread n q).advance n

/-- The reset values of the mode table's fields, its sequences and STATUS, in the block (R326, R327). [log 69 DEDUCED] -/
def State.writeModeReset (s : State) (p : Part) : State :=
  let s1 := (s.setCtl p 0xC0 (14 * 2 ^ 16 + 2 ^ 27 + 2 ^ 28)).setCtl p 0xC8 0
  (List.range 4).foldl (fun s h => s.setCtl p (0xE0 + 8 * h) 0) (s1.setCtl p 0xD0 0)

/-- A thread that no session reaches any more: if STOPPED it goes on, or waits on for a reply to what it has sent (R51,
R406). -/
def Thread.released (t : Thread) : Thread :=
  if t.st = .stopped then { t with st := (match t.wait with | .none => .runnable | _ => .parked), stepping := none }
  else { t with stepping := none }

/-- The same in a context, with the engine that a gang stop holds. -/
def CoreCtx.released (x : CoreCtx) : CoreCtx :=
  { x with
    slots := x.slots.map fun w => match w with
      | .thread t => .thread t.released
      | w => w
    mx := { x.mx with stopped := false } }

/-- A partition's threads and engines, on its cores or in shadow storage, are let go (R386, R406). -/
def State.unhold (s : State) (p : Part) : State :=
  let n := p.cfg.part
  let s1 := p.cores.foldl (fun s c => s.modCore c fun x =>
    { x with
      c := if x.part = some n then x.c.released else x.c
      swapped := x.swapped.map fun w => if w.part = n then { w with t := w.t.released } else w }) s
  { s1 with shadow := s1.shadow.map fun e => if e.1 = n then (e.1, e.2.1, e.2.2.released) else e }

/-- Closes a partition's debug session: STOPPED threads become RUNNABLE (R406). -/
def State.endSession (s : State) (n : Nat) : State :=
  match s.part? n with
  | none => s
  | some p => (s.unhold p).modPart n fun p => { p with session := none }

/-- A maker-level grant has expired (R405, R406). -/
def State.makerOver (s : State) : Bool := s.mgmt.grants.any fun g => g.level == 2 && g.expiry ≤ s.rot

/-- Maker-level grants that have expired are gone; with the last the maker's session ends, for the partitions that have none
of their own (R406). -/
def State.endMaker (s : State) : State :=
  let gs := s.mgmt.grants.filter fun g => !(g.level == 2 && g.expiry ≤ s.rot)
  let s1 := { s with mgmt := { s.mgmt with grants := gs } }
  if gs.any fun g => g.level == 2 then s1
  else (s1.parts.filter fun e => e.2.session.isNone).foldl (fun s e => s.unhold e.2) s1

/-- What a partition reset does once its launch queue reset is over (R402, R406, R198, R319). [log 69 DEDUCED] -/
def State.resetPart (s : State) (p : Part) : State :=
  let n := p.cfg.part
  let s1 := ((s.applyMode p .reset).writeModeReset p).endSession n
  let s2 := p.clusters.foldl (fun s cl => s.modCluster cl fun q =>
    { q with
      hints := q.hints.filter fun h => !p.cfg.ways.getLsbD h.way
      sampler := q.sampler.filter fun x => x.part != n }) s1
  let s3 := { s2 with drained := s2.drained.filter fun e => e.1.part != n }.modPart n fun p =>
    { p with pairs := Vector.replicate 16 .reset }
  p.cores.foldl (fun s c => s.restartSup p c) s3

/-- The records of every launch that a reset ends are written, and no entry is left between the indices (R402, R416). -/
def State.resetOver (s : State) (p : Part) : Bool :=
  p.launches == [] && match s.launchQueue p with
    | some q => q.producer ≤ q.consumer
    | none => true

/-- Begins a reset, or completes one whose launches have all ended (R402, R407, R416). -/
def State.resetStep (s : State) (op : Nat) : State :=
  match s.part? s.subject.part with
  | none => s
  | some p =>
    match p.resetting with
    | some (o, seq) =>
      if o ≠ op then s
      else if !s.resetOver p then
        (match s.launchQueue p with
        | some q => (s.killUnread p.cfg.part q).advance p.cfg.part
        | none => s)
      else
      let s1 := s.flushTrace p.cfg.part (p.lowCore 0)
      let s2 := if op = 4 then s1.resetPart p else s1
      (s2.modPart p.cfg.part fun p =>
        { p with resetting := none, readIdx := Vector.replicate 8 (s.ctl p 0x58), endedIdx := [] }).mgmtDone p seq 0
    | none =>
      match s.mgmtRequest p with
      | some (o, _, _, seq) =>
        if o ≠ op ∨ !s.running p then s
        else if s.mgmtReserved p then s.mgmtDone p seq 1
        else s.resetQueue p op seq
      | none => s

/-- Operation 3: a launch queue reset (R402). -/
def execLaunchQueueReset (s : State) : Out := .next (s.resetStep 3)

/-- Operation 4: a partition reset (R402). -/
def execPartitionReset (s : State) : Out := .next (s.resetStep 4)

/-! ### The debug session -/

/-- A level 1 grant in force for a partition (R405, R416). -/
def State.grantFor (s : State) (n : Nat) : Option Grant :=
  s.mgmt.grants.find? fun g => g.level == 1 && g.part == n && s.rot < g.expiry

/-- Operation 5 opens a session; one whose operands lie outside its limits is refused (R401, R416). [log 68 DESIGN CHOICE]
-/
def execDebugSessionOpen (s : State) : Out :=
  mgmtOp s (fun op a b => op = 5 ∧ (Config.sessionOp a b = 0 ∨ 2 < Config.sessionOp a b)) fun s p a b =>
    if 2 < Config.sessionOp a b then (s, 1) else
    match s.grantFor p.cfg.part with
    | none => (s, 3)
    | some g => (s.modPart p.cfg.part fun p => { p with session := some ⟨g.expiry, 1, false, 0⟩ }, 0)

/-- Operation 5 closes the session (R401, R406). -/
def execDebugSessionClose (s : State) : Out :=
  mgmtOp s (fun op a b => op = 5 ∧ Config.sessionOp a b = 1) fun s p _ _ =>
    if p.session.isNone then (s, 2) else (s.endSession p.cfg.part, 0)

/-- A STOPPED thread is to issue one instruction, or to run to a point at which it is idle, and then to stop again
(R183, R406). -/
def State.stepThread (s : State) (c : Nat) (k : SlotN) (idle : Bool) : State × Bool :=
  match (s.slot c k).thread? with
  | some t =>
    if t.st = .stopped then
      (s.modThr c k fun t =>
        { t with st := (match t.wait with | .none => .runnable | _ => .parked), stepping := some idle
                 resumedAt := (s.core c).cycle }, true)
    else (s, false)
  | none => (s, false)

/-- The slot of a `loc`. -/
def slotOfLoc (l : Word) : SlotN := ⟨l.toNat % 8, Nat.mod_lt _ (by decide)⟩

/-- Operation 5 steps a thread of the session (R401, R406). -/
def execDebugSessionStep (s : State) : Out :=
  mgmtOp s (fun op a b => op = 5 ∧ Config.sessionOp a b = 2) fun s p a b =>
    if p.session.isNone then (s, 2) else
    let l := Config.sessionThread a b
    match s.coreNamed p l with
    | none => (s, 1)
    | some c =>
      let (s1, ok) := s.stepThread c (s.home c (slotOfLoc l)) false
      (s1, if ok then 0 else 2)

/-- Operation 6 reads or sets an event counter select, through an open session; a select that is read is left in the second
operand (R358, R401). [log 68 DESIGN CHOICE] -/
def execEventCounterSelect (s : State) : Out :=
  mgmtOp s (fun op _ _ => op = 6) fun s p a b =>
    let i := Config.counterIndex a b
    match s.coreNamed p (Config.counterCore a b) with
    | none => (s, 1)
    | some c =>
      if p.session.isNone ∧ i < 4 then (s, 2)
      else if h : i < 4 then
        match Config.counterSet a b with
        | some v => (s.modCore c fun x => { x with evSel := x.evSel.set i v }, 0)
        | none => (s.setCtl p 0x90 ((s.core c).evSel[i]).toNat, 0)
      else (s, 1)

end Sys2Proof.Machine
end

