-- ==== Sys2Proof/Machine/HostPorts.lean ====
section
/-! DEFINITION. HostPorts.lean: the host interface, CXL and the Ultra Ethernet ports (R388 to R395, R410). -/

namespace Sys2Proof.Machine

/-! ### Intermediate memory -/

/-- Pages that n bytes can meet at most. -/
def pageFuel (n : Nat) : Nat := n / 2 ^ 16 + 2

/-- Reads bytes at an intermediate address of a partition, page by page, stage 2 only; none at a stage-2 failure (R388). -/
def State.ipaReadAll (s : State) (p : Part) (ipa n : Nat) : Nat → Option (List Byte)
  | 0 => some []
  | f + 1 =>
    if n = 0 then some [] else
    let m := min n (2 ^ 16 - ipa % 2 ^ 16)
    (s.ipaAddr p ipa false).bind fun a => (s.ipaReadAll p (ipa + m) (n - m) f).map fun bs => s.bytes a m ++ bs

/-! ### The host -/

/-- Bytes of a virtual function's BAR (R388). -/
def barBytes : Nat := 2 ^ 40

/-- A stage-2 fault on a host access: Completer Abort, reported to Nolmon (R388). [log 70 DEDUCED] -/
def State.abort (s : State) (n a : Nat) : State := { s with mgmt := { s.mgmt with aborts := s.mgmt.aborts ++ [(n, a)] } }

/-- The host writes the subject's bytes at an offset of the BAR of the subject partition's function: an engine write that
enters commit order (R388, R389). -/
def execHostWrite (s : State) : Out :=
  let u := s.subject
  match s.part? u.part with
  | none => .next s
  | some p =>
    if barBytes < u.addr + u.bytes.length then .next s else
    match s.ipaWriteAll p u.addr u.bytes (pageFuel u.bytes.length) with
    | some s1 => .next s1
    | none => .next (s.abort u.part u.addr)

/-- The host reads the subject's number of bytes: committed chunks only, which alone are in memory (R388, R389). -/
def execHostRead (s : State) : Out :=
  let u := s.subject
  match s.part? u.part with
  | none => .next s
  | some p =>
    if barBytes < u.addr + u.num then .next s else
    match s.ipaReadAll p u.addr u.num (pageFuel u.num) with
    | some bs => .next { s with hostRead := bs }
    | none => .next (s.abort u.part u.addr)

/-- The host reads or writes the part of the second tier that is its own: the subject's address is one of that range, its
flag a write (R390). -/
def execCxlMemAccess (s : State) : Out :=
  let u := s.subject
  let (lo, n) := s.mgmt.cxl
  if u.flag then
    if u.addr + u.bytes.length ≤ n then .next (s.poke (lo + u.addr) u.bytes) else .next s
  else if u.addr + u.num ≤ n then .next { s with hostRead := s.bytes (lo + u.addr) u.num } else .next s

/-! ### Port control -/

/-- Offset of a port's control entry (R393). -/
def portCtl (i : Nat) : Nat := 0x200 + 64 * i

/-- The fields of a port's control entry (R393). -/
def State.portFields (s : State) (p : Part) (i : Nat) : PortCfg :=
  let w (j : Nat) : Nat := s.ctl p (portCtl i + 8 * j)
  ⟨w 0 / 64 * 64, (w 0).testBit 0, w 1 / 64 * 64, (w 1).testBit 0, w 2 % 2 ^ 32, w 2 / 2 ^ 32⟩

/-- STATUS of a port request (R393). -/
def State.portStatus (s : State) (p : Part) (i : Nat) : Nat :=
  let w (j : Nat) : Nat := s.ctl p (portCtl i + 8 * j)
  let g := s.portFields p i
  if bits (w 0) 1 5 ≠ 0 ∨ bits (w 1) 1 5 ≠ 0 ∨ w 3 % 2 ^ 32 ≠ 0 ∨ w 5 ≠ 0 ∨ w 6 ≠ 0 ∨ w 7 ≠ 0 ∨ 4096 < g.nsq ∨ 4096 < g.nrq then 1
  else match p.cfg.ueGrant.find? fun e => e.1 == i with
    | none => 2
    | some e => if e.2.1 < g.nsq ∨ e.2.2 < g.nrq then 3 else 0

/-- Some channel of the partition has begun a message for the port and not sent it. -/
def State.sendingOn (s : State) (p : Part) (i : Nat) : Bool :=
  p.clusters.any fun cl => (s.cluster cl).chans.toList.any fun h => match h.job with
    | some j => j.toPort && j.dst.toNat % 8 == i && 0 < h.pos && !j.whole h.pos
    | none => false

/-- A port request of the subject's partition, for the port its index names, is checked and applied whole, or not at all
(R393). -/
def execPortControlRequest (s : State) : Out :=
  let u := s.subject
  match s.part? u.part with
  | none => .next s
  | some p =>
    if h : u.idx < 8 then
      let seq := s.ctl p (portCtl u.idx + 0x18) / 2 ^ 32
      if seq = s.ctl p (portCtl u.idx + 0x20) / 2 ^ 32 ∨ s.sendingOn p u.idx then .next s else
      let st := s.portStatus p u.idx
      let s1 := if st = 0 then s.modPart u.part fun q => { q with ports := q.ports.set u.idx (s.portFields p u.idx) } else s
      .next (s1.setCtl p (portCtl u.idx + 0x20) (seq * 2 ^ 32 + st))
    else .next s

/-! ### Messages that arrive -/

/-- The first core of a partition's rows, by which its ports report. -/
def Part.firstCore (p : Part) : Nat := (p.cores.headD 0)

/-- A receive queue as its entry gives it (R395). -/
structure RecvQueue where
  base : Nat
  blog : Nat
  nblog : Nat
  clog : Nat
  cbase : Nat
  posted : Nat
  consumed : Nat
  taken : Nat
  compl : Nat
  refused : Nat
  deriving DecidableEq, Repr

/-- Reads the entry of a receive queue; none if it is not enabled, or no queue by R395's limits. -/
def State.recvQueue (s : State) (p : Part) (e : Nat) : Option RecvQueue :=
  (s.ipaReadAll p e 64 2).bind fun bs =>
    let w (j : Nat) : Nat := leNat ((bs.drop (8 * j)).take 8)
    let q : RecvQueue := ⟨w 0 / 64 * 64, w 0 % 32, bits (w 1) 8 8, w 1 % 256, w 2 / 64 * 64, w 3 / 2 ^ 32, w 4 / 2 ^ 32, w 5 / 2 ^ 32,
      w 5 % 2 ^ 32, w 6⟩
    if (w 2).testBit 0 ∧ 6 ≤ q.blog ∧ q.blog ≤ 20 ∧ 4 ≤ q.nblog ∧ q.nblog ≤ 16 ∧ 4 ≤ q.clog ∧ q.clog ≤ 16 then some q else none

/-- Buffers that a message needs (R395). -/
def RecvQueue.need (q : RecvQueue) (len : Nat) : Nat := max 1 ((len + 2 ^ q.blog - 1) / 2 ^ q.blog)

/-- The queue has buffers and a completion entry for a message (R395). -/
def RecvQueue.accepts (q : RecvQueue) (len : Nat) : Bool :=
  q.need len ≤ (q.posted + 2 ^ 32 - q.taken) % 2 ^ 32 && (q.compl + 2 ^ 32 - q.consumed) % 2 ^ 32 < 2 ^ q.clog

/-- Fills buffers in order (R395). -/
def State.fillBuffers (s : State) (p : Part) (q : RecvQueue) : Nat → Nat → List Byte → Option State
  | 0, _, _ => some s
  | f + 1, i, bs =>
    (s.ipaWriteAll p (q.base + 2 ^ q.blog * (i % 2 ^ q.nblog)) (bs.take (2 ^ q.blog)) (pageFuel (2 ^ q.blog))).bind fun s1 =>
      s1.fillBuffers p q f (i + 1) (bs.drop (2 ^ q.blog))

/-- Takes a message: buffers, TAKEN, the completion entry with its doubleword at 0x08 last, and COMPL (R395). [log 69
DEDUCED] -/
def State.takeMessage (s : State) (p : Part) (e : Nat) (q : RecvQueue) (job : Word) (sq from_ : Nat) (bs : List Byte) : Option State :=
  let k := q.need bs.length
  let c := q.cbase + 32 * (q.compl % 2 ^ q.clog)
  let phase := if q.compl / 2 ^ q.clog % 2 = 0 then 2 ^ 63 else 0
  if !s.mayStamp 0 6 then none else
  let (v, x) := s.mgmt.stamps.draw s.rot
  let taken := (q.taken + k) % 2 ^ 32 * 2 ^ 32
  (s.fillBuffers p q k q.taken bs).bind fun s1 =>
  (s1.ipaWrite p (e + 0x28) (leBytes 8 (taken + q.compl))).bind fun s2 =>
  (s2.ipaWrite p c (leBytes 8 v.toNat)).bind fun s3 =>
  (s3.ipaWrite p (c + 0x10) (leBytes 8 from_ ++ leBytes 8 (sq % 2 ^ 16 * 2 ^ 32 + job.toNat % 2 ^ 32))).bind fun s4 =>
  (s4.ipaWrite p (c + 8) (leBytes 8 (phase + q.taken % 2 ^ 16 * 2 ^ 32 + bs.length % 2 ^ 32))).bind fun s5 =>
  (s5.ipaWrite p (e + 0x28) (leBytes 8 (taken + (q.compl + 1) % 2 ^ 32))).map fun s6 =>
    { s6 with mgmt := { s6.mgmt with stamps := x } }

/-- What a message of n bytes touches of a partition's intermediate memory: the queue's entry, its buffers, its completion
entry (R395). -/
def RecvQueue.pieces (q : RecvQueue) (e n : Nat) : List (Nat × Nat) :=
  (e, 64) :: (q.cbase + 32 * (q.compl % 2 ^ q.clog), 32) ::
  (List.range (q.need n)).map fun i => (q.base + 2 ^ q.blog * ((q.taken + i) % 2 ^ q.nblog), min (2 ^ q.blog) (n - i * 2 ^ q.blog))

/-- A message arrives on the port that the subject's index names: job ID `val`, receive queue `num`, sender's send queue
`row` and fabric address `addr`. It is steered to the partition of its job, taken, or refused; a stage-2 failure on what it
touches is reported to Nolmon, and the message stays with the transport, which brings it again (R193, R388, R391, R393,
R395). [log 70 DEDUCED] -/
def execUeMessageReceive (s : State) : Out :=
  let u := s.subject
  match s.parts.find? fun e => e.2.cfg.jobs.contains (u.val.setWidth 32) with
  | none => .next s
  | some (_, p) =>
    let g := p.ports.toList.getD u.idx ⟨0, false, 0, false, 0, 0⟩
    if !g.ren ∨ g.nrq ≤ u.num then .next s else
    let e := g.rbase + 64 * u.num
    let report (f : Nat × Trap) : State := s.ipaReport p.firstCore p f
    match s.ipaStop p e 64 true with
    | some f => .next (report f)
    | none =>
    match s.recvQueue p e with
    | none => .next s
    | some q =>
      match if q.accepts u.bytes.length then (q.pieces e u.bytes.length).findSome? fun x => s.ipaStop p x.1 x.2 true else none with
      | some f => .next (report f)
      | none =>
      if q.accepts u.bytes.length then .next ((s.takeMessage p e q u.val u.row u.addr u.bytes).getD s)
      else .next ((s.ipaWrite p (e + 0x30) (leBytes 8 (q.refused + 1))).getD s)

/-- The transport cannot deliver a message of the subject's partition, port and send queue: an error record, and EN of the
send queue is cleared; a stage-2 failure on the entry is reported to Nolmon, and the transport reports again (R393, R394,
R410). [log 70 DEDUCED] -/
def execUeDeliveryFailure (s : State) : Out :=
  let u := s.subject
  match s.part? u.part with
  | none => .next s
  | some p =>
    let g := p.ports.toList.getD u.idx ⟨0, false, 0, false, 0, 0⟩
    let e := g.sbase + 32 * u.num + 0x10
    match s.ipaStop p e 8 true with
    | some f => .next (s.ipaReport p.firstCore p f)
    | none =>
    let s1 := s.logError 4 u.idx u.num 1 none
    match s1.ipaRead p e 8 with
    | some w => .next ((s1.ipaWrite p e (leBytes 8 (w / 2 * 2))).getD s1)
    | none => .next s1

end Sys2Proof.Machine
end

