-- ==== Sys2Proof/Machine/Partitions.lean ====
section
/-! DEFINITION. Partitions.lean: boot, domains and links, partition creation and switching (R386, R387, R396 to R399, R410). -/

namespace Sys2Proof.Machine

/-! ### Boot -/

/-- The budget table as Nolmon writes it at boot, each field within its values (R325). [log 73 DEDUCED] -/
def bootBudgets : Vector Budget 7 :=
  Vector.ofFn fun i => let (p, b, r, a) := Config.bootBudget i
                       ⟨10 + p % 21, b, r % 4, a % 2, 0, 0, 0⟩

/-- The Nolmon image that boot reads verifies under Relarn's key (R398). [log 73 DEDUCED; 122 DESIGN CHOICE] -/
def nolmonVerifies (bs : List Byte) : Bool := imageVerifies Config.relarnKey (Config.imageParts bs).1 (Config.imageParts bs).2

/-- The host's range: whole units of 1 GiB of the second tier, which ends with the physical addresses; none if it lies
elsewhere (R189, R390). -/
def hdmRange (a n : Nat) : Nat × Nat :=
  if a % 2 ^ 30 = 0 ∧ n % 2 ^ 30 = 0 ∧ 2 ^ 44 ≤ a ∧ a + n ≤ 2 ^ 44 + 3 * 2 ^ 39 then (a, n) else (0, 0)

/-- Module reset, and boot: Anvil verifies the Nolmon image, the subject's bytes, and records its digest as measurement 1;
it starts an image that verifies, and else the module stays in reset. The subject's address and number are the host's range
of the second tier (R390, R398). [log 73 DEDUCED] -/
def execModuleReset (s : State) : Out :=
  let u := s.subject
  let s1 : State := { State.reset with subject := u, inputs := s.inputs, choices := s.choices, moves := s.moves, freeN := s.freeN }
  let s2 := { s1 with mgmt := { s1.mgmt with digest := sha3 (Config.imageParts u.bytes).1 } }
  if nolmonVerifies u.bytes then
    .next { s2 with mgmt := { s2.mgmt with booted := true, budgets := bootBudgets, cxl := hdmRange u.addr u.num } }
  else .next s2

/-! ### Domains and links -/

/-- Nolmon forms a domain: domain number `val`, this module's number, module time `addr`, and the peer on each of ports 0 to
6, one to each other module, by the subject's bytes; links that are not so form no domain. With the flag set it gives a page
of the domain its home: frame `addr`, module `num` (R396, R397, R199). [log 71 DEDUCED] -/
def execDomainFormation (s : State) : Out :=
  let u := s.subject
  if u.flag then .next { s with shHome := s.shHome.set u.addr u.num }
  else
    let links := Vector.ofFn fun (i : Fin 8) =>
      match u.bytes[i.val]? with
      | some b => if i.val < 7 ∧ b.toNat < 8 then ⟨true, some b.toNat, 0⟩ else ⟨true, none, 0⟩
      | none => (⟨true, none, 0⟩ : LinkPort)
    let peers := (links.toList.take 7).filterMap (·.peer)
    if peers.eraseDups ≠ peers ∨ peers.contains (u.num % 8) then .next s else
    .next { s with
      domain := u.val.setWidth 14, modnum := ⟨u.num % 8, Nat.mod_lt _ (by decide)⟩, inDomain := true
      timeBase := (u.addr + 2 ^ 48 - s.clock / 8 % 2 ^ 48) % 2 ^ 48
      mgmt := { s.mgmt with links := links, lost := [], moving := [] } }

/-- Traffic on Henrok Link brings module time, when it is more than 2 rots behind the subject's, up to it (R356, R396). [log
72 DEDUCED] -/
def execTimeSynchronisation (s : State) : Out :=
  let t := s.subject.addr % 2 ^ 48
  if s.inDomain ∧ s.rot + 2 < t then .next { s with timeBase := s.timeBase + (t - s.rot) } else .next s

/-- A module leaves the domain: its links are out of service, and it is reported to the host (R397, R410). [log 71 DEDUCED]
-/
def State.removeModule (s : State) (m : Nat) : State :=
  { s with
    shDir := s.shDir.map fun e => (e.1, e.2.1, e.2.2.filter fun x => x != m)
    mgmt := { s.mgmt with
      lost := addLine s.mgmt.lost m, moving := s.mgmt.moving.filter fun e => e.1 != m
      links := s.mgmt.links.map fun l => if l.peer = some m then ⟨false, none, l.resent⟩ else l
      reported := s.mgmt.reported ++ [(m, 8)] } }

/-- The move of a peer onto port 7 is over: the traffic that was in flight has been replayed (R397). -/
def State.endMove (s : State) : State :=
  match s.mgmt.moving with
  | (m, n, _) :: ms =>
    { s with mgmt := { s.mgmt with links := s.mgmt.links.set 7 ⟨true, some m, (s.mgmt.links[7]).resent + n⟩, moving := ms } }
  | [] => s

/-- A move has lasted its 1 ms (R397). -/
def State.moveDue (s : State) : Bool := s.mgmt.moving.any fun e => e.2.2 + msPeriods ≤ s.clock

/-- The subject's mesh port fails: its peer begins to move onto port 7, with the subject's number of flits in flight; a
second failure to the same peer, or one with no spare port, removes the module. With the flag the move in progress ends
(R397, R410). [log 71 DEDUCED] -/
def execLinkPortFailure (s : State) : Out :=
  let u := s.subject
  if u.flag then .next s.endMove else
  if h : u.idx < 8 then
    match (s.mgmt.links[u.idx]).peer with
    | none => .next s
    | some m =>
      let spare := s.mgmt.links[7]
      let s1 := { s with mgmt := { s.mgmt with reported := s.mgmt.reported ++ [(m, u.idx)] } }.logError 3 u.idx m 1 none
      let off : LinkPort := ⟨false, none, 0⟩
      if u.idx < 7 ∧ spare.up ∧ spare.peer.isNone ∧ s.mgmt.moving = [] then
        .next { s1 with mgmt := { s1.mgmt with links := s1.mgmt.links.set u.idx off, moving := [(m, u.num, s.clock)] } }
      else .next (s1.removeModule m)
  else .next s

/-- The subject's module is lost (R397, R410). -/
def execModuleLoss (s : State) : Out :=
  if !s.inDomain ∨ s.subject.num = s.modnum.val then .next s else .next (s.removeModule s.subject.num)

/-- A link error on the subject's port, which has a peer: flits are sent again from the replay buffer, and a record is
logged (R21, R397, R410). -/
def execLinkRetransmission (s : State) : Out :=
  let u := s.subject
  if h : u.idx < 8 then
    let l := s.mgmt.links[u.idx]
    if !l.up ∨ l.peer.isNone then .next s else
    let links := s.mgmt.links.set u.idx { l with resent := l.resent + u.num }
    .next ({ s with mgmt := { s.mgmt with links := links } }.logError 2 u.idx u.idx u.num none)
  else .next s

/-! ### Creation -/

/-- Partitions that own some of a configuration's rows. -/
def State.sharers (s : State) (c : PartCfg) : List Part :=
  (s.parts.map (·.2)).filter fun p => p.cfg.rows.any fun r => c.rows.contains r

/-- Byte ranges [a, a + n) and [b, b + m) are apart. -/
def apart (a n b m : Nat) : Bool := a + n ≤ b || b + m ≤ a || n == 0 || m == 0

/-- Nolmon may create a partition so: whole rows that are powered, at most four partitions per row, and shares, allotments
and way masks disjoint from those of the partitions that share its rows or its dies (R186, R314, R388, R399, R400). [log 74
DEDUCED] -/
def State.creatable (s : State) (c : PartCfg) : Bool :=
  s.mgmt.booted && (s.part? c.part).isNone && s.parts.length < 16 && c.rows != [] && c.ctlPage % 2 ^ 16 == 0 && c.ctxArea % 2 ^ 16 == 0 &&
  c.rows.all (fun r => r.1 < 8 && r.2 < 32 && !s.mgmt.rowsOff.contains r &&
    ((s.parts.filter fun e => e.2.cfg.rows.contains r).length < 4)) &&
  c.spadBase + c.spadBytes ≤ Config.spadBytes && c.slate.all (fun e => e.1 < 8 && e.2.1 + e.2.2 ≤ Config.slateBytes) &&
  c.spadBase % 2 ^ 15 == 0 && c.spadBytes % 2 ^ 15 == 0 && c.slate.all (fun e => e.2.1 % 2 ^ 20 == 0 && e.2.2 % 2 ^ 20 == 0) &&
  (s.sharers c).all (fun p =>
    apart c.spadBase c.spadBytes p.cfg.spadBase p.cfg.spadBytes && c.ways &&& p.cfg.ways == 0 && !(c.lanes && p.cfg.lanes)) &&
  ((s.sharers c) == [] || (c.quantum :: (s.sharers c).map fun p => p.cfg.quantum).all fun q => 1 ≤ q && q ≤ 1000) &&
  s.parts.all fun e => (c.slate.all fun x => e.2.cfg.slate.all fun y => x.1 != y.1 || apart x.2.1 x.2.2 y.2.1 y.2.2) &&
    c.jobs.all fun j => !e.2.cfg.jobs.contains j

/-- Nolmon gives a partition another way mask, disjoint from those of the partitions that share its rows; the ways it takes
away are invalidated before (R314, R319). -/
def State.reassignWays (s : State) (n : Nat) (w : BitVec 8) : State :=
  match s.part? n with
  | none => s
  | some p =>
    if (s.sharers p.cfg).all fun q => q.cfg.part == n || w &&& q.cfg.ways == 0 then
      let gone := p.cfg.ways &&& ~~~w
      let s1 := p.cfg.rows.flatMap (fun r => [r.1 * 64 + r.2 * 2, r.1 * 64 + r.2 * 2 + 1]) |>.foldl (fun s cl =>
        s.modCluster cl fun q => { q with hints := q.hints.filter fun h => !gone.getLsbD h.way }) s
      s1.modPart n fun p => { p with cfg := { p.cfg with ways := w } }
    else s

/-- A core's context as a partition first finds it: its image in slots 0 and 1 (R54, R398). [log 75 DEDUCED] -/
def State.firstCtx (s : State) (p : Part) (c : Nat) : State × CoreCtx :=
  if !p.cfg.imageOk then (s, .reset) else
  let n := s.nextSerial c
  let s1 := s.modCore c fun x => { x with lastSerial := n }
  let m := s1.nextSerial c
  let now := (s.core c).cycle
  let t (k : SlotN) (n : Nat) : Slot := .thread { p.imageThread k with serial := n, resumedAt := now }
  (s1.modCore c fun x => { x with lastSerial := m },
   { CoreCtx.reset with slots := (CoreCtx.reset.slots.set 0 (t 0 n)).set 1 (t 1 m) })

/-- The context goes to its core, or to the die's shadow storage (R386, R398). [log 74 DEDUCED] -/
def State.startCore (s : State) (p : Part) (free : Bool) (c : Nat) : State :=
  let (s1, x) := s.firstCtx p c
  if free then s1.modCore c fun k => { k with c := x, part := some p.cfg.part }
  else { s1 with shadow := s1.shadow ++ [(p.cfg.part, c, x)] }

/-- A key lies in the partition's scratchpad shares or Slate allotments (R186). -/
def Part.holdsKey (p : Part) (key : Nat) : Bool :=
  p.cores.any (fun c => spadKey c p.cfg.spadBase ≤ key && key < spadKey c p.cfg.spadBase + p.cfg.spadBytes) ||
  p.cfg.slate.any fun e => slateKey e.1 e.2.1 ≤ key && key < slateKey e.1 e.2.1 + e.2.2

/-- Nolmon creates the partition of the subject's configuration, its full/empty bits empty (R187), measures its image, and
starts the image if it verifies, on a share of the management cores and on its cores, the latter at its first switch if a
partition holds one of them (R386, R398, R399). [log 74 DEDUCED] -/
def execPartitionCreate (s : State) : Out :=
  match s.subject.cfg with
  | none => .next s
  | some c =>
    if !s.creatable c then .next s else
    let p := { Part.create c with sliceStart := s.clock, msStart := s.clock }
    let p1 := { p with s1root := s.ctl p 0 }
    let s1 := { s with
      parts := s.parts.set c.part p1, full := s.full.filter fun key => !p1.holdsKey key
      mgmt := { s.mgmt with
        measured := s.mgmt.measured ++ [(c.part, sha3 c.image)]
        images := if c.imageOk then s.mgmt.images ++ [c.part] else s.mgmt.images } }
    let free := p1.cores.all fun d => (s.core d).part.isNone
    let s2 := (if free then s1.fullClock p1 else s1).writeModeReset p1
    .next (p1.cores.foldl (fun s d => s.startCore p1 free d) s2)

/-! ### Switching -/

/-- Rows of a partition are shared in time (R399). -/
def State.sharesRows (s : State) (p : Part) : Bool := (s.sharers p.cfg).any fun q => q.cfg.part != p.cfg.part

/-- The subject partition's quantum has ended. -/
def State.sliceOver (s : State) (p : Part) : Bool :=
  s.running p && s.sharesRows p && !p.switchAsked && p.sliceStart + p.cfg.quantum * msPeriods ≤ s.clock

/-- The quantum of the subject's partition ends, or with the flag its management requests ask for a switch: every slot of
its cores stops issuing after its current turn (R386, R399). [log 76 DEDUCED] -/
def execTimeSliceExpiry (s : State) : Out :=
  match s.part? s.subject.part with
  | none => .next s
  | some p =>
    if !s.sliceOver p ∧ !(s.subject.flag ∧ s.running p ∧ s.sharesRows p ∧ !p.switchAsked) then .next s else
    .next (p.cores.foldl (fun s c => s.modCore c fun x => { x with halted := true })
      (s.modPart p.cfg.part fun p => { p with switchAsked := true }))

/-- The reply to a request that the thread has sent is still awaited (R386). -/
def Thread.awaiting (t : Thread) : Bool :=
  match t.st, t.wait with
  | .parked, .reply due _ _ => due != noDue
  | .stopped, .reply due _ _ => due != noDue
  | _, _ => false

/-- A posted operation that ends in a context of its partition: a push, a put, or a message that has left its buffer (R281,
R387). [log 76 DEDUCED] -/
def State.toCtx (s : State) (o : POp) : Bool :=
  match o with
  | .push _ _ _ => true
  | .mbx _ _ _ => true
  | .msg m => s.departed m
  | _ => false

/-- A copy channel stands inside a row (R386). -/
def State.inRow (s : State) (cl : Nat) (ch : Fin 8) : Bool :=
  match ((s.cluster cl).chans[ch]).job with
  | some j => !j.toPort && ((s.cluster cl).chans[ch]).pos % j.rowBytes != 0
  | none => false

/-- An engine has still to come to its boundary: a ray inside a leaf, or a channel of the core's cluster inside a row; one
that has faulted, or that a lock of a halted thread may hold, stands where it is (R386). -/
def State.underway (s : State) (c : Nat) : Bool :=
  let locked := (List.range 8).any fun i => (s.core (clusterOf c * 8 + i)).c.lock.isSome
  !locked && ((s.core c).c.tv.rays.any (fun r => r.status == 1 && r.prims != []) ||
    (List.finRange 8).any fun ch => s.inRow (clusterOf c) ch && !((s.cluster (clusterOf c)).chans[ch]).fault)

/-- A halted core's threads have no strip and no reply outstanding, its engines stand at their boundaries, and nothing is on
its way that ends in a context. Operations on memory travel on, and their acknowledgements come to the saved context, unless
their thread is gone (R386, R387). [log 76 DEDUCED] -/
def State.haltDone (s : State) (c : Nat) : Bool :=
  let x := s.core c
  x.halted && x.wait == 0 && !s.underway c && x.threads.all (fun e => e.2.vq == [] && !e.2.awaiting) &&
  !s.signals.any (fun g => g.core == c) && !s.samplerReqs.any (fun q => q.1.core == c) && !s.unstamped.any (fun e => e.core == c) &&
  !s.acks.any (fun a => a.dst.core == c && !s.serialHeld c a.dst.serial) &&
  !s.posted.any fun p => p.src.core == c && (s.toCtx p.op || !s.serialHeld c p.src.serial)

/-- A core may change partitions: none holds it, or all the cores of the one that does are halted (R386). [log 76 DEDUCED]
-/
def State.switchable (s : State) (c : Nat) : Bool :=
  match (s.core c).part with
  | none => true
  | some n => match s.part? n with
    | some q => q.cores.all s.haltDone
    | none => s.haltDone c

/-- Halts one thread: its chunk commits and its wait is withdrawn (R386). -/
def State.haltThread (s : State) (c : Nat) (k : SlotN) : State :=
  match (s.slot c k).thread? with
  | none => s
  | some _ =>
    let s1 := (s.commit c k).1
    let s2 := s1.withdraw c k
    s2.modThr c k fun t => match t.wait with
      | .reply _ _ _ => t
      | _ => t.withdrawn (s.core c).cycle

/-- Halts the threads of a core (R386). -/
def State.haltCore (s : State) (c : Nat) : State := (List.finRange 8).foldl (fun s k => s.haltThread c k) s

/-- Saves the context of a core, whose threads are halted (R386). -/
def State.saveCore (s : State) (c : Nat) : State :=
  match (s.core c).part with
  | none => s
  | some n =>
    { s with shadow := (n, c, (s.core c).c) :: s.shadow.filter fun e => !(e.1 == n && e.2.1 == c) }.modCore c fun k =>
      { k with c := .reset, part := none, halted := false }

/-- Restores the context of a partition on a core; its threads issue from the next turn on (R386). -/
def State.loadCore (s : State) (n c : Nat) : State :=
  let x := match s.shadow.find? fun e => e.1 == n && e.2.1 == c with
    | some e => e.2.2
    | none => .reset
  let now := (s.core c).cycle
  let slot (w : Slot) : Slot := match w with
    | .thread t => .thread { t with resumedAt := now }
    | y => y
  ({ s with shadow := s.shadow.filter fun e => !(e.1 == n && e.2.1 == c) }).modCore c fun k =>
    { k with c := { x with slots := x.slots.map slot }, part := some n, halted := false }

/-- What a switch saves of a cluster; TLB, sampler cache, hint table and stamp sources stay (R386). -/
def Cluster.loaded (here saved : Cluster) : Cluster :=
  { here with cq := saved.cq, area := saved.area, jobs := saved.jobs, rr := saved.rr, chans := saved.chans, tongs := saved.tongs }

/-- Saves a cluster of a partition (R386). -/
def State.saveCluster (s : State) (n cl : Nat) : State :=
  ({ s with shadowCl := (n, cl, s.cluster cl) :: s.shadowCl.filter fun e => !(e.1 == n && e.2.1 == cl) }).modCluster cl fun q =>
    q.loaded .reset

/-- Loads a cluster of a partition (R386). -/
def State.loadCluster (s : State) (n cl : Nat) : State :=
  match s.shadowCl.find? fun e => e.1 == n && e.2.1 == cl with
  | some e => ({ s with shadowCl := s.shadowCl.filter fun e => !(e.1 == n && e.2.1 == cl) }).modCluster cl fun q => q.loaded e.2.2
  | none => s

/-- The partitions that leave when the rows of one are switched to it: those that hold some of its cores (R386). -/
def State.leaving (s : State) (p : Part) : List Part :=
  ((p.cores.filterMap fun c => (s.core c).part).eraseDups).filterMap s.part?

/-- A partition leaves its cores: its threads halted, its contexts and its clusters saved (R386). [log 76 DEDUCED] -/
def State.leave (s : State) (p : Part) : State :=
  let s1 := p.cores.foldl State.saveCore (p.cores.foldl State.haltCore s)
  p.clusters.foldl (fun s cl => s.saveCluster p.cfg.part cl) s1

/-- Nolmon switches the rows of the subject's partition to it: each partition that holds some of them, halted, is saved
exactly, and this one restored, under its own policy. Each is charged its part of the work (R360, R386, R387, R403). [log 76
DEDUCED] -/
def execPartitionSwitch (s : State) : Out :=
  match s.part? s.subject.part with
  | none => .next s
  | some p =>
    let n := p.cfg.part
    if s.running p ∨ !p.cores.all s.switchable then .next s else
    let olds := s.leaving p
    let s1 := olds.foldl State.leave s
    let s2 := p.clusters.foldl (fun s cl => s.loadCluster n cl) s1
    let s3 := (p.cores.foldl (fun s c => s.loadCore n c) s2).fullClock p
    let s4 := olds.foldl (fun s o => (s.act 6 (some o.cfg.part)).modPart o.cfg.part fun q => { q with switchAsked := false }) s3
    .next ((s4.act 6 (some n)).modPart n fun q => { q with sliceStart := s.clock })

end Sys2Proof.Machine
end

