-- ==== Sys2Proof/Machine/Power.lean ====
section
/-! DEFINITION. Power.lean: what Bellows does for temperature, power and idleness, and the budgeted activities (R28, R79, R319,
R325, R360, R403, R404). -/

namespace Sys2Proof.Machine

/-- The subject's die reaches 105 °C: Bellows removes slots from now on (R403). -/
def execThermalLimit (s : State) : Out := .next (s.modDie s.subject.die fun x => { x with hot := true })

/-- The subject's die falls below 100 °C (R403). -/
def execThermalRecovery (s : State) : Out := .next (s.modDie s.subject.die fun x => { x with hot := false })

/-- Policy of the partition that runs on a core. -/
def State.policy (s : State) (c : Nat) : Nat := match s.partOf c with
  | some p => p.mode.bpol
  | none => 0

/-- The cores of a row. -/
def coresOfRow (d r : Nat) : List Nat := (List.range 16).map fun q => d * 512 + r * 16 + q

/-- The present ms of a partition's power is over (R403). -/
def Part.msOver (p : Part) (clock : Nat) : Bool := p.msStart + msPeriods ≤ clock

/-- Energy of a row's work in the present ms of its partition (R403). -/
def State.rowEnergy (s : State) (r : Nat × Nat) : Nat := ((coresOfRow r.1 r.2).map fun c => (s.core c).msEnergy).sum

/-- The row whose dividers Bellows raises next: the one of highest power among those with a divider below the number
(R403). -/
def State.capRow (s : State) (p : Part) (n : Nat) : Option (Nat × Nat) :=
  (p.cfg.rows.filter fun r => (coresOfRow r.1 r.2).any fun c => (s.core c).nextDivider < n).foldl (fun m r => match m with
    | some x => if s.rowEnergy x < s.rowEnergy r then some r else some x
    | none => some r) none

/-- The ms of the subject's partition ends. Under the capped policy, with more energy used in it than the cap, Bellows
raises dividers row by row, one row each ms, highest power first, to the subject's number (R403, R404). [log 77 DEDUCED] -/
def execPowerCapExceeded (s : State) : Out :=
  let u := s.subject
  match s.part? u.part with
  | none => .next s
  | some p =>
    if !p.msOver s.clock then .next s else
    let s1 := s.modPart u.part fun p => { p with msStart := s.clock, msEnergy := p.energy }
    let s2 := p.cores.foldl (fun s c => s.modCore c fun x => { x with msEnergy := 0 }) s1
    if p.mode.bpol = 1 ∧ p.cfg.powerCap < p.energy - p.msEnergy ∧ u.num ≤ 8 then
      match s.capRow p u.num with
      | some r => .next ((coresOfRow r.1 r.2).foldl (fun s c => s.modCore c fun x => { x with nextDivider := max x.nextDivider u.num }) s2)
      | none => .next s2
    else .next s2

/-- Cycles of the efficiency window (R403). -/
def windowCycles : Nat := 65536

/-- The subject core's window ends: under the efficiency policy, a core that issued in less than half of its cycles doubles
its divider, up to 8 (R403). -/
def execEfficiencyDividerStep (s : State) : Out :=
  let c := s.subject.core
  let x := s.core c
  if x.cycle < x.windowStart + windowCycles then .next s else
  .next (s.modCore c fun x =>
    { x with
      windowStart := x.cycle, issued := 0
      nextDivider := if s.policy c = 2 ∧ 2 * x.issued < windowCycles then min 8 (2 * x.divider) else x.nextDivider })

/-- A row with no thread that can issue and no strip pending. -/
def State.idleRow (s : State) (d r : Nat) : Bool :=
  (coresOfRow d r).all fun c => (s.core c).threads.all fun e => e.2.st != .runnable && e.2.vq == []

/-- Under the efficiency policy Bellows drops the voltage of the subject's row while it is idle, if the lower one is safe at
the divider of each of its cores (R403, R404). [log 77 DEDUCED] -/
def execIdleRowVoltageDrop (s : State) : Out :=
  let u := s.subject
  let n := s.mgmt.volts u.die u.row - 1
  let safe := (coresOfRow u.die u.row).all fun c => Config.voltSafe n (s.core c).divider
  if (coresOfRow u.die u.row).all (fun c => s.policy c == 2) ∧ s.idleRow u.die u.row ∧ safe then
    .next { s with mgmt := s.mgmt.setVolts u.die u.row n }
  else .next s

/-- Bellows powers off a row that no partition owns (R319). [log 77 DEDUCED] -/
def execRowPowerOff (s : State) : Out :=
  let u := s.subject
  let r := (u.die, u.row)
  if s.parts.any (fun e => e.2.cfg.rows.contains r) ∨ s.mgmt.rowsOff.contains r ∨ 8 ≤ u.die ∨ 32 ≤ u.row then .next s else
  .next { s with mgmt := { s.mgmt with rowsOff := r :: s.mgmt.rowsOff } }

/-- A row is powered up again: every hint entry of its clusters reads V = 0 (R319). -/
def execRowPowerOn (s : State) : Out :=
  let u := s.subject
  let r := (u.die, u.row)
  if !s.mgmt.rowsOff.contains r then .next s else
  let off (s : State) (cl : Nat) : State := s.modCluster cl fun q => { q with hints := [] }
  .next (off (off { s with mgmt := { s.mgmt with rowsOff := s.mgmt.rowsOff.erase r } } (u.die * 64 + u.row * 2)) (u.die * 64 + u.row * 2 + 1))

/-- In-field test runs under its budget; its energy is device overhead (R28, R325, R360). -/
def execInFieldTest (s : State) : Out := if s.mgmt.mayRun 1 then .next (s.act 1 none) else .next s

/-- Ballast runs under its budget; its energy is device overhead (R325, R360). -/
def execBallast (s : State) : Out := if s.mgmt.mayRun 2 then .next (s.act 2 none) else .next s

end Sys2Proof.Machine
end

