-- ==== Sys2Proof/Machine/Debug.lean ====
section
/-! DEFINITION. Debug.lean: Anvil's SPDM answers, debug grants, and the debug unit's operations (R183, R405, R406). -/

namespace Sys2Proof.Machine

/-! ### SPDM -/

/-- Anvil answers a request with bytes (R405). [log 78 DESIGN CHOICE] -/
def State.respond (s : State) (request : Nat) (bs : List Byte) : State :=
  { s with mgmt := { s.mgmt with lastResponse := (request, bs) } }

/-- Anvil answers a request whose answer the spec does not give. [log 78 DESIGN CHOICE] -/
def State.respondOpen (s : State) (request : Nat) : State :=
  ({ s with freeN := s.freeN + 1 }).respond request (Config.spdmAnswer s.freeN)

/-- GET_VERSION (R405). -/
def execGetVersion (s : State) : Out := .next (s.respondOpen 0)

/-- GET_CAPABILITIES (R405). -/
def execGetCapabilities (s : State) : Out := .next (s.respondOpen 1)

/-- NEGOTIATE_ALGORITHMS: ML-DSA-87 and SHA3-512, if the request offers them, as the subject's flag says (R405). -/
def execNegotiateAlgorithms (s : State) : Out :=
  .next { s.respondOpen 2 with mgmt := { (s.respondOpen 2).mgmt with negotiated := s.subject.flag } }

/-- GET_DIGESTS (R405). -/
def execGetDigests (s : State) : Out := .next (s.respond 3 Config.certDigest)

/-- GET_CERTIFICATE (R405). -/
def execGetCertificate (s : State) : Out := .next (s.respond 4 Config.certificate)

/-- CHALLENGE: a fresh nonce, signed (R405). -/
def execChallenge (s : State) : Out :=
  let n := (Config.nonce s.freeN ++ List.replicate 32 0).take 32
  let s1 := { s with freeN := s.freeN + 1, mgmt := { s.mgmt with nonce := n } }
  .next (s1.respond 5 (n ++ Config.signature n))

/-- GET_MEASUREMENTS: measurement 1 is the Nolmon image's digest; each partition's image has its own (R398, R405). -/
def execGetMeasurements (s : State) : Out :=
  .next (s.respond 6 (s.mgmt.digest ++ s.mgmt.measured.flatMap fun e => leBytes 1 e.1 ++ e.2))

/-- KEY_EXCHANGE, once algorithms are negotiated (R405). -/
def execKeyExchange (s : State) : Out :=
  if !s.mgmt.negotiated then .next (s.respondOpen 7) else
  .next { s.respondOpen 7 with mgmt := { (s.respondOpen 7).mgmt with keyed := true } }

/-- FINISH: the session is secured if the requester's proof, as the subject's flag says, verifies (R405). -/
def execFinish (s : State) : Out :=
  .next { s.respondOpen 8 with mgmt := { (s.respondOpen 8).mgmt with secured := s.mgmt.keyed && s.subject.flag, keyed := false } }

/-- END_SESSION (R405). -/
def execEndSession (s : State) : Out :=
  .next { s.respondOpen 9 with mgmt := { (s.respondOpen 9).mgmt with secured := false } }

/-! ### Grants -/

/-- A grant's fields, from its 64 bytes (R405). -/
structure GrantBytes where
  serial : List Byte
  level : Nat
  part : Nat
  nonce : List Byte
  expiry : Nat
  deriving DecidableEq, Repr

/-- Reads a grant. -/
def grantOf (bs : List Byte) : GrantBytes :=
  let f (o n : Nat) : List Byte := (bs.drop o).take n
  ⟨f 0 16, leNat (f 0x10 4), leNat (f 0x14 4), f 0x18 32, leNat (f 0x38 8)⟩

/-- Anvil accepts the grant: serial, level, last nonce not used before, expiry not past, and the signature by the right key
(R405). [log 121 PRESUMED] -/
def State.acceptsGrant (s : State) (bs : List Byte) : Bool :=
  let g := grantOf bs
  s.mgmt.secured && 64 ≤ bs.length && g.serial == Config.serial && g.nonce == s.mgmt.nonce && !s.mgmt.usedNonces.contains g.nonce &&
  s.rot ≤ g.expiry &&
  match g.level with
  | 1 => (match s.part? g.part with
    | some p => p.cfg.debugKeys.any fun k => dsaVerify k (bs.take 64) (bs.drop 64)
    | none => false)
  | 2 => dsaVerify Config.relarnKey (bs.take 64) (bs.drop 64)
  | _ => false

/-- The vendor-defined unlock request: a grant and its signature, the subject's bytes (R405). -/
def execDebugUnlock (s : State) : Out :=
  let g := grantOf s.subject.bytes
  if !s.acceptsGrant s.subject.bytes then .next (s.respondOpen 10) else
  let s1 := s.respondOpen 10
  .next { s1 with mgmt := { s1.mgmt with
    grants := s1.mgmt.grants ++ [⟨g.level, g.part, g.expiry⟩], usedNonces := g.nonce :: s1.mgmt.usedNonces } }

/-! ### The debug unit -/

/-- A session reaches a core: its partition's session is open, or a maker-level grant is in force (R406). -/
def State.debugs (s : State) (c : Nat) : Bool :=
  s.mgmt.grants.any (fun g => g.level == 2 && s.rot < g.expiry) ||
  match s.partOf c with
  | some p => p.session.isSome
  | none => false

/-- A thread becomes STOPPED: its chunk closes and commits as it leaves issue; one with vector stores outstanding closes and
is judged once they are performed. A wait that has sent nothing is withdrawn, as a swap withdraws it (R51, R240). [log 79
DEDUCED] -/
def State.holdThread (s : State) (c : Nat) (k : SlotN) : State :=
  let s1 := if (s.thr c k).storesPending then s else (s.commit c k).1
  (s1.withdraw c k).modThr c k fun t => { t.withdrawn (s.core c).cycle with st := .stopped, stepping := none }

/-- Stops the thread of the subject's core and slot, RUNNABLE or PARKED (R51, R406). [log 79 DEDUCED] -/
def execDebugStop (s : State) : Out :=
  let c := s.subject.core
  let k := s.home c s.subject.slot
  match (s.slot c k).thread? with
  | some t =>
    if s.debugs c ∧ (t.st = .runnable ∨ t.st = .parked) then
      .next (s.holdThread c k)
    else .next s
  | none => .next s

/-- The state of a thread that a debug resume lets go on. -/
def Thread.go (t : Thread) : Thread := { t with st := (match t.wait with | .none => .runnable | _ => .parked) }

/-- Resumes the STOPPED thread of the subject's core and slot; with the flag, the engines that a gang stop holds (R51, R183,
R406). -/
def execDebugResume (s : State) : Out :=
  let c := s.subject.core
  let k := s.home c s.subject.slot
  if !s.debugs c then .next s
  else if s.subject.flag then
    .next ((spanOf c (s.mx c).gsize).foldl (fun s d => s.modCtx d fun x => { x with mx := { x.mx with stopped := false } }) s)
  else match (s.slot c k).thread? with
    | some t =>
      if t.st = .stopped then .next ((s.modThr c k Thread.go).modThr c k fun t => { t with resumedAt := (s.core c).cycle })
      else .next s
    | none => .next s

/-- Lets the STOPPED thread of the subject's core and slot issue one instruction (R183, R406). [log 79 DEDUCED] -/
def execDebugSingleStep (s : State) : Out :=
  let c := s.subject.core
  if s.debugs c then .next (s.stepThread c (s.home c s.subject.slot) false).1 else .next s

/-- Lets the STOPPED thread go on until the core's matrix engine is idle (R181, R183, R406). -/
def execDebugStepToIdle (s : State) : Out :=
  let c := s.subject.core
  if s.debugs c then .next (s.stepThread c (s.home c s.subject.slot) true).1 else .next s

/-- Stops the engine of every member of the subject core's gang at its step boundary (R183). [log 27 DEDUCED] -/
def execDebugGangStop (s : State) : Out :=
  let c := s.subject.core
  if !s.debugs c then .next s else
  .next (s.stopGang c)

/-- Reads the state number `num` of the thread of the subject's core and slot, as XRDT does (R126, R289, R406). -/
def execDebugStateRead (s : State) : Out :=
  let c := s.subject.core
  let k := s.home c s.subject.slot
  match (s.slot c k).thread? with
  | some t =>
    if s.debugs c then
      .next (s.respond 11 (leBytes 8 (if t.st = .runnable then 0 else s.xrdt c k t s.subject.num).toNat))
    else .next s
  | none => .next s

/-- Reads the subject core's event counter `idx`; with the flag, sets its select to `num` and its count to `val` (R358,
R406); a number from 4 on reads a counter of its traversal unit (R355). -/
def execDebugCounterAccess (s : State) : Out :=
  let u := s.subject
  if h : u.idx < 4 then
    if !s.debugs u.core then .next s
    else if u.flag then
      .next (s.modCore u.core fun x =>
        { x with evSel := x.evSel.set u.idx (BitVec.ofNat 8 u.num), evCnt := x.evCnt.set u.idx (u.val.setWidth 48) })
    else
      .next (s.respond 12 (leBytes 8 (((s.core u.core).evSel[u.idx]).toNat * 2 ^ 48 + ((s.core u.core).evCnt[u.idx]).toNat)))
  else if s.debugs u.core && !u.flag then .next (s.respond 12 (leBytes 8 ((s.core u.core).rayCnt.toList.getD (u.idx - 4) 0).toNat))
  else .next s

/-- Starts trace record writing in the subject partition's session, or stops it, as the flag says (R406). -/
def execDebugTraceControl (s : State) : Out :=
  .next (s.modPart s.subject.part fun p => { p with session := p.session.map fun x => { x with trace := s.subject.flag } })

/-- The session of a partition has expired (R406). -/
def State.sessionOver (s : State) (n : Nat) : Bool :=
  match (s.part? n).bind (·.session) with
  | some x => x.expiry ≤ s.rot
  | none => false

/-- The session of the subject's partition ends at its expiry; with the flag, the maker's (R406). -/
def execDebugSessionExpiry (s : State) : Out :=
  if s.subject.flag then .next (if s.makerOver then s.endMaker else s)
  else if s.sessionOver s.subject.part then .next (s.endSession s.subject.part) else .next s

end Sys2Proof.Machine
end

