-- ==== Sys2Proof/Machine/Dispatch.lean ====
section
/-! DEFINITION. Dispatch.lean: one arm per constructor of Instr; each calls that step's own meaning. -/

namespace Sys2Proof.Machine

def exec (i : Instr) (s : State) : Host.Outcome State Fault Refusal :=
  match i with
  | .lui rd imm => Sys2Proof.Machine.execLui rd imm s
  | .auipc rd imm => Sys2Proof.Machine.execAuipc rd imm s
  | .jal rd imm => Sys2Proof.Machine.execJal rd imm s
  | .jalr rd rs1 imm => Sys2Proof.Machine.execJalr rd rs1 imm s
  | .beq rs1 rs2 imm => Sys2Proof.Machine.execBeq rs1 rs2 imm s
  | .bne rs1 rs2 imm => Sys2Proof.Machine.execBne rs1 rs2 imm s
  | .blt rs1 rs2 imm => Sys2Proof.Machine.execBlt rs1 rs2 imm s
  | .bge rs1 rs2 imm => Sys2Proof.Machine.execBge rs1 rs2 imm s
  | .bltu rs1 rs2 imm => Sys2Proof.Machine.execBltu rs1 rs2 imm s
  | .bgeu rs1 rs2 imm => Sys2Proof.Machine.execBgeu rs1 rs2 imm s
  | .lb rd rs1 imm => Sys2Proof.Machine.execLb rd rs1 imm s
  | .lh rd rs1 imm => Sys2Proof.Machine.execLh rd rs1 imm s
  | .lw rd rs1 imm => Sys2Proof.Machine.execLw rd rs1 imm s
  | .lbu rd rs1 imm => Sys2Proof.Machine.execLbu rd rs1 imm s
  | .lhu rd rs1 imm => Sys2Proof.Machine.execLhu rd rs1 imm s
  | .lwu rd rs1 imm => Sys2Proof.Machine.execLwu rd rs1 imm s
  | .ld rd rs1 imm => Sys2Proof.Machine.execLd rd rs1 imm s
  | .sb rs2 rs1 imm => Sys2Proof.Machine.execSb rs2 rs1 imm s
  | .sh rs2 rs1 imm => Sys2Proof.Machine.execSh rs2 rs1 imm s
  | .sw rs2 rs1 imm => Sys2Proof.Machine.execSw rs2 rs1 imm s
  | .sd rs2 rs1 imm => Sys2Proof.Machine.execSd rs2 rs1 imm s
  | .addi rd rs1 imm => Sys2Proof.Machine.execAddi rd rs1 imm s
  | .slti rd rs1 imm => Sys2Proof.Machine.execSlti rd rs1 imm s
  | .sltiu rd rs1 imm => Sys2Proof.Machine.execSltiu rd rs1 imm s
  | .xori rd rs1 imm => Sys2Proof.Machine.execXori rd rs1 imm s
  | .ori rd rs1 imm => Sys2Proof.Machine.execOri rd rs1 imm s
  | .andi rd rs1 imm => Sys2Proof.Machine.execAndi rd rs1 imm s
  | .slli rd rs1 sh => Sys2Proof.Machine.execSlli rd rs1 sh s
  | .srli rd rs1 sh => Sys2Proof.Machine.execSrli rd rs1 sh s
  | .srai rd rs1 sh => Sys2Proof.Machine.execSrai rd rs1 sh s
  | .add rd rs1 rs2 => Sys2Proof.Machine.execAdd rd rs1 rs2 s
  | .sub rd rs1 rs2 => Sys2Proof.Machine.execSub rd rs1 rs2 s
  | .sll rd rs1 rs2 => Sys2Proof.Machine.execSll rd rs1 rs2 s
  | .slt rd rs1 rs2 => Sys2Proof.Machine.execSlt rd rs1 rs2 s
  | .sltu rd rs1 rs2 => Sys2Proof.Machine.execSltu rd rs1 rs2 s
  | .xor rd rs1 rs2 => Sys2Proof.Machine.execXor rd rs1 rs2 s
  | .srl rd rs1 rs2 => Sys2Proof.Machine.execSrl rd rs1 rs2 s
  | .sra rd rs1 rs2 => Sys2Proof.Machine.execSra rd rs1 rs2 s
  | .or rd rs1 rs2 => Sys2Proof.Machine.execOr rd rs1 rs2 s
  | .and rd rs1 rs2 => Sys2Proof.Machine.execAnd rd rs1 rs2 s
  | .addiw rd rs1 imm => Sys2Proof.Machine.execAddiw rd rs1 imm s
  | .slliw rd rs1 sh => Sys2Proof.Machine.execSlliw rd rs1 sh s
  | .srliw rd rs1 sh => Sys2Proof.Machine.execSrliw rd rs1 sh s
  | .sraiw rd rs1 sh => Sys2Proof.Machine.execSraiw rd rs1 sh s
  | .addw rd rs1 rs2 => Sys2Proof.Machine.execAddw rd rs1 rs2 s
  | .subw rd rs1 rs2 => Sys2Proof.Machine.execSubw rd rs1 rs2 s
  | .sllw rd rs1 rs2 => Sys2Proof.Machine.execSllw rd rs1 rs2 s
  | .srlw rd rs1 rs2 => Sys2Proof.Machine.execSrlw rd rs1 rs2 s
  | .sraw rd rs1 rs2 => Sys2Proof.Machine.execSraw rd rs1 rs2 s
  | .mul rd rs1 rs2 => Sys2Proof.Machine.execMul rd rs1 rs2 s
  | .mulh rd rs1 rs2 => Sys2Proof.Machine.execMulh rd rs1 rs2 s
  | .mulhsu rd rs1 rs2 => Sys2Proof.Machine.execMulhsu rd rs1 rs2 s
  | .mulhu rd rs1 rs2 => Sys2Proof.Machine.execMulhu rd rs1 rs2 s
  | .div rd rs1 rs2 => Sys2Proof.Machine.execDiv rd rs1 rs2 s
  | .divu rd rs1 rs2 => Sys2Proof.Machine.execDivu rd rs1 rs2 s
  | .rem rd rs1 rs2 => Sys2Proof.Machine.execRem rd rs1 rs2 s
  | .remu rd rs1 rs2 => Sys2Proof.Machine.execRemu rd rs1 rs2 s
  | .mulw rd rs1 rs2 => Sys2Proof.Machine.execMulw rd rs1 rs2 s
  | .divw rd rs1 rs2 => Sys2Proof.Machine.execDivw rd rs1 rs2 s
  | .divuw rd rs1 rs2 => Sys2Proof.Machine.execDivuw rd rs1 rs2 s
  | .remw rd rs1 rs2 => Sys2Proof.Machine.execRemw rd rs1 rs2 s
  | .remuw rd rs1 rs2 => Sys2Proof.Machine.execRemuw rd rs1 rs2 s
  | .csrrw rd csr rs1 => Sys2Proof.Machine.execCsrrw rd csr rs1 s
  | .csrrs rd csr rs1 => Sys2Proof.Machine.execCsrrs rd csr rs1 s
  | .csrrc rd csr rs1 => Sys2Proof.Machine.execCsrrc rd csr rs1 s
  | .csrrwi rd csr uimm => Sys2Proof.Machine.execCsrrwi rd csr uimm s
  | .csrrsi rd csr uimm => Sys2Proof.Machine.execCsrrsi rd csr uimm s
  | .csrrci rd csr uimm => Sys2Proof.Machine.execCsrrci rd csr uimm s
  | .ldx g w size off3 rd rs1 => Sys2Proof.Machine.execLdx g w size off3 rd rs1 s
  | .ldxF g w dbl off3 rd rs1 => Sys2Proof.Machine.execLdxF g w dbl off3 rd rs1 s
  | .stx g w size off3 rs2 rs1 => Sys2Proof.Machine.execStx g w size off3 rs2 rs1 s
  | .stxF g w dbl off3 rs2 rs1 => Sys2Proof.Machine.execStxF g w dbl off3 rs2 rs1 s
  | .aadd aq rl dbl rd rs2 rs1 => Sys2Proof.Machine.execAadd aq rl dbl rd rs2 rs1 s
  | .aswp aq rl dbl rd rs2 rs1 => Sys2Proof.Machine.execAswp aq rl dbl rd rs2 rs1 s
  | .aand aq rl dbl rd rs2 rs1 => Sys2Proof.Machine.execAand aq rl dbl rd rs2 rs1 s
  | .aor aq rl dbl rd rs2 rs1 => Sys2Proof.Machine.execAor aq rl dbl rd rs2 rs1 s
  | .axor aq rl dbl rd rs2 rs1 => Sys2Proof.Machine.execAxor aq rl dbl rd rs2 rs1 s
  | .amax aq rl dbl rd rs2 rs1 => Sys2Proof.Machine.execAmax aq rl dbl rd rs2 rs1 s
  | .amin aq rl dbl rd rs2 rs1 => Sys2Proof.Machine.execAmin aq rl dbl rd rs2 rs1 s
  | .amaxu aq rl dbl rd rs2 rs1 => Sys2Proof.Machine.execAmaxu aq rl dbl rd rs2 rs1 s
  | .aminu aq rl dbl rd rs2 rs1 => Sys2Proof.Machine.execAminu aq rl dbl rd rs2 rs1 s
  | .acas aq rl dbl rd rs2 rs1 => Sys2Proof.Machine.execAcas aq rl dbl rd rs2 rs1 s
  | .afadd aq rl rd rs2 rs1 => Sys2Proof.Machine.execAfadd aq rl rd rs2 rs1 s
  | .afmax aq rl rd rs2 rs1 => Sys2Proof.Machine.execAfmax aq rl rd rs2 rs1 s
  | .aincw aq rl dbl rd rs2 rs1 => Sys2Proof.Machine.execAincw aq rl dbl rd rs2 rs1 s
  | .pseq g pd rs1 rs2 => Sys2Proof.Machine.execPseq g pd rs1 rs2 s
  | .psne g pd rs1 rs2 => Sys2Proof.Machine.execPsne g pd rs1 rs2 s
  | .pslt g pd rs1 rs2 => Sys2Proof.Machine.execPslt g pd rs1 rs2 s
  | .psge g pd rs1 rs2 => Sys2Proof.Machine.execPsge g pd rs1 rs2 s
  | .psltu g pd rs1 rs2 => Sys2Proof.Machine.execPsltu g pd rs1 rs2 s
  | .psgeu g pd rs1 rs2 => Sys2Proof.Machine.execPsgeu g pd rs1 rs2 s
  | .pand g pd pa pb => Sys2Proof.Machine.execPand g pd pa pb s
  | .por g pd pa pb => Sys2Proof.Machine.execPor g pd pa pb s
  | .pandn g pd pa pb => Sys2Proof.Machine.execPandn g pd pa pb s
  | .pxor g pd pa pb => Sys2Proof.Machine.execPxor g pd pa pb s
  | .prd g rd => Sys2Proof.Machine.execPrd g rd s
  | .pwr g rs1 rs2 => Sys2Proof.Machine.execPwr g rs1 rs2 s
  | .limm g rd lit => Sys2Proof.Machine.execLimm g rd lit s
  | .fencer g kinds scope rs1 rs2 => Sys2Proof.Machine.execFencer g kinds scope rs1 rs2 s
  | .ldro g rd rs1 size => Sys2Proof.Machine.execLdro g rd rs1 size s
  | .feclr g rs1 rs2 => Sys2Proof.Machine.execFeclr g rs1 rs2 s
  | .feset g rs1 rs2 => Sys2Proof.Machine.execFeset g rs1 rs2 s
  | .fetest g pd rs1 => Sys2Proof.Machine.execFetest g pd rs1 s
  | .cntwait g mask => Sys2Proof.Machine.execCntwait g mask s
  | .stnibLo g rs1 rs2 => Sys2Proof.Machine.execStnibLo g rs1 rs2 s
  | .stnibHi g rs1 rs2 => Sys2Proof.Machine.execStnibHi g rs1 rs2 s
  | .lockr g rs1 rs2 => Sys2Proof.Machine.execLockr g rs1 rs2 s
  | .chunk g rd rs1 => Sys2Proof.Machine.execChunk g rd rs1 s
  | .pfetch g kind rs1 rs2 => Sys2Proof.Machine.execPfetch g kind rs1 rs2 s
  | .spawn g rd rs1 rs2 => Sys2Proof.Machine.execSpawn g rd rs1 rs2 s
  | .mspawn g rd rs1 rs2 => Sys2Proof.Machine.execMspawn g rd rs1 rs2 s
  | .migr g rs1 => Sys2Proof.Machine.execMigr g rs1 s
  | .retire g => Sys2Proof.Machine.execRetire g s
  | .waitev g rd => Sys2Proof.Machine.execWaitev g rd s
  | .pairon g rd => Sys2Proof.Machine.execPairon g rd s
  | .pairoff g => Sys2Proof.Machine.execPairoff g s
  | .rep g rs1 rs2 => Sys2Proof.Machine.execRep g rs1 rs2 s
  | .qpush g rs1 rs2 => Sys2Proof.Machine.execQpush g rs1 rs2 s
  | .qpop g rd rs1 => Sys2Proof.Machine.execQpop g rd rs1 s
  | .qwait g rd rs1 rs2 => Sys2Proof.Machine.execQwait g rd rs1 rs2 s
  | .qstat g rd rs1 => Sys2Proof.Machine.execQstat g rd rs1 s
  | .msend g tag rs1 rs2 => Sys2Proof.Machine.execMsend g tag rs1 rs2 s
  | .mrecv g rd rh => Sys2Proof.Machine.execMrecv g rd rh s
  | .barset g b rs2 => Sys2Proof.Machine.execBarset g b rs2 s
  | .barrive g rd b => Sys2Proof.Machine.execBarrive g rd b s
  | .barwait g b rs2 => Sys2Proof.Machine.execBarwait g b rs2 s
  | .barstat g rd b => Sys2Proof.Machine.execBarstat g rd b s
  | .qmap g n reg rs1 => Sys2Proof.Machine.execQmap g n reg rs1 s
  | .qreg g reg rs1 => Sys2Proof.Machine.execQreg g reg rs1 s
  | .mbxput g rs1 rs2 => Sys2Proof.Machine.execMbxput g rs1 rs2 s
  | .mbxget g rd rs1 => Sys2Proof.Machine.execMbxget g rd rs1 s
  | .cpyiss g rd rs1 rs2 => Sys2Proof.Machine.execCpyiss g rd rs1 rs2 s
  | .cpywait g rs1 rs2 => Sys2Proof.Machine.execCpywait g rs1 rs2 s
  | .cpydone g rd rs1 => Sys2Proof.Machine.execCpydone g rd rs1 s
  | .trpop g rd => Sys2Proof.Machine.execTrpop g rd s
  | .xrdt g rd rs1 rs2 => Sys2Proof.Machine.execXrdt g rd rs1 rs2 s
  | .xwrt g rv rs1 rs2 => Sys2Proof.Machine.execXwrt g rv rs1 rs2 s
  | .xresume g rs1 => Sys2Proof.Machine.execXresume g rs1 s
  | .xkill g rs1 => Sys2Proof.Machine.execXkill g rs1 s
  | .tcswap g rd rs1 rs2 => Sys2Proof.Machine.execTcswap g rd rs1 rs2 s
  | .dbrk g rs1 => Sys2Proof.Machine.execDbrk g rs1 s
  | .stamp g rd => Sys2Proof.Machine.execStamp g rd s
  | .vadd t vd vs1 vs2 => Sys2Proof.Machine.execVadd t vd vs1 vs2 s
  | .vsub t vd vs1 vs2 => Sys2Proof.Machine.execVsub t vd vs1 vs2 s
  | .vmul t vd vs1 vs2 => Sys2Proof.Machine.execVmul t vd vs1 vs2 s
  | .vfma t vd vs1 vs2 => Sys2Proof.Machine.execVfma t vd vs1 vs2 s
  | .vfms t vd vs1 vs2 => Sys2Proof.Machine.execVfms t vd vs1 vs2 s
  | .vmin t vd vs1 vs2 => Sys2Proof.Machine.execVmin t vd vs1 vs2 s
  | .vmax t vd vs1 vs2 => Sys2Proof.Machine.execVmax t vd vs1 vs2 s
  | .vabs t vd vs1 => Sys2Proof.Machine.execVabs t vd vs1 s
  | .vneg t vd vs1 => Sys2Proof.Machine.execVneg t vd vs1 s
  | .vceq t kd vs1 vs2 => Sys2Proof.Machine.execVceq t kd vs1 vs2 s
  | .vclt t kd vs1 vs2 => Sys2Proof.Machine.execVclt t kd vs1 vs2 s
  | .vcle t kd vs1 vs2 => Sys2Proof.Machine.execVcle t kd vs1 vs2 s
  | .vsel t vd vs1 vs2 => Sys2Proof.Machine.execVsel t vd vs1 vs2 s
  | .vdiv vd vs1 vs2 => Sys2Proof.Machine.execVdiv vd vs1 vs2 s
  | .vsqrt vd vs1 => Sys2Proof.Machine.execVsqrt vd vs1 s
  | .vrsqrt vd vs1 => Sys2Proof.Machine.execVrsqrt vd vs1 s
  | .vrcp vd vs1 => Sys2Proof.Machine.execVrcp vd vs1 s
  | .vexp2 vd vs1 => Sys2Proof.Machine.execVexp2 vd vs1 s
  | .vlog2 vd vs1 => Sys2Proof.Machine.execVlog2 vd vs1 s
  | .vsin vd vs1 => Sys2Proof.Machine.execVsin vd vs1 s
  | .vcos vd vs1 => Sys2Proof.Machine.execVcos vd vs1 s
  | .vand t vd vs1 vs2 => Sys2Proof.Machine.execVand t vd vs1 vs2 s
  | .vor t vd vs1 vs2 => Sys2Proof.Machine.execVor t vd vs1 vs2 s
  | .vxor t vd vs1 vs2 => Sys2Proof.Machine.execVxor t vd vs1 vs2 s
  | .vshl t vd vs1 vs2 => Sys2Proof.Machine.execVshl t vd vs1 vs2 s
  | .vshr t vd vs1 vs2 => Sys2Proof.Machine.execVshr t vd vs1 vs2 s
  | .vsra t vd vs1 vs2 => Sys2Proof.Machine.execVsra t vd vs1 vs2 s
  | .vcadd vd vs1 vs2 => Sys2Proof.Machine.execVcadd vd vs1 vs2 s
  | .vcsub vd vs1 vs2 => Sys2Proof.Machine.execVcsub vd vs1 vs2 s
  | .vcmul vd vs1 vs2 => Sys2Proof.Machine.execVcmul vd vs1 vs2 s
  | .vcfma vd vs1 vs2 => Sys2Proof.Machine.execVcfma vd vs1 vs2 s
  | .vcconj vd vs1 => Sys2Proof.Machine.execVcconj vd vs1 s
  | .vcmag2 vd vs1 => Sys2Proof.Machine.execVcmag2 vd vs1 s
  | .vcexpj vd vs1 => Sys2Proof.Machine.execVcexpj vd vs1 s
  | .vld t vd rs1 => Sys2Proof.Machine.execVld t vd rs1 s
  | .vlds t vd rs1 rs2 => Sys2Proof.Machine.execVlds t vd rs1 rs2 s
  | .vst t vs rs1 => Sys2Proof.Machine.execVst t vs rs1 s
  | .vsts t vs rs1 rs2 => Sys2Proof.Machine.execVsts t vs rs1 rs2 s
  | .vgath t vd rs1 vi => Sys2Proof.Machine.execVgath t vd rs1 vi s
  | .vscat t vs rs1 vi => Sys2Proof.Machine.execVscat t vs rs1 vi s
  | .vldl t vd rs1 => Sys2Proof.Machine.execVldl t vd rs1 s
  | .vstl t vs rs1 => Sys2Proof.Machine.execVstl t vs rs1 s
  | .vbcast t vd rs1 => Sys2Proof.Machine.execVbcast t vd rs1 s
  | .vmvx t rd rs1 vs2 => Sys2Proof.Machine.execVmvx t rd rs1 vs2 s
  | .vins t vd rs1 rs2 => Sys2Proof.Machine.execVins t vd rs1 rs2 s
  | .vcfg rd rs1 rs2 => Sys2Proof.Machine.execVcfg rd rs1 rs2 s
  | .vredadd t vd vs1 => Sys2Proof.Machine.execVredadd t vd vs1 s
  | .vredmax t vd vs1 => Sys2Proof.Machine.execVredmax t vd vs1 s
  | .vredmin t vd vs1 => Sys2Proof.Machine.execVredmin t vd vs1 s
  | .vcvt t vd vs1 => Sys2Proof.Machine.execVcvt t vd vs1 s
  | .vpack vd vs1 fc => Sys2Proof.Machine.execVpack vd vs1 fc s
  | .vunpk vd vs1 fc => Sys2Proof.Machine.execVunpk vd vs1 fc s
  | .vperm t vd vs1 vs2 => Sys2Proof.Machine.execVperm t vd vs1 vs2 s
  | .vslide t vd vs1 rs2 => Sys2Proof.Machine.execVslide t vd vs1 rs2 s
  | .vkopAnd kd ka kb => Sys2Proof.Machine.execVkopAnd kd ka kb s
  | .vkopOr kd ka kb => Sys2Proof.Machine.execVkopOr kd ka kb s
  | .vkopXor kd ka kb => Sys2Proof.Machine.execVkopXor kd ka kb s
  | .vkopNot kd ka => Sys2Proof.Machine.execVkopNot kd ka s
  | .vkopFromx kd rs1 => Sys2Proof.Machine.execVkopFromx kd rs1 s
  | .vkopTox rd ka => Sys2Proof.Machine.execVkopTox rd ka s
  | .vkopCount rd ka => Sys2Proof.Machine.execVkopCount rd ka s
  | .vstat rd => Sys2Proof.Machine.execVstat rd s
  | .mcfg g rs1 => Sys2Proof.Machine.execMcfg g rs1 s
  | .mgang g rd rs1 rs2 => Sys2Proof.Machine.execMgang g rd rs1 rs2 s
  | .mbld g rs1 rs2 => Sys2Proof.Machine.execMbld g rs1 rs2 s
  | .mma g acc rs1 rs2 => Sys2Proof.Machine.execMma g acc rs1 rs2 s
  | .mzero g acc => Sys2Proof.Machine.execMzero g acc s
  | .mstore g acc rs1 => Sys2Proof.Machine.execMstore g acc rs1 s
  | .mstat g rd => Sys2Proof.Machine.execMstat g rd s
  | .mwait g => Sys2Proof.Machine.execMwait g s
  | .ptcfg g rs1 rs2 => Sys2Proof.Machine.execPtcfg g rs1 rs2 s
  | .ptserve g rs1 => Sys2Proof.Machine.execPtserve g rs1 s
  | .ptenq g rs1 => Sys2Proof.Machine.execPtenq g rs1 s
  | .topen g rd rs1 rs2 => Sys2Proof.Machine.execTopen g rd rs1 rs2 s
  | .pfork g rc rs1 rs2 => Sys2Proof.Machine.execPfork g rc rs1 rs2 s
  | .pdone g => Sys2Proof.Machine.execPdone g s
  | .nacc g vs rs1 rs2 => Sys2Proof.Machine.execNacc g vs rs1 rs2 s
  | .ndown g rs1 rs2 => Sys2Proof.Machine.execNdown g rs1 rs2 s
  | .ndownUp g rs1 rs2 => Sys2Proof.Machine.execNdownUp g rs1 rs2 s
  | .sacfg g rd rs1 => Sys2Proof.Machine.execSacfg g rd rs1 s
  | .saddF32 g vs rs1 => Sys2Proof.Machine.execSaddF32 g vs rs1 s
  | .saddBf16 g vs rs1 => Sys2Proof.Machine.execSaddBf16 g vs rs1 s
  | .snormRms g vd rs1 => Sys2Proof.Machine.execSnormRms g vd rs1 s
  | .snormLayer g vd rs1 => Sys2Proof.Machine.execSnormLayer g vd rs1 s
  | .snormUnit g vd rs1 => Sys2Proof.Machine.execSnormUnit g vd rs1 s
  | .ssq g rd rs1 => Sys2Proof.Machine.execSsq g rd rs1 s
  | .szero g rs1 rs2 => Sys2Proof.Machine.execSzero g rs1 rs2 s
  | .sevict g rs1 rs2 => Sys2Proof.Machine.execSevict g rs1 rs2 s
  | .sload g rs1 rs2 => Sys2Proof.Machine.execSload g rs1 rs2 s
  | .sexport g rs1 rs2 => Sys2Proof.Machine.execSexport g rs1 rs2 s
  | .trace g rd rs1 => Sys2Proof.Machine.execTrace g rd rs1 s
  | .tresume g rs1 rs2 => Sys2Proof.Machine.execTresume g rs1 rs2 s
  | .twait g rd rs1 => Sys2Proof.Machine.execTwait g rd rs1 s
  | .taccept g rs1 => Sys2Proof.Machine.execTaccept g rs1 s
  | .tignore g rs1 => Sys2Proof.Machine.execTignore g rs1 s
  | .tterm g rs1 => Sys2Proof.Machine.execTterm g rs1 s
  | .tspawn g rd rs1 rs2 => Sys2Proof.Machine.execTspawn g rd rs1 rs2 s
  | .trsave g rs1 => Sys2Proof.Machine.execTrsave g rs1 s
  | .hhtinv g mode rs1 rs2 => Sys2Proof.Machine.execHhtinv g mode rs1 rs2 s
  | .rsetup g rs1 rs2 => Sys2Proof.Machine.execRsetup g rs1 rs2 s
  | .rcover g rd rs1 rs2 => Sys2Proof.Machine.execRcover g rd rs1 rs2 s
  | .rdepth g rd rs1 rs2 => Sys2Proof.Machine.execRdepth g rd rs1 rs2 s
  | .fence => Sys2Proof.Machine.execFence s
  | .ecall => Sys2Proof.Machine.execEcall s
  | .ebreak => Sys2Proof.Machine.execEbreak s
  | .unlockr => Sys2Proof.Machine.execUnlockr s
  | .unlockrP1 => Sys2Proof.Machine.execUnlockrP1 s
  | .unlockrP2 => Sys2Proof.Machine.execUnlockrP2 s
  | .unlockrP3 => Sys2Proof.Machine.execUnlockrP3 s
  | .unlockrP4 => Sys2Proof.Machine.execUnlockrP4 s
  | .unlockrP5 => Sys2Proof.Machine.execUnlockrP5 s
  | .unlockrP6 => Sys2Proof.Machine.execUnlockrP6 s
  | .unlockrP7 => Sys2Proof.Machine.execUnlockrP7 s
  | .vfence => Sys2Proof.Machine.execVfence s
  | .csrWrite => Sys2Proof.Machine.execCsrWrite s
  | .vstatCsrWrite => Sys2Proof.Machine.execVstatCsrWrite s
  | .repeatCsrWrite => Sys2Proof.Machine.execRepeatCsrWrite s
  | .dldetCsrWrite => Sys2Proof.Machine.execDldetCsrWrite s
  | .stripExecute => Sys2Proof.Machine.execStripExecute s
  | .stripComplete => Sys2Proof.Machine.execStripComplete s
  | .mgangExecute => Sys2Proof.Machine.execMgangExecute s
  | .mbldExecute => Sys2Proof.Machine.execMbldExecute s
  | .mmaExecute => Sys2Proof.Machine.execMmaExecute s
  | .mzeroExecute => Sys2Proof.Machine.execMzeroExecute s
  | .mstoreExecute => Sys2Proof.Machine.execMstoreExecute s
  | .mmaOperandError => Sys2Proof.Machine.execMmaOperandError s
  | .taskDelivery => Sys2Proof.Machine.execTaskDelivery s
  | .taskSteal => Sys2Proof.Machine.execTaskSteal s
  | .frontierRefill => Sys2Proof.Machine.execFrontierRefill s
  | .tasksExhausted => Sys2Proof.Machine.execTasksExhausted s
  | .tongsSpillFault => Sys2Proof.Machine.execTongsSpillFault s
  | .heldSeedEntry => Sys2Proof.Machine.execHeldSeedEntry s
  | .saddBankUpdate => Sys2Proof.Machine.execSaddBankUpdate s
  | .crucibleRowError => Sys2Proof.Machine.execCrucibleRowError s
  | .childRayStart => Sys2Proof.Machine.execChildRayStart s
  | .rayCandidate => Sys2Proof.Machine.execRayCandidate s
  | .stackRestart => Sys2Proof.Machine.execStackRestart s
  | .rayEnd => Sys2Proof.Machine.execRayEnd s
  | .rayFault => Sys2Proof.Machine.execRayFault s
  | .replyArrival => Sys2Proof.Machine.execReplyArrival s
  | .timingErrorReplay => Sys2Proof.Machine.execTimingErrorReplay s
  | .replayRateReport => Sys2Proof.Machine.execReplayRateReport s
  | .launchEntryRead => Sys2Proof.Machine.execLaunchEntryRead s
  | .launchPlacement => Sys2Proof.Machine.execLaunchPlacement s
  | .priorityPromotion => Sys2Proof.Machine.execPriorityPromotion s
  | .launchCompletion => Sys2Proof.Machine.execLaunchCompletion s
  | .migrantArrival => Sys2Proof.Machine.execMigrantArrival s
  | .spillRefill => Sys2Proof.Machine.execSpillRefill s
  | .packetAcceptance => Sys2Proof.Machine.execPacketAcceptance s
  | .migrantParkSwap => Sys2Proof.Machine.execMigrantParkSwap s
  | .slotRemoval => Sys2Proof.Machine.execSlotRemoval s
  | .slotReturn => Sys2Proof.Machine.execSlotReturn s
  | .waitLimitExpiry => Sys2Proof.Machine.execWaitLimitExpiry s
  | .barrierTimeout => Sys2Proof.Machine.execBarrierTimeout s
  | .gangTimeout => Sys2Proof.Machine.execGangTimeout s
  | .deferredTrap => Sys2Proof.Machine.execDeferredTrap s
  | .deadlockPass => Sys2Proof.Machine.execDeadlockPass s
  | .prefectSample => Sys2Proof.Machine.execPrefectSample s
  | .chunkLimitClose => Sys2Proof.Machine.execChunkLimitClose s
  | .chunkCommit => Sys2Proof.Machine.execChunkCommit s
  | .commitTokenGrant => Sys2Proof.Machine.execCommitTokenGrant s
  | .postedOpArrival => Sys2Proof.Machine.execPostedOpArrival s
  | .postedAck => Sys2Proof.Machine.execPostedAck s
  | .queuePushPerform => Sys2Proof.Machine.execQueuePushPerform s
  | .messageDepart => Sys2Proof.Machine.execMessageDepart s
  | .messageArrival => Sys2Proof.Machine.execMessageArrival s
  | .copyJobStart => Sys2Proof.Machine.execCopyJobStart s
  | .copyJobComplete => Sys2Proof.Machine.execCopyJobComplete s
  | .barrierArrivalSignal => Sys2Proof.Machine.execBarrierArrivalSignal s
  | .barrierReleaseSignal => Sys2Proof.Machine.execBarrierReleaseSignal s
  | .pageWalk => Sys2Proof.Machine.execPageWalk s
  | .stage2Repair => Sys2Proof.Machine.execStage2Repair s
  | .stage2Refusal => Sys2Proof.Machine.execStage2Refusal s
  | .tlbInvalidateRange => Sys2Proof.Machine.execTlbInvalidateRange s
  | .tlbInvalidateAll => Sys2Proof.Machine.execTlbInvalidateAll s
  | .tlbInvalidateNonglobal => Sys2Proof.Machine.execTlbInvalidateNonglobal s
  | .rootRereadInvalidate => Sys2Proof.Machine.execRootRereadInvalidate s
  | .lineMigration => Sys2Proof.Machine.execLineMigration s
  | .migratedLineEviction => Sys2Proof.Machine.execMigratedLineEviction s
  | .samplerInvalidate => Sys2Proof.Machine.execSamplerInvalidate s
  | .shOwnershipRequest => Sys2Proof.Machine.execShOwnershipRequest s
  | .shInvalidationReceive => Sys2Proof.Machine.execShInvalidationReceive s
  | .pageConsolidation => Sys2Proof.Machine.execPageConsolidation s
  | .patrolScrub => Sys2Proof.Machine.execPatrolScrub s
  | .budgetPeriod => Sys2Proof.Machine.execBudgetPeriod s
  | .modeTableRequest => Sys2Proof.Machine.execModeTableRequest s
  | .mgmtSlot0Resume => Sys2Proof.Machine.execMgmtSlot0Resume s
  | .mgmtSlot0Kill => Sys2Proof.Machine.execMgmtSlot0Kill s
  | .launchQueueReset => Sys2Proof.Machine.execLaunchQueueReset s
  | .partitionReset => Sys2Proof.Machine.execPartitionReset s
  | .debugSessionOpen => Sys2Proof.Machine.execDebugSessionOpen s
  | .debugSessionClose => Sys2Proof.Machine.execDebugSessionClose s
  | .debugSessionStep => Sys2Proof.Machine.execDebugSessionStep s
  | .eventCounterSelect => Sys2Proof.Machine.execEventCounterSelect s
  | .portControlRequest => Sys2Proof.Machine.execPortControlRequest s
  | .ueMessageReceive => Sys2Proof.Machine.execUeMessageReceive s
  | .ueDeliveryFailure => Sys2Proof.Machine.execUeDeliveryFailure s
  | .hostWrite => Sys2Proof.Machine.execHostWrite s
  | .hostRead => Sys2Proof.Machine.execHostRead s
  | .cxlMemAccess => Sys2Proof.Machine.execCxlMemAccess s
  | .linkPortFailure => Sys2Proof.Machine.execLinkPortFailure s
  | .moduleLoss => Sys2Proof.Machine.execModuleLoss s
  | .domainFormation => Sys2Proof.Machine.execDomainFormation s
  | .moduleReset => Sys2Proof.Machine.execModuleReset s
  | .partitionCreate => Sys2Proof.Machine.execPartitionCreate s
  | .timeSliceExpiry => Sys2Proof.Machine.execTimeSliceExpiry s
  | .partitionSwitch => Sys2Proof.Machine.execPartitionSwitch s
  | .thermalLimit => Sys2Proof.Machine.execThermalLimit s
  | .thermalRecovery => Sys2Proof.Machine.execThermalRecovery s
  | .powerCapExceeded => Sys2Proof.Machine.execPowerCapExceeded s
  | .efficiencyDividerStep => Sys2Proof.Machine.execEfficiencyDividerStep s
  | .stallMapCapture => Sys2Proof.Machine.execStallMapCapture s
  | .stampHoldRelease => Sys2Proof.Machine.execStampHoldRelease s
  | .getVersion => Sys2Proof.Machine.execGetVersion s
  | .getCapabilities => Sys2Proof.Machine.execGetCapabilities s
  | .negotiateAlgorithms => Sys2Proof.Machine.execNegotiateAlgorithms s
  | .getDigests => Sys2Proof.Machine.execGetDigests s
  | .getCertificate => Sys2Proof.Machine.execGetCertificate s
  | .challenge => Sys2Proof.Machine.execChallenge s
  | .getMeasurements => Sys2Proof.Machine.execGetMeasurements s
  | .keyExchange => Sys2Proof.Machine.execKeyExchange s
  | .finish => Sys2Proof.Machine.execFinish s
  | .endSession => Sys2Proof.Machine.execEndSession s
  | .debugUnlock => Sys2Proof.Machine.execDebugUnlock s
  | .debugStop => Sys2Proof.Machine.execDebugStop s
  | .debugResume => Sys2Proof.Machine.execDebugResume s
  | .debugSingleStep => Sys2Proof.Machine.execDebugSingleStep s
  | .debugStepToIdle => Sys2Proof.Machine.execDebugStepToIdle s
  | .debugGangStop => Sys2Proof.Machine.execDebugGangStop s
  | .debugStateRead => Sys2Proof.Machine.execDebugStateRead s
  | .debugCounterAccess => Sys2Proof.Machine.execDebugCounterAccess s
  | .debugTraceControl => Sys2Proof.Machine.execDebugTraceControl s
  | .debugSessionExpiry => Sys2Proof.Machine.execDebugSessionExpiry s
  | .rowPowerOff => Sys2Proof.Machine.execRowPowerOff s
  | .rowPowerOn => Sys2Proof.Machine.execRowPowerOn s
  | .idleRowVoltageDrop => Sys2Proof.Machine.execIdleRowVoltageDrop s
  | .inFieldTest => Sys2Proof.Machine.execInFieldTest s
  | .ballast => Sys2Proof.Machine.execBallast s
  | .shInvalidationApply => Sys2Proof.Machine.execShInvalidationApply s
  | .timeSynchronisation => Sys2Proof.Machine.execTimeSynchronisation s
  | .linkRetransmission => Sys2Proof.Machine.execLinkRetransmission s
  | .traceHeldRecordDrain => Sys2Proof.Machine.execTraceHeldRecordDrain s

end Sys2Proof.Machine
end

