-- ==== Sys2Proof/Machine/Moves.lean ====
section
/-! DEFINITION. Moves.lean: what can happen next in a state, the turn of a slot, the strip cycle, steps that are due, what
the event counters and the trace see, and the clock (R48 to R51, R60, R61, R358, R404, R406, R407). -/

namespace Sys2Proof.Config

/-- What happens next where the spec fixes no order. [log 4 DESIGN CHOICE] -/
opaque nextMove : Nat → Machine.Choice

end Sys2Proof.Config

namespace Sys2Proof.Machine

/-! ### Steps of the device -/

/-- A step that the device takes by itself, at any moment at which its own conditions hold; the others come from the outside
world, or happen inside an instruction. -/
def ownStep (i : Instr) (u : Subject) : Bool :=
  match i with
  | .mbldExecute => true
  | .mmaExecute => true
  | .mzeroExecute => true
  | .mstoreExecute => true
  | .mmaOperandError => true
  | .taskDelivery => true
  | .taskSteal => true
  | .frontierRefill => true
  | .tasksExhausted => true
  | .tongsSpillFault => true
  | .heldSeedEntry => true
  | .saddBankUpdate => true
  | .crucibleRowError => true
  | .childRayStart => true
  | .rayCandidate => true
  | .stackRestart => true
  | .rayEnd => true
  | .rayFault => true
  | .replyArrival => true
  | .timingErrorReplay => true
  | .launchEntryRead => true
  | .launchPlacement => true
  | .launchCompletion => true
  | .migrantArrival => true
  | .spillRefill => true
  | .packetAcceptance => true
  | .slotRemoval => true
  | .slotReturn => true
  | .chunkCommit => true
  | .commitTokenGrant => true
  | .postedOpArrival => true
  | .postedAck => true
  | .queuePushPerform => true
  | .messageDepart => true
  | .messageArrival => true
  | .copyJobStart => true
  | .copyJobComplete => true
  | .tlbInvalidateRange => !u.flag
  | .tlbInvalidateAll => !u.flag
  | .tlbInvalidateNonglobal => !u.flag
  | .rootRereadInvalidate => !u.flag
  | .lineMigration => true
  | .migratedLineEviction => true
  | .samplerInvalidate => !u.flag
  | .shInvalidationApply => true
  | .patrolScrub => true
  | .modeTableRequest => true
  | .mgmtSlot0Resume => true
  | .mgmtSlot0Kill => true
  | .launchQueueReset => true
  | .partitionReset => true
  | .debugSessionOpen => true
  | .debugSessionClose => true
  | .debugSessionStep => true
  | .eventCounterSelect => true
  | .portControlRequest => true
  | .partitionSwitch => true
  | .rowPowerOff => true
  | .rowPowerOn => true
  | .idleRowVoltageDrop => true
  | .inFieldTest => true
  | .ballast => true
  | .traceHeldRecordDrain => true
  | _ => false

/-- A step that the outside world, Nolmon or Bellows decides on. [log 95 DEDUCED] -/
def outsideStep (i : Instr) (u : Subject) : Bool :=
  match i with
  | .stage2Repair => true
  | .stage2Refusal => true
  | .timeSliceExpiry => u.flag
  | .tlbInvalidateRange => u.flag
  | .tlbInvalidateAll => u.flag
  | .tlbInvalidateNonglobal => u.flag
  | .rootRereadInvalidate => u.flag
  | .shOwnershipRequest => true
  | .shInvalidationReceive => true
  | .samplerInvalidate => u.flag
  | .pageConsolidation => true
  | .ueMessageReceive => true
  | .ueDeliveryFailure => true
  | .hostWrite => true
  | .hostRead => true
  | .cxlMemAccess => true
  | .linkPortFailure => true
  | .moduleLoss => true
  | .domainFormation => true
  | .moduleReset => true
  | .partitionCreate => true
  | .thermalLimit => true
  | .thermalRecovery => true
  | .getVersion => true
  | .getCapabilities => true
  | .negotiateAlgorithms => true
  | .getDigests => true
  | .getCertificate => true
  | .challenge => true
  | .getMeasurements => true
  | .keyExchange => true
  | .finish => true
  | .endSession => true
  | .debugUnlock => true
  | .debugStop => true
  | .debugResume => true
  | .debugSingleStep => true
  | .debugStepToIdle => true
  | .debugGangStop => true
  | .debugStateRead => true
  | .debugCounterAccess => true
  | .debugTraceControl => true
  | .timeSynchronisation => true
  | .linkRetransmission => true
  | _ => false

/-- The source of the records of the unit that takes a step: the core by whose `loc` it goes, and its unit code; none for a
step of no unit (R356, R357). -/
def State.stampUnit (s : State) (i : Instr) (u : Subject) : Option (Nat × Nat) :=
  let bank : Option (Nat × Nat) := (s.posted[u.idx]?).map fun p => (bankCore p.op.span.1, 4)
  match i with
  | .copyJobStart => some (u.cluster * 8, 1)
  | .copyJobComplete => some (u.cluster * 8, 1)
  | .taskDelivery => some (u.cluster * 8, 2)
  | .taskSteal => some (u.cluster * 8, 2)
  | .frontierRefill => some (u.cluster * 8, 2)
  | .tongsSpillFault => some (u.cluster * 8, 2)
  | .heldSeedEntry => some (u.cluster * 8, 2)
  | .childRayStart => some (u.core, 3)
  | .rayCandidate => some (u.core, 3)
  | .stackRestart => some (u.core, 3)
  | .rayEnd => some (u.core, 3)
  | .rayFault => some (u.core, 3)
  | .saddBankUpdate => bank
  | .crucibleRowError => bank
  | .launchEntryRead => some (u.die * 512, 7)
  | .launchPlacement => some (u.die * 512, 7)
  | .launchCompletion => ((s.part? u.part).bind fun p => p.launchAt u.idx).map fun l => (l.endDie * 512, 7)
  | .patrolScrub => some (0, 6)
  | .ueMessageReceive => some (0, 6)
  | .ueDeliveryFailure => some (0, 6)
  | .linkPortFailure => some (0, 6)
  | .linkRetransmission => some (0, 6)
  | _ => none

/-- A bank's step is for a thread of a partition switched out, in whose context no record can be held (R356, R387). -/
def State.forAway (s : State) (i : Instr) (u : Subject) : Bool :=
  (i == .saddBankUpdate || i == .crucibleRowError) && ((s.posted[u.idx]?).bind fun p => s.away p.src).isSome

/-- The unit of a step holds a record for its stamp, or has a message to stamp, or a record for a context switched out, and
no stamp left in this rot: the work behind waits (R356). [log 40 DEDUCED] -/
def State.unitWaits (s : State) (i : Instr) (u : Subject) : Bool :=
  match s.stampUnit i u with
  | some (c, n) => (s.heldStamp c n).isSome || (i == .ueMessageReceive || s.forAway i u) && !s.mayStamp c n
  | none => false

/-- The ray that a unit's step walks stands at a node boundary (R386). -/
def State.atNode (s : State) : Bool :=
  match s.subjectRay with
  | some r => r.prims == []
  | none => true

/-- A step would begin new work of a halted core or cluster: matrix engines stand at a step's end, rays at a node boundary,
channels at a row's end, Tongs between placements, and messages and packets in their buffers (R386). [log 76 DEDUCED] -/
def State.haltStops (s : State) (i : Instr) (u : Subject) : Bool :=
  let core := (s.core u.core).halted
  let cluster := (s.core (u.cluster * 8)).halted
  match i with
  | .mbldExecute => core
  | .mmaExecute => core
  | .mzeroExecute => core
  | .mstoreExecute => core
  | .childRayStart => core
  | .rayCandidate => core && ({ s with subject := u } : State).atNode
  | .stackRestart => core
  | .messageDepart => core
  | .migrantArrival => core
  | .packetAcceptance => core
  | .spillRefill => core
  | .taskDelivery => cluster
  | .taskSteal => cluster
  | .frontierRefill => cluster
  | .heldSeedEntry => cluster
  | .copyJobStart => cluster && !s.inRow u.cluster ⟨u.idx % 8, Nat.mod_lt _ (by decide)⟩
  | _ => false

/-! ### Steps that are due -/

/-- A reply that must arrive in the present cycle: one whose time is fixed, or a condition that has come about. [log 6
DEDUCED; 100 DEDUCED] -/
def State.replyDue (s : State) (c : Nat) (k : SlotN) (t : Thread) : Bool :=
  match t.wait with
  | .reply _ exact _ => exact && s.replyHere c k
  | _ => s.replyHere c k

/-- What is due for the thread in a slot: a deferred trap that withdraws its wait comes before the end of that wait (R372).
[log 6 DEDUCED] -/
def State.threadDue (s : State) (c : Nat) (k : SlotN) (t : Thread) : Option Instr :=
  if t.st == .parked && t.deferReady then some .deferredTrap
  else if s.replyDue c k t then some .replyArrival
  else if t.stripDue (s.core c).cycle then some .stripComplete
  else if s.expired c k then some .waitLimitExpiry
  else if s.bartoOver c t && (s.barrierVals c t).isSome then some .barrierTimeout
  else if s.bartoOver c t && s.gangWaits c t then some .gangTimeout
  else if t.toClose && t.closable then some .chunkLimitClose
  else if s.parkedLong c k then some .migrantParkSwap
  else none

/-- What is due on a core. -/
def State.coreDue (s : State) (c : Nat) : Option (Instr × Subject) :=
  let x := s.core c
  match x.threads.findSome? fun e => (s.threadDue c e.1 e.2).map fun i => (i, e.1) with
  | some (i, k) => some (i, { core := c, slot := k })
  | none =>
    if 4 < x.recentReplays.length then some (.replayRateReport, { core := c })
    else if s.gangReady c then some (.mgangExecute, { core := c })
    else if (s.rayAborts c).isSome && (s.heldStamp c 3).isNone then some (.rayEnd, { core := c, val := (s.rayAborts c).getD 0 })
    else if x.windowStart + windowCycles ≤ x.cycle then some (.efficiencyDividerStep, { core := c })
    else none

/-- The first held record whose source may draw its stamp (R356). [log 40 DEDUCED] -/
def State.stampDue (s : State) : Option (Instr × Subject) :=
  (s.unstamped.find? fun e => (s.source e.core e.unit).ready s.rot).map fun e => (.stampHoldRelease, { core := e.core, num := e.unit })

/-- The first barrier signal that is due. -/
def State.signalDue (s : State) : Option (Instr × Subject) :=
  ((List.range s.signals.length).findSome? fun i => (s.signalAt i).map fun g => (i, g)).map fun e =>
    (if e.2.kind = 3 then .barrierReleaseSignal else .barrierArrivalSignal, { idx := e.1 })

/-- What is due for a partition: promotions, the ms of its power, its quantum, its session, its stall maps. -/
def State.partDue (s : State) (p : Part) : Option (Instr × Subject) :=
  let n := p.cfg.part
  match p.launches.findSome? fun l => (l.dies.find? fun d => l.promoteDue d s.clock).map fun d => (l.order, d) with
  | some (i, d) => some (.priorityPromotion, { part := n, die := d, idx := i })
  | none =>
    if s.sessionOver n then some (.debugSessionExpiry, { part := n })
    else if s.sliceOver p then some (.timeSliceExpiry, { part := n })
    else if p.msOver s.clock then
      some (.powerCapExceeded, { part := n, num := 8 })
    else ((List.range 8).find? fun d => s.captureDue n d).map fun d => (.stallMapCapture, { part := n, die := d })

/-- What is due on a die: a line that moves, a pass of its detector, a sample of Prefect. -/
def State.dieDue (s : State) (d : Nat) : Option (Instr × Subject) :=
  if (s.migrationDue d).isSome then some (.lineMigration, { die := d, addr := (s.migrationDue d).getD 0 })
  else if s.passDue d && s.mayStamp 0 6 then some (.deadlockPass, { die := d })
  else if (s.die d).lastSample + 4096 ≤ s.clock then some (.prefectSample, { die := d })
  else none

/-- A budget period that is over. -/
def State.budgetDue (s : State) : Option (Instr × Subject) :=
  if !s.mgmt.booted then none else
  ((List.finRange 7).find? fun i => (s.mgmt.budgets[i]).start + 2 ^ (s.mgmt.budgets[i]).period ≤ s.rot).map fun i =>
    (.budgetPeriod, { idx := i.val })

/-- The partition whose work a step is: that of its thread, engine, cluster, posted operation, signal or launch; none for
what is no partition's work, and for an activity of the budget table, whose meaning charges it (R360). [log 58 DESIGN
CHOICE] -/
def State.workOf (s : State) (i : Instr) (u : Subject) : Option Nat :=
  let core : Option Nat := (s.core u.core).part
  let cluster : Option Nat := (s.core (u.cluster * 8)).part
  let posted : Option Nat := (s.posted[u.idx]?).bind fun p => s.partOfRef p.src
  let signal : Option Nat := (s.signals[u.idx]?).bind fun g => (s.core g.core).part
  match i with
  | .taskDelivery => cluster
  | .taskSteal => cluster
  | .frontierRefill => cluster
  | .tongsSpillFault => cluster
  | .heldSeedEntry => cluster
  | .copyJobStart => cluster
  | .copyJobComplete => cluster
  | .samplerInvalidate => if u.flag then some u.part else cluster
  | .saddBankUpdate => posted
  | .crucibleRowError => posted
  | .postedOpArrival => posted
  | .queuePushPerform => posted
  | .messageArrival => posted
  | .postedAck => (s.acks[u.idx]?).bind fun a => s.partOfRef a.dst
  | .barrierReleaseSignal => signal
  | .barrierArrivalSignal => signal
  | .tasksExhausted => some u.part
  | .launchEntryRead => some u.part
  | .launchPlacement => some u.part
  | .launchCompletion => some u.part
  | .priorityPromotion => some u.part
  | .mgangExecute => core
  | .mbldExecute => core
  | .mmaExecute => core
  | .mzeroExecute => core
  | .mstoreExecute => core
  | .mmaOperandError => core
  | .childRayStart => core
  | .rayCandidate => core
  | .stackRestart => core
  | .rayEnd => core
  | .rayFault => core
  | .replyArrival => core
  | .timingErrorReplay => core
  | .migrantArrival => core
  | .spillRefill => core
  | .packetAcceptance => core
  | .chunkCommit => core
  | .chunkLimitClose => core
  | .messageDepart => core
  | .deferredTrap => core
  | .stripComplete => core
  | .waitLimitExpiry => core
  | .barrierTimeout => core
  | .gangTimeout => core
  | .migrantParkSwap => core
  | _ => none

/-- A step of the device or of the outside, about a subject; the energy of the work is charged to its partition (R360). [log
81 DESIGN CHOICE] -/
def perform (s : State) (i : Instr) (u : Subject) : Out :=
  let s1 := match s.workOf i u with
    | some n => s.charge (some n)
    | none => s
  exec i { s1 with subject := u }

/-- A step would write a line of the solo chunk that holds the token, and not by committing that chunk: engine writes wait
until it commits (R245). [log 90 DEDUCED] -/
def State.soloStops (s : State) (o : Out) : Bool :=
  match s.soloLines, o with
  | some (r, ls), .next t =>
    (match t.soloLines with
      | some (r', _) => r' == r
      | none => false) && t.records.any fun e => s.commitSeq < e.1 && e.2.any fun l => ls.contains l
  | _, _ => false

/-- A due step that would write a line of the solo chunk waits (R245). [log 90 DEDUCED] -/
def State.unlessSolo (s : State) (o : Option (Instr × Subject)) : Option (Instr × Subject) :=
  o.filter fun e => !s.soloStops (perform s e.1 e.2)

/-- The first step that is due: its time is fixed, and it comes before anything else of the cycle. [log 6 DEDUCED] -/
def State.due (s : State) : Option (Instr × Subject) :=
  match s.signalDue.or s.stampDue with
  | some e => some e
  | none =>
    match s.cores.findSome? fun e => s.unlessSolo (s.coreDue e.1) with
    | some e => some e
    | none =>
      match (List.range 8).findSome? s.dieDue with
      | some e => some e
      | none =>
        match s.parts.findSome? fun e => s.unlessSolo (s.partDue e.2) with
        | some e => some e
        | none =>
          if s.makerOver then some (.debugSessionExpiry, { flag := true })
          else if s.moveDue then some (.linkPortFailure, { flag := true })
          else s.budgetDue

/-! ### What counters, debug and trace see -/

/-- The thread of a slot before and after, where it is the same. -/
def sameThread (a b : Slot) : Option (Thread × Thread) :=
  match a, b with
  | .thread x, .thread y => if x.serial = y.serial then some (x, y) else none
  | _, _ => none

/-- The instruction of a thread was completed between two states of it (R123). -/
def Thread.done (before after : Thread) : Bool :=
  after.st == .runnable && before.cc.squash == after.cc.squash && (before.instret != after.instret || before.counted && !after.counted)

/-- A thread that single-steps or steps to idle has gone far enough (R183, R406). [log 79 DEDUCED] -/
def stepOver (before after : Thread) (idle : Bool) : Bool :=
  after.st == .runnable && !after.redo && before.stepping == after.stepping &&
  match after.stepping with
  | some false => before.st == .parked || before.done after || before.a.pc != after.a.pc
  | some true => idle
  | none => false

/-- Sees what a step did to one slot: a step request over, a trap traced (R406, R407). -/
def State.seeSlot (s0 s : State) (c : Nat) (k : SlotN) : State :=
  match sameThread (s0.slot c k) (s.slot c k) with
  | none => s
  | some (a, b) =>
    let s2 := if stepOver a b (s.core c).c.mx.idle then s.holdThread c k else s
    match a.st, b.st, (s.core c).part with
    | .trapped, _, _ => s2
    | _, .trapped, some n =>
      s2.traceEvent c n 0 { kind := 2, slot := k.val, core := (s.loc c 0).toNat % 2 ^ 32, pc := b.tr.trpc
                            data := b.tr.trcause &&& 0xFF#64, stamp := 0 }
    | _, _, _ => s2

/-- Sees what a step did to the threads of a core. -/
def State.seeCore (s0 s : State) (c : Nat) : State := (List.finRange 8).foldl (fun s k => s0.seeSlot s c k) s

/-- The SIZE field of a local queue's descriptor reads 16, whatever is stored there (R259). -/
def State.localSizes (s : State) : State :=
  (s.cores.map fun e => clusterOf e.1).eraseDups.foldl (fun s cl =>
    match s.heldArea cl 14 with
    | some key => (List.range 64).foldl (fun s i =>
        if s.num (key + 32 * i) 2 = 16 then s else s.poke (key + 32 * i) (leBytes 2 16)) s
    | none => s) s

/-- Key of the byte a record of cause 31 names by its address; the address itself where it is in no memory, or the page walk
met the error (R188, R410). [log 125 DESIGN CHOICE] -/
def State.errorKey (s : State) (c : Nat) (va : Word) : Nat :=
  match (s.resolve c va.toNat .load false).2 with
  | .ok (.lane key) => key
  | .ok (.own _ key) => key
  | .ok (.remote _ _ key) => key
  | .ok (.slate _ key) => key
  | .ok (.global p) => p.pa
  | .error _ => va.toNat

/-- The records of cause 31 at a core and at its management complex. -/
def State.errorRecs (s : State) (c : Nat) : List TrapRec :=
  let x := (s.core c).c
  let slot0 := (((s.partOf c).map (·.mgmtTraps)).getD []).filter fun r => r.loc.toNat / 8 % 4096 == c
  (x.trapQ ++ x.heldRecs ++ slot0).filter (·.cause == 31)

/-- An uncorrectable error that an access of a core met is logged, with its trap record (R188, R410). [log 125 DESIGN
CHOICE] -/
def State.seeErrors (s0 s : State) (c : Nat) : State :=
  ((s.errorRecs c).filter fun r => !(s0.errorRecs c).contains r).foldl (fun s r =>
    let key := s.errorKey c r.trval
    s.logError 1 (storageUnit key) key 1 ((s.core c).part)) s

/-- Sees what a step did to every thread. -/
def State.see (s0 s : State) : State :=
  ((s.cores.map (·.1)).foldl (fun s c => s0.seeErrors (s0.seeCore s c) c) s).localSizes

/-! ### The turn of a slot -/

/-- Loads and atomics (R358). -/
def loads : Instr → Bool
  | .lb _ _ _ => true
  | .lh _ _ _ => true
  | .lw _ _ _ => true
  | .lbu _ _ _ => true
  | .lhu _ _ _ => true
  | .lwu _ _ _ => true
  | .ld _ _ _ => true
  | .ldx _ _ _ _ _ _ => true
  | .ldxF _ _ _ _ _ _ => true
  | .ldro _ _ _ _ => true
  | .aadd _ _ _ _ _ _ => true
  | .aswp _ _ _ _ _ _ => true
  | .aand _ _ _ _ _ _ => true
  | .aor _ _ _ _ _ _ => true
  | .axor _ _ _ _ _ _ => true
  | .amax _ _ _ _ _ _ => true
  | .amin _ _ _ _ _ _ => true
  | .amaxu _ _ _ _ _ _ => true
  | .aminu _ _ _ _ _ _ => true
  | .acas _ _ _ _ _ _ => true
  | .afadd _ _ _ _ _ => true
  | .afmax _ _ _ _ _ => true
  | .aincw _ _ _ _ _ _ => true
  | _ => false

/-- Branches and jumps (R407). -/
def branches : Instr → Bool
  | .jal _ _ => true
  | .jalr _ _ _ => true
  | .beq _ _ _ => true
  | .bne _ _ _ => true
  | .blt _ _ _ => true
  | .bge _ _ _ => true
  | .bltu _ _ _ => true
  | .bgeu _ _ _ => true
  | _ => false

/-- Sees what an instruction did beyond its effect: a load that parked, counted where it first issues, a taken branch, a
DBRK (R358, R407). [log 65 DEDUCED] -/
def State.seeInstr (s0 s : State) (c : Nat) (k : SlotN) (i : Instr) (first : Bool) : State :=
  match sameThread (s0.slot c k) (s.slot c k) with
  | none => s
  | some (a, b) =>
    let s2 := if first && loads i && b.st == .parked then s.modCore c fun x => x.countEv 9 else s
    match (s.core c).part with
    | none => s2
    | some n =>
      let r (kind : Nat) (data : Word) : TraceRec :=
        { kind := kind, slot := k.val, core := (s.loc c 0).toNat % 2 ^ 32, pc := a.a.pc, data := data, stamp := 0 }
      if a.done b && branches i && b.jumped then
        if s2.tracing n then
          let (v, s3) := s2.openField
          s3.traceEvent c n 0 (r 1 v)
        else s2
      else match ((s0.part? n).map (·.dbrks)), ((s2.part? n).map (·.dbrks)) with
        | some a, some b =>
          if a.length < b.length then match b.getLast? with
            | some e => s2.traceEvent c n 0 (r 5 e.2.2)
            | none => s2
          else s2
        | _, _ => s2

/-- The outcome of part of a step, gone on with. -/
def thenDo (o : Out) (f : State → State) : Out :=
  match o with
  | .next s => .next (f s)
  | .fault e => .fault e
  | .refused r => .refused r

/-- The state in which the instruction of a turn is fetched: the turn is used, and its energy charged (R358, R360). -/
def State.beginTurn (s : State) (c : Nat) (k : SlotN) : State :=
  (({ s with cur := (c, k) }).modCore c fun x => { x.countEv 1 with turnDone := true, issued := x.issued + 1 }).chargeCore c

/-- An engine write that an instruction performs, in a line of another thread's solo chunk, waits until that chunk commits:
the instruction waits with it (R245). [log 90 DEDUCED] -/
def State.soloHeld (s : State) (c : Nat) (k : SlotN) (o : Out) : Out :=
  match s.soloLines with
  | none => o
  | some (r, ls) => if r ≠ (s.thr c k).ref c ∧ s.soloStops o then
      .next (s.park c k (.cond (.solo (ls.headD 0)))) else o

/-- Fetches and performs the thread's instruction. -/
def issueAt (s : State) (c : Nat) (k : SlotN) : Out :=
  match fetchInstr s c k with
  | .stop s1 => .next s1
  | .ok s1 i => thenDo (s1.soloHeld c k (exec i s1)) fun s2 => s1.seeInstr s2 c k i true

/-- The first thread whose wait has ended and whose instruction is still to be performed. [log 7 DEDUCED] -/
def State.againLeft (s : State) : Option (Nat × SlotN) :=
  s.cores.findSome? fun e => (e.2.threads.find? fun p => p.2.st == .runnable && p.2.redo).map fun p => (e.1, p.1)

/-- Performs the instruction of a thread whose wait has ended; the thread's next one issues at a later turn (R49). [log 7
DEDUCED; 49 DEDUCED] -/
def goOnAt (s : State) (c : Nat) (k : SlotN) : Out :=
  match (endFirst { s with cur := (c, k) } c k).bind fun s _ => decodeAt s c k (s.thr c k).word with
  | .stop s1 => .next s1
  | .ok s1 i => thenDo (s1.soloHeld c k (exec i s1)) fun s2 => s1.seeInstr (s2.release ((s1.thr c k).ref c)) c k i false

/-- The turn of a slot is used (R49). -/
def State.useTurn (s : State) (c : Nat) (k : SlotN) : State :=
  { s with cur := (c, k) }.modCore c fun x => { x with turnDone := true }

/-- The turn of the thread in a slot: a deferred trap comes before its instruction, which then does not issue, also while
strips issued earlier hold the trap back; a thread whose chunk is at its limit while the earlier one cannot be judged parks
before it (R49, R242, R372). -/
def turn (s : State) (c : Nat) (k : SlotN) : Out :=
  let t := s.thr c k
  if t.deferReady then .next ((s.useTurn c k).takeDeferred c k)
  else if t.deferred != [] then .next ((s.useTurn c k).park c k (.cond .refetch))
  else if t.atLimit then .next ((s.useTurn c k).park c k (.cond .limit))
  else issueAt (s.beginTurn c k) c k

/-! ### Strip cycles -/

/-- The thread whose strip executes in the present strip cycle of a core: the owner, or the first after it that borrows
(R60, R61). -/
def State.stripSlot (s : State) (c : Nat) : Option SlotN :=
  let x := s.core c
  if x.stripDone || x.wait != 0 then none else
  let own : SlotN := ⟨x.cycle % 8, Nat.mod_lt _ (by decide)⟩
  let pending (k : SlotN) : Bool := match s.thread? c k with
    | some _ => (s.nextStrip c (s.home c k)).isSome
    | none => false
  let borrows (k : SlotN) : Bool := pending k && match s.thread? c k with
    | some t => t.a.csr.vctl.getLsbD 18
    | none => false
  let lend := match s.partOf c with
    | some p => p.mode.lend
    | none => false
  if pending own then some (s.home c own)
  else if lend then (((List.range 7).map fun i => own + 1 + BitVec.toFin (BitVec.ofNat 3 i)).find? borrows).map (s.home c)
  else none

/-- The strip cycle of a core (R60, R61, R358). -/
def stripCycle (s : State) (c : Nat) (k : SlotN) : Out :=
  let own : SlotN := ⟨(s.core c).cycle % 8, Nat.mod_lt _ (by decide)⟩
  let s1 := (s.modCore c fun x =>
    { (if s.home c own = k then x.countEv 4 else (x.countEv 4).countEv 5) with stripDone := true }).chargeCore c
  exec .stripExecute { s1 with subject := { core := c, slot := k } }

/-! ### The clock -/

/-- The present cycle of a core ends: turns lost and cycles with MBUSY are counted; a divider changes at a rot boundary
(R358, R404). [log 77 DEDUCED] -/
def Core.nextCycle (x : Core) (busy : Bool) : Core :=
  let own : SlotN := ⟨x.cycle % 8, Nat.mod_lt _ (by decide)⟩
  let home : SlotN := match x.c.slots[own] with
    | .odd => own - 1
    | _ => own
  let lost := if x.turnDone then 0 else match x.c.slots[home] with
    | .thread t => if t.st = .runnable then 0 else 2
    | _ => 3
  let y := if lost = 0 then x else x.countEv lost
  let z := if busy then y.countEv 11 else y
  let d := if (x.cycle + 1) % 8 = 0 then x.nextDivider else x.divider
  { z with cycle := x.cycle + 1, divider := d, wait := d - 1, turnDone := false, stripDone := false, strikes := false }

/-- A period of the module's clock ends (R404). -/
def tick (s : State) : State :=
  { s with
    clock := s.clock + 1
    cores := s.cores.map fun e => (e.1, if e.2.wait = 0 then e.2.nextCycle (s.mStarted e.1) else { e.2 with wait := e.2.wait - 1 }) }

/-! ### What happens next -/

/-- The first core with a turn, or a strip cycle, still to be used. -/
def State.turnLeft (s : State) : Option (Nat × SlotN) := s.cores.findSome? fun e => (s.canIssue e.1).map fun k => (e.1, k)
def State.stripLeft (s : State) : Option (Nat × SlotN) := s.cores.findSome? fun e => (s.stripSlot e.1).map fun k => (e.1, k)

/-- Goes on where nothing else is chosen: a turn left, a strip left, the next cycle. -/
def goAhead (s : State) : Out :=
  match s.turnLeft with
  | some (c, k) => turn s c k
  | none =>
    match s.stripLeft with
    | some (c, k) => stripCycle s c k
    | none => .next (tick s)

/-- The next choice, and the state without it. [log 4 DESIGN CHOICE] -/
def State.nextMove (s : State) : Choice × State :=
  match s.moves with
  | m :: ms => (m, { s with moves := ms })
  | [] => (Config.nextMove s.freeN, { s with freeN := s.freeN + 1 })

/-- What a choice does; one that cannot be made now leaves the module to go on. [log 4 DESIGN CHOICE] -/
def State.choice (s : State) (m : Choice) : Out :=
  match m with
  | .turn c => match s.canIssue c with
    | some k => turn s c k
    | none => goAhead s
  | .strip c => match s.stripSlot c with
    | some k => stripCycle s c k
    | none => goAhead s
  | .event i u => if ownStep i u && !s.unitWaits i u && !s.haltStops i u && !s.soloStops (perform s i u) then perform s i u else goAhead s
  | .input => match s.inputs with
    | (i, u) :: es =>
      let s1 := { s with inputs := es, subject := u }
      if !outsideStep i u then goAhead { s with inputs := es }
      else if s.unitWaits i u then goAhead s
      else if s.soloStops (exec i s1) then goAhead s
      else exec i s1
    | [] => goAhead s
  | .strike key =>
    if 2 ^ 63 ≤ key then
      let w := key - 2 ^ 63
      if w < 2 ^ 60 then .next { s with bad := addLine s.bad (w / 8 * 8 + 2 ^ 63) } else goAhead s
    else .next { s with bad := addLine s.bad (unitOf key) }
  | .strikeLine cl i w => .next (s.modCluster cl fun q =>
      { q with sampler := q.sampler.modify i fun l => { l with struck := addLine l.struck (w % 8) } })
  | .strikeHint cl i w => .next (s.modCluster cl fun q =>
      { q with hints := q.hints.filter fun h => !(h.set_ == i && h.way == w) })
  | .strikeTlb cl i => .next (s.modCluster cl fun q => { q with tlb := q.tlb.modify i fun e => { e with bad := true } })
  | .strikeMicro c i => .next (s.modCore c fun q => { q with utlb := q.utlb.modify i fun e => { e with bad := true } })
  | .setWays n w => .next (s.reassignWays n w)
  | .setBudget i p b r a => .next (s.writeBudget i p b r a)
  | .flit c l v => .next (s.countLink c l v false)
  | .stall c l v => .next (s.countLink c l v true)
  | .tick => goAhead s

/-! ### Placing an instruction -/

/-- Where the next turn fetches: core, slot and physical address; none when something else comes first. -/
def State.fetchPlace (s : State) : Option (Nat × SlotN × Nat) :=
  if s.due.isSome || s.againLeft.isSome then none else
  match s.turnLeft with
  | none => none
  | some (c, k) =>
    let t := s.thr c k
    if t.deferred != [] || t.atLimit then none else
    match s.resolve c t.a.pc.toNat .fetch with
    | (_, .ok (.global p)) => some (c, k, p.pa)
    | _ => none

/-- The slot in which an instruction may run: the supervisor's own in slot 0, CPYISS in slot 1, others in slot 2 (R52, R53).
[log 3 DESIGN CHOICE] -/
def bootSlot (i : Option Instr) : SlotN :=
  let sup (n : Nat) : SlotN := if 0x5C0 ≤ n ∧ n ≤ 0x5C3 then 0 else 2
  match i with
  | some (.trpop _ _) => 0
  | some (.xrdt _ _ _ _) => 0
  | some (.xwrt _ _ _ _) => 0
  | some (.xresume _ _) => 0
  | some (.xkill _ _) => 0
  | some (.tcswap _ _ _ _) => 0
  | some (.cpyiss _ _ _ _) => 1
  | some (.csrrw _ _ n) => sup n.toNat
  | some (.csrrs _ _ n) => sup n.toNat
  | some (.csrrc _ _ n) => sup n.toNat
  | some (.csrrwi _ _ n) => sup n.toNat
  | some (.csrrsi _ _ n) => sup n.toNat
  | some (.csrrci _ _ n) => sup n.toNat
  | _ => 2

/-- Addresses of the placed program: its tables, control page and first instruction. -/
def bootPc : Nat := 0x40000

/-- The partition that holds a placed program: one row, everything mapped to itself. [log 3 DESIGN CHOICE] -/
def bootPart : Part :=
  { Part.create
    { part := 0, rows := [(0, 0)], ctlPage := 0x50000, s2root := 0, spadBase := 0, spadBytes := Config.spadBytes, lanes := true
      slate := [(0, 0, Config.slateBytes)], ways := 0xFF, ctxArea := 0x100000, capped := false, efficiency := false, quantum := 0
      powerCap := 0, ueGrant := [], jobs := [], ownerKey := [], debugKeys := [], image := [], imageSig := [], entry0 := 0, entry1 := 0 } with
    s1root := 0x20000 }

/-- The page tables of a placed program: stage 2 at 0 and 0x10000, stage 1 at 0x20000 and 0x30000, one 1 GiB leaf each
with every permission (R190, R191). -/
def State.bootTables (s : State) : State :=
  (((s.poke 0 (leBytes 8 0x10001)).poke 0x10000 (leBytes 8 0x7F)).poke 0x20000 (leBytes 8 0x30001)).poke 0x30000 (leBytes 8 0x7F)

/-- A program is loaded from outside: a partition on row 0 of die 0, and on core 3 a thread about to fetch the bytes. [log 3
DESIGN CHOICE] -/
def State.boot (s : State) (k : SlotN) (bs : List Byte) : State :=
  let t : Thread := { Thread.reset with serial := 1, a := { Arch.reset with pc := BitVec.ofNat 64 bootPc } }
  let x : Core := { Core.reset with
    part := some 0, cycle := 8 + k.val, lastSerial := 1
    c := { CoreCtx.reset with slots := CoreCtx.reset.slots.set k (.thread t) } }
  { (({ s with mem := [], bad := [] } : State).bootTables.poke bootPc bs) with
    clock := 8 + k.val, cores := [(3, x)], clusters := [], dies := [], parts := [(0, bootPart)], signals := [], unstamped := [], s2waits := []
    movingPages := [], mgmt := { s.mgmt with booted := false }, moves := [.turn 3] }

/-- Stores bytes where the next turn fetches, or loads a program that is about to fetch them. [log 3 DESIGN CHOICE] -/
def State.place_ (s : State) (k : SlotN) (bs : List Byte) : State :=
  match s.fetchPlace with
  | some (c, _, pa) =>
    let s1 := (s.poke pa bs).modCluster (clusterOf c) fun q =>
      { q with sampler := q.sampler.filter fun l => l.line != pa / 64 && l.line != (pa + 4) / 64 }
    { s1 with moves := .turn c :: s.moves }
  | none => s.boot k bs

end Sys2Proof.Machine
end

