-- ==== Sys2Proof/Machine/Step.lean ====
section
/-! DEFINITION. Step.lean: one step of the module, and a program's placement where the next step fetches it. -/

namespace Sys2Proof.Machine

/-- Every core of the state is a core of the module (R12). [log 80 DESIGN CHOICE] -/
def State.coresOk (s : State) : Bool := s.cores.all fun e => e.1 < Config.cores

/-- One step: what is due, an instruction whose wait has ended, or else what is chosen next. [log 4 DESIGN CHOICE; 7
DEDUCED; 80 DESIGN CHOICE] -/
def step (s : State) : Host.Outcome State Fault Refusal :=
  if !s.coresOk then .fault .noSuchCore else
  match s.due with
  | some (i, u) => thenDo (perform s i u) s.see
  | none =>
    match s.againLeft with
    | some (c, k) => thenDo (goOnAt s c k) s.see
    | none =>
      let (m, s1) := s.nextMove
      thenDo (s1.choice m) s.see

/-- The instruction whose bits are w, the bits above nbits zero, placed so that the next step fetches and runs it. [log 3
DESIGN CHOICE] -/
def State.withFetchWord (s : State) (nbits w : Nat) : State :=
  let v := w % 2 ^ nbits
  s.place_ (bootSlot (decodeTableWord nbits w)) (bytesOfWord (v % 2 ^ 32) ++ bytesOfWord (v / 2 ^ 32 % 2 ^ 32))

end Sys2Proof.Machine
end

