-- ==== Sys2Proof/Safety.lean ====
section
/-! DEFINITION. Safety.lean: what counts as a sound state and a safe step, and the conditions and results the claims are
stated in. -/

namespace Sys2Proof.Machine

/-- Memory is in its canonical form. -/
def State.memOk (s : State) : Prop := s.mem.wf = true

/-! ### Forms -/

/-- The guard field of an instruction; 0 where it has none (R106, R107, R112). -/
def guardOf : Instr → Guard
  | .ldx g _ _ _ _ _ => g
  | .ldxF g _ _ _ _ _ => g
  | .stx g _ _ _ _ _ => g
  | .stxF g _ _ _ _ _ => g
  | .pseq g _ _ _ => g
  | .psne g _ _ _ => g
  | .pslt g _ _ _ => g
  | .psge g _ _ _ => g
  | .psltu g _ _ _ => g
  | .psgeu g _ _ _ => g
  | .pand g _ _ _ => g
  | .por g _ _ _ => g
  | .pandn g _ _ _ => g
  | .pxor g _ _ _ => g
  | .prd g _ => g
  | .pwr g _ _ => g
  | .limm g _ _ => g
  | .fencer g _ _ _ _ => g
  | .ldro g _ _ _ => g
  | .feclr g _ _ => g
  | .feset g _ _ => g
  | .fetest g _ _ => g
  | .cntwait g _ => g
  | .stnibLo g _ _ => g
  | .stnibHi g _ _ => g
  | .lockr g _ _ => g
  | .chunk g _ _ => g
  | .pfetch g _ _ _ => g
  | .spawn g _ _ _ => g
  | .mspawn g _ _ _ => g
  | .migr g _ => g
  | .retire g => g
  | .waitev g _ => g
  | .pairon g _ => g
  | .pairoff g => g
  | .rep g _ _ => g
  | .qpush g _ _ => g
  | .qpop g _ _ => g
  | .qwait g _ _ _ => g
  | .qstat g _ _ => g
  | .msend g _ _ _ => g
  | .mrecv g _ _ => g
  | .barset g _ _ => g
  | .barrive g _ _ => g
  | .barwait g _ _ => g
  | .barstat g _ _ => g
  | .qmap g _ _ _ => g
  | .qreg g _ _ => g
  | .mbxput g _ _ => g
  | .mbxget g _ _ => g
  | .cpyiss g _ _ _ => g
  | .cpywait g _ _ => g
  | .cpydone g _ _ => g
  | .trpop g _ => g
  | .xrdt g _ _ _ => g
  | .xwrt g _ _ _ => g
  | .xresume g _ => g
  | .xkill g _ => g
  | .tcswap g _ _ _ => g
  | .dbrk g _ => g
  | .stamp g _ => g
  | .mcfg g _ => g
  | .mgang g _ _ _ => g
  | .mbld g _ _ => g
  | .mma g _ _ _ => g
  | .mzero g _ => g
  | .mstore g _ _ => g
  | .mstat g _ => g
  | .mwait g => g
  | .ptcfg g _ _ => g
  | .ptserve g _ => g
  | .ptenq g _ => g
  | .topen g _ _ _ => g
  | .pfork g _ _ _ => g
  | .pdone g => g
  | .nacc g _ _ _ => g
  | .ndown g _ _ => g
  | .ndownUp g _ _ => g
  | .sacfg g _ _ => g
  | .saddF32 g _ _ => g
  | .saddBf16 g _ _ => g
  | .snormRms g _ _ => g
  | .snormLayer g _ _ => g
  | .snormUnit g _ _ => g
  | .ssq g _ _ => g
  | .szero g _ _ => g
  | .sevict g _ _ => g
  | .sload g _ _ => g
  | .sexport g _ _ => g
  | .trace g _ _ => g
  | .tresume g _ _ => g
  | .twait g _ _ => g
  | .taccept g _ => g
  | .tignore g _ => g
  | .tterm g _ => g
  | .tspawn g _ _ _ => g
  | .trsave g _ => g
  | .hhtinv g _ _ _ => g
  | .rsetup g _ _ => g
  | .rcover g _ _ _ => g
  | .rdepth g _ _ _ => g
  | .unlockrP1 => 1
  | .unlockrP2 => 2
  | .unlockrP3 => 3
  | .unlockrP4 => 4
  | .unlockrP5 => 5
  | .unlockrP6 => 6
  | .unlockrP7 => 7
  | _ => 0

/-- The slots that may issue an instruction (R52 to R54). -/
def whoOf : Instr → Who
  | .csrrw _ csr _ => csrWho csr.toNat
  | .csrrs _ csr _ => csrWho csr.toNat
  | .csrrc _ csr _ => csrWho csr.toNat
  | .csrrwi _ csr _ => csrWho csr.toNat
  | .csrrsi _ csr _ => csrWho csr.toNat
  | .csrrci _ csr _ => csrWho csr.toNat
  | .spawn _ _ _ _ => .user
  | .mspawn _ _ _ _ => .user
  | .migr _ _ => .user
  | .retire _ => .user
  | .pairon _ _ => .user
  | .pairoff _ => .user
  | .cpyiss _ _ _ _ => .movement
  | .trpop _ _ => .sup
  | .xrdt _ _ _ _ => .sup
  | .xwrt _ _ _ _ => .sup
  | .xresume _ _ => .sup
  | .xkill _ _ => .sup
  | .tcswap _ _ _ _ => .sup
  | .ptserve _ _ => .user
  | _ => .any

/-- Length of an instruction in bytes (R102, R110). -/
def lengthOf : Instr → Nat
  | .limm _ _ _ => 8
  | _ => 4

/-! ### Conditions -/

/-- The thread t stands in slot k of core c, and the instruction that `exec` is given is its own (R49, R58). -/
abbrev State.At (s : State) (c : Nat) (k : SlotN) (t : Thread) : Prop :=
  s.cur.1 = c ∧ s.home c s.cur.2 = k ∧ s.slot c k = .thread t

/-- The predicate that a guard field names (R106, R112). -/
def guardReg (g : Guard) : PReg := ⟨g.val, Nat.lt_trans g.isLt (by decide)⟩

/-- The guard lets the instruction execute: none, or its predicate is 1 (R112). -/
abbrev Arch.Guarded (a : Arch) (g : Guard) : Prop := g = 0 ∨ a.p (guardReg g) = true

/-- The registers are no mapped ones (R57). -/
abbrev Arch.Unmapped (a : Arch) (rs : List XReg) : Prop := ∀ r ∈ rs, a.mapped r = false

/-- An instruction of form f of the thread t executes: the slot may issue it, its guard holds, the core has the unit it
needs, it names no mapped register, and no timing error strikes it (R52, R57, R78, R80, R112, R117). -/
abbrev State.Ready (s : State) (c : Nat) (k : SlotN) (t : Thread) (f : Form) : Prop :=
  s.At c k t ∧ f.who.allows k = true ∧ t.a.Guarded f.guard ∧ (f.custom3 = true → equipped c = true) ∧
  t.a.Unmapped (f.src ++ f.dst) ∧ s.strikesNow c k = false

/-- The thread with an x register written; x0 discards it (R119). -/
def Thread.wx (t : Thread) (r : XReg) (v : Word) : Thread := { t with a := t.a.setX r v }
/-- The thread with a predicate written; p0 discards it (R119). -/
def Thread.wp (t : Thread) (r : PReg) (v : Bool) : Thread := { t with a := t.a.setP r v }
/-- The thread with a mask register written. -/
def Thread.wk (t : Thread) (r : KReg) (v : Word) : Thread := { t with a := t.a.setK r v }

/-- The state in which an instruction of len bytes of the thread has completed, the thread being t before its pc moves. -/
def State.done (s : State) (c : Nat) (k : SlotN) (t : Thread) (len : Nat := 4) : State := s.setThr c k (t.finish none len)

/-- The thread parked on a wait that begins in the core's present cycle, its instruction's word kept. -/
def Thread.parkedOn (t : Thread) (now : Nat) (word : Word32) (w : Wait) : Thread :=
  { t with st := .parked, wait := w, parkedAt := now, word := word }

/-- The chunks of the thread t close and are accepted: the state then is s1, the thread then u, with its registers as they
were and no chunk (R240, R242). -/
structure State.Commits (s : State) (c : Nat) (k : SlotN) (t : Thread) (s1 : State) (u : Thread) : Prop where
  run : commitFirst s c k = .ok s1 ()
  slot : s1.slot c k = .thread u
  a : u.a = t.a
  held : u.held = t.held
  serial : u.serial = t.serial
  vq : u.vq = t.vq
  chunk : u.chunk = none
  closed : u.closed = none

/-- No slot but k holds a lock over n bytes at the place, and no posted operation of the thread is on its way to the same
destination (R214, R248). -/
abbrev State.Free (s : State) (c : Nat) (k : SlotN) (t : Thread) (tg : Target) (n : Nat) : Prop :=
  (match tg with
    | .own off _ => s.lockHolds c off n (some (c, k)) = false
    | .remote d off _ => s.lockHolds d off n (some (c, k)) = false
    | _ => True) ∧
  (match tg with
    | .remote _ _ _ => s.sentTo (t.ref c) tg.dest = false
    | .slate _ _ => s.sentTo (t.ref c) tg.dest = false
    | _ => True)

/-- An access to n bytes at the place goes ahead: it is free, no vector access of the thread that is still to be performed
meets the bytes, and no unit there is marked uncorrectable (R151, R188). -/
abbrev State.Clear (s : State) (c : Nat) (k : SlotN) (t : Thread) (tg : Target) (n : Nat) : Prop :=
  t.overlaps tg.key n = false ∧ badIn s.bad tg.key n = none ∧ s.Free c k t tg n

/-- The addresses of the lanes of a vector access are checked and translated in order, each to the place that tg gives its
lane; the state is then the last one (R160). -/
def State.Locates (c : Nat) (need : Need) (tg : Nat → Target) : State → List (Nat × Nat) → State → Prop
  | s, [], s1 => s1 = s
  | s, e :: es, s1 => ∃ s0, s.resolve c e.2 need = (s0, .ok (tg e.1)) ∧ State.Locates c need tg s0 es s1

/-- An instruction whose outcome is `out` loads n bytes at address a into rd: from the own memories at once, where it ends
as `ends` says; from another core's scratchpad or a Slate with a reply; from translated memory with a reply, its line
entering the open chunk; misaligned it traps (R49, R132, R238, R241). -/
def State.LoadsAs (s : State) (c : Nat) (k : SlotN) (t : Thread) (out : Out) (a n : Nat) (rd : XReg) (ext : Nat → Word)
    (ends : Word → State) : Prop :=
  let now := (s.core c).cycle
  let reply (v : Nat) : Wait := .reply (now + 1) false { ws := [.x rd (ext v)] }
  (∀ s0 tg, a % n = 0 → s.resolve c a .load = (s0, .ok tg) → s0.Clear c k t tg n →
    match tg with
    | .global p => ∀ s1 u ch, ensureChunk s0 c k = .ok s1 () → s1.slot c k = .thread u → u.chunk = some ch →
        ∃ s', out = .next s' ∧ s'.mem = s0.mem ∧
        s'.slot c k = .thread (({ u with chunk := some { ch with reads := addLine ch.reads (p.pa / 64) } } : Thread).parkedOn now s.curWord
          (reply (leNat ((List.range n).map fun j => s0.seen t (p.pa + j)))))
    | .lane key => out = .next (ends (ext (s.num key n)))
    | .own _ key => out = .next (ends (ext (s.num key n)))
    | tg => out = .next (s.setThr c k (t.parkedOn now s.curWord (reply (s.num tg.key n))))) ∧
  (a % n ≠ 0 → t.trapReady = true → out = .next (s.takeTrap c k { cause := 4, val := BitVec.ofNat 64 a }))

/-- An instruction whose outcome is `out` stores the n low bytes of v at address a: into the own memories at once, the old
bytes entering an open chunk's undo log; buffered in the open chunk for translated memory; posted to another core or a
Slate; misaligned it traps (R132, R241, R246, R247). -/
def State.StoresAs (s : State) (c : Nat) (k : SlotN) (t : Thread) (out : Out) (a n : Nat) (v : Word) : Prop :=
  let bs := leBytes n v.toNat
  (∀ s0 tg, a % n = 0 → s.resolve c a .store = (s0, .ok tg) → s0.Clear c k t tg n →
    match tg with
    | .global p => ∀ s1 y ch, t.bufFull [p.pa / 64] = false → ensureChunk s0 c k = .ok s1 () →
        let lines := (List.range n).map fun j => (p.pa + j) / 64
        let s2 := if p.shared then s1.obtain lines else s1
        s2.slot c k = .thread y → y.chunk = some ch → ∃ u b, out = .next (s2.done c k u) ∧
        u = { y with chunk := some b } ∧ b.writes = lines.foldl addLine ch.writes ∧
        (∀ j < n, s2.seen u (p.pa + j) = bs.getD j 0) ∧ (∀ q, q < p.pa ∨ p.pa + n ≤ q → s2.seen u q = s2.seen t q)
    | .remote _ _ key => t.storesPending = false → t.chunk = none → t.closed = none → t.psc0 + 1 ≤ 0xFFFF →
        out = .next (let s1 := s.postFor c k 0 tg.dest (.store key bs false); s1.done c k (s1.thr c k))
    | .slate _ key => t.storesPending = false → t.chunk = none → t.closed = none → t.psc1 + 1 ≤ 0xFFFF →
        out = .next (let s1 := s.postFor c k 1 tg.dest (.store key bs false); s1.done c k (s1.thr c k))
    | tg => t.logFull 1 = false → ∃ s', out = .next s' ∧
        (∀ j < n, s'.byte (tg.key + j) = bs.getD j 0) ∧ (∀ q, q < tg.key ∨ tg.key + n ≤ q → s'.byte q = s.byte q) ∧
        s'.slot c k = .thread (({ t with chunk := t.chunk.map fun ch =>
          { ch with undo := ((List.range n).map fun j => (tg.key + j, s.byte (tg.key + j))) :: ch.undo } } : Thread).finish none 4)) ∧
  (a % n ≠ 0 → t.trapReady = true → out = .next (s.takeTrap c k { cause := 6, val := BitVec.ofNat 64 a }))

/-- The state in which the thread t waits for the reply of an operation already performed, which brings fin (R49, R51). -/
def State.replied (s : State) (c : Nat) (k : SlotN) (t : Thread) (fin : Completion) : State :=
  s.setThr c k (t.parkedOn (s.core c).cycle s.curWord (.reply ((s.core c).cycle + 1) false fin))

/-- A thread that may trap takes one (R371). -/
def State.Traps (s : State) (c : Nat) (k : SlotN) (t : Thread) (i : Instr) (p : Trap) : Prop :=
  t.trapReady = true → exec i s = .next (s.takeTrap c k p)

/-- With the thread's chunks committed and room in its counter the instruction posts an operation and completes (R122, R240,
R247). -/
def State.Posts (s : State) (c : Nat) (k : SlotN) (t : Thread) (i : Instr) (cls : Fin 3) (dest : Nat) (op : POp) : Prop :=
  ∀ s1 u, s.Commits c k t s1 u → u.psc cls + 1 ≤ 0xFFFF →
    exec i s = .next (let s2 := s1.postFor c k cls dest op; s2.done c k (s2.thr c k))

/-! ### Results of the base instructions (R130 to R137) -/

/-- The register-register instructions and their results from the values a and b of rs1 and rs2 (R130, R133). -/
def regResults (rd rs1 rs2 : XReg) (a b : Word) : List (Instr × Word) :=
  let a32 : Word32 := a.setWidth 32
  let b32 : Word32 := b.setWidth 32
  [(.add rd rs1 rs2, a + b),
   (.sub rd rs1 rs2, a - b),
   (.sll rd rs1 rs2, a <<< (b.toNat % 64)),
   (.slt rd rs1 rs2, if a.toInt < b.toInt then 1 else 0),
   (.sltu rd rs1 rs2, if a.toNat < b.toNat then 1 else 0),
   (.xor rd rs1 rs2, a ^^^ b),
   (.srl rd rs1 rs2, a >>> (b.toNat % 64)),
   (.sra rd rs1 rs2, a.sshiftRight (b.toNat % 64)),
   (.or rd rs1 rs2, a ||| b),
   (.and rd rs1 rs2, a &&& b),
   (.addw rd rs1 rs2, (a32 + b32).signExtend 64),
   (.subw rd rs1 rs2, (a32 - b32).signExtend 64),
   (.sllw rd rs1 rs2, (a32 <<< (b.toNat % 32)).signExtend 64),
   (.srlw rd rs1 rs2, (a32 >>> (b.toNat % 32)).signExtend 64),
   (.sraw rd rs1 rs2, (a32.sshiftRight (b.toNat % 32)).signExtend 64),
   (.mul rd rs1 rs2, BitVec.ofNat 64 (a.toNat * b.toNat)),
   (.mulh rd rs1 rs2, BitVec.ofInt 64 (a.toInt * b.toInt / 2 ^ 64)),
   (.mulhsu rd rs1 rs2, BitVec.ofInt 64 (a.toInt * b.toNat / 2 ^ 64)),
   (.mulhu rd rs1 rs2, BitVec.ofNat 64 (a.toNat * b.toNat / 2 ^ 64)),
   (.mulw rd rs1 rs2, (a32 * b32).signExtend 64)]

/-- The register-immediate instructions and their results from the value a of rs1 (R130). -/
def immResults (rd rs1 : XReg) (a : Word) (imm : BitVec 12) (sh : Fin 64) (sh5 : Fin 32) : List (Instr × Word) :=
  let a32 : Word32 := a.setWidth 32
  let m : Word := imm.signExtend 64
  [(.addi rd rs1 imm, a + m),
   (.slti rd rs1 imm, if a.toInt < m.toInt then 1 else 0),
   (.sltiu rd rs1 imm, if a.toNat < m.toNat then 1 else 0),
   (.xori rd rs1 imm, a ^^^ m),
   (.ori rd rs1 imm, a ||| m),
   (.andi rd rs1 imm, a &&& m),
   (.addiw rd rs1 imm, (a32 + m.setWidth 32).signExtend 64),
   (.slli rd rs1 sh, a <<< sh.val),
   (.srli rd rs1 sh, a >>> sh.val),
   (.srai rd rs1 sh, a.sshiftRight sh.val),
   (.slliw rd rs1 sh5, (a32 <<< sh5.val).signExtend 64),
   (.srliw rd rs1 sh5, (a32 >>> sh5.val).signExtend 64),
   (.sraiw rd rs1 sh5, (a32.sshiftRight sh5.val).signExtend 64)]

/-- LUI and AUIPC and their results (R130). -/
def upperResults (rd : XReg) (pc : Word) (imm : BitVec 20) : List (Instr × Word) :=
  [(.lui rd imm, (imm ++ 0#12).signExtend 64), (.auipc rd imm, pc + (imm ++ 0#12).signExtend 64)]

/-- The divisions, their latencies in cycles and their results; division by zero and overflow as RISC-V has them (R133). -/
def divResults (rd rs1 rs2 : XReg) (a b : Word) : List (Instr × Nat × Word) :=
  let a32 : Word32 := a.setWidth 32
  let b32 : Word32 := b.setWidth 32
  [(.div rd rs1 rs2, 36, if b = 0 then -1 else BitVec.ofInt 64 (a.toInt.tdiv b.toInt)),
   (.divu rd rs1 rs2, 36, if b = 0 then -1 else BitVec.ofNat 64 (a.toNat / b.toNat)),
   (.rem rd rs1 rs2, 36, if b = 0 then a else BitVec.ofInt 64 (a.toInt.tmod b.toInt)),
   (.remu rd rs1 rs2, 36, if b = 0 then a else BitVec.ofNat 64 (a.toNat % b.toNat)),
   (.divw rd rs1 rs2, 20, if b32 = 0 then -1 else (BitVec.ofInt 32 (a32.toInt.tdiv b32.toInt)).signExtend 64),
   (.divuw rd rs1 rs2, 20, if b32 = 0 then -1 else (BitVec.ofNat 32 (a32.toNat / b32.toNat)).signExtend 64),
   (.remw rd rs1 rs2, 20, if b32 = 0 then a32.signExtend 64 else (BitVec.ofInt 32 (a32.toInt.tmod b32.toInt)).signExtend 64),
   (.remuw rd rs1 rs2, 20, if b32 = 0 then a32.signExtend 64 else (BitVec.ofNat 32 (a32.toNat % b32.toNat)).signExtend 64)]

/-- The conditional branches, and whether they are taken (R134). -/
def branchResults (rs1 rs2 : XReg) (a b : Word) (imm : BitVec 12) : List (Instr × Bool) :=
  [(.beq rs1 rs2 imm, decide (a = b)), (.bne rs1 rs2 imm, decide (a ≠ b)),
   (.blt rs1 rs2 imm, decide (a.toInt < b.toInt)), (.bge rs1 rs2 imm, decide (b.toInt ≤ a.toInt)),
   (.bltu rs1 rs2 imm, decide (a.toNat < b.toNat)), (.bgeu rs1 rs2 imm, decide (b.toNat ≤ a.toNat))]

/-- The base loads, their sizes in bytes, and how they extend what they read (R132). -/
def baseLoads (rd rs1 : XReg) (imm : BitVec 12) : List (Instr × Nat × (Nat → Word)) :=
  [(.lb rd rs1 imm, 1, fun v => (BitVec.ofNat 8 v).signExtend 64), (.lh rd rs1 imm, 2, fun v => (BitVec.ofNat 16 v).signExtend 64),
   (.lw rd rs1 imm, 4, fun v => (BitVec.ofNat 32 v).signExtend 64), (.lbu rd rs1 imm, 1, BitVec.ofNat 64),
   (.lhu rd rs1 imm, 2, BitVec.ofNat 64), (.lwu rd rs1 imm, 4, BitVec.ofNat 64), (.ld rd rs1 imm, 8, BitVec.ofNat 64)]

/-- The base stores and their sizes in bytes (R132). -/
def baseStores (rs2 rs1 : XReg) (imm : BitVec 12) : List (Instr × Nat) :=
  [(.sb rs2 rs1 imm, 1), (.sh rs2 rs1 imm, 2), (.sw rs2 rs1 imm, 4), (.sd rs2 rs1 imm, 8)]

/-- The Zicsr instructions with a source register, and what they write over the old value (R137). -/
def csrRegWrites (rd rs1 : XReg) (csr : BitVec 12) (old x : Word) : List (Instr × Option Word) :=
  [(.csrrw rd csr rs1, some x), (.csrrs rd csr rs1, if rs1 = 0 then none else some (old ||| x)),
   (.csrrc rd csr rs1, if rs1 = 0 then none else some (old &&& ~~~x))]

/-- The Zicsr instructions with an immediate, and what they write over the old value (R137). -/
def csrImmWrites (rd : XReg) (csr : BitVec 12) (uimm : Fin 32) (old : Word) : List (Instr × Option Word) :=
  let u : Word := BitVec.ofNat 64 uimm.val
  [(.csrrwi rd csr uimm, some u), (.csrrsi rd csr uimm, if uimm = 0 then none else some (old ||| u)),
   (.csrrci rd csr uimm, if uimm = 0 then none else some (old &&& ~~~u))]

/-- What a Zicsr instruction whose outcome is `out` does beside delivering the old value, its write below the read-only
range: `ends` says how it ends, of the state and the thread before that delivery and of what happens to the thread after it
completes (R120, R121, R124, R137, R415). -/
def State.CsrDoes (s : State) (c : Nat) (k : SlotN) (t : Thread) (out : Out) (n : Nat) (write : Option Word)
    (ends : State → Thread → (Thread → Thread) → State) : Prop :=
  match write with
  | none => out = .next (ends s t id)
  | some v =>
    let w := t.a.csr.write t.paired n v
    let r := (t.a.advance none 4).csr.write t.paired n v
    let repeats (e : Word) (z : Thread) : Thread :=
      { z with a := { z.a with repEnd := e, endPend := false, csr := { z.a.csr with repcnt := r.repcnt, repbody := r.repbody } } }
    (0x800 ≤ n → n < 0xC00 → n ≠ 0x807 → n ≠ 0x808 → (n = 0x801 → t.vq = []) →
      out = .next (ends s { t with a := { t.a with csr := w } } id)) ∧
    (n = 0x801 → t.vq ≠ [] → out = .next (s.setThr c k (t.parkedOn (s.core c).cycle s.curWord (.cond .strips)))) ∧
    (n = 0x807 ∨ n = 0x808 → r.count = 0 → out = .next (ends s t (repeats t.a.repEnd))) ∧
    (n = 0x807 ∨ n = 0x808 → r.count ≠ 0 → ∀ s0 e, s.bodyEnd c r.replen r.repbody.toNat = (s0, .ok e) →
      out = .next (ends s0 t (repeats (BitVec.ofNat 64 e)))) ∧
    (n = 0x5C0 → out = .next (ends (s.modCtx c fun y => { y with trqbase := v &&& ~~~0x3FF#64 }) t id)) ∧
    (n = 0x5C1 → out = .next (ends
      (let s1 := s.modCtx c fun y => { y with supctl := v &&& 0xFFFFFFFF000000FF#64 }
       if (s.core c).supBit 0 = false ∧ v.getLsbD 0 = true then s1.modDie (dieOf c) fun d => { d with passDue := true } else s1)
      t id)) ∧
    (n = 0x5C2 ∨ n = 0x5C3 → out = .next (ends s t id))

/-! ### Mapped registers (R57, R262, R417) -/

/-- The registers that a base instruction names, and the slots that may issue it; none for one that names none, and for a
write to the read-only CSRs, which pops and pushes nothing (R57, R118). -/
def baseForm : Instr → Option Form
  | .lui rd _ | .auipc rd _ | .jal rd _ => some { dst := [rd] }
  | .jalr rd rs1 _ | .lb rd rs1 _ | .lh rd rs1 _ | .lw rd rs1 _ | .ld rd rs1 _ | .lbu rd rs1 _ | .lhu rd rs1 _ | .lwu rd rs1 _
  | .addi rd rs1 _ | .slti rd rs1 _ | .sltiu rd rs1 _ | .xori rd rs1 _ | .ori rd rs1 _ | .andi rd rs1 _ | .slli rd rs1 _
  | .srli rd rs1 _ | .srai rd rs1 _ | .addiw rd rs1 _ | .slliw rd rs1 _ | .srliw rd rs1 _ | .sraiw rd rs1 _ =>
    some { src := [rs1], dst := [rd] }
  | .beq rs1 rs2 _ | .bne rs1 rs2 _ | .blt rs1 rs2 _ | .bge rs1 rs2 _ | .bltu rs1 rs2 _ | .bgeu rs1 rs2 _
  | .sb rs2 rs1 _ | .sh rs2 rs1 _ | .sw rs2 rs1 _ | .sd rs2 rs1 _ => some { src := [rs1, rs2] }
  | .add rd rs1 rs2 | .sub rd rs1 rs2 | .sll rd rs1 rs2 | .slt rd rs1 rs2 | .sltu rd rs1 rs2 | .xor rd rs1 rs2
  | .srl rd rs1 rs2 | .sra rd rs1 rs2 | .or rd rs1 rs2 | .and rd rs1 rs2 | .addw rd rs1 rs2 | .subw rd rs1 rs2
  | .sllw rd rs1 rs2 | .srlw rd rs1 rs2 | .sraw rd rs1 rs2 | .mul rd rs1 rs2 | .mulh rd rs1 rs2 | .mulhsu rd rs1 rs2
  | .mulhu rd rs1 rs2 | .mulw rd rs1 rs2 | .div rd rs1 rs2 | .divu rd rs1 rs2 | .rem rd rs1 rs2 | .remu rd rs1 rs2
  | .divw rd rs1 rs2 | .divuw rd rs1 rs2 | .remw rd rs1 rs2 | .remuw rd rs1 rs2 => some { src := [rs1, rs2], dst := [rd] }
  | .csrrw rd csr rs1 =>
    if 0xC00 ≤ csr.toNat then none else some { who := csrWho csr.toNat, src := [rs1], dst := [rd] }
  | .csrrs rd csr rs1 | .csrrc rd csr rs1 =>
    if rs1 ≠ 0 ∧ 0xC00 ≤ csr.toNat then none else some { who := csrWho csr.toNat, src := [rs1], dst := [rd] }
  | .csrrwi rd csr _ => if 0xC00 ≤ csr.toNat then none else some { who := csrWho csr.toNat, dst := [rd] }
  | .csrrsi rd csr u | .csrrci rd csr u =>
    if u ≠ 0 ∧ 0xC00 ≤ csr.toNat then none else some { who := csrWho csr.toNat, dst := [rd] }
  | _ => none

/-- The mapped sources of an instruction, each with the value that stands for it, in order: one that the thread holds keeps
it; another pops a queue of the own core. The state and the thread are then the last two (R57, R417). -/
inductive State.Pops (c : Nat) (k : SlotN) : State → Thread → List (XReg × Word) → State → Thread → Prop where
  | none {s : State} {u : Thread} (here : s.slot c k = .thread u) : State.Pops c k s u [] s u
  | held {s s1 : State} {u w : Thread} {r : XReg} {v : Word} {ps : List (XReg × Word)} (holds : u.holds r = true)
      (val : u.held[r.val % 4] = some v) (rest : State.Pops c k s u ps s1 w) : State.Pops c k s u ((r, v) :: ps) s1 w
  | popped {s s0 s1 : State} {u w : Thread} {r : XReg} {v : Word} {q : QRef} {ps : List (XReg × Word)} (free : u.holds r = false)
      (queue : qref c (u.a.mapHandle c r) = some q) (own : q.ownLocal c = true)
      (unlocked : s.queueLocked q false (some (c, k)) = none) (pop : s.takePop q = some (v, s0))
      (here : s0.slot c k = .thread u) (rest : State.Pops c k (s0.setThr c k (u.hold r v)) (u.hold r v) ps s1 w) :
      State.Pops c k s u ((r, v) :: ps) s1 w

/-- An instruction of form f that names a mapped register may pop and push: the slot may issue it, the queues take the pops
and the push, its chunk commits, and its counter has room for a push (R52, R57, R122, R240, R248). -/
structure State.Maps (s : State) (c : Nat) (k : SlotN) (t : Thread) (f : Form) (s1 : State) (u : Thread) : Prop where
  here : s.At c k t
  who : f.who.allows k = true
  names : t.a.mappedOf f.src ++ t.a.mappedOf f.dst ≠ []
  pops : ∀ r ∈ t.a.mappedOf f.src, s.queueTrap c (t.a.mapHandle c r) false = none
  pushes : ∀ r ∈ t.a.mappedOf f.dst, s.queueTrap c (t.a.mapHandle c r) true = none
  commits : s.Commits c k t s1 u
  room : t.a.mappedOf f.dst ≠ [] → u.storesPending = false ∧ u.psc2 + 1 ≤ 0xFFFF
  sent : ∀ r ∈ t.a.mappedOf f.dst, ∀ q, qref c (t.a.mapHandle c r) = some q → s1.ownerOf q = c → s1.sentTo (u.ref c) c = false

/-- How an instruction ends that delivers v to rd, w being its thread and s the state once its pops are performed, t' and s'
what the instruction has made of them: an unmapped rd is written; a mapped one is left and the value pushed, to the entry
that is kept or free for it, and with none the thread waits with the push, to perform the instruction then (R57, R119,
R262). -/
def State.ends (s : State) (c : Nat) (k : SlotN) (w : Thread) (rd : XReg) (v : Word) (next : Option Word := none)
    (s' : State := s) (t' : Thread := w) (after : Thread → Thread := id) : State :=
  if w.a.mapped rd then
    let h := w.a.mapHandle c rd
    match qref c h with
    | none => s
    | some q =>
      let x := s.queue q
      if w.owed = some h then
        let s1 := ((s'.setQueue q { x with kept := x.kept - 1 }).setThr c k { t' with owed := none }).sendPush (w.ref c) w.launch q h v
        s1.setThr c k (after ((s1.thr c k).finish next 4))
      else if x.room then
        let s1 := (s'.setThr c k t').sendPush (w.ref c) w.launch q h v
        s1.setThr c k (after ((s1.thr c k).finish next 4))
      else (s.setQueue q { x with pushes := x.pushes ++ [w.ref c] }).park c k (.push h v {} true)
  else s'.setThr c k (after ((t'.wx rd v).finish next 4))

/-! ### Vector results (R29 to R39, R146, R147, R155 to R166) -/

/-- The rational number that a finite value is; 0 for others (R29). -/
def Val.rat : Val → ℚ
  | .fin n m e _ => (if n then -1 else 1) * (m : ℚ) * 2 ^ e
  | _ => 0

/-- A value lies below another; false with a NaN (R155). -/
def Val.below : Val → Val → Bool
  | .inf x, .inf y => x && !y
  | .inf x, .fin _ _ _ _ => x
  | .fin _ _ _ _, .inf y => !y
  | .fin a b c d, .fin a' b' c' d' => (Val.fin a b c d).rat < (Val.fin a' b' c' d').rat
  | _, _ => false

/-- Two values are equal as numbers; false with a NaN (R155). -/
def Val.same : Val → Val → Bool
  | .inf x, .inf y => x == y
  | .fin a b c d, .fin a' b' c' d' => (Val.fin a b c d).rat == (Val.fin a' b' c' d').rat
  | _, _ => false

/-- The finite numbers of a format; with `even` those whose significand is even (R29, R32). -/
def Fmt.has (f : Fmt) (even : Bool) (y : ℚ) : Prop :=
  ∃ code ≤ f.maxCode, |y| = (value f code).rat ∧ (even = true → code % 2 = 0)

/-- The numbers of a format's precision with an unbounded exponent (R31). -/
def Fmt.wide (f : Fmt) (even : Bool) (y : ℚ) : Prop :=
  ∃ (k : ℕ) (q : ℤ), 2 ^ f.fb ≤ k ∧ k < 2 ^ (f.fb + 1) ∧ |y| = k * 2 ^ q ∧ (even = true → k % 2 = 0)

/-- The whole numbers (R34). -/
def whole (even : Bool) (y : ℚ) : Prop := ∃ i : ℤ, y = i ∧ (even = true → i % 2 = 0)

/-- y is x rounded under a mode into the numbers for which `num false` holds, `num true` holding for those that win ties
(R32). -/
def Rounding (m : RMode) (num : Bool → ℚ → Prop) (x : ℝ) (y : ℚ) : Prop :=
  num false y ∧ match m with
    | .rne => ∀ z, num false z → |x - y| < |x - z| ∨ z = y ∨ (|x - y| = |x - z| ∧ num true y)
    | .rtz => |(y : ℝ)| ≤ |x| ∧ 0 ≤ x * y ∧ ∀ z, num false z → |(z : ℝ)| ≤ |x| → |z| ≤ |y|
    | .rup => x ≤ y ∧ ∀ z, num false z → x ≤ z → y ≤ z
    | .rdn => (y : ℝ) ≤ x ∧ ∀ z, num false z → z ≤ x → z ≤ y

/-- The code is that of the exact value x, not zero, rounded once into a format under a mode, with the flags of R31: u is x
rounded to the format's precision with an unbounded exponent, which tells overflow and tininess; on overflow R33 gives the
code (R31 to R33). -/
def Rounded (f : Fmt) (m : RMode) (x : ℝ) (code : Nat) (fl : FFlags) (e4nan : Bool := false) : Prop :=
  ∃ (u : ℚ) (n : Bool) (c : Nat), Rounding m f.wide x u ∧ (n = true ↔ x < 0) ∧ code = (if n then c + 2 ^ f.magBits else c) ∧
    let y : ℚ := (value f code).rat
    let big : Prop := (value f f.maxCode).rat < |u|
    (big → c = match f.inf with
      | some i =>
        match m with
        | .rne => i
        | .rtz => f.maxCode
        | .rup => if n then f.maxCode else i
        | .rdn => if n then i else f.maxCode
      | none => if f = .e4m3 ∧ e4nan = true then f.nan else f.maxCode) ∧
    (¬big → c ≤ f.maxCode ∧ Rounding m f.has x y) ∧
    (fl.getLsbD 0 = true ↔ big ∨ (y : ℝ) ≠ x) ∧
    (fl.getLsbD 1 = true ↔ |u| < 2 ^ (1 - (f.bias : ℤ)) ∧ (y : ℝ) ≠ x) ∧
    (fl.getLsbD 2 = true ↔ big) ∧ fl.getLsbD 3 = false ∧ fl.getLsbD 4 = false

/-- The code is that of an infinity of a format, with its sign. -/
def infCode (f : Fmt) (neg : Bool) (code : Nat) : Prop :=
  ∃ i, f.inf = some i ∧ code = if neg then i + 2 ^ f.magBits else i

/-- The code and flags of an exact sum of products ps and terms cs, rounded once: NaNs and undefined sums, infinities, the
sign of a zero, and else the rounded number (R30, R31, R38, R162). -/
def FloatRes (f : Fmt) (m : RMode) (ps : List (Val × Val)) (cs : List Val) (code : Nat) (fl : FFlags) : Prop :=
  let ops := ps.map (·.1) ++ ps.map (·.2) ++ cs
  let infinite (n : Bool) : Bool := cs.contains (.inf n) || ps.any fun p =>
    (p.1.isInf || p.2.isInf) && !p.1.isNan && !p.2.isNan && !p.1.isZero && !p.2.isZero && (p.1.neg != p.2.neg) == n
  let undefined : Bool := (infinite true && infinite false) ||
    ps.any fun p => (p.1.isInf && p.2.isZero) || (p.1.isZero && p.2.isInf)
  let x : ℚ := (ps.map fun p => p.1.rat * p.2.rat).sum + (cs.map Val.rat).sum
  let signs : List Bool := ps.map (fun p => p.1.neg != p.2.neg) ++ cs.map Val.neg
  if ops.any (·.isNan) || undefined then code = f.nan ∧ fl = (if ops.any (·.isSnan) || undefined then 16 else 0)
  else if infinite false then infCode f false code ∧ fl = 0
  else if infinite true then infCode f true code ∧ fl = 0
  else if x = 0 then
    code = (if signs.all id || (signs.any id && m == .rdn) then 2 ^ f.magBits else 0) ∧ fl = 0
  else Rounded f m x code fl

/-- The code and flags of VMIN or VMAX of two encodings: a single NaN gives the other, two the canonical one, -0 lies below
+0 (R155). -/
def MinMaxRes (f : Fmt) (mx : Bool) (a b code : Nat) (fl : FFlags) : Prop :=
  let x := value f a
  let y := value f b
  fl = (if x.isSnan || y.isSnan then 16 else 0) ∧
  code = if x.isNan && y.isNan then f.nan else if x.isNan then b else if y.isNan then a else
    let less := x.below y || (x.same y && x.neg && !y.neg)
    if less == mx then b else a

/-- The result and flags of a conversion of a value to an integer type of range lo to hi: a NaN gives 0, what lies outside
saturates, both with NV; saturation and rounding set NX (R31, R34). -/
def IntRes (lo hi : Int) (m : RMode) (v : Val) (i : Int) (fl : FFlags) : Prop :=
  match v with
  | .nan _ => i = 0 ∧ fl = 16
  | .inf n => i = (if n then lo else hi) ∧ fl = 17
  | v => ∃ j : ℤ, Rounding m whole (v.rat : ℝ) (j : ℚ) ∧
    ((j < lo ∧ i = lo ∧ fl = 17) ∨ (hi < j ∧ i = hi ∧ fl = 17) ∨
      (lo ≤ j ∧ j ≤ hi ∧ i = j ∧ fl = if (j : ℚ) = v.rat then 0 else 1))

/-- The next strip p of the thread t in a slot executes: each lane of vd in `act` gets a word and flags for which R holds,
everything else of the registers and memory is as it was, and the strip keeps the OR of the flags and of each the first lane
that raised it, by the number `at_` gives it (R31, R60, R147, R150, R153). -/
def State.StripRuns (s : State) (c : Nat) (k : SlotN) (t : Thread) (vd : VNum) (act : List Nat)
    (R : Nat → Word32 → FFlags → Prop) (at_ : Nat → Nat := id) : Prop :=
  ∃ (s' : State) (u : Thread) (fl : Nat → FFlags), exec .stripExecute s = .next s' ∧ s'.slot c k = .thread u ∧ s'.mem = s.mem ∧
    (∀ l ∈ act, R l (u.a.lane vd l) (fl l)) ∧
    (∀ r l, l < 64 → r ≠ vd ∨ l ∉ act → u.a.lane r l = t.a.lane r l) ∧
    u.a.x = t.a.x ∧ u.a.pw = t.a.pw ∧ u.a.k = t.a.k ∧ u.a.csr = t.a.csr ∧ u.a.pc = t.a.pc ∧
    u.vq = markDone (fun p => { p with
      done := some (s.core c).cycle
      flags := act.foldl (fun f l => f ||| fl l) 0
      lanes := (List.range 5).map fun b => (act.find? fun l => (fl l).getLsbD b).map at_ }) t.vq

/-- The same for a compare: bit l of k[kd] for the lanes l of `act` (R155). -/
def State.StripCompares (s : State) (c : Nat) (k : SlotN) (t : Thread) (kd : KReg) (act : List Nat)
    (R : Nat → Bool → FFlags → Prop) : Prop :=
  ∃ (s' : State) (u : Thread) (fl : Nat → FFlags), exec .stripExecute s = .next s' ∧ s'.slot c k = .thread u ∧ s'.mem = s.mem ∧
    (∀ l ∈ act, R l (u.a.kbit kd l) (fl l)) ∧ (∀ r l, l < 64 → r ≠ kd ∨ l ∉ act → u.a.kbit r l = t.a.kbit r l) ∧
    u.a.x = t.a.x ∧ u.a.pw = t.a.pw ∧ u.a.v = t.a.v ∧ u.a.vOdd = t.a.vOdd ∧ u.a.csr = t.a.csr ∧ u.a.pc = t.a.pc ∧
    u.vq = markDone (fun p => { p with
      done := some (s.core c).cycle
      flags := act.foldl (fun f l => f ||| fl l) 0
      lanes := (List.range 5).map fun b => act.find? fun l => (fl l).getLsbD b }) t.vq

/-- The integer in a lane of an integer type, and an integer wrapped into one (R34, R146). -/
def laneInt (ty : VType) (w : Word32) : Int :=
  match ty with
  | .i8 => (w.setWidth 8 : BitVec 8).toInt
  | .u8 => ((w.setWidth 8 : BitVec 8).toNat : Int)
  | _ => w.toInt

/-- An integer wrapped into a lane of an integer type (R34, R146). -/
def wrapInt (ty : VType) (i : Int) : Word32 :=
  match ty with
  | .i8 => (BitVec.ofInt 8 i).signExtend 32
  | .u8 => (BitVec.ofInt 8 i).setWidth 32
  | _ => BitVec.ofInt 32 i

/-- The results of the FP32 functions and their flags: the special inputs of R39, and else the exact value rounded once; of
2^x, log2 x, sin and cos of pi x where that value is rational (R31, R39, R156). -/
def DivRes (m : RMode) (x y : Val) (code : Nat) (fl : FFlags) : Prop :=
  if x.isNan || y.isNan then code = 0x7FC00000 ∧ fl = (if x.isSnan || y.isSnan then 16 else 0)
  else if (x.isZero && y.isZero) || (x.isInf && y.isInf) then code = 0x7FC00000 ∧ fl = 16
  else if x.isInf || y.isZero then infCode .fp32 (x.neg != y.neg) code ∧ fl = (if x.isInf then 0 else 8)
  else if y.isInf || x.isZero then code = (if x.neg != y.neg then 0x80000000 else 0) ∧ fl = 0
  else Rounded .fp32 m ((x.rat / y.rat : ℚ) : ℝ) code fl

@[inherit_doc DivRes]
def SqrtRes (m : RMode) (x : Val) (code : Nat) (fl : FFlags) : Prop :=
  if x.isNan then code = 0x7FC00000 ∧ fl = (if x.isSnan then 16 else 0)
  else if x.isZero then code = (if x.neg then 0x80000000 else 0) ∧ fl = 0
  else if x.neg then code = 0x7FC00000 ∧ fl = 16
  else if x.isInf then code = 0x7F800000 ∧ fl = 0
  else Rounded .fp32 m (Real.sqrt x.rat) code fl

@[inherit_doc DivRes]
def RsqrtRes (m : RMode) (x : Val) (code : Nat) (fl : FFlags) : Prop :=
  if x.isNan then code = 0x7FC00000 ∧ fl = (if x.isSnan then 16 else 0)
  else if x.isZero then infCode .fp32 x.neg code ∧ fl = 8
  else if x.neg then code = 0x7FC00000 ∧ fl = 16
  else if x.isInf then code = 0 ∧ fl = 0
  else Rounded .fp32 m (1 / Real.sqrt x.rat) code fl

@[inherit_doc DivRes]
def RcpRes (m : RMode) (x : Val) (code : Nat) (fl : FFlags) : Prop :=
  if x.isNan then code = 0x7FC00000 ∧ fl = (if x.isSnan then 16 else 0)
  else if x.isZero then infCode .fp32 x.neg code ∧ fl = 8
  else if x.isInf then code = (if x.neg then 0x80000000 else 0) ∧ fl = 0
  else Rounded .fp32 m ((1 / x.rat : ℚ) : ℝ) code fl

@[inherit_doc DivRes]
def Exp2Res (m : RMode) (x : Val) (code : Nat) (fl : FFlags) : Prop :=
  if x.isNan then code = 0x7FC00000 ∧ fl = (if x.isSnan then 16 else 0)
  else if x.isInf then code = (if x.neg then 0 else 0x7F800000) ∧ fl = 0
  else ∀ n : ℤ, x.rat = n → Rounded .fp32 m ((2 : ℝ) ^ n) code fl

@[inherit_doc DivRes]
def Log2Res (x : Val) (code : Nat) (fl : FFlags) : Prop :=
  if x.isNan then code = 0x7FC00000 ∧ fl = (if x.isSnan then 16 else 0)
  else if x.isZero then infCode .fp32 true code ∧ fl = 8
  else if x.neg then code = 0x7FC00000 ∧ fl = 16
  else if x.isInf then code = 0x7F800000 ∧ fl = 0
  else ∀ n : ℤ, x.rat = 2 ^ n →
    (∃ a b c, value .fp32 code = .fin a b c false) ∧ (value .fp32 code).rat = n ∧ fl = 0 ∧ (n = 0 → code = 0)

@[inherit_doc DivRes]
def SinRes (x : Val) (code : Nat) (fl : FFlags) : Prop :=
  if x.isNan then code = 0x7FC00000 ∧ fl = (if x.isSnan then 16 else 0)
  else if x.isInf then code = 0x7FC00000 ∧ fl = 16
  else ∀ n : ℤ, (x.rat = n → code = (if x.neg then 0x80000000 else 0) ∧ fl = 0) ∧
    (x.rat = n + 1 / 2 → code = (if n % 2 = 0 then 0x3F800000 else 0xBF800000) ∧ fl = 0)

@[inherit_doc DivRes]
def CosRes (x : Val) (code : Nat) (fl : FFlags) : Prop :=
  if x.isNan then code = 0x7FC00000 ∧ fl = (if x.isSnan then 16 else 0)
  else if x.isInf then code = 0x7FC00000 ∧ fl = 16
  else ∀ n : ℤ, (x.rat = n → code = (if n % 2 = 0 then 0x3F800000 else 0xBF800000) ∧ fl = 0) ∧
    (x.rat = n + 1 / 2 → code = 0 ∧ fl = 0)

/-- The code of a value converted to a narrow format, round to nearest even (R32, R33). -/
def Narrow (f : Fmt) (e4nan : Bool) (v : Val) (code : Nat) : Prop :=
  match v with
  | .nan _ => code = f.nan
  | .inf n => code = (match f.inf with
      | some i => i
      | none => if f = .e4m3 ∧ e4nan = true then f.nan else f.maxCode) + if n then 2 ^ f.magBits else 0
  | v => if v.rat = 0 then code = (if v.neg then 2 ^ f.magBits else 0) else ∃ fl, Rounded f .rne (v.rat : ℝ) code fl e4nan

/-- Element format, largest exponent and width of the codes 0 to 6 of VPACK, and width of the codes 7 to 9 (R35, R36, R164).
-/
def packFmt (fc : Nat) : Fmt × Int × Nat :=
  match fc with
  | 0 | 2 => (.e4m3, 8, 8)
  | 1 | 3 => (.e5m2, 15, 8)
  | 4 => (.e2m3, 2, 6)
  | 5 => (.e3m2, 4, 6)
  | 6 => (.e2m1, 2, 4)
  | 7 => (.e2m1, 0, 3)
  | 8 => (.e2m1, 0, 5)
  | _ => (.e2m1, 0, 8)

/-- The register d holds the 32 values of the register r packed in the format fc (R35 to R37, R164). -/
def Packs (fc : Nat) (e4nan : Bool) (r d : VReg) : Prop :=
  let x (j : Nat) : Val := value .fp32 (getLane r j).toNat
  let f := (packFmt fc).1
  let emax := (packFmt fc).2.1
  let w := (packFmt fc).2.2
  let n := d.toNat
  let el (lo j : Nat) : Nat := n / 2 ^ (lo + w * j) % 2 ^ w
  let bad := ∃ j < 32, (x j).isNan = true ∨ (x j).isInf = true
  let zero (lo hi : Nat) : Prop := ∀ j, lo ≤ j → j < hi → (x j).rat = 0
  let top (lo hi : Nat) (e : ℤ) : Prop :=
    (∃ j, lo ≤ j ∧ j < hi ∧ (2 : ℚ) ^ e ≤ |(x j).rat|) ∧ ∀ j, lo ≤ j → j < hi → |(x j).rat| < (2 : ℚ) ^ (e + 1)
  if fc ≤ 1 then n < 2 ^ 256 ∧ ∀ j < 32, Narrow f e4nan (x j) (el 0 j)
  else if fc ≤ 6 then
    let sc : Nat := n / 2 ^ 1016
    n % 2 ^ 1016 < 2 ^ (32 * w) ∧
    (bad → sc = 255 ∧ ∀ j < 32, el 0 j = 0) ∧
    (¬bad → zero 0 32 → sc = 127 ∧ ∀ j < 32, el 0 j = 0) ∧
    (¬bad → ∀ e, top 0 32 e → Int.ofNat sc = max 0 (min 254 (e - emax + 127)) ∧
      ∀ j < 32, Narrow f e4nan ((x j).scale (127 - Int.ofNat sc)) (el 0 j))
  else
    let ex : ℤ := Int.ofNat (n % 256)
    let sig (i : Nat) : ℤ := Int.ofNat (n / 2 ^ (8 + 2 * i) % 4)
    n < 2 ^ (16 + 32 * w) ∧ (bad → n = 255) ∧ (¬bad → zero 0 32 → n = 0) ∧
    (¬bad → ∀ e, top 0 32 e → ex = max 0 (min 254 (e + 127)) ∧
      (∀ i < 4, (zero (8 * i) (8 * i + 8) → sig i = 3) ∧
        ∀ b, top (8 * i) (8 * i + 8) b → sig i = max 0 (min 3 (ex - 127 - b))) ∧
      ∀ j < 32, ∃ q : ℤ, Rounding .rne whole (((x j).rat / 2 ^ (ex - 127 - sig (j / 8) - (Int.ofNat w - 2)) : ℚ) : ℝ) (q : ℚ) ∧
        (BitVec.ofNat w (el 16 j)).toInt = max (-(2 ^ (w - 1) - 1)) (min (2 ^ (w - 1) - 1) q))

/-- The register d holds in its FP32 lanes the values that the register r holds in the format fc (R35, R36, R164). -/
def Unpacks (fc : Nat) (r d : VReg) : Prop :=
  let f := (packFmt fc).1
  let w := (packFmt fc).2.2
  let n := r.toNat
  let el (lo j : Nat) : Nat := n / 2 ^ (lo + w * j) % 2 ^ w
  let sc : Nat := n / 2 ^ 1016
  let ex : Nat := n % 256
  let sig (i : Nat) : Nat := n / 2 ^ (8 + 2 * i) % 4
  let v (j : Nat) : Val :=
    if fc ≤ 1 then value f (el 0 j)
    else if fc ≤ 6 then
      if sc = 255 then .nan false else (value f (el 0 j)).scale (Int.ofNat sc - 127)
    else if ex = 255 then .nan false
    else .ofInt (BitVec.ofNat w (el 16 j)).toInt (Int.ofNat ex - 127 - Int.ofNat (sig (j / 8)) - (Int.ofNat w - 2))
  ∀ j < 32, ∃ fl, FloatRes .fp32 .rne [] [v j] (getLane d j).toNat fl

/-- The thread with the strips of a memory instruction in its queue, for lanes 0 to 31 and then 32 to 63; of a store, what
both would write of one line, or of a VSTL, goes with the second (R60, R150, R160). -/
def Thread.entered (t : Thread) (now : Nat) (word : Word32) (i : Instr) (els : List VEl) (logged alone away : Bool) : Thread :=
  let strip (els : List VEl) (odd last : Bool) : Strip :=
    { instr := i, odd := odd, vctl := t.a.csr.vctl, scalar := 0, scalar2 := 0, pc := t.a.pc, word := word, issued := now,
      no := t.chunkNo, away := away, done := none, flags := 0, lanes := List.replicate 5 none, last := last, els := els,
      logged := logged, alone := alone }
  let a := els.filter fun e => e.lane < 32
  let b := els.filter fun e => 32 ≤ e.lane
  let late (e : VEl) : Bool := match i with
    | .vst _ _ _ | .vsts _ _ _ _ | .vscat _ _ _ _ => b.any fun x => x.key / 64 == e.key / 64
    | .vstl _ _ _ => b != []
    | _ => false
  { t with vq := t.vq ++ if t.paired && 32 < t.a.csr.vl then
      [strip (a.filter fun e => !late e) false false, strip (a.filter late ++ b) true true] else [strip els false true] }

/-- The cells that the elements of a store write, the lowest lane first, those of the places that f selects (R160). -/
def Strip.cells (p : Strip) (a : Arch) (v : VNum) (f : VPlace → Bool) : List Host.Cell :=
  (p.els.filter fun e => f e.place).flatMap fun e =>
    (List.range e.n).map fun j => (e.key + j, BitVec.ofNat 8 ((a.lane v e.lane).toNat / 2 ^ (8 * j)))

/-- The 64-byte lines of some cells, each once (R160). -/
def cellLines (cs : List Host.Cell) : List Nat := cs.foldl (fun ls e => addLine ls (e.1 / 64)) []

end Sys2Proof.Machine
end

