-- ==== Sys2Proof/Certificates/Slice0/Obligations.lean ====
section
/-! DEFINITION. Obligations.lean: the statements for the provers. -/

open Sys2Proof Sys2Proof.Machine

/-! ### Base instructions (R130 to R137) -/

/-- R130, R133: the register-register and register-immediate instructions of the base set, LUI and AUIPC, by their RISC-V
results. -/
def Obligations.BaseArithmetic : Prop :=
  (∀ (s : State) (c : Nat) (k : SlotN) (t : Thread) (rd rs1 rs2 : XReg),
    s.Ready c k t { src := [rs1, rs2], dst := [rd] } →
    ∀ p ∈ regResults rd rs1 rs2 (t.a.xr rs1) (t.a.xr rs2), exec p.1 s = .next (s.done c k (t.wx rd p.2))) ∧
  (∀ (s : State) (c : Nat) (k : SlotN) (t : Thread) (rd rs1 : XReg) (imm : BitVec 12) (sh : Fin 64) (sh5 : Fin 32),
    s.Ready c k t { src := [rs1], dst := [rd] } →
    ∀ p ∈ immResults rd rs1 (t.a.xr rs1) imm sh sh5, exec p.1 s = .next (s.done c k (t.wx rd p.2))) ∧
  (∀ (s : State) (c : Nat) (k : SlotN) (t : Thread) (rd : XReg) (imm : BitVec 20), s.Ready c k t { dst := [rd] } →
    ∀ p ∈ upperResults rd t.a.pc imm, exec p.1 s = .next (s.done c k (t.wx rd p.2)))

/-- R29 to R39, R155, R156, R158, R162 to R164: a strip of a floating vector instruction executes: every active lane gets
the exact result rounded once under the mode of `vctl`, with its flags; the special cases; sums over lanes; the functions of
R39 by their special inputs and, for division and roots, by their values; conversions; VPACK and VUNPK. The flags where a
component of a complex product is NaN, and which lane a reduction's flags name, are the model's choices (log entries 107,
109). -/
def Obligations.FloatingVectorResults : Prop :=
  ∀ (s : State) (k : SlotN) (t : Thread) (p : Strip) (ty : VType) (vd vs1 vs2 : VNum) (kd : KReg) (fc : Fin 10),
    s.subject.slot = k → s.slot s.subject.core k = .thread t → s.nextStrip s.subject.core k = some p → p.els = [] →
    let c := s.subject.core
    let lo := if p.odd then 32 else 0
    let act (ty : VType) : List Nat := activeLanes t.a p.vctl ty lo (lo + 32)
    let all (ty : VType) : List Nat := if p.last then activeLanes t.a p.vctl ty 0 64 else []
    let m := rmOf p.vctl
    let bits (ty : VType) (r : VNum) (l : Nat) : Nat := (t.a.lane r l).toNat % 2 ^ (8 * laneBytes ty)
    let nv (xs : List Val) : FFlags := if xs.any (·.isSnan) then 16 else 0
    (∀ f, ty ∈ [.f32, .bf16, .f16] → fmtOf ty = some f →
      let v (r : VNum) (l : Nat) : Val := value f (bits ty r l)
      let lanes (i : Instr) (R : Nat → Nat → FFlags → Prop) : Prop :=
        p.instr = i → s.StripRuns c k t vd (act ty) fun l w fl => w.toNat < 2 ^ (8 * laneBytes ty) ∧ R l w.toNat fl
      let sums (i : Instr) (ps : Nat → List (Val × Val)) (cs : Nat → List Val) : Prop :=
        lanes i fun l code fl => FloatRes f m (ps l) (cs l) code fl
      let signs (i : Instr) (g : Nat → Nat) : Prop := lanes i fun l code fl =>
        if (v vs1 l).isNan then code = f.nan ∧ fl = nv [v vs1 l] else code = g (bits ty vs1 l) ∧ fl = 0
      let compares (i : Instr) (g : Val → Val → Bool) (any : Bool) : Prop :=
        p.instr = i → s.StripCompares c k t kd (act ty) fun l b fl => b = g (v vs1 l) (v vs2 l) ∧
          fl = if any && ((v vs1 l).isNan || (v vs2 l).isNan) then 16 else nv [v vs1 l, v vs2 l]
      let reduces (i : Instr) (R : Nat → FFlags → Prop) : Prop :=
        p.instr = i → s.StripRuns c k t vd (if all ty = [] then [] else [0]) fun _ w fl =>
          w.toNat < 2 ^ (8 * laneBytes ty) ∧ R w.toNat fl
      let folds (i : Instr) (mx : Bool) : Prop := reduces i fun code fl =>
        fl = nv (v vd 0 :: (all ty).map (v vs1)) ∧
        ∃ r : Nat → Nat, r 0 = bits ty vd 0 ∧ code = r (all ty).length ∧
          ∀ n < (all ty).length, ∃ g, MinMaxRes f mx (r n) (bits ty vs1 ((all ty).getD n 0)) (r (n + 1)) g
      sums (.vadd ty vd vs1 vs2) (fun _ => []) (fun l => [v vs1 l, v vs2 l]) ∧
      sums (.vsub ty vd vs1 vs2) (fun _ => []) (fun l => [v vs1 l, (v vs2 l).flip]) ∧
      sums (.vmul ty vd vs1 vs2) (fun l => [(v vs1 l, v vs2 l)]) (fun _ => []) ∧
      sums (.vfma ty vd vs1 vs2) (fun l => [(v vs1 l, v vs2 l)]) (fun l => [v vd l]) ∧
      sums (.vfms ty vd vs1 vs2) (fun l => [(v vs1 l, v vs2 l)]) (fun l => [(v vd l).flip]) ∧
      lanes (.vmin ty vd vs1 vs2) (fun l code fl => MinMaxRes f false (bits ty vs1 l) (bits ty vs2 l) code fl) ∧
      lanes (.vmax ty vd vs1 vs2) (fun l code fl => MinMaxRes f true (bits ty vs1 l) (bits ty vs2 l) code fl) ∧
      signs (.vabs ty vd vs1) (fun x => x % 2 ^ f.magBits) ∧
      signs (.vneg ty vd vs1) (fun x => if x < 2 ^ f.magBits then x + 2 ^ f.magBits else x - 2 ^ f.magBits) ∧
      compares (.vceq ty kd vs1 vs2) Val.same false ∧ compares (.vclt ty kd vs1 vs2) Val.below true ∧
      compares (.vcle ty kd vs1 vs2) (fun x y => x.below y || x.same y) true ∧
      reduces (.vredadd ty vd vs1) (fun code fl => FloatRes f m [] (v vd 0 :: (all ty).map (v vs1)) code fl) ∧
      folds (.vredmax ty vd vs1) true ∧ folds (.vredmin ty vd vs1) false ∧
      (p.instr = .vcvt ty vd vs1 → dtypeOf p.vctl ≠ .c32 → s.StripRuns c k t vd (act ty) fun l w fl =>
        w.toNat < 2 ^ (8 * laneBytes ty) ∧ FloatRes f m [] [match fmtOf (dtypeOf p.vctl) with
          | some g => value g (bits (dtypeOf p.vctl) vs1 l)
          | none => .ofInt (laneInt (dtypeOf p.vctl) (t.a.lane vs1 l))] w.toNat fl)) ∧
    (ty ∈ [.i32, .i8, .u8] → p.instr = .vcvt ty vd vs1 → dtypeOf p.vctl ≠ .c32 →
      let lo : Int := match ty with | .i8 => -128 | .u8 => 0 | _ => -2 ^ 31
      let hi : Int := match ty with | .i8 => 127 | .u8 => 255 | _ => 2 ^ 31 - 1
      s.StripRuns c k t vd (act ty) fun l w fl => ∃ i, w = wrapInt ty i ∧ match fmtOf (dtypeOf p.vctl) with
        | some g => IntRes lo hi m (value g (bits (dtypeOf p.vctl) vs1 l)) i fl
        | none => i = max lo (min hi (laneInt (dtypeOf p.vctl) (t.a.lane vs1 l))) ∧ fl = 0) ∧
    (let v (r : VNum) (l : Nat) : Val := value .fp32 (t.a.lane r l).toNat
     let re (r : VNum) (l : Nat) : Val := v r (l / 2 * 2)
     let im (r : VNum) (l : Nat) : Val := v r (l / 2 * 2 + 1)
     let parts (i : Instr) (R0 R1 : Nat → Nat → FFlags → Prop) : Prop :=
       p.instr = i → s.StripRuns c k t vd (act .c32) fun l w fl => if l % 2 = 0 then R0 l w.toNat fl else R1 l w.toNat fl
     let unlessNan (xs : Nat → List Val) (R : Nat → Nat → FFlags → Prop) (l code : Nat) (fl : FFlags) : Prop :=
       if (xs l).any (·.isNan) then code = 0x7FC00000 ∧ fl = nv (xs l) else R l code fl
     let two (l : Nat) : List Val := [re vs1 l, im vs1 l, re vs2 l, im vs2 l]
     let sum (ps : Nat → List (Val × Val)) (cs : Nat → List Val) (l code : Nat) (fl : FFlags) : Prop :=
       FloatRes .fp32 m (ps l) (cs l) code fl
     let real (l : Nat) : List (Val × Val) := [(re vs1 l, re vs2 l), ((im vs1 l).flip, im vs2 l)]
     let imag (l : Nat) : List (Val × Val) := [(re vs1 l, im vs2 l), (im vs1 l, re vs2 l)]
     parts (.vcadd vd vs1 vs2) (sum (fun _ => []) fun l => [re vs1 l, re vs2 l]) (sum (fun _ => []) fun l => [im vs1 l, im vs2 l]) ∧
     parts (.vcsub vd vs1 vs2) (sum (fun _ => []) fun l => [re vs1 l, (re vs2 l).flip])
       (sum (fun _ => []) fun l => [im vs1 l, (im vs2 l).flip]) ∧
     parts (.vcmul vd vs1 vs2) (unlessNan two (sum real fun _ => [])) (unlessNan two (sum imag fun _ => [])) ∧
     (let all (l : Nat) : List Val := two l ++ [re vd l, im vd l]
      parts (.vcfma vd vs1 vs2) (unlessNan all (sum real fun l => [re vd l])) (unlessNan all (sum imag fun l => [im vd l]))) ∧
     parts (.vcconj vd vs1) (sum (fun _ => []) fun l => [re vs1 l]) (sum (fun _ => []) fun l => [(im vs1 l).flip]) ∧
     (let one (l : Nat) : List Val := [re vs1 l, im vs1 l]
      parts (.vcmag2 vd vs1) (unlessNan one (sum (fun l => [(re vs1 l, re vs1 l), (im vs1 l, im vs1 l)]) fun _ => []))
        (unlessNan one fun _ code fl => code = 0 ∧ fl = 0)) ∧
     parts (.vcexpj vd vs1) (fun l code fl => CosRes (re vs1 l) code fl) (fun l code fl => SinRes (re vs1 l) code fl) ∧
     (p.instr = .vredadd .c32 vd vs1 → s.StripRuns c k t vd (if all .c32 = [] then [] else [0, 1]) (fun l w fl =>
       FloatRes .fp32 m [] (v vd l :: ((all .c32).filter fun j => j % 2 == l).map (v vs1)) w.toNat fl) (at_ := fun _ => 0)) ∧
     (let fn (i : Instr) (R : Val → Val → Nat → FFlags → Prop) : Prop :=
        p.instr = i → s.StripRuns c k t vd (act .f32) fun l w fl => R (v vs1 l) (v vs2 l) w.toNat fl
      fn (.vdiv vd vs1 vs2) (DivRes m) ∧ fn (.vsqrt vd vs1) (fun x _ => SqrtRes m x) ∧
      fn (.vrsqrt vd vs1) (fun x _ => RsqrtRes m x) ∧ fn (.vrcp vd vs1) (fun x _ => RcpRes m x) ∧
      fn (.vexp2 vd vs1) (fun x _ => Exp2Res m x) ∧ fn (.vlog2 vd vs1) (fun x _ => Log2Res x) ∧
      fn (.vsin vd vs1) (fun x _ => SinRes x) ∧ fn (.vcos vd vs1) (fun x _ => CosRes x))) ∧
    (let half (odd : Bool) : VReg := if odd then t.a.vOdd[vs1] else t.a.v[vs1]
     let whole (i : Instr) (R : VReg → VReg → Prop) : Prop := p.instr = i → ∃ d : Bool → VReg, (∀ odd, R (half odd) (d odd)) ∧
       s.StripRuns c k t vd (if p.last then List.range (if t.paired then 64 else 32) else []) fun l w fl =>
         w = getLane (d (decide (32 ≤ l))) (l % 32) ∧ fl = 0
     whole (.vpack vd vs1 fc) (Packs fc.val ((s.partOf c).any fun q => q.mode.e4nan)) ∧ whole (.vunpk vd vs1 fc) (Unpacks fc.val))

/-- R133: a division takes its result to the divider, whose reply completes it 36 cycles later, 20 for a W form; division by
zero and overflow give the RISC-V results. -/
def Obligations.Division : Prop :=
  ∀ (s : State) (c : Nat) (k : SlotN) (t : Thread) (rd rs1 rs2 : XReg),
    s.Ready c k t { src := [rs1, rs2], dst := [rd] } →
    ∀ p ∈ divResults rd rs1 rs2 (t.a.xr rs1) (t.a.xr rs2), exec p.1 s = .next (s.setThr c k (t.parkedOn (s.core c).cycle s.curWord
      (.reply ((s.core c).cycle + p.2.1) true { ws := [.x rd p.2.2] })))

/-- R134: branches and jumps: where they go when the target is a multiple of 4, that a taken one ends an active repeat, and
that a taken transfer to any other target traps with cause 0 and writes nothing. -/
def Obligations.ControlTransfer : Prop :=
  (∀ (s : State) (c : Nat) (k : SlotN) (t : Thread) (rs1 rs2 : XReg) (imm : BitVec 12),
    s.Ready c k t { src := [rs1, rs2] } →
    let target := t.a.pc + imm.signExtend 64 * 2
    ∀ p ∈ branchResults rs1 rs2 (t.a.xr rs1) (t.a.xr rs2) imm,
      (p.2 = false → exec p.1 s = .next (s.done c k t)) ∧
      (p.2 = true → target.toNat % 4 = 0 → exec p.1 s = .next (s.setThr c k (t.finish (some target) 4))) ∧
      (p.2 = true → target.toNat % 4 ≠ 0 → s.Traps c k t p.1 { cause := 0, val := target })) ∧
  (∀ (s : State) (c : Nat) (k : SlotN) (t : Thread) (rd rs1 : XReg) (imm : BitVec 12),
    s.Ready c k t { src := [rs1], dst := [rd] } →
    let target := (t.a.xr rs1 + imm.signExtend 64) &&& ~~~1#64
    (target.toNat % 4 = 0 →
      exec (.jalr rd rs1 imm) s = .next (s.setThr c k ((t.wx rd (t.a.pc + 4)).finish (some target) 4))) ∧
    (target.toNat % 4 ≠ 0 → t.trapReady = true →
      exec (.jalr rd rs1 imm) s = .next (s.takeTrap c k { cause := 0, val := target }))) ∧
  (∀ (s : State) (c : Nat) (k : SlotN) (t : Thread) (rd : XReg) (imm : BitVec 20),
    s.Ready c k t { dst := [rd] } →
    let target := t.a.pc + imm.signExtend 64 * 2
    (target.toNat % 4 = 0 →
      exec (.jal rd imm) s = .next (s.setThr c k ((t.wx rd (t.a.pc + 4)).finish (some target) 4))) ∧
    (target.toNat % 4 ≠ 0 → t.trapReady = true →
      exec (.jal rd imm) s = .next (s.takeTrap c k { cause := 0, val := target }))) ∧
  (∀ (t : Thread) (target : Word), (t.finish (some target) 4).a.pc = target ∧ (t.finish (some target) 4).a.csr.count = 0)
/-! ### Loads, stores and atomics (R132, R201 to R206) -/

/-- R132, R201, R202: what the loads read, by the place their address selects, and where their result goes; misaligned they
trap with cause 4. -/
def Obligations.LoadsRead : Prop :=
  (∀ (s : State) (c : Nat) (k : SlotN) (t : Thread) (rd rs1 : XReg) (imm : BitVec 12),
    s.Ready c k t { src := [rs1], dst := [rd] } →
    ∀ p ∈ baseLoads rd rs1 imm, s.LoadsAs c k t (exec p.1 s) (t.a.xr rs1 + imm.signExtend 64).toNat p.2.1 rd p.2.2
      fun v => s.done c k (t.wx rd v)) ∧
  (∀ (s : State) (c : Nat) (k : SlotN) (t : Thread) (g : Guard) (w size : Fin 4) (off3 : Fin 8) (rd rs1 : XReg),
    s.Ready c k t { guard := g, src := [rs1], dst := [rd] } → (w = 0 ∨ t.psc (w.val - 1) = 0) →
    s.LoadsAs c k t (exec (.ldx g w size off3 rd rs1) s) (t.a.xr rs1 + BitVec.ofNat 64 (off3.val * 2 ^ size.val)).toNat
      (2 ^ size.val) rd (BitVec.ofNat 64) fun v => s.done c k (t.wx rd v))

/-- R132, R201, R202: what the stores write, where, and what they leave alone; misaligned they trap with cause 6. -/
def Obligations.StoresWrite : Prop :=
  (∀ (s : State) (c : Nat) (k : SlotN) (t : Thread) (rs2 rs1 : XReg) (imm : BitVec 12),
    s.Ready c k t { src := [rs1, rs2] } →
    ∀ p ∈ baseStores rs2 rs1 imm, s.StoresAs c k t (exec p.1 s) (t.a.xr rs1 + imm.signExtend 64).toNat p.2 (t.a.xr rs2)) ∧
  (∀ (s : State) (c : Nat) (k : SlotN) (t : Thread) (g : Guard) (w size : Fin 4) (off3 : Fin 8) (rs2 rs1 : XReg),
    s.Ready c k t { guard := g, src := [rs1, rs2] } → (w = 0 ∨ t.psc (w.val - 1) = 0) →
    s.StoresAs c k t (exec (.stx g w size off3 rs2 rs1) s) (t.a.xr rs1 + BitVec.ofNat 64 (off3.val * 2 ^ size.val)).toNat (2 ^ size.val)
      (t.a.xr rs2))

/-- R203: LDX.F reads a full word as a load does and waits for an empty one, its chunk committed; STX.F writes the own word
and sets its full bit, and posts to another place. -/
def Obligations.FullEmptyAccess : Prop :=
  (∀ (s : State) (c : Nat) (k : SlotN) (t : Thread) (g : Guard) (w : Fin 4) (dbl : Bool) (off3 : Fin 8) (rd rs1 : XReg)
    (tg : Target),
    s.Ready c k t { guard := g, src := [rs1], dst := [rd] } → (w = 0 ∨ t.psc (w.val - 1) = 0) →
    let n := if dbl then 8 else 4
    let a := (t.a.xr rs1 + BitVec.ofNat 64 (off3.val * n)).toNat
    a % n = 0 → fePlace s c k a 5 = .ok s tg → s.Clear c k t tg n →
    (s.allFull tg.key n = true →
      exec (.ldxF g w dbl off3 rd rs1) s = .next (if tg.isLocal then s.done c k (t.wx rd (BitVec.ofNat 64 (s.num tg.key n)))
        else s.setThr c k (t.parkedOn (s.core c).cycle s.curWord
          (.reply ((s.core c).cycle + 1) false { ws := [.x rd (BitVec.ofNat 64 (s.num tg.key n))] })))) ∧
    (s.allFull tg.key n = false → ∀ s1, commitFirst s c k = .ok s1 () →
      exec (.ldxF g w dbl off3 rd rs1) s = .next (s1.park c k (.full tg.key n (BitVec.ofNat 64 a) rd)))) ∧
  (∀ (s s1 : State) (c : Nat) (k : SlotN) (t : Thread) (g : Guard) (w : Fin 4) (dbl : Bool) (off3 : Fin 8) (rs2 rs1 : XReg)
    (tg : Target),
    s.Ready c k t { guard := g, src := [rs1, rs2] } → (w = 0 ∨ t.psc (w.val - 1) = 0) →
    let n := if dbl then 8 else 4
    let a := (t.a.xr rs1 + BitVec.ofNat 64 (off3.val * n)).toNat
    let bs := leBytes n (t.a.xr rs2).toNat
    a % n = 0 → fePlace s c k a 7 = .ok s tg → s.Clear c k t tg n → commitFirst s c k = .ok s1 () →
    match tg with
    | .own _ key => exec (.stxF g w dbl off3 rs2 rs1) s = .next (let s2 := s1.pokeFull key bs; s2.done c k (s2.thr c k))
    | tg => (s1.thr c k).psc tg.cls + 1 ≤ 0xFFFF → exec (.stxF g w dbl off3 rs2 rs1) s =
        .next (let s2 := s1.postFor c k tg.cls tg.dest (.store tg.key bs true); s2.done c k (s2.thr c k)))

/-- R204, R205: an atomic reads the old value, stores the new one in one step at its place, and delivers the old one: at
once from the own memories, else with a reply; a failed ACAS stores nothing; in translated memory its line enters commit
order, and on a scene-shared page the module owns it (R199, R255). -/
def Obligations.AtomicsUpdate : Prop :=
  ∀ (s s0 s1 : State) (c : Nat) (k : SlotN) (t u : Thread) (aq rl dbl : Bool) (rd rs2 rs1 : XReg) (tg : Target),
    s.Ready c k t { src := [rs1, rs2, rd], dst := [rd] } →
    let n := if dbl then 8 else 4
    let m := 2 ^ (8 * n)
    let a := (t.a.xr rs1).toNat
    a % n = 0 → s.resolve c a .store = (s0, .ok tg) → commitFirst s0 c k = .ok s1 () →
    s1.slot c k = .thread u → s1.Clear c k u tg n →
    ((∃ p, tg = .global p) → s1.soloLines = none) →
    (∀ p, tg = .global p → p.shared = true → s1.ownsLine (p.pa / 64) = true ∧
      (rl = true → (s1.shUnacked.any fun e => e.2.contains (u.ref c)) = false)) →
    (rl = true → u.psc0 = 0 ∧ u.psc1 = 0 ∧ u.psc2 = 0 ∧ u.overlaps 0 (2 ^ 64) = false) →
    let old := s1.num tg.key n
    let src := (t.a.xr rs2).toNat % m
    let stores (i : Instr) (new : Option Nat) (res : Word) : Prop :=
      let s2 := match new with
        | some v => s1.poke tg.key (leBytes n v)
        | none => s1
      let s3 := match tg with
        | .global p =>
          let x := ((s2.record [p.pa / 64]).noteLine (clusterOf c) (p.pa / 64)).shStored (u.ref c) [p.pa / 64]
          if aq ∧ p.shared then x.applyShared else x
        | _ => s2
      exec i s = .next (if tg.isLocal then s3.done c k (u.wx rd res)
        else s3.setThr c k (u.parkedOn (s3.core c).cycle s3.curWord (.reply ((s3.core c).cycle + 1) false { ws := [.x rd res] })))
    let res : Word := if dbl then BitVec.ofNat 64 old else (BitVec.ofNat 32 old).signExtend 64
    let sgn (v : Nat) : Int := if 2 * v < m then v else v - m
    stores (.aadd aq rl dbl rd rs2 rs1) (some ((old + src) % m)) res ∧
    stores (.aswp aq rl dbl rd rs2 rs1) (some src) res ∧
    stores (.aand aq rl dbl rd rs2 rs1) (some (old &&& src)) res ∧
    stores (.aor aq rl dbl rd rs2 rs1) (some (old ||| src)) res ∧
    stores (.axor aq rl dbl rd rs2 rs1) (some (old ^^^ src)) res ∧
    stores (.amax aq rl dbl rd rs2 rs1) (some (if sgn old < sgn src then src else old)) res ∧
    stores (.amin aq rl dbl rd rs2 rs1) (some (if sgn src < sgn old then src else old)) res ∧
    stores (.amaxu aq rl dbl rd rs2 rs1) (some (if old < src then src else old)) res ∧
    stores (.aminu aq rl dbl rd rs2 rs1) (some (if src < old then src else old)) res ∧
    stores (.acas aq rl dbl rd rs2 rs1) (if old = (t.a.xr rd).toNat % m then some src else none) res ∧
    stores (.aincw aq rl dbl rd rs2 rs1) (some (if src ≤ old then 0 else old + 1)) res ∧
    (dbl = false →
      stores (.afadd aq rl rd rs2 rs1) (some (fpround .fp32 .rne ((value .fp32 old).add .rne (value .fp32 src))).1) res ∧
      stores (.afmax aq rl rd rs2 rs1) (some (fmaxBits .fp32 old src)) res)
/-! ### System instructions of the base set: FENCE, ECALL, EBREAK, Zicsr (R120 to R125, R135 to R137, R371) -/

/-- R371, R373, R125: a trap writes the four trap registers in one step, leaves pc at the instruction, splits nothing when
the thread is unpaired, and hands one record with the same values to the supervisor; without a copy at `trqbase` memory is
unchanged. R290, R144: what XRESUME makes of a trapped thread: it issues next at trpc, and outside its repeat's body the
repeat ends; at the body's end the pass ends. -/
def Obligations.TrapsTakenAndLeft : Prop :=
  (∀ (s : State) (c : Nat) (k : SlotN) (t : Thread) (p : Trap),
     s.slot c k = .thread t → t.chunk = none → t.closed = none → t.paired = false →
     ∃ u, (s.takeTrap c k p).slot c k = .thread u ∧
       u.st = .trapped ∧ u.wait = .none ∧ u.a = t.a ∧
       u.tr.trcause = BitVec.ofNat 64 (p.cause % 256 + p.source % 256 * 256) ∧
       u.tr.trval = p.val ∧ u.tr.trpc = t.a.pc ∧ u.tr.trval2 = p.val2 ∧
       (∀ j, j ≠ k → (s.takeTrap c k p).slot c j = s.slot c j) ∧
       (k ≠ 0 → s.mayStamp c 0 = true → (s.core c).c.heldRecs = [] →
         (s.core c).c.trapQ.length < 16 → (s.core c).c.trqbase = 0 →
         (∀ r ∈ (s.core c).c.trapQ, r.stamp.toNat < ((s.core c).stamps.draw s.rot).1.toNat) →
         (s.takeTrap c k p).mem = s.mem ∧
         ((s.takeTrap c k p).core c).c.trapQ = (s.core c).c.trapQ ++
           [{ stamp := ((s.core c).stamps.draw s.rot).1, flags := p.flags, source := BitVec.ofNat 8 p.source,
              cause := BitVec.ofNat 8 p.cause, loc := (s.loc c k).setWidth 32, trpc := t.a.pc, trval := p.val,
              trval2 := p.val2, trval3 := p.val3, role := BitVec.ofNat 4 t.role,
              word := if p.hasWord then s.curWord else 0, handle := s.handle c k t }])) ∧
  (∀ t : Thread,
     let n := t.a.csr.count
     let pc := t.tr.trpc
     let u := t.resumeAt
     u.st = .runnable ∧ u.wait = .none ∧ u.tr = t.tr ∧ u.a.x = t.a.x ∧
     (n = 0 → u.a.pc = pc ∧ u.a.csr = t.a.csr) ∧
     (n ≠ 0 → t.a.csr.repbody.toNat ≤ pc.toNat → pc.toNat < t.a.repEnd.toNat → u.a.pc = pc ∧ u.a.csr = t.a.csr) ∧
     (n ≠ 0 → pc = t.a.repEnd → u.a.csr.count = n - 1 ∧ u.a.pc = if n = 1 then pc else t.a.csr.repbody) ∧
     (n ≠ 0 → pc ≠ t.a.repEnd → (pc.toNat < t.a.csr.repbody.toNat ∨ t.a.repEnd.toNat ≤ pc.toNat) →
       u.a.pc = pc ∧ u.a.csr.count = 0))

/-- R136: ECALL raises cause 8 and EBREAK cause 3, with `trval` and `trval2` zero. R135: FENCE commits the chunk, then
completes when the counters are zero, no engine write and no strip of the thread is outstanding; else it parks until then.
-/
def Obligations.SystemCallsAndFence : Prop :=
  (∀ (s : State) (c : Nat) (k : SlotN) (t : Thread), s.Ready c k t {} → t.trapReady = true →
     exec .ecall s = .next (s.takeTrap c k { cause := 8, val := 0, val2 := 0 }) ∧
     exec .ebreak s = .next (s.takeTrap c k { cause := 3, val := 0, val2 := 0 })) ∧
  (∀ (s s1 : State) (c : Nat) (k : SlotN) (t u : Thread), s.Ready c k t {} →
     s.Commits c k t s1 u →
     let over_ := u.psc0 = 0 ∧ u.psc1 = 0 ∧ u.psc2 = 0 ∧ s1.engineBusy (u.ref c) = false ∧ u.vq = []
     (over_ → exec .fence s = .next (s1.done c k u)) ∧
     (¬over_ → exec .fence s = .next (s1.setThr c k (u.parkedOn (s1.core c).cycle s1.curWord (.cond .fence)))))

/-- R120, R121, R124, R137, R415, R25: the Zicsr instructions read the old value into rd and write the new one where the
instruction writes: by the CSR's field table; `vstat` when no strip is pending; `repcnt` and `repbody` with the end of the
repeat they set up, from the next instruction; the supervisor's own; a write to the read-only range is illegal. -/
def Obligations.CsrInstructions : Prop :=
  (∀ w lit : Nat, fld w 0 7 = 0x73 → fld w 12 3 ≠ 0 → csrExists (immI w) = false → ∃ e, decodeWord w lit = .error e) ∧
  ∀ (s : State) (c : Nat) (k : SlotN) (t : Thread) (rd rs1 : XReg) (csr : BitVec 12) (uimm : Fin 32),
    csrExists csr = true → s.Ready c k t { who := csrWho csr.toNat, src := [rs1], dst := [rd] } →
    let n := csr.toNat
    let old := s.readCsr c k n
    ∀ p ∈ csrRegWrites rd rs1 csr old (t.a.xr rs1) ++ csrImmWrites rd csr uimm old,
      (p.2 ≠ none → 0xC00 ≤ n → s.Traps c k t p.1 { cause := 2, val := s.curWord.setWidth 64 }) ∧
      s.CsrDoes c k t (exec p.1 s) n p.2 fun s' t' after => s'.setThr c k (after ((t'.wx rd old).finish none 4))

/-- R120: what a write stores in the fields of the user CSRs. R120, R122, R123, R124: what a CSR reads as. -/
def Obligations.CsrFieldsAndReads : Prop :=
  (∀ (u : UserCsrs) (paired : Bool) (v : Word),
     let n := v.toNat
     let vctl := (u.write paired 0x800 v).vctl.toNat
     let f (w lo len : Nat) : Nat := w / 2 ^ lo % 2 ^ len
     f vctl 0 7 = min (f n 0 7) (if paired then 64 else 32) ∧
     f vctl 7 1 = 0 ∧ f vctl 8 3 = f n 8 3 ∧ f vctl 11 1 = f n 11 1 ∧
     f vctl 12 3 = (if f n 12 3 = 7 then 0 else f n 12 3) ∧ f vctl 15 1 = 0 ∧
     f vctl 16 2 = f n 16 2 ∧ f vctl 18 1 = f n 18 1 ∧ vctl < 2 ^ 19 ∧
     (u.write paired 0x801 v).vstat = v &&& 0x1F ∧
     (∀ i < 4, f (u.write paired 0x802 v).qmap.toNat (8 * i) 8 =
       (if f n (8 * i + 6) 1 = 0 ∧ 8 ≤ f n (8 * i) 6 then f n (8 * i) 7 else f n (8 * i) 8)) ∧
     (u.write paired 0x802 v).qmap.toNat < 2 ^ 32 ∧
     (u.write paired 0x803 v).qlimit = v &&& 0xFFFFFFFF ∧
     (u.write paired 0x804 v).fmtsh = v &&& 0xFFFF ∧
     (u.write paired 0x805 v).scalea = v ∧ (u.write paired 0x806 v).scaleb = v ∧
     (u.write paired 0x807 v).repcnt = v &&& 0xFFFFFFFFFFFF ∧
     (u.write paired 0x808 v).repbody = v &&& ~~~3#64 ∧
     (u.write paired 0x809 v).evmask = v &&& 0xFF) ∧
  (∀ (s : State) (c : Nat) (k : SlotN) (t : Thread), s.slot c k = .thread t →
     let r := s.readCsr c k
     r 0x800 = t.a.csr.vctl ∧ r 0x801 = (if t.vq = [] then t.a.csr.vstat else t.a.csr.vstat ||| 0x100) ∧
     r 0x802 = t.a.csr.qmap ∧ r 0x803 = t.a.csr.qlimit ∧ r 0x804 = t.a.csr.fmtsh ∧ r 0x805 = t.a.csr.scalea ∧
     r 0x806 = t.a.csr.scaleb ∧ r 0x807 = t.a.csr.repcnt ∧ r 0x808 = t.a.csr.repbody ∧ r 0x809 = t.a.csr.evmask ∧
     r 0xC00 = BitVec.ofNat 64 (s.core c).cycle ∧ r 0xC02 = BitVec.ofNat 64 (t.instret - t.counted.toNat) ∧
     r 0xCC0 = BitVec.ofNat 64 (s.domain.toNat * 2 ^ 18 + s.modnum * 2 ^ 15 + c * 2 ^ 3 + k) ∧
     r 0xCC1 = BitVec.ofNat 64 (t.psc0 % 2 ^ 16) ∧ r 0xCC2 = BitVec.ofNat 64 (t.psc1 % 2 ^ 16) ∧ r 0xCC3 = BitVec.ofNat 64 (t.psc2 % 2 ^ 16) ∧
     r 0xCC6 = BitVec.ofNat 64 (t.migr.origin.toNat * 2 ^ 32 + t.migr.hops % 2 ^ 16 * 2 ^ 16 +
       t.migr.spawned.toNat * 2 ^ 9 + t.migr.migrant.toNat * 2 ^ 8 + t.migr.out % 2 ^ 8) ∧
     r 0x5C0 = (s.core c).c.trqbase ∧ r 0x5C1 = (s.core c).c.supctl ∧
     (r 0x5C2).toNat % 2 ^ 8 = (s.core c).removed.toNat ∧
     ((s.core c).c.lock = none → r 0x5C3 = 0))

/-! ### Guards, slots, predicates, literals and repeats (R52 to R54, R112, R117, R138 to R145) -/

/-- R112: an instruction whose guard predicate is 0 has no effect but its completion: the pc moves past it, with a LIMM's
literal, `instret` goes up by one, the chunk's count does not, and it reads and writes nothing, on a core that lacks its
unit too; in a slot that may not issue it, it still raises the trap of R117 that precedes the guard. -/
def Obligations.GuardedOffInstructions : Prop :=
  ∀ (i : Instr) (s : State) (c : Nat) (k : SlotN) (t : Thread), s.At c k t →
    guardOf i ≠ 0 → t.a.p (guardReg (guardOf i)) = false →
    ((whoOf i).allows k = true →
      exec i s = .next (s.setThr c k { t.finish none (lengthOf i) with chunk := t.chunk })) ∧
    ((whoOf i).allows k = false → t.trapReady = true →
      exec i s = .next (s.takeTrap c k { cause := 2, val := s.curWord.setWidth 64 }))

/-- R52, R53, R54, R118: an instruction in a slot that may not issue it is illegal, whatever its guard: cause 2 with the
instruction's word. -/
def Obligations.SlotPrivilege : Prop :=
  ∀ (i : Instr) (s : State) (c : Nat) (k : SlotN) (t : Thread), s.At c k t →
    (whoOf i).allows k = false → t.trapReady = true →
    exec i s = .next (s.takeTrap c k { cause := 2, val := s.curWord.setWidth 64 })

/-- R122, R123, R143: what completing an instruction without a redirection does to the thread: pc past the instruction, or
at the end of a repeat's body the pass ends; nothing else of the registers changes. -/
def Obligations.CompletionAdvances : Prop :=
  ∀ (t : Thread) (len : Nat),
    let u := t.finish none len
    let npc := t.a.pc + BitVec.ofNat 64 len
    let n := t.a.csr.count
    u.instret = (if t.counted then t.instret else t.instret + 1) ∧ u.counted = false ∧ u.a.x = t.a.x ∧ u.a.pw = t.a.pw ∧ u.a.v = t.a.v ∧ u.a.vOdd = t.a.vOdd ∧ u.a.k = t.a.k ∧
    u.tr = t.tr ∧ u.st = .runnable ∧ u.wait = .none ∧
    (n = 0 ∨ npc ≠ t.a.repEnd → u.a.pc = npc ∧ u.a.csr = t.a.csr) ∧
    (n ≠ 0 → npc = t.a.repEnd →
      u.a.csr.count = n - 1 ∧ u.a.csr.replen = t.a.csr.replen ∧ u.a.csr.repbody = t.a.csr.repbody ∧
      u.a.csr.vctl = t.a.csr.vctl ∧ u.a.pc = if n = 1 then npc else t.a.csr.repbody)

/-- R138 to R141: the predicate instructions and LIMM. -/
def Obligations.PredicatesAndLiterals : Prop :=
  (∀ (s : State) (c : Nat) (k : SlotN) (t : Thread) (g : Guard) (pd : PReg) (rs1 rs2 : XReg),
    s.Ready c k t { guard := g, src := [rs1, rs2] } →
    let a := t.a.xr rs1
    let b := t.a.xr rs2
    let sets (i : Instr) (v : Bool) : Prop := exec i s = .next (s.done c k (t.wp pd v))
    sets (.pseq g pd rs1 rs2) (decide (a = b)) ∧
    sets (.psne g pd rs1 rs2) (decide (a ≠ b)) ∧
    sets (.pslt g pd rs1 rs2) (decide (a.toInt < b.toInt)) ∧
    sets (.psge g pd rs1 rs2) (decide (b.toInt ≤ a.toInt)) ∧
    sets (.psltu g pd rs1 rs2) (decide (a.toNat < b.toNat)) ∧
    sets (.psgeu g pd rs1 rs2) (decide (b.toNat ≤ a.toNat)) ∧
    exec (.pwr g rs1 rs2) s = .next (s.done c k { t with a := { t.a with
      pw := (t.a.pw &&& ~~~b.setWidth 32 ||| a.setWidth 32 &&& b.setWidth 32) ||| 1 } })) ∧
  (∀ (s : State) (c : Nat) (k : SlotN) (t : Thread) (g : Guard) (pd pa pb : PReg), s.Ready c k t { guard := g } →
    let a := t.a.p pa
    let b := t.a.p pb
    let sets (i : Instr) (v : Bool) : Prop := exec i s = .next (s.done c k (t.wp pd v))
    sets (.pand g pd pa pb) (a && b) ∧ sets (.por g pd pa pb) (a || b) ∧
    sets (.pandn g pd pa pb) (a && !b) ∧ sets (.pxor g pd pa pb) (xor a b)) ∧
  (∀ (s : State) (c : Nat) (k : SlotN) (t : Thread) (g : Guard) (rd : XReg) (lit : Word32),
    s.Ready c k t { guard := g, dst := [rd] } →
    exec (.prd g rd) s = .next (s.done c k (t.wx rd ((t.a.pw ||| 1).setWidth 64))) ∧
    exec (.limm g rd lit) s = .next (s.done c k (t.wx rd (lit.signExtend 64)) 8)) ∧
  (∀ (a : Arch) (p q : PReg) (v : Bool), a.p 0 = true ∧ a.setP 0 v = a ∧
    (p ≠ 0 → (a.setP p v).p p = v) ∧ (q ≠ p → (a.setP p v).p q = a.p q))

/-- R142, R415: REP sets up a repeat of the body after it, or jumps past a body that runs no time; a repeat in progress
makes it illegal. -/
def Obligations.RepeatSetup : Prop :=
  ∀ (s s0 : State) (c : Nat) (k : SlotN) (t : Thread) (g : Guard) (rs1 rs2 : XReg) (e : Nat),
    s.Ready c k t { guard := g, src := [rs1, rs2] } →
    let n := (t.a.xr rs1).toNat % 2 ^ 32
    let len := (t.a.xr rs2).toNat % 2 ^ 16
    let count := if len = 0 then 0 else n
    let u := { t with a := { t.a with
      repEnd := BitVec.ofNat 64 e, endPend := false
      csr := { t.a.csr with repcnt := BitVec.ofNat 64 (len * 2 ^ 32 + count), repbody := t.a.pc + 4 } } }
    (t.a.csr.count ≠ 0 → t.trapReady = true →
      exec (.rep g rs1 rs2) s = .next (s.takeTrap c k { cause := 2, val := s.curWord.setWidth 64 })) ∧
    (t.a.csr.count = 0 → s.bodyEnd c len (t.a.pc + 4).toNat = (s0, .ok e) →
      exec (.rep g rs1 rs2) s =
        .next (if count = 0 then s0.setThr c k (u.finish (some (BitVec.ofNat 64 e)) 4) else s0.done c k u))

/-! ### Memory-system group (R207 to R217) -/

/-- R209: LDRO reads through the sampler path and parks for at least a rot, until its reply; misaligned it traps with cause
4. R208, R212: CNTWAIT completes when every counter of its mask is zero, and else parks; FENCER with length 0 only commits,
with posted and engine kinds it completes when none of the thread's operations meets the range, and a range above 2^30 is
illegal. How FENCER translates the lines of its range, and how its sampler and domain kinds meet pending invalidations, are
the model's choices (log entries 10, 55). -/
def Obligations.SamplerLoadAndFences : Prop :=
  (∀ (s s1 : State) (c : Nat) (k : SlotN) (t : Thread) (g : Guard) (rd rs1 : XReg) (size : Fin 4) (bs : List Byte),
     s.Ready c k t { guard := g, src := [rs1], dst := [rd] } →
     let a := (t.a.xr rs1).toNat
     let n := 2 ^ size.val
     (a % n = 0 → s.sampleAt c a n .sampler = (s1, .ok bs) →
       exec (.ldro g rd rs1 size) s = .next
         (s1.park c k (.reply ((s1.core c).cycle + 8) false { ws := [.x rd (BitVec.ofNat 64 (leNat bs))] }))) ∧
     (a % n ≠ 0 → t.trapReady = true →
       exec (.ldro g rd rs1 size) s = .next (s.takeTrap c k { cause := 4, val := t.a.xr rs1 }))) ∧
  ((∀ (s : State) (c : Nat) (k : SlotN) (t : Thread) (g : Guard) (mask : Fin 8), s.Ready c k t { guard := g } →
     let clear := (mask.val.testBit 0 → t.psc0 = 0) ∧ (mask.val.testBit 1 → t.psc1 = 0) ∧ (mask.val.testBit 2 → t.psc2 = 0)
     (clear → exec (.cntwait g mask) s = .next (s.done c k t)) ∧
     (¬clear → exec (.cntwait g mask) s = .next (s.setThr c k (t.parkedOn (s.core c).cycle s.curWord (.cond (.counters mask)))))) ∧
   (∀ (s s1 : State) (c : Nat) (k : SlotN) (t u : Thread) (g : Guard) (kinds : Fin 8) (scope : Fin 4) (rs1 rs2 : XReg),
     s.Ready c k t { guard := g, src := [rs1, rs2] } →
     let base := (t.a.xr rs1).toNat
     let len := (t.a.xr rs2).toNat
     (2 ^ 30 < len → t.trapReady = true → exec (.fencer g kinds scope rs1 rs2) s =
       .next (s.takeTrap c k { cause := 2, val := s.curWord.setWidth 64, val2 := t.a.xr rs2 })) ∧
     (len ≤ 2 ^ 30 → s.Commits c k t s1 u →
       (len = 0 → exec (.fencer g kinds scope rs1 rs2) s = .next (s1.done c k u)) ∧
       (len ≠ 0 → kinds.val.testBit 0 = false →
         let over_ := (kinds.val.testBit 1 → s1.engineIn (t.ref c) base len = false) ∧
           (kinds.val.testBit 2 → s1.postedIn (t.ref c) base len = false)
         (over_ → exec (.fencer g kinds scope rs1 rs2) s = .next (s1.done c k u)) ∧
         (¬over_ → exec (.fencer g kinds scope rs1 rs2) s =
           .next (s1.setThr c k (u.parkedOn (s1.core c).cycle s1.curWord (.cond (.fencer kinds base len)))))))) ∧
   (∀ (s s1 : State) (c : Nat) (k : SlotN) (t u : Thread) (p : Part) (g : Guard) (kinds : Fin 8) (scope : Fin 4)
     (rs1 rs2 : XReg),
     s.Ready c k t { guard := g, src := [rs1, rs2] } →
     let base := (t.a.xr rs1).toNat
     let len := (t.a.xr rs2).toNat
     0 < len → len ≤ 2 ^ 30 → kinds.val.testBit 0 = true → commitFirst s c k = .ok s1 () →
     (scope = 3 → (s1.shUnacked.any fun e => e.2.contains ((s1.thr c k).ref c)) = false) →
     let s0 := if scope = 3 then s1.applyShared else s1
     s0.partOf c = some p →
     let s2 := (s0.linesOf c p base len).1
     let s3 := { s2 with samplerReqs := s2.samplerReqs ++
       (scopeClusters c scope).map fun cl => (t.ref c, cl, p.cfg.part, (s0.linesOf c p base len).2) }
     s3.slot c k = .thread u →
     exec (.fencer g kinds scope rs1 rs2) s = .next (s3.setThr c k (u.parkedOn (s3.core c).cycle s3.curWord (.cond (.fencer kinds base len))))))

/-- R210, R211, R213: FECLR and FESET on the own scratchpad, or posted to another place; FETEST into a predicate; STNIB on
the own scratchpad and posted. -/
def Obligations.FullEmptyAndNibbles : Prop :=
  (∀ (s s1 : State) (c : Nat) (k : SlotN) (t : Thread) (g : Guard) (rs1 rs2 : XReg) (tg : Target),
    s.Ready c k t { guard := g, src := [rs1, rs2] } →
    let base := (t.a.xr rs1).toNat
    let len := (t.a.xr rs2).toNat
    base % 4 = 0 → len % 4 = 0 → len ≠ 0 → fePlace s c k base 7 = .ok s tg → len ≤ s.partLeft c tg →
    (∀ off key, tg = .own off key → s.lockHolds c off len (some (c, k)) = false) → commitFirst s c k = .ok s1 () →
    let sets (i : Instr) (v : Bool) : Prop :=
      match tg with
      | .own _ key => exec i s = .next (let s2 := s1.changeFull key len v; s2.done c k (s2.thr c k))
      | tg => (s1.thr c k).psc tg.cls + 1 ≤ 0xFFFF →
        exec i s = .next (let s2 := s1.postFor c k tg.cls tg.dest (.fe tg.key len v); s2.done c k (s2.thr c k))
    sets (.feclr g rs1 rs2) false ∧ sets (.feset g rs1 rs2) true) ∧
  (∀ (s : State) (c : Nat) (k : SlotN) (t : Thread) (g : Guard) (pd : PReg) (rs1 : XReg) (tg : Target),
    s.Ready c k t { guard := g, src := [rs1] } → (t.a.xr rs1).toNat % 4 = 0 →
    fePlace s c k (t.a.xr rs1).toNat 5 = .ok s tg → s.Clear c k t tg 4 →
    exec (.fetest g pd rs1) s = .next (if tg.isLocal then s.done c k (t.wp pd (s.isFull tg.key))
      else s.setThr c k (t.parkedOn (s.core c).cycle s.curWord
        (.reply ((s.core c).cycle + 1) false { ws := [.p pd (s.isFull tg.key)] })))) ∧
  (∀ (s : State) (c : Nat) (k : SlotN) (t : Thread) (g : Guard) (rs1 rs2 : XReg) (off key : Nat),
    s.Ready c k t { guard := g, src := [rs1, rs2] } → s.place c (t.a.xr rs1).toNat = .own off key →
    s.Clear c k t (.own off key) 1 → t.chunk = none →
    let b := s.byte key
    let v : Byte := ((t.a.xr rs2).setWidth 4).setWidth 8
    let writes (i : Instr) (b' : Byte) : Prop := ∃ s', exec i s = .next s' ∧ s'.byte key = b' ∧
      (∀ q, q ≠ key → s'.byte q = s.byte q) ∧ s'.slot c k = .thread (t.finish none 4)
    writes (.stnibLo g rs1 rs2) (b &&& 0xF0 ||| v) ∧ writes (.stnibHi g rs1 rs2) (b &&& 0x0F ||| v <<< 4)) ∧
  (∀ (s s1 : State) (c : Nat) (k : SlotN) (t : Thread) (g : Guard) (rs1 rs2 : XReg) (d off key : Nat),
    s.Ready c k t { guard := g, src := [rs1, rs2] } → s.place c (t.a.xr rs1).toNat = .remote d off key →
    commitFirst s c k = .ok s1 () → (s1.thr c k).psc0 + 1 ≤ 0xFFFF →
    let posts (i : Instr) (hi : Bool) : Prop := exec i s =
      .next (let s2 := s1.postFor c k 0 d (.nib key hi ((t.a.xr rs2).setWidth 4)); s2.done c k (s2.thr c k))
    posts (.stnibLo g rs1 rs2) false ∧ posts (.stnibHi g rs1 rs2) true)

/-- R214, R215, R216, R217: LOCKR claims a free lock, replaces the holder's own range and else waits; UNLOCKR releases it
for its holder and for slot 0, does nothing when it is free, and else is illegal; CHUNK commits, sets the limit code and
reads `chunkstat`; PFETCH traps for nothing and waits for nothing. -/
def Obligations.LocksChunksPrefetch : Prop :=
  (∀ (s s1 : State) (c : Nat) (k : SlotN) (t : Thread) (g : Guard) (rs1 rs2 : XReg),
    s.Ready c k t { guard := g, src := [rs1, rs2] } →
    let base := (t.a.xr rs1).toNat
    let len := (t.a.xr rs2).toNat
    let win := 0xFFFFFFFE00000000
    base % 64 = 0 → len % 64 = 0 → 64 ≤ len → win ≤ base → base + len ≤ win + (s.share c).2 →
    commitFirst s c k = .ok s1 () →
    let claim := s1.modCtx c fun x => { x with lock := some ⟨k, base - win, len⟩ }
    ((s1.core c).c.lock = none → exec (.lockr g rs1 rs2) s = .next (claim.done c k (s1.thr c k))) ∧
    (∀ l, (s1.core c).c.lock = some l → l.holder = k → exec (.lockr g rs1 rs2) s = .next (claim.done c k (s1.thr c k))) ∧
    (∀ l, (s1.core c).c.lock = some l → l.holder ≠ k →
      exec (.lockr g rs1 rs2) s = .next (s1.park c k (.lock (base - win) len)))) ∧
  (∀ (s s1 : State) (c : Nat) (k : SlotN) (t : Thread),
    ∀ e ∈ ([(0, .unlockr), (1, .unlockrP1), (2, .unlockrP2), (3, .unlockrP3), (4, .unlockrP4), (5, .unlockrP5),
      (6, .unlockrP6), (7, .unlockrP7)] : List (Guard × Instr)),
    s.Ready c k t { guard := e.1 } →
    (commitFirst s c k = .ok s1 () →
      ((s.core c).c.lock = none → exec e.2 s = .next (s1.done c k (s1.thr c k))) ∧
      (∀ l, (s.core c).c.lock = some l → (l.holder = k ∨ k = 0) →
        exec e.2 s = .next (let s2 := s1.releaseLock c l.holder; s2.done c k (s2.thr c k)))) ∧
    (∀ l, (s.core c).c.lock = some l → l.holder ≠ k → k ≠ 0 → t.trapReady = true →
      exec e.2 s = .next (s.takeTrap c k { cause := 2, val := s.curWord.setWidth 64 }))) ∧
  (∀ (s s1 : State) (c : Nat) (k : SlotN) (t u : Thread) (g : Guard) (rd rs1 : XReg),
    s.Ready c k t { guard := g, src := [rs1], dst := [rd] } → s.Commits c k t s1 u →
    exec (.chunk g rd rs1) s = .next (s1.done c k (({ u with
      clim := ⟨(t.a.xr rs1).toNat % 4, Nat.mod_lt _ (by decide)⟩ } : Thread).wx rd u.chunkstat))) ∧
  (∀ (s : State) (c : Nat) (k : SlotN) (t : Thread) (g : Guard) (kind : Fin 3) (rs1 rs2 : XReg),
    s.Ready c k t { guard := g, src := [rs1, rs2] } →
    exec (.pfetch g kind rs1 rs2) s = .next (let s1 := s.prefetch c kind (t.a.xr rs1).toNat (t.a.xr rs2).toNat
                                             s1.done c k (s1.thr c k)) ∧
    (s.partOf c = none → s.prefetch c kind (t.a.xr rs1).toNat (t.a.xr rs2).toNat = s) ∧
    (kind = 0 → s.prefetch c kind (t.a.xr rs1).toNat (t.a.xr rs2).toNat = s))
/-! ### Chunks and threads (R240 to R245, R267 to R276) -/

/-- R240, R242: closing and committing a thread's chunks before an instruction keeps its registers, leaves it without a
chunk, and performs its buffered stores as one step; without a chunk nothing changes. R244, R245: a squash gives the thread
back the registers it had when the chunk opened, writes back its undo log, drops its buffered stores, and counts. That it
leaves `instret` as it is is the model's choice (log entry 112). -/
def Obligations.ChunksCommittedOrSquashed : Prop :=
  (∀ (s s1 : State) (c : Nat) (k : SlotN) (t : Thread), s.slot c k = .thread t → commitFirst s c k = .ok s1 () →
     (∃ u, s.Commits c k t s1 u) ∧
     (t.chunk = none → t.closed = none → s1 = s) ∧
     (∀ ch, t.chunk = some ch → t.closed = none → s1.mem = s.mem.writeCells ch.buf ∧
       (ch.writes ≠ [] → s1.commitSeq = s.commitSeq + 1 ∧ s1.records = (s.commitSeq + 1, ch.writes) :: s.records))) ∧
  (∀ (s : State) (c : Nat) (k : SlotN) (t : Thread) (ch : Chunk), s.slot c k = .thread t → t.chunk = some ch → t.closed = none →
     ∃ u, (s.squash c k ch).slot c k = .thread u ∧ u.a = ch.start ∧ u.held = ch.startHeld ∧ u.chunk = none ∧ u.closed = none ∧
       u.st = (if t.st = .stopped then .stopped else .runnable) ∧ u.cc.squash = t.cc.squash + 1 ∧ u.instret = t.instret ∧
       (s.squash c k ch).mem = s.mem.writeCells ch.undo.flatten.reverse ∧
       (ch.undo = [] → ∀ a, (s.squash c k ch).byte a = s.byte a))

/-- R270: SPAWN gives the thread's own handle for zero operands; else it commits, and binds a thread in the lowest free slot
of the launch's mask, or of any, with its handle in rd; with no slot free rd is 0. -/
def Obligations.SpawnBinds : Prop :=
  ∀ (s s1 : State) (c : Nat) (k : SlotN) (t u : Thread) (g : Guard) (rd rs1 rs2 : XReg),
    s.Ready c k t { guard := g, who := .user, src := [rs1, rs2], dst := [rd] } →
    let pc := t.a.xr rs1
    let binds (i : SlotN) (outside : Bool) : Prop :=
      let s2 := s1.bindIn c i (u.spawned pc (t.a.xr rs2) (s1.handle c k u) outside)
      exec (.spawn g rd rs1 rs2) s = .next (s2.done c k (u.wx rd (s2.handle c i (s2.thr c i))))
    (rs1 = 0 → rs2 = 0 → exec (.spawn g rd rs1 rs2) s = .next (s.done c k (t.wx rd (s.handle c k t)))) ∧
    (¬(rs1 = 0 ∧ rs2 = 0) → s.Commits c k t s1 u →
      (pc.toNat % 4 ≠ 0 → u.trapReady = true →
        exec (.spawn g rd rs1 rs2) s = .next (s1.takeTrap c k { cause := 0, val := pc })) ∧
      (pc.toNat % 4 = 0 →
        (∀ i, s1.freeSlot c (s1.maskBit c u.launch false) = some i → binds i false) ∧
        (s1.freeSlot c (s1.maskBit c u.launch false) = none → ∀ i, s1.freeSlot c (fun _ => true) = some i → binds i true) ∧
        (s1.freeSlot c (fun _ => true) = none → exec (.spawn g rd rs1 rs2) s = .next (s1.done c k (u.wx rd 0))))) ∧
    (∀ pc arg h o, let n := u.spawned pc arg h o
      n.a.pc = pc ∧ n.a.xr 10 = arg ∧ n.a.xr 11 = u.launch.setWidth 64 ∧ n.a.xr 12 = h ∧
      (∀ r : XReg, r ≠ 10 → r ≠ 11 → r ≠ 12 → n.a.xr r = 0) ∧ n.a.csr.qlimit = u.a.csr.qlimit ∧
      n.a.csr.fmtsh = u.a.csr.fmtsh ∧ n.a.csr.qmap = 0 ∧ n.a.csr.repcnt = 0 ∧ n.launch = u.launch ∧ n.prio = u.prio ∧
      n.st = .runnable ∧ n.instret = 0)

/-- R271, R272: MSPAWN sends a packet to the owner of its target and waits for its acceptance; MIGR sends the thread itself;
neither is for a thread that may send no migrant. -/
def Obligations.MigrantsSent : Prop :=
  (∀ (s s1 : State) (c : Nat) (k : SlotN) (t u : Thread) (g : Guard) (rd rs1 rs2 : XReg) (o : Nat),
    s.Ready c k t { guard := g, who := .user, src := [rs1, rs2], dst := [rd] } →
    (s.noMigrants c t = true → t.trapReady = true → exec (.mspawn g rd rs1 rs2) s =
      .next (s.takeTrap c k { cause := 2, val := s.curWord.setWidth 64, val2 := if s.launchBars c t then t.launch.setWidth 64 else 0 })) ∧
    (s.noMigrants c t = false → ownerFor s c k (t.a.xr rs1).toNat = .ok s o → (t.a.xr rs2).toNat % 4 = 0 → t.migr.out < 255 →
      s.Commits c k t s1 u → u.psc0 = 0 → u.psc1 = 0 → u.psc2 = 0 →
      let p := s1.packetFor c k (t.a.xr rs2) (t.a.xr rs1) false false o
      let n := u.migr.out + 1
      exec (.mspawn g rd rs1 rs2) s =
        .next (((s1.setThr c k { u with migr := { u.migr with out := n } }).sendPacket c p).park c k
          (.reply noDue false { ws := [.x rd (BitVec.ofNat 64 n)] })) ∧
      p.pc = t.a.xr rs2 ∧ p.target = t.a.xr rs1 ∧ p.hops = 1 ∧ p.spawned = true ∧ p.dest = o ∧
      p.a = (List.finRange 8).map fun i => t.a.x[10 + i.val])) ∧
  (∀ (s s1 : State) (c : Nat) (k : SlotN) (t u : Thread) (g : Guard) (rs1 : XReg) (o : Nat),
    s.Ready c k t { guard := g, who := .user, src := [rs1] } →
    s.noMigrants c t = false → ownerFor s c k (t.a.xr rs1).toNat = .ok s o → t.migr.out = 0 →
    s.Commits c k t s1 u → u.psc0 = 0 → u.psc1 = 0 → u.psc2 = 0 → u.vq = [] →
    let p := s1.packetFor c k (t.a.pc + 4) (t.a.xr rs1) true true o
    let s2 := s1.setThr c k { u with a := { u.a with csr := u.a.csr.setCount 0 } }
    exec (.migr g rs1) s = .next
      (((((s2.releaseLock c k).unregister c k).orphan c t.serial).sendPacket c p).park c k (.reply noDue false {})) ∧
    p.pc = t.a.pc + 4 ∧ p.target = t.a.xr rs1 ∧ p.hops = min (u.migr.hops + 1) 0xFFFF ∧ p.spawned = u.migr.spawned ∧ p.dest = o)

/-- R273, R274: RETIRE commits, waits for the thread's strips and ends the thread, whose slot is then empty when nothing
waits for it; WAITEV gives the pending events that `evmask` selects, 0 at once when it selects none, and else parks. -/
def Obligations.RetireAndWaitev : Prop :=
  (∀ (s s1 : State) (c : Nat) (k : SlotN) (t u : Thread) (g : Guard),
    s.Ready c k t { guard := g, who := .user } → s.Commits c k t s1 u →
    (u.vq = [] → exec (.retire g) s = .next (s1.endThread c k)) ∧
    (u.vq ≠ [] → exec (.retire g) s = .next (s1.setThr c k (u.parkedOn (s1.core c).cycle s1.curWord (.cond .strips)))) ∧
    (u.vq = [] → u.paired = false → u.regs = [] → u.regsOdd = [] → u.deferred = [] → u.migr.migrant = false →
      (s1.core c).c.lock = none →
      (s1.core c).swapped = [] → (s1.core c).c.runQ = [] →
      (s1.endThread c k).slot c k = .empty ∧ (s1.endThread c k).mem = s1.mem)) ∧
  (∀ (s : State) (c : Nat) (k : SlotN) (t : Thread) (g : Guard) (rd : XReg),
    s.Ready c k t { guard := g, dst := [rd] } →
    let n := s.events c t &&& t.a.csr.evmask.toNat
    (t.a.csr.evmask = 0 → exec (.waitev g rd) s = .next (s.done c k (t.wx rd 0))) ∧
    (t.a.csr.evmask ≠ 0 → n ≠ 0 → exec (.waitev g rd) s =
      .next (s.done c k (({ t with evl := t.evl &&& ~~~(BitVec.ofNat 8 (n &&& 0xC8)) } : Thread).wx rd (BitVec.ofNat 64 n)))) ∧
    (t.a.csr.evmask ≠ 0 → n = 0 → exec (.waitev g rd) s =
      .next (s.setThr c k (t.parkedOn (s.core c).cycle s.curWord (.cond (.event rd))))))

/-- R275, R276, R59: PAIRON gives 0 when the other slot is empty, joins a thread parked in PAIRON there, and else waits;
PAIROFF splits a pair into two threads and does nothing for one that is none. That PAIRON joins at once, that the odd
thread's result passes through the pair, and that the counters add are the model's choices (log entries 18, 19). -/
def Obligations.PairsJoinAndSplit : Prop :=
  (∀ (s s1 : State) (c : Nat) (k : SlotN) (t u : Thread) (g : Guard) (rd : XReg),
    s.Ready c k t { guard := g, who := .user, dst := [rd] } → s.Commits c k t s1 u → u.vq = [] →
    let m := pairMate k
    let now := (s1.core c).cycle
    (s1.slot c m = .empty → exec (.pairon g rd) s = .next (s1.done c k (u.wx rd 0))) ∧
    (∀ o rd', s1.slot c m = .thread o → (s1.core c).removed.getLsbD m = false → o.st = .parked → o.wait = .cond (.partner rd') →
      (u.kind = .resident → o.kind = .resident → u.launch = o.launch →
        (k.val % 2 = 0 → exec (.pairon g rd) s = .next (let s2 := s1.join c k; s2.done c k ((s2.thr c k).wx rd 1))) ∧
        (k.val % 2 = 1 → exec (.pairon g rd) s =
          .next ((s1.join c m).modThr c m fun e => { e with wait := .reply now true { ws := [.x rd' 1] } }))) ∧
      (u.kind ≠ .resident ∨ o.kind ≠ .resident ∨ u.launch ≠ o.launch → exec (.pairon g rd) s =
        .next ((s1.modThr c m fun o => { o with wait := .reply now true { ws := [.x rd' 0] } }).done c k (u.wx rd 0)))) ∧
    (∀ o, s1.slot c m = .thread o → (s1.core c).removed.getLsbD m = false → o.st ≠ .parked → exec (.pairon g rd) s =
      .next (s1.setThr c k (u.parkedOn now s1.curWord (.cond (.partner rd)))))) ∧
  (∀ (s s1 : State) (c : Nat) (k : SlotN) (t u : Thread) (g : Guard),
    s.Ready c k t { guard := g, who := .user } → s.Commits c k t s1 u →
    (u.paired = false → exec (.pairoff g) s = .next (s1.done c k u)) ∧
    (u.paired = true → u.vq = [] → ∃ s', exec (.pairoff g) s = .next s' ∧
      s'.slot c k = .thread ((evenHalf u).finish none 4) ∧
      s'.slot c (k + 1) = .thread { (oddHalf u (s1.nextSerial c)).finish none 4 with resumedAt := (s1.core c).cycle })) ∧
  (∀ (e o : Thread) (n : Nat),
    (joined e o).paired = true ∧ (joined e o).a.x = e.a.x ∧ (joined e o).a.v = e.a.v ∧ (joined e o).a.vOdd = o.a.v ∧
    (joined e o).a.csr.vstat = e.a.csr.vstat ||| o.a.csr.vstat ∧ (joined e o).psc0 = e.psc0 + o.psc0 ∧
    (evenHalf e).a.v = e.a.v ∧ (oddHalf e n).a.v = e.a.vOdd ∧ (oddHalf e n).a.x = e.a.x ∧ (oddHalf e n).psc0 = 0 ∧
    (evenHalf e).paired = false ∧ (oddHalf e n).paired = false ∧ (evenHalf e).a.csr.vl = min e.a.csr.vl 32 ∧
    (oddHalf e n).a.csr.vl = min e.a.csr.vl 32)
/-! ### Queues, messages, mailboxes (R256 to R263, R277 to R284) -/

/-- R259, R262: a local queue is first in, first out: a push goes to the oldest held pop, else to the tail; a pop takes the
oldest entry; pops and pushes move HEAD and TAIL by one. R278, R279, R280: QWAIT reads the quantity once it is large enough,
and else waits; QSTAT reads the queue's doubleword; QMAP maps x28 + n and registers the slot, and QREG registers alone. -/
def Obligations.QueuesAndTheirRegisters : Prop :=
  (∀ (s : State) (c : Nat) (q : Fin 8) (v : Word),
     let r := QRef.lq c q
     let x := s.queue r
     (x.pops = [] → ((s.performPush r v).queue r).entries = x.entries ++ [v] ∧
       ((s.performPush r v).queue r).tail = x.tail + 1 ∧ ((s.performPush r v).queue r).head = x.head) ∧
     (∀ w ws, x.pops = w :: ws → ((s.performPush r v).queue r).pops = ws ∧
       ((s.performPush r v).queue r).entries = x.entries ∧ ((s.performPush r v).queue r).tail = x.tail) ∧
     (∀ e es, x.entries = e :: es → x.count ≠ 0 → x.pushes = [] → ∃ s', s.takePop r = some (e, s') ∧
       (s'.queue r).entries = es ∧ (s'.queue r).head = x.head + 1 ∧ (s'.queue r).tail = x.tail) ∧
     (x.count = 0 → s.takePop r = none)) ∧
  ((∀ (s : State) (c : Nat) (k : SlotN) (t : Thread) (g : Guard) (rd rs1 rs2 : XReg) (q : Fin 8),
     s.Ready c k t { guard := g, src := [rs1, rs2], dst := [rd] } → qref c (t.a.xr rs1) = some (.lq c q) →
     let x := s.queue (.lq c q)
     let w := (t.a.xr rs2).toNat
     let n := w % 2 ^ 16
     let m := if w.testBit 16 then x.free else x.count
     (w < 2 ^ 17 → n ≤ x.size → n ≤ m → exec (.qwait g rd rs1 rs2) s = .next (s.done c k (t.wx rd (BitVec.ofNat 64 m)))) ∧
     (w < 2 ^ 17 → n ≤ x.size → m < n → exec (.qwait g rd rs1 rs2) s =
       .next (s.setThr c k (t.parkedOn (s.core c).cycle s.curWord (.cond (.qwait (t.a.xr rs1) (w.testBit 16) n rd))))) ∧
     (2 ^ 17 ≤ w ∨ x.size < n → t.trapReady = true → exec (.qwait g rd rs1 rs2) s =
       .next (s.takeTrap c k { cause := 2, val := s.curWord.setWidth 64, val2 := 0 }))) ∧
   (∀ (s : State) (c : Nat) (k : SlotN) (t : Thread) (g : Guard) (rd rs1 : XReg) (q : Fin 8),
     s.Ready c k t { guard := g, src := [rs1], dst := [rd] } → qref c (t.a.xr rs1) = some (.lq c q) →
     let x := s.queue (.lq c q)
     exec (.qstat g rd rs1) s = .next (s.done c k (t.wx rd
       (BitVec.ofNat 64 (x.size * 2 ^ 48 + x.free * 2 ^ 32 + x.tail.toNat * 2 ^ 16 + x.head.toNat))))) ∧
   (∀ (s s1 : State) (c : Nat) (k : SlotN) (t u : Thread) (g : Guard) (n reg : Fin 4) (rs1 : XReg) (q : Fin 8),
     s.Ready c k t { guard := g, src := [rs1] } → qref c (t.a.xr rs1) = some (.lq c q) →
     s.setRegs c k (.lq c q) (reg.val % 2 == 1) (2 ≤ reg.val) = some s1 → s1.slot c k = .thread u → u.a = t.a →
     exec (.qreg g reg rs1) s = .next (s1.done c k u) ∧
     (t.a.mapByte n < 128 → ∃ u', exec (.qmap g n reg rs1) s = .next (s1.done c k u') ∧
       u'.a.mapByte n = 128 + q ∧ (∀ j < 4, j ≠ n.val → u'.a.mapByte j = t.a.mapByte j) ∧ u'.a.x = t.a.x ∧ u'.a.pc = t.a.pc)))

/-- R277: QPUSH commits and sends its value when the queue has an entry for it, and else waits with it; QPOP takes the
oldest value, or holds its pop at the queue; a handle that names no open queue is refused with cause 2 and the handle. -/
def Obligations.PushAndPop : Prop :=
  (∀ (s s1 : State) (c : Nat) (k : SlotN) (t u : Thread) (g : Guard) (rs1 rs2 : XReg) (q : QRef),
    s.Ready c k t { guard := g, src := [rs1, rs2] } →
    let h := t.a.xr rs1
    (qref c h = none → t.trapReady = true → exec (.qpush g rs1 rs2) s =
      .next (s.takeTrap c k { cause := 2, val := s.curWord.setWidth 64, val2 := h })) ∧
    (s.queueTrap c h true = none → qref c h = some q → s.Commits c k t s1 u → u.storesPending = false →
      u.psc2 + 1 ≤ 0xFFFF →
      (u.owed = none → (s1.queue q).room = true → (s1.ownerOf q = c → s1.sentTo (u.ref c) c = false) → exec (.qpush g rs1 rs2) s =
        .next (let s2 := s1.sendPush (u.ref c) u.launch q h (t.a.xr rs2); s2.done c k (s2.thr c k))) ∧
      (u.owed = none → (s1.queue q).room = false → (s1.ownerOf q = c → s1.sentTo (u.ref c) c = false) → exec (.qpush g rs1 rs2) s =
        .next ((s1.setQueue q { s1.queue q with pushes := (s1.queue q).pushes ++ [u.ref c] }).park c k
          (.push h (t.a.xr rs2) {} true))) ∧
      (u.owed = some h → (s1.ownerOf q = c → s1.sentTo (u.ref c) c = false) → exec (.qpush g rs1 rs2) s =
        .next (let s2 := ((s1.setQueue q { s1.queue q with kept := (s1.queue q).kept - 1 }).modThr c k fun t =>
                 { t with owed := none }).sendPush (u.ref c) u.launch q h (t.a.xr rs2)
               s2.done c k (s2.thr c k))))) ∧
  (∀ (s s1 : State) (c : Nat) (k : SlotN) (t u : Thread) (g : Guard) (rd rs1 : XReg) (q : QRef),
    s.Ready c k t { guard := g, src := [rs1], dst := [rd] } →
    let h := t.a.xr rs1
    (qref c h = none → t.trapReady = true → exec (.qpop g rd rs1) s =
      .next (s.takeTrap c k { cause := 2, val := s.curWord.setWidth 64, val2 := h })) ∧
    (s.queueTrap c h false = none → qref c h = some q → s.Commits c k t s1 u → s1.queueLocked q false (some (c, k)) = none →
      (∀ v s2, s1.takePop q = some (v, s2) → q.ownLocal c = true → s2.slot c k = .thread u → exec (.qpop g rd rs1) s =
        .next (s2.done c k (u.wx rd v))) ∧
      (∀ v s2, s1.takePop q = some (v, s2) → q.ownLocal c = false → exec (.qpop g rd rs1) s =
        .next (s2.park c k (.reply ((s2.core c).cycle + 1) false { ws := [.x rd v] }))) ∧
      (s1.takePop q = none → exec (.qpop g rd rs1) s =
        .next ((s1.setQueue q { s1.queue q with pops := (s1.queue q).pops ++ [u.ref c] }).park c k (.pop h false rd)))))

/-- R57, R262, R417: a base instruction that names mapped registers: a queue that refuses the pop or push stops it; its
chunk commits; each mapped source pops once, in order, or waits at its empty queue, the popped value standing for the
register; the result then goes to a mapped destination's queue, the register itself unchanged, or waits for an entry. A
write to the read-only CSRs pops and pushes nothing. -/
def Obligations.MappedRegisters : Prop :=
  (∀ (s : State) (c : Nat) (k : SlotN) (t : Thread) (i : Instr) (f : Form) (r : XReg) (rs : List XReg) (p : Trap),
    s.At c k t → baseForm i = some f → f.who.allows k = true →
    (t.a.mappedOf f.src = r :: rs → s.queueTrap c (t.a.mapHandle c r) false = some p → s.Traps c k t i p) ∧
    ((∀ r' ∈ t.a.mappedOf f.src, s.queueTrap c (t.a.mapHandle c r') false = none) → t.a.mappedOf f.dst = r :: rs → t.owed ≠ some (t.a.mapHandle c r) →
      s.queueTrap c (t.a.mapHandle c r) true = some p → s.Traps c k t i p)) ∧
  (∀ (s s1 s2 : State) (c : Nat) (k : SlotN) (t u w : Thread) (i : Instr) (f : Form) (ps : List (XReg × Word)) (r : XReg)
    (rs : List XReg) (q : QRef),
    baseForm i = some f → s.Maps c k t f s1 u → t.a.mappedOf f.src = ps.map (·.1) ++ r :: rs → State.Pops c k s1 u ps s2 w →
    w.holds r = false → qref c (t.a.mapHandle c r) = some q → s2.queueLocked q false (some (c, k)) = none →
    (s2.takePop q = none → exec i s =
      .next ((s2.setQueue q { s2.queue q with pops := (s2.queue q).pops ++ [w.ref c] }).park c k
        (.pop (t.a.mapHandle c r) true r))) ∧
    (∀ v s3, s2.takePop q = some (v, s3) → q.ownLocal c = false → exec i s =
      .next ((s3.modThr c k fun y => y.hold r v).park c k (.given ((s2.core c).cycle + 1))))) ∧
  (∀ (s s1 s2 : State) (c : Nat) (k : SlotN) (t u w : Thread) (f : Form) (ps : List (XReg × Word)) (rd rs1 rs2 : XReg),
    s.Maps c k t f s1 u → t.a.mappedOf f.src = ps.map (·.1) → State.Pops c k s1 u ps s2 w → s2.strikesNow c k = false →
    let val (r : XReg) : Word := ((ps.find? fun p => p.1 == r).map (·.2)).getD (t.a.xr r)
    let now := (s2.core c).cycle
    (f = { src := [rs1, rs2], dst := [rd] } →
      (∀ p ∈ regResults rd rs1 rs2 (val rs1) (val rs2), exec p.1 s = .next (s2.ends c k w rd p.2)) ∧
      (∀ p ∈ divResults rd rs1 rs2 (val rs1) (val rs2), exec p.1 s =
        .next (s2.setThr c k (w.parkedOn now s2.curWord (.reply (now + p.2.1) true { ws := [.x rd p.2.2] }))))) ∧
    (∀ (imm : BitVec 12) (sh : Fin 64) (sh5 : Fin 32), f = { src := [rs1], dst := [rd] } →
      (∀ p ∈ immResults rd rs1 (val rs1) imm sh sh5, exec p.1 s = .next (s2.ends c k w rd p.2)) ∧
      (∀ p ∈ baseLoads rd rs1 imm, s2.LoadsAs c k w (exec p.1 s) (val rs1 + imm.signExtend 64).toNat p.2.1 rd p.2.2
        fun v => s2.ends c k w rd v) ∧
      (let target := (val rs1 + imm.signExtend 64) &&& ~~~1#64
       (target.toNat % 4 = 0 → exec (.jalr rd rs1 imm) s = .next (s2.ends c k w rd (t.a.pc + 4) (next := some target))) ∧
       (target.toNat % 4 ≠ 0 → w.trapReady = true →
         exec (.jalr rd rs1 imm) s = .next (s2.takeTrap c k { cause := 0, val := target })))) ∧
    (∀ imm : BitVec 20, f = { dst := [rd] } →
      (∀ p ∈ upperResults rd t.a.pc imm, exec p.1 s = .next (s2.ends c k w rd p.2)) ∧
      (let target := t.a.pc + imm.signExtend 64 * 2
       (target.toNat % 4 = 0 → exec (.jal rd imm) s = .next (s2.ends c k w rd (t.a.pc + 4) (next := some target))) ∧
       (target.toNat % 4 ≠ 0 → w.trapReady = true →
         exec (.jal rd imm) s = .next (s2.takeTrap c k { cause := 0, val := target })))) ∧
    (∀ imm : BitVec 12, f = { src := [rs1, rs2] } →
      (∀ p ∈ baseStores rs2 rs1 imm, s2.StoresAs c k w (exec p.1 s) (val rs1 + imm.signExtend 64).toNat p.2 (val rs2)) ∧
      (let target := t.a.pc + imm.signExtend 64 * 2
       ∀ p ∈ branchResults rs1 rs2 (val rs1) (val rs2) imm,
        (p.2 = false → exec p.1 s = .next (s2.done c k w)) ∧
        (p.2 = true → target.toNat % 4 = 0 → exec p.1 s = .next (s2.setThr c k (w.finish (some target) 4))) ∧
        (p.2 = true → target.toNat % 4 ≠ 0 → w.trapReady = true →
          exec p.1 s = .next (s2.takeTrap c k { cause := 0, val := target })))) ∧
    (∀ (csr : BitVec 12) (uimm : Fin 32), csrExists csr = true →
      let n := csr.toNat
      let old := s2.readCsr c k n
      let does (p : Instr × Option Word) : Prop := (p.2 ≠ none → n < 0xC00) → s2.CsrDoes c k w (exec p.1 s) n p.2
        fun s' t' after => s2.ends c k w rd old (s' := s') (t' := t') (after := after)
      (f = { who := csrWho n, src := [rs1], dst := [rd] } → ∀ p ∈ csrRegWrites rd rs1 csr old (val rs1), does p) ∧
      (f = { who := csrWho n, dst := [rd] } → ∀ p ∈ csrImmWrites rd csr uimm old, does p))) ∧
  (∀ (s : State) (c : Nat) (k : SlotN) (t : Thread) (rd rs1 : XReg) (csr : BitVec 12) (uimm : Fin 32),
    s.At c k t → 0xC00 ≤ csr.toNat → s.strikesNow c k = false →
    ∀ p ∈ csrRegWrites rd rs1 csr 0 0 ++ csrImmWrites rd csr uimm 0, p.2 ≠ none →
      s.Traps c k t p.1 { cause := 2, val := s.curWord.setWidth 64 })

/-- R281 to R283: MSEND commits, takes an entry of the outbound buffer and posts its message to the thread named, on a core
of the same partition; MRECV takes the oldest message for its thread, or waits. R284: MBXPUT fills an empty mailbox of the
own core, posts to another core's, and waits behind a full one, counted and in its order from the first; MBXGET empties a
full one into rd, and waits at an empty one. -/
def Obligations.MessagesAndMailboxes : Prop :=
  ((∀ (s s1 : State) (c : Nat) (k : SlotN) (t u : Thread) (g : Guard) (tag : Fin 32) (rs1 rs2 : XReg),
     s.Ready c k t { guard := g, src := [rs1, rs2] } →
     (∀ r, s.refOf (t.a.xr rs1) = some r → (s.core r.core).part = (s.core c).part → s.Commits c k t s1 u → u.psc2 + 1 ≤ 0xFFFF →
       (s1.core c).c.outbox.length < 8 →
       let m : Msg := { dst := r, src := s.handle c k t, sender := t.ref c, tag := tag, payload := t.a.xr rs2
                        launch := t.launch, orphan := false }
       exec (.msend g tag rs1 rs2) s = .next
         (let s2 := (s1.modCtx c fun x => { x with outbox := x.outbox ++ [m] }).postFor c k 2 r.core (.msg m)
          s2.done c k (s2.thr c k))) ∧
     (s.refOf (t.a.xr rs1) = none → t.trapReady = true → exec (.msend g tag rs1 rs2) s =
       .next (s.takeTrap c k { cause := 5, val := t.a.xr rs1 }))) ∧
   (∀ (s s1 : State) (c : Nat) (k : SlotN) (t u : Thread) (g : Guard) (rd rh : XReg),
     s.Ready c k t { guard := g, dst := [rd, rh] } → s.Commits c k t s1 u →
     (∀ m, (s1.core c).c.nextMsg k u.serial = some m → exec (.mrecv g rd rh) s =
       .next ((s1.modCtx c fun x => { x with inbox := x.inbox.erase m }).done c k ((u.wx rd m.payload).wx rh m.header))) ∧
     ((s1.core c).c.nextMsg k u.serial = none → exec (.mrecv g rd rh) s =
       .next (s1.setThr c k (u.parkedOn (s1.core c).cycle s1.curWord (.recv rd rh)))))) ∧
  ((∀ (s s1 : State) (c : Nat) (k : SlotN) (t u : Thread) (g : Guard) (rs1 rs2 : XReg) (o : Nat) (i : Fin 4),
     s.Ready c k t { guard := g, src := [rs1, rs2] } → qref c (t.a.xr rs1) = some (.mbx o i) →
     s.Commits c k t s1 u → u.psc2 + 1 ≤ 0xFFFF →
     let m := (s1.core o).c.mbx[i]
     let v := t.a.xr rs2
     (m.val = none → m.puts = [] → m.gets = [] → o = c → s1.sentTo (u.ref c) c = false → exec (.mbxput g rs1 rs2) s =
       .next ((s1.modCtx c fun x => { x with mbx := x.mbx.set i { m with val := some v } }).done c k u)) ∧
     (o ≠ c → exec (.mbxput g rs1 rs2) s =
       .next ((s1.postFor c k 2 o (.mbx o i v)).park c k (.mbxPut o i v))) ∧
     (o = c → (m.val ≠ none ∨ m.puts ≠ []) → s1.sentTo (u.ref c) c = false → exec (.mbxput g rs1 rs2) s =
       .next (((s1.modCtx o fun x => { x with mbx := x.mbx.set i { m with puts := m.puts ++ [(t.ref c, v, t.launch)] } }).modThr c k
         fun t => t.addPsc 2).park c k (.mbxPut o i v)))) ∧
   (∀ (s s1 : State) (c : Nat) (k : SlotN) (t u : Thread) (g : Guard) (rd rs1 : XReg) (o : Nat) (i : Fin 4),
     s.Ready c k t { guard := g, src := [rs1], dst := [rd] } → qref c (t.a.xr rs1) = some (.mbx o i) →
     s.Commits c k t s1 u →
     let m := (s1.core o).c.mbx[i]
     (∀ v, m.val = some v → m.puts = [] → o = c → exec (.mbxget g rd rs1) s =
       .next ((s1.modCtx c fun x => { x with mbx := x.mbx.set i { m with val := none } }).done c k (u.wx rd v))) ∧
     (∀ v, m.val = some v → m.puts = [] → o ≠ c → exec (.mbxget g rd rs1) s =
       .next (let s2 := s1.modCtx o fun x => { x with mbx := x.mbx.set i { m with val := none } }
              s2.park c k (.reply ((s2.core c).cycle + 1) false { ws := [.x rd v] }))) ∧
     (m.val = none → exec (.mbxget g rd rs1) s =
       .next ((s1.modCtx o fun x => { x with mbx := x.mbx.set i { m with gets := m.gets ++ [t.ref c] } }).park c k
         (.mbxGet o i rd)))))

/-! ### Barriers and copies (R285, R286, R361 to R369) -/

/-- R365 to R369: BARSET sets up a register that no one uses, BARRIVE arrives once in a generation and gets its number, and
waits for the next when it has arrived, BARWAIT completes when the generation has moved on and else waits, BARSTAT reads the
register; an unarmed register makes BARRIVE and BARWAIT illegal. The trval2 that BARWAIT's trap has then is the model's
choice (log entry 21). -/
def Obligations.BarrierInstructions : Prop :=
  ∀ (s s1 : State) (c : Nat) (k : SlotN) (t u : Thread) (g : Guard) (i : Fin 4) (rd rs2 : XReg),
    s.Ready c k t { guard := g, src := [rs2], dst := [rd] } → s.Commits c k t s1 u →
    let b := s1.bar c i
    let w := t.a.xr rs2
    (w &&& 0xFFFFFF00E0F0C0E0#64 = 0 → s1.barParked c i = false → b.arr = 0 → b.armed = false →
      (s1.core c).c.heldSignals = [] →
      (bits w.toNat 8 6 = 0 → exec (.barset g i rs2) s = .next ((s1.setBar c i .reset).done c k u)) ∧
      (∀ b', s1.barConfig c w = some b' → b'.armed = true → exec (.barset g i rs2) s =
        .next (let s2 := ((s1.setBar c i b').modCtx c fun x => { x with heldSignals := [] }).sweep c i
               s2.done c k (s2.thr c k))) ∧
      (s1.barConfig c w = none → u.trapReady = true → exec (.barset g i rs2) s =
        .next (s1.takeTrap c k { cause := 2, val := s1.curWord.setWidth 64, val2 := w }))) ∧
    (b.armed = true → b.slots.getLsbD k = true → b.arr.getLsbD k = false → exec (.barrive g rd i) s =
      .next (((s1.setBar c i { b with arr := b.arr ||| BitVec.ofNat 8 (2 ^ k.val) }).signal c i 0 k b.rect).done c k
        (u.wx rd (b.gen.setWidth 64)))) ∧
    (b.armed = true → b.slots.getLsbD k = true → b.arr.getLsbD k = true → exec (.barrive g rd i) s =
      .next (s1.setThr c k (u.parkedOn (s1.core c).cycle s1.curWord (.barrive i rd)))) ∧
    (b.armed = true → barPassed b.gen w = true → exec (.barwait g i rs2) s = .next (s1.done c k u)) ∧
    (b.armed = true → barPassed b.gen w = false → exec (.barwait g i rs2) s =
      .next (s1.setThr c k (u.parkedOn (s1.core c).cycle s1.curWord (.cond (.barwait i w))))) ∧
    (b.armed = false → u.trapReady = true →
      exec (.barrive g rd i) s = .next (s1.takeTrap c k
        { cause := 2, val := s1.curWord.setWidth 64, val2 := BitVec.ofNat 64 i }) ∧
      exec (.barwait g i rs2) s = .next (s1.takeTrap c k { cause := 2, val := s1.curWord.setWidth 64 })) ∧
    exec (.barstat g rd i) s = .next (s1.done c k (u.wx rd b.word))

/-- R285, R286, R362: CPYISS reads a descriptor, queues its job and gives the channel's next ID; CPYWAIT completes when the
channel has passed the ID and else waits; CPYDONE reads the channel's last ID. -/
def Obligations.CopiesIssuedAwaited : Prop :=
  (∀ (s s1 : State) (c : Nat) (k : SlotN) (t u : Thread) (g : Guard) (rd rs1 rs2 : XReg) (ch : Fin 8) (tg : Target) (j : CopyJob),
    s.Ready c k t { guard := g, who := .movement, src := [rs1, rs2], dst := [rd] } → s.Commits c k t s1 u →
    (t.a.xr rs2).toNat = ch.val → (t.a.xr rs1).toNat % 64 = 0 →
    s1.resolve c (t.a.xr rs1).toNat .load = (s1, .ok tg) → s1.Clear c k u tg 64 →
    copyJob (s1.bytes tg.key 64) ch (u.ref c) k u.launch = some j → (s1.cluster (clusterOf c)).jobs.length < 32 →
    (∀ d, clusterOf d = clusterOf c → d ≠ c → s1.awaitsJob d = false) →
    let q := s1.cluster (clusterOf c)
    let id := (q.chans[j.ch]).last + 1
    let s2 := s1.modCluster (clusterOf c) fun q =>
      { q with jobs := q.jobs ++ [{ j with id := id }], rr := cicOf c, chans := q.chans.set j.ch { q.chans[j.ch] with last := id } }
    exec (.cpyiss g rd rs1 rs2) s = .next (if tg.isLocal then s2.done c k (u.wx rd id)
      else s2.setThr c k (u.parkedOn (s2.core c).cycle s2.curWord (.reply ((s2.core c).cycle + 1) false { ws := [.x rd id] })))) ∧
  (∀ (s s1 : State) (c : Nat) (k : SlotN) (t u : Thread) (g : Guard) (rd rs1 rs2 : XReg) (ch : Fin 8),
    s.Ready c k t { guard := g, src := [rs1, rs2], dst := [rd] } → (t.a.xr rs1).toNat = ch.val →
    let id := t.a.xr rs2
    exec (.cpydone g rd rs1) s = .next (s.done c k (t.wx rd (s.core c).c.cpydone[ch])) ∧
    (((s.cluster (clusterOf c)).chans[ch]).last.toNat < id.toNat → t.trapReady = true → exec (.cpywait g rs1 rs2) s =
      .next (s.takeTrap c k { cause := 2, val := s.curWord.setWidth 64, val2 := id })) ∧
    (id.toNat ≤ ((s.cluster (clusterOf c)).chans[ch]).last.toNat → s.Commits c k t s1 u →
      (id.toNat ≤ ((s1.core c).c.cpydone[ch]).toNat → exec (.cpywait g rs1 rs2) s = .next (s1.done c k u)) ∧
      (((s1.core c).c.cpydone[ch]).toNat < id.toNat → exec (.cpywait g rs1 rs2) s =
        .next (s1.setThr c k (u.parkedOn (s1.core c).cycle s1.curWord (.cond (.copy ch id)))))))
/-! ### The supervisor's instructions, DBRK and STAMP (R126, R288 to R294, R355, R356, R380, R381) -/

/-- R288: TRPOP removes the oldest record and gives its index and handle; with none it waits. R126, R289: XRDT reads the
state of a thread of the core by its number, 0 while it is RUNNABLE; XWRT writes it in a TRAPPED or STOPPED thread and is
else ignored; a handle that names no thread of the core is illegal. R126: the number space: what is read, and what a write
then reads as. -/
def Obligations.RecordsPoppedAndStateAccess : Prop :=
  (∀ (s s1 : State) (c : Nat) (t u : Thread) (g : Guard) (rd : XReg),
     s.Ready c 0 t { guard := g, who := .sup, dst := [rd] } → s.Commits c 0 t s1 u →
     let x := (s1.core c).c
     (∀ r rs, x.trapQ = r :: rs → x.heldRecs = [] →
       let h := if r.handle.toNat < 2 ^ 63 then r.handle.toNat % 2 ^ 48 else 0
       let idx := (x.trapSeq + 2 ^ 16 - x.trapQ.length) % 16
       exec (.trpop g rd) s = .next ((s1.modCtx c fun x => { x with trapQ := rs }).done c 0
         (u.wx rd (BitVec.ofNat 64 (idx * 2 ^ 56 + h))))) ∧
     (x.trapQ = [] → exec (.trpop g rd) s = .next (s1.setThr c 0 (u.parkedOn (s1.core c).cycle s1.curWord (.cond (.trapq rd)))))) ∧
  (∀ (s s1 : State) (c : Nat) (t u y : Thread) (g : Guard) (rd rv rs1 rs2 : XReg) (j : SlotN),
     s.Ready c 0 t { guard := g, who := .sup, src := [rs1, rs2, rv], dst := [rd] } →
     let h := t.a.xr rs1
     let n := (t.a.xr rs2).toNat
     (s.peer c h = none → t.trapReady = true →
       exec (.xrdt g rd rs1 rs2) s = .next (s.takeTrap c 0 { cause := 2, val := s.curWord.setWidth 64, val2 := h }) ∧
       exec (.xwrt g rv rs1 rs2) s = .next (s.takeTrap c 0 { cause := 2, val := s.curWord.setWidth 64, val2 := h })) ∧
     ((s.peer c h).isSome = true → s.Commits c 0 t s1 u → s1.peer c h = some (.bound j y) → j ≠ 0 → s1.slot c j = .thread y →
       (stripState n = false ∨ s1.peerIdle c y.serial = true →
         exec (.xrdt g rd rs1 rs2) s = .next (s1.done c 0 (u.wx rd (if y.st = .runnable then 0 else s1.xrdt c j y n)))) ∧
       (y.st = .trapped ∨ y.st = .stopped →
         exec (.xwrt g rv rs1 rs2) s = .next ((s1.setThr c j (y.xwrt n (t.a.xr rv))).done c 0 u)) ∧
       (y.st = .runnable ∨ y.st = .parked → exec (.xwrt g rv rs1 rs2) s = .next (s1.done c 0 u)))) ∧
  (∀ (s : State) (c : Nat) (j : SlotN) (t : Thread) (v : Word),
    let r (t : Thread) (n : Nat) := s.xrdt c j t n
    (∀ i : XReg, r t i = t.a.xr i ∧ r (t.xwrt i v) i = if i = 0 then 0 else v) ∧
    r t 32 = t.tr.trcause ∧ r t 33 = t.tr.trval ∧ r t 34 = t.tr.trpc ∧ r t 35 = t.tr.trval2 ∧
    r (t.xwrt 33 v) 33 = v ∧ r (t.xwrt 34 v) 34 = v ∧ r (t.xwrt 35 v) 35 = v ∧
    r (t.xwrt 36 v) 36 = (v &&& 0xFFFFFFFF) ||| 1 ∧
    (∀ i : KReg, r t (64 + i) = t.a.k[i] ∧ r (t.xwrt (64 + i) v) (64 + i) = v) ∧
    r t 0x1803 = t.a.csr.qlimit ∧ r (t.xwrt 0x1803 v) 0x1803 = v &&& 0xFFFFFFFF ∧
    r t 0x1CC1 = BitVec.ofNat 64 (t.psc0 % 2 ^ 16) ∧ t.xwrt 0x1CC1 v = t ∧
    r t 37 = 0 ∧ t.xwrt 37 v = t ∧ r t 0x180A = 0 ∧ t.xwrt 0x180A v = t ∧ t.xwrt 0x30000 v = t ∧
    r t 0x30005 = (((s.core c).c.mx.acc[0]).getD 5 0).setWidth 64)

/-- R146, R160, R240, R241, R247: the strip of a vector memory instruction executes: a load writes the lanes of its elements
with what they read; a store writes the own memories, each byte from the highest lane that names it, its old bytes entering
the chunk's undo log once a line, buffers translated memory in its chunk, and posts one operation for each other line. That
the elements of one line go in one operation, and that translated stores beside posted ones commit by themselves, are the
model's choices (log entry 13). -/
def Obligations.VectorMemoryPerformed : Prop :=
  ∀ (s : State) (k : SlotN) (t : Thread) (p : Strip) (ty : VType) (vr vi : VNum) (rs1 rs2 : XReg),
    s.subject.slot = k → s.slot s.subject.core k = .thread t → s.nextStrip s.subject.core k = some p →
    (p.els.map (·.lane)).Nodup → (∀ e ∈ p.els, e.lane < 64) →
    let c := s.subject.core
    let reads (i : Instr) (placed : Nat → Word32) : Prop := p.instr = i → p.els ≠ [] →
      s.StripRuns c k t vr (p.els.map (·.lane)) fun l w fl => fl = 0 ∧ ∃ e ∈ p.els, e.lane = l ∧
        w = placed (e.val.getD (s.num e.key e.n))
    let typed (v : Nat) : Word32 := match ty with
      | .bf16 | .f16 => (BitVec.ofNat 16 v).setWidth 32
      | .i8 => (BitVec.ofNat 8 v).signExtend 32
      | .u8 => (BitVec.ofNat 8 v).setWidth 32
      | _ => BitVec.ofNat 32 v
    let own (x : VPlace) : Bool := match x with | .lane => true | .own => true | _ => false
    let glob (x : VPlace) : Bool := match x with | .global _ => true | _ => false
    let cells := p.cells t.a vr
    let put := cells own ++ if p.alone then cells glob else []
    let last (cs : List Host.Cell) (q : Nat) : Option Byte := (cs.reverse.find? fun e => e.1 == q).map (·.2)
    let groups (cs : List Host.Cell) : List (List Host.Cell) := (cellLines cs).map fun l => cs.filter fun e => e.1 / 64 == l
    let cores : List Nat := (p.els.filterMap fun e => match e.place with | .remote d => some d | _ => none).foldl addLine []
    let sent : List Posted :=
      (cores.flatMap fun d => (groups (cells fun x => x == .remote d)).map fun g => ⟨t.ref c, 0, d, .cells g.reverse, t.launch⟩) ++
      (groups (cells fun x => x == .slate)).map fun g => ⟨t.ref c, 1, ((g.head?.map (·.1)).getD 0) / 64 * 64, .cells g.reverse, t.launch⟩
    let writes (i : Instr) : Prop := p.instr = i → ∃ s' u, exec .stripExecute s = .next s' ∧ s'.slot c k = .thread u ∧ u.a = t.a ∧
      u.vq = markDone (fun p => { p with done := some (s.core c).cycle, flags := 0, lanes := List.replicate 5 none }) t.vq ∧
      (∀ q, s'.byte q = (last put q).getD (s.byte q)) ∧ s'.posted = s.posted ++ sent ∧
      u.psc0 = t.psc0 + (sent.filter fun x => x.cls == 0).length ∧ u.psc1 = t.psc1 + (sent.filter fun x => x.cls == 1).length ∧
      u.cc.commit = (if p.alone ∧ p.last ∧ cells glob ≠ [] then t.cc.commit + 1 else t.cc.commit) ∧
      (t.chunk = none → u.chunk = none) ∧
      (∀ ch, t.chunk = some ch → ch.no = p.no → ∃ ch' gs, u.chunk = some ch' ∧ ch'.undo = gs ++ ch.undo ∧
        (p.logged = false → gs = []) ∧
        (p.logged = true → gs.length = (if i = .vstl ty vr rs1 then min (cells own).length 1 else (cellLines (cells own)).length) ∧
          (∀ e ∈ gs.flatten, e.2 = s.byte e.1) ∧ ∀ q, (∃ e ∈ gs.flatten, e.1 = q) ↔ ∃ e ∈ cells own, e.1 = q) ∧
        ∀ q, (ch'.buf.find? fun e => e.1 == q).map (·.2) =
          ((if p.alone then none else last (cells glob) q).or ((ch.buf.find? fun e => e.1 == q).map (·.2))))
    reads (.vld ty vr rs1) typed ∧ reads (.vlds ty vr rs1 rs2) typed ∧ reads (.vgath ty vr rs1 vi) typed ∧
    reads (.vldl ty vr rs1) (fun v => BitVec.ofNat 32 v) ∧
    writes (.vst ty vr rs1) ∧ writes (.vsts ty vr rs1 rs2) ∧ writes (.vscat ty vr rs1 vi) ∧ writes (.vstl ty vr rs1)

/-- R290, R291, R380, R381: XRESUME of a trapped thread makes it RUNNABLE where `resumeAt` says, and does nothing to
another; XKILL ends a thread of slots 2 to 7 and is illegal for slots 0 and 1; for an engine handle they resume or abandon
the faulted engine, and are illegal when no fault is pending. R292: TCSWAP swaps the thread of a slot out and gives its
handle; for an empty slot and no thread to restore it gives 0; slots 0 and 1 and removed slots are illegal. -/
def Obligations.ThreadsResumedKilledSwapped : Prop :=
  (∀ (s s1 : State) (c : Nat) (t u y : Thread) (g : Guard) (rs1 : XReg) (j : SlotN),
     s.Ready c 0 t { guard := g, who := .sup, src := [rs1] } →
     let h := t.a.xr rs1
     (isEngine h = false → (∃ p, s.peer c h = some p ∧ p.slot = j) → s.Commits c 0 t s1 u → s1.peer c h = some (.bound j y) →
       s1.slot c j = .thread y → j ≠ 0 →
       (y.st = .trapped → y.a.endPend = false ∨ y.a.csr.count = 0 → exec (.xresume g rs1) s =
         .next ((s1.setThr c j { y.resumeAt with resumedAt := (s1.core c).cycle }).done c 0 u)) ∧
       (y.st ≠ .trapped → exec (.xresume g rs1) s = .next (s1.done c 0 u)) ∧
       (2 ≤ j.val → exec (.xkill g rs1) s = .next (let s2 := s1.killThread c j; s2.done c 0 (s2.thr c 0))) ∧
       (j.val < 2 → t.trapReady = true → exec (.xkill g rs1) s =
         .next (s.takeTrap c 0 { cause := 2, val := s.curWord.setWidth 64, val2 := h }))) ∧
     (isEngine h = true →
       (s.engineOf c h = none → t.trapReady = true →
         exec (.xresume g rs1) s = .next (s.takeTrap c 0 { cause := 2, val := s.curWord.setWidth 64, val2 := h }) ∧
         exec (.xkill g rs1) s = .next (s.takeTrap c 0 { cause := 2, val := s.curWord.setWidth 64, val2 := h })) ∧
       (∀ e, s.engineOf c h = some e → s.Commits c 0 t s1 u → s1.engineOf c h = some e →
         exec (.xresume g rs1) s = .next (let s2 := s1.resumeEngine e; s2.done c 0 (s2.thr c 0)) ∧
         ((s.killEngine e).isSome = true → ∀ s2, s1.killEngine e = some s2 →
           exec (.xkill g rs1) s = .next (let s3 := { s2 with curWord := s1.curWord }; s3.done c 0 (s3.thr c 0)))))) ∧
  (∀ (s s1 : State) (c : Nat) (t u : Thread) (g : Guard) (rd rs1 rs2 : XReg) (j : SlotN),
     s.Ready c 0 t { guard := g, who := .sup, src := [rs1, rs2], dst := [rd] } → (t.a.xr rs1).toNat = j.val →
     (j.val < 2 ∨ (s.core c).removed.getLsbD j = true → t.trapReady = true → exec (.tcswap g rd rs1 rs2) s =
       .next (s.takeTrap c 0 { cause := 2, val := s.curWord.setWidth 64 })) ∧
     (2 ≤ j.val → (s.core c).removed.getLsbD j = false → t.a.xr rs2 = 0 → s.Commits c 0 t s1 u → s1.peer c 0 = none →
       (s1.slot c j = .empty → (s1.fill c).slot c 0 = .thread u →
         exec (.tcswap g rd rs1 rs2) s = .next ((s1.fill c).done c 0 (u.wx rd 0))) ∧
       (∀ y, s1.slot c j = .thread y → y.vq = [] → (s1.core c).swapped.length < 32 → s1.swapStall c = none →
         let s2 := (s1.swapOut c j true false false).fill c
         s2.slot c 0 = .thread u → exec (.tcswap g rd rs1 rs2) s = .next (s2.done c 0 (u.wx rd (s1.handle c j y))))))

/-- R293, R406: DBRK traps with cause 37 outside a debug session; in one it delivers its code and stops the thread after
itself, which is the model's choice (log entry 35). R294, R355, R356: STAMP commits and draws a stamp: the rot in bits 63:16
and the source's sequence number below, which goes up by one modulo 2^16; at most 8 are drawn in a rot, and none twice. -/
def Obligations.DebugBreakAndStamps : Prop :=
  (∀ (s s1 : State) (c : Nat) (k : SlotN) (t u : Thread) (g : Guard) (rs1 : XReg) (p : Part),
     s.Ready c k t { guard := g, src := [rs1] } → s.partOf c = some p →
     (p.session = none → t.trapReady = true → exec (.dbrk g rs1) s = .next (s.takeTrap c k { cause := 37, val := t.a.xr rs1 })) ∧
     (p.session.isSome = true → s.Commits c k t s1 u → exec (.dbrk g rs1) s =
       .next ((s1.modPart p.cfg.part fun p =>
         { p with dbrks := p.dbrks ++ [((s1.loc c k).setWidth 32, t.a.pc, t.a.xr rs1)] }).setThr c k
           { u.finish none 4 with st := .stopped }))) ∧
  ((∀ (s s1 : State) (c : Nat) (k : SlotN) (t u : Thread) (g : Guard) (rd : XReg),
     s.Ready c k t { guard := g, dst := [rd] } → s.Commits c k t s1 u → s1.heldStamp c 0 = none →
     let x := (s1.core c).stamps
     (x.ready s1.rot = true → exec (.stamp g rd) s =
       .next ((s1.modCore c fun y => { y with stamps := (x.draw s1.rot).2 }).done c k
         (u.wx rd (BitVec.ofNat 64 (s1.rot * 2 ^ 16 + x.seq))))) ∧
     (x.ready s1.rot = false → exec (.stamp g rd) s =
       .next (s1.setThr c k (u.parkedOn (s1.core c).cycle s1.curWord (.cond .stamp))))) ∧
   (∀ (x : StampSrc) (rot : Nat), x.ready rot = true → x.seq < 2 ^ 16 → rot < 2 ^ 48 → x.drawn ≤ 8 →
     let (v, y) := x.draw rot
     y.drawn ≤ 8 ∧ y.seq < 2 ^ 16 ∧ y.rot = rot ∧
     ∀ rot', rot ≤ rot' → rot' < 2 ^ 48 → y.ready rot' = true → v.toNat < (y.draw rot').1.toNat))

/-! ### Vector instructions (R60, R146 to R167) -/

/-- R60, R150, R153: with room in its queue a vector instruction on registers enters its strips, with `vctl` and its scalar
operands as they are at issue, and completes; a floating one parks when `supctl` enables a flag's trap. -/
def Obligations.VectorIssue : Prop :=
  ∀ (s : State) (c : Nat) (k : SlotN) (t : Thread) (ty : VType) (vd vs1 vs2 : VNum) (kd ka kb : KReg) (rs1 rs2 : XReg)
    (fc : Fin 10),
    s.Ready c k t { src := [rs1, rs2] } → t.pendingStrips + t.stripsFor ≤ 8 →
    let now := (s.core c).cycle
    let strip (i : Instr) (x y : Word) (odd last : Bool) : Strip :=
      { instr := i, odd := odd, vctl := t.a.csr.vctl, scalar := x, scalar2 := y, pc := t.a.pc, word := s.curWord,
        issued := now, no := t.chunkNo, away := false, done := none, flags := 0, lanes := List.replicate 5 none, last := last, els := [],
        logged := false, alone := false }
    let issues (i : Instr) (fp : Bool) (x y : Word) : Prop :=
      let u : Thread := { t with vq := t.vq ++
        if t.paired && 32 < t.a.csr.vl then [strip i x y false false, strip i x y true true] else [strip i x y false true] }
      exec i s = .next (if fp && (s.core c).vfpen != 0
        then s.setThr c k (u.parkedOn now s.curWord (.vec 0 (List.replicate 5 none))) else s.done c k u)
    let fp := (fmtOf ty).isSome
    let x := t.a.xr rs1
    let y := t.a.xr rs2
    (issues (.vadd ty vd vs1 vs2) fp 0 0 ∧ issues (.vsub ty vd vs1 vs2) fp 0 0 ∧ issues (.vmul ty vd vs1 vs2) fp 0 0 ∧
      issues (.vfma ty vd vs1 vs2) fp 0 0 ∧ issues (.vfms ty vd vs1 vs2) fp 0 0 ∧ issues (.vmin ty vd vs1 vs2) fp 0 0 ∧
      issues (.vmax ty vd vs1 vs2) fp 0 0 ∧ issues (.vabs ty vd vs1) fp 0 0 ∧ issues (.vneg ty vd vs1) fp 0 0 ∧
      issues (.vceq ty kd vs1 vs2) fp 0 0 ∧ issues (.vclt ty kd vs1 vs2) fp 0 0 ∧ issues (.vcle ty kd vs1 vs2) fp 0 0 ∧
      issues (.vsel ty vd vs1 vs2) fp 0 0 ∧ issues (.vredadd ty vd vs1) fp 0 0 ∧ issues (.vredmax ty vd vs1) fp 0 0 ∧
      issues (.vredmin ty vd vs1) fp 0 0) ∧
    (issues (.vdiv vd vs1 vs2) true 0 0 ∧ issues (.vsqrt vd vs1) true 0 0 ∧ issues (.vrsqrt vd vs1) true 0 0 ∧
      issues (.vrcp vd vs1) true 0 0 ∧ issues (.vexp2 vd vs1) true 0 0 ∧ issues (.vlog2 vd vs1) true 0 0 ∧
      issues (.vsin vd vs1) true 0 0 ∧ issues (.vcos vd vs1) true 0 0 ∧ issues (.vcadd vd vs1 vs2) true 0 0 ∧
      issues (.vcsub vd vs1 vs2) true 0 0 ∧ issues (.vcmul vd vs1 vs2) true 0 0 ∧ issues (.vcfma vd vs1 vs2) true 0 0 ∧
      issues (.vcconj vd vs1) true 0 0 ∧ issues (.vcmag2 vd vs1) true 0 0 ∧ issues (.vcexpj vd vs1) true 0 0) ∧
    (issues (.vand ty vd vs1 vs2) false 0 0 ∧ issues (.vor ty vd vs1 vs2) false 0 0 ∧ issues (.vxor ty vd vs1 vs2) false 0 0 ∧
      issues (.vshl ty vd vs1 vs2) false 0 0 ∧ issues (.vshr ty vd vs1 vs2) false 0 0 ∧
      issues (.vsra ty vd vs1 vs2) false 0 0 ∧ issues (.vpack vd vs1 fc) false 0 0 ∧ issues (.vunpk vd vs1 fc) false 0 0 ∧
      issues (.vperm ty vd vs1 vs2) false 0 0 ∧ issues (.vkopAnd kd ka kb) false 0 0 ∧ issues (.vkopOr kd ka kb) false 0 0 ∧
      issues (.vkopXor kd ka kb) false 0 0 ∧ issues (.vkopNot kd ka) false 0 0) ∧
    issues (.vbcast ty vd rs1) false x 0 ∧ issues (.vins ty vd rs1 rs2) false x y ∧
    issues (.vslide ty vd vs1 rs2) false y 0 ∧
    (dtypeOf t.a.csr.vctl ≠ .c32 → issues (.vcvt ty vd vs1) (fp || (fmtOf (dtypeOf t.a.csr.vctl)).isSome) 0 0) ∧
    (dtypeOf t.a.csr.vctl = .c32 → t.trapReady = true → exec (.vcvt ty vd vs1) s =
      .next (s.takeTrap c k { cause := 2, val := s.curWord.setWidth 64 }))

/-- R147, R159, R160, R184: the address each active lane of a vector memory instruction has, and what issuing it does. Its
elements are checked and translated, lowest lane first; the first that fails traps with its lane and nothing is entered. A
load enters its strips, those of its elements outside the own memories read at issue, for whose reply it then waits, their
lines entering the open chunk; a store enters them with its translated lines in the open chunk, or, where some elements are
posted or the log has no room, with the chunk committed first. The trval of a misaligned VLDL or VSTL, the places of c32
lanes in them, the lane in trval2 of a translation failure and the strip that stores a shared line are the model's choices
(log entries 13, 103, 104, 120). -/
def Obligations.VectorMemoryIssue : Prop :=
  ∀ (s : State) (c : Nat) (k : SlotN) (t : Thread) (ty : VType) (vr vi : VNum) (rs1 rs2 : XReg) (tg : Nat → Target),
    s.Ready c k t { src := [rs1, rs2] } → t.pendingStrips + t.stripsFor ≤ 8 →
    (menOf t.a.csr.vctl = true → t.kPending (midxOf t.a.csr.vctl) = false) → t.vPending vi = false →
    let now := (s.core c).cycle
    let act := activeLanes t.a t.a.csr.vctl ty 0 64
    let b := t.a.xr rs1
    let isGlob (e : Nat × Nat) : Bool := match tg e.1 with | .global _ => true | _ => false
    let isFar (e : Nat × Nat) : Bool := match tg e.1 with | .remote _ _ _ => true | .slate _ _ => true | _ => false
    let lines (as_ : List (Nat × Nat)) : List Nat := as_.foldl (fun ls e => addLine ls ((tg e.1).key / 64)) []
    let els (n : Nat) (val : Nat → Option Nat) (as_ : List (Nat × Nat)) : List VEl :=
      as_.map fun e => ⟨e.1, (tg e.1).key, n, vplaceOf (tg e.1), val e.1⟩
    let fails (i : Instr) (need : Need) (n : Nat) (as_ : List (Nat × Nat)) : Prop :=
      (∀ e, (as_.find? fun e => e.2 % n != 0) = some e → s.Traps c k t i
        { cause := if need = .store then 6 else 4, val := BitVec.ofNat 64 e.2, val2 := BitVec.ofNat 64 e.1 }) ∧
      (∀ xs e ys s0 s1 p, as_ = xs ++ e :: ys → (∀ x ∈ as_, x.2 % n = 0) → State.Locates c need tg s xs s0 → t.trapReady = true →
        (s0.resolve c e.2 need = (s1, .error (.trap p)) → exec i s = .next (s1.takeTrap c k { p with
          val2 := BitVec.ofNat 64 (if p.cause = 32 then p.val2.toNat % 256 + e.1 * 256 else e.1) })) ∧
        (s0.resolve c e.2 need = (s1, .error (.table p)) → exec i s = .next (s1.takeTrap c k p)))
    let loads (i : Instr) (n : Nat) (as_ : List (Nat × Nat)) : Prop :=
      fails i .load n as_ ∧
      (∀ s0, (∀ e ∈ as_, e.2 % n = 0 ∧ s0.Free c k t (tg e.1) n) → State.Locates c .load tg s as_ s0 →
        ((∀ e ∈ as_, (tg e.1).isLocal = true ∧ badIn s0.bad (tg e.1).key n = none) →
          exec i s = .next (s0.done c k (t.entered now s.curWord i (els n (fun _ => none) as_) false false false))) ∧
        (∀ xs e ys u, as_ = xs ++ e :: ys → (∀ x ∈ xs, (tg x.1).isLocal = true ∧ badIn s0.bad (tg x.1).key n = none) →
          ((∃ x ∈ as_, (tg x.1).isLocal = false) → t.overlaps 0 (2 ^ 64) = false) →
          badIn s0.bad (tg e.1).key n = some u → t.trapReady = true →
          exec i s = .next (s0.takeTrap c k { cause := 31, val := BitVec.ofNat 64 e.2, val2 := BitVec.ofNat 64 e.1 })) ∧
        (∀ s1 u, (∃ e ∈ as_, (tg e.1).isLocal = false) → t.overlaps 0 (2 ^ 64) = false →
          (∀ e ∈ as_, badIn s0.bad (tg e.1).key n = none) →
          (if as_.any isGlob then ensureChunk s0 c k = .ok s1 () ∧ s1.slot c k = .thread u else s1 = s0 ∧ u = t) →
          let val (l : Nat) : Option Nat := match tg l with
            | .global p => some (leNat ((List.range n).map fun j => s0.seen t (p.pa + j)))
            | .remote _ _ key => some (s0.num key n)
            | .slate _ key => some (s0.num key n)
            | _ => none
          ∃ s', exec i s = .next s' ∧ s'.mem = s0.mem ∧ s'.slot c k = .thread
            (({ u.entered now s.curWord i (els n val as_) false false true with
                chunk := u.chunk.map fun ch => { ch with
                  reads := (as_.filter isGlob).foldl (fun ls e => addLine ls ((tg e.1).key / 64)) ch.reads } } : Thread).parkedOn
              now s.curWord (.reply (now + 1) false {}))))
    let stores (i : Instr) (n : Nat) (as_ : List (Nat × Nat)) : Prop :=
      fails i .store n as_ ∧
      (∀ s0, (∀ e ∈ as_, e.2 % n = 0 ∧ (∀ off key, tg e.1 = .own off key → s0.lockHolds c off n (some (c, k)) = false) ∧
          ∀ p, tg e.1 = .global p → p.shared = false) →
        State.Locates c .store tg s as_ s0 →
        let own := if i = .vstl ty vr rs1 then min as_.length 1 else (lines (as_.filter fun e => (tg e.1).isLocal)).length
        let glob := lines (as_.filter isGlob)
        let far (cls : Nat) : Nat := (lines (as_.filter fun e => isFar e && (tg e.1).cls == cls)).length
        let enters (u : Thread) (logged alone : Bool) : Thread :=
          u.entered now s.curWord i (els n (fun _ => none) as_) logged alone false
        (as_.any isFar = false → own ≤ 32 → t.psc0 ≤ 0xFFFF → t.psc1 ≤ 0xFFFF → t.logFull own = false → t.bufFull glob = false →
          (glob = [] → exec i s = .next (s0.done c k (enters t t.chunk.isSome false))) ∧
          (glob ≠ [] → ∀ s1 u ch, ensureChunk s0 c k = .ok s1 () → s1.slot c k = .thread u → u.chunk = some ch →
            exec i s = .next (s1.done c k
              { enters u true false with chunk := some { ch with writes := glob.foldl addLine ch.writes } }))) ∧
        (as_.any isFar = true ∨ 32 < own → ∀ s1 u, s0.Commits c k t s1 u → u.psc0 + far 0 ≤ 0xFFFF → u.psc1 + far 1 ≤ 0xFFFF →
          exec i s = .next (s1.done c k (enters u false (decide (glob ≠ []))))))
    let n := laneBytes ty
    let elem (f : Nat → Word) : List (Nat × Nat) := act.map fun l =>
      (l, if ty = .c32 then (f (l / 2) + BitVec.ofNat 64 (4 * (l % 2))).toNat else (f l).toNat)
    let unit := elem fun e => b + BitVec.ofNat 64 (e * elemBytes ty)
    let strided := elem fun e => b + BitVec.ofNat 64 e * t.a.xr rs2
    let indexed := elem fun e =>
      b + BitVec.ofNat 64 ((t.a.lane vi (if ty = .c32 then 2 * e else e)).toNat * elemBytes ty)
    let elemOf (l : Nat) : Nat := if ty = .c32 then l / 2 else l
    let slices := act.map fun l => (l, 0xFFFFFFFF00000000 + elemOf l % 32 * 4096 +
      (b + BitVec.ofNat 64 (4 * (elemOf l / 32) + if ty = .c32 then 4 * (l % 2) else 0)).toNat % 4096)
    loads (.vld ty vr rs1) n unit ∧ loads (.vlds ty vr rs1 rs2) n strided ∧ loads (.vgath ty vr rs1 vi) n indexed ∧
    stores (.vst ty vr rs1) n unit ∧ stores (.vsts ty vr rs1 rs2) n strided ∧ stores (.vscat ty vr rs1 vi) n indexed ∧
    (b.toNat % 4 = 0 → loads (.vldl ty vr rs1) 4 slices ∧ stores (.vstl ty vr rs1) 4 slices) ∧
    (b.toNat % 4 ≠ 0 → ∀ l, act.head? = some l →
      let p (cause : Nat) : Trap :=
        { cause := cause, val := b + BitVec.ofNat 64 (4 * (elemOf l / 32)), val2 := BitVec.ofNat 64 l }
      s.Traps c k t (.vldl ty vr rs1) (p 4) ∧ s.Traps c k t (.vstl ty vr rs1) (p 6))

/-- R151, R159, R161, R166, R167: the vector instructions of the scalar pipeline: what each waits for, and what it writes
then. That VKOP FROMX waits for every earlier strip is the model's choice (log entry 12). -/
def Obligations.VectorMovesAndWaits : Prop :=
  ∀ (s : State) (c : Nat) (k : SlotN) (t : Thread) (ty : VType) (rd rs1 rs2 : XReg) (vs2 : VNum) (kd ka : KReg),
    s.Ready c k t { src := [rs1, rs2], dst := [rd] } →
    let vlmax := if t.paired then 64 else 32
    let waits (i : Instr) (w : Cond) : Prop := exec i s = .next (s.park c k (.cond w))
    let w := t.a.lane vs2 ((t.a.xr rs1).toNat % vlmax)
    let v : Word := match ty with
      | .bf16 => BitVec.ofNat 64 (w.toNat % 2 ^ 16)
      | .f16 => BitVec.ofNat 64 (w.toNat % 2 ^ 16)
      | .u8 => BitVec.ofNat 64 (w.toNat % 2 ^ 8)
      | .i8 => (w.setWidth 8 : BitVec 8).signExtend 64
      | _ => w.signExtend 64
    let vl := min (t.a.xr rs1).toNat vlmax
    let keep : Word := if rs2 = 0 then t.a.csr.vctl else (t.a.csr.vctl &&& ~~~(0x7FF00#64)) ||| (t.a.xr rs2 &&& 0x7FF00#64)
    let cfg := vctlField t.paired ((keep &&& ~~~(0x7F#64)) ||| BitVec.ofNat 64 vl)
    let ones := ((List.range vlmax).filter fun l => (t.a.k[ka]).getLsbD l).length
    (t.vPending vs2 = true → waits (.vmvx ty rd rs1 vs2) (.vreg vs2)) ∧
    (t.vPending vs2 = false → exec (.vmvx ty rd rs1 vs2) s = .next (s.done c k (t.wx rd v))) ∧
    exec (.vcfg rd rs1 rs2) s = .next (s.done c k
      (({ t with a := { t.a with csr := { t.a.csr with vctl := cfg } } } : Thread).wx rd (BitVec.ofNat 64 vl))) ∧
    (t.vq ≠ [] → waits (.vkopFromx kd rs1) .strips ∧ waits .vfence .strips ∧ waits (.vstat rd) .strips) ∧
    (t.vq = [] →
      exec (.vkopFromx kd rs1) s = .next (s.done c k (t.wk kd (t.a.xr rs1))) ∧
      exec .vfence s = .next (s.done c k t) ∧ exec (.vstat rd) s = .next (s.done c k (t.wx rd t.a.csr.vstat))) ∧
    (t.kPending ka = true → waits (.vkopTox rd ka) (.kreg ka) ∧ waits (.vkopCount rd ka) (.kreg ka)) ∧
    (t.kPending ka = false →
      exec (.vkopTox rd ka) s = .next (s.done c k (t.wx rd t.a.k[ka])) ∧
      exec (.vkopCount rd ka) s = .next (s.done c k (t.wx rd (BitVec.ofNat 64 ones))))

/-- R34, R146, R147, R150, R152, R155, R157, R159, R162, R165, R166: a strip of an integer, bitwise, select, permute or mask
instruction executes: every active lane of its half gets the instruction's result from the lanes as they are, every other
lane and register keeps its value; a strip completes the instruction's latency later, its flags entering `vstat`. That an
instruction of all lanes acts with its last strip is the model's choice (log entry 14). -/
def Obligations.StripsExecuteAndComplete : Prop :=
  (∀ (s : State) (k : SlotN) (t : Thread) (p : Strip) (ty : VType) (vd vs1 vs2 : VNum) (kd : KReg) (rs1 rs2 : XReg),
    s.subject.slot = k → s.slot s.subject.core k = .thread t → s.nextStrip s.subject.core k = some p → p.els = [] →
    let c := s.subject.core
    let lo := if p.odd then 32 else 0
    let act : List Nat := activeLanes t.a p.vctl ty lo (lo + 32)
    let all : List Nat := if p.last then activeLanes t.a p.vctl ty 0 64 else []
    let vlmax := if t.paired then 64 else 32
    let x (r : VNum) (l : Nat) : Word32 := t.a.lane r l
    let writes (i : Instr) (ls : List Nat) (f : Nat → Word32) : Prop :=
      p.instr = i → s.StripRuns c k t vd ls fun l w fl => w = f l ∧ fl = 0
    (ty ∈ [.i32, .i8, .u8] →
      let n (r : VNum) (l : Nat) : Int := laneInt ty (x r l)
      let gives (i : Instr) (f : Int → Int → Int → Int) : Prop :=
        writes i act fun l => wrapInt ty (f (n vs1 l) (n vs2 l) (n vd l))
      let compares (i : Instr) (g : Int → Int → Bool) : Prop :=
        p.instr = i → s.StripCompares c k t kd act fun l b fl => b = g (n vs1 l) (n vs2 l) ∧ fl = 0
      let bitwise (i : Instr) (f : (w : Nat) → BitVec w → BitVec w → BitVec w) : Prop := writes i act fun l =>
        if ty = .i32 then f 32 (x vs1 l) (x vs2 l)
        else (let b := f 8 ((x vs1 l).setWidth 8) ((x vs2 l).setWidth 8); if ty = .i8 then b.signExtend 32 else b.setWidth 32)
      gives (.vadd ty vd vs1 vs2) (fun a b _ => a + b) ∧ gives (.vsub ty vd vs1 vs2) (fun a b _ => a - b) ∧
      gives (.vmul ty vd vs1 vs2) (fun a b _ => a * b) ∧ gives (.vfma ty vd vs1 vs2) (fun a b d => a * b + d) ∧
      gives (.vfms ty vd vs1 vs2) (fun a b d => a * b - d) ∧ gives (.vmin ty vd vs1 vs2) (fun a b _ => min a b) ∧
      gives (.vmax ty vd vs1 vs2) (fun a b _ => max a b) ∧ gives (.vabs ty vd vs1) (fun a _ _ => |a|) ∧
      gives (.vneg ty vd vs1) (fun a _ _ => -a) ∧
      compares (.vceq ty kd vs1 vs2) (fun a b => decide (a = b)) ∧ compares (.vclt ty kd vs1 vs2) (fun a b => decide (a < b)) ∧
      compares (.vcle ty kd vs1 vs2) (fun a b => decide (a ≤ b)) ∧
      bitwise (.vand ty vd vs1 vs2) (fun _ a b => a &&& b) ∧ bitwise (.vor ty vd vs1 vs2) (fun _ a b => a ||| b) ∧
      bitwise (.vxor ty vd vs1 vs2) (fun _ a b => a ^^^ b) ∧
      bitwise (.vshl ty vd vs1 vs2) (fun w a b => a <<< (b.toNat % w)) ∧
      bitwise (.vshr ty vd vs1 vs2) (fun w a b => a >>> (b.toNat % w)) ∧
      (ty ≠ .u8 → bitwise (.vsra ty vd vs1 vs2) fun w a b => a.sshiftRight (b.toNat % w)) ∧
      (let reduces (i : Instr) (f : Int → Int → Int) : Prop :=
         writes i (if all = [] then [] else [0]) fun _ => wrapInt ty (all.foldl (fun a l => f a (n vs1 l)) (n vd 0))
       reduces (.vredadd ty vd vs1) (· + ·) ∧ reduces (.vredmax ty vd vs1) max ∧ reduces (.vredmin ty vd vs1) min)) ∧
    (let placed (w : Word32) : Word32 := match ty with
       | .bf16 | .f16 => (w.setWidth 16 : BitVec 16).setWidth 32
       | .i8 => (w.setWidth 8 : BitVec 8).signExtend 32
       | .u8 => (w.setWidth 8 : BitVec 8).setWidth 32
       | _ => w
     writes (.vsel ty vd vs1 vs2) ((List.range 64).filter fun l => lo ≤ l ∧ l < lo + 32 ∧ l < vlOf p.vctl)
       (fun l => placed (x (if t.a.kbit (midxOf p.vctl) l then vs1 else vs2) l)) ∧
     writes (.vbcast ty vd rs1) act (fun l =>
       if ty = .c32 then (p.scalar >>> (32 * (l % 2))).setWidth 32 else placed (p.scalar.setWidth 32)) ∧
     writes (.vins ty vd rs1 rs2) (if p.last then [p.scalar2.toNat % vlmax] else []) (fun _ => placed (p.scalar.setWidth 32))) ∧
    writes (.vperm ty vd vs1 vs2) all (fun l => x vs1 ((x vs2 l).toNat % vlmax)) ∧
    writes (.vslide ty vd vs1 rs2) all (fun l =>
      let j : Int := l + p.scalar.toInt
      if 0 ≤ j ∧ j < (vlOf p.vctl : Int) then x vs1 j.toNat else 0)) ∧
  (∀ (s : State) (k : SlotN) (t : Thread) (p : Strip) (kd ka kb : KReg),
    s.subject.slot = k → s.slot s.subject.core k = .thread t → s.nextStrip s.subject.core k = some p →
    p.els = [] → p.last = true → t.chunk = none → t.closed = none →
    let c := s.subject.core
    let gives (i : Instr) (v : Word) : Prop := p.instr = i → exec .stripExecute s = .next (s.setThr c k { t.wk kd v with
      vq := markDone (fun p => { p with done := some (s.core c).cycle, flags := 0, lanes := List.replicate 5 none }) t.vq })
    gives (.vkopAnd kd ka kb) (t.a.k[ka] &&& t.a.k[kb]) ∧ gives (.vkopOr kd ka kb) (t.a.k[ka] ||| t.a.k[kb]) ∧
    gives (.vkopXor kd ka kb) (t.a.k[ka] ^^^ t.a.k[kb]) ∧ gives (.vkopNot kd ka) (~~~t.a.k[ka])) ∧
  (∀ (s : State) (k : SlotN) (t : Thread),
    s.subject.slot = k → s.slot s.subject.core k = .thread t → t.st = .runnable → t.chunk = none → t.closed = none →
    let c := s.subject.core
    let due (p : Strip) : Bool := p.done.any fun d => d + latencyOf p.instr p.local_ ≤ (s.core c).cycle
    (t.vq.find? due = none → exec .stripComplete s = .next s) ∧
    (∀ p, t.vq.find? due = some p → exec .stripComplete s = .next (s.setThr c k { t with
      vq := t.vq.eraseP due
      a := { t.a with csr := { t.a.csr with vstat := t.a.csr.vstat ||| p.flags.setWidth 64 } } })))
/-! ### Matrix engine (R168 to R183) -/

/-- R171, R174 to R181: with the thread's chunks committed and an entry free the matrix instructions enter the engine's
queue, with what they sample; with none free they wait; MGANG refuses a size and otherwise waits parked; MSTAT and MWAIT. -/
def Obligations.MatrixInstructions : Prop :=
  ∀ (s s1 : State) (c : Nat) (k : SlotN) (t u : Thread) (g : Guard) (rd rs1 rs2 : XReg) (acc : Fin 4),
    s.Ready c k t { guard := g, src := [rs1, rs2], dst := [rd] } → s.Commits c k t s1 u →
    let x := t.a.xr rs1
    let y := t.a.xr rs2
    let fa := t.a.csr.fmtsh.toNat % 256
    let fb := t.a.csr.fmtsh.toNat / 256 % 256
    let sendsIn (s1 : State) (u : Thread) (i : Instr) (op : MOp) : Prop :=
      (s1.mQueued c < 8 → ∃ s', exec i s = .next s' ∧
        (s'.mx c).queue = (s1.mx c).queue ++ [⟨op, t.ref c, k, t.a.pc⟩] ∧ (s'.mx c).acc = (s1.mx c).acc ∧
        s'.slot c k = .thread (u.finish none 4) ∧ s'.mem = s1.mem) ∧
      (8 ≤ s1.mQueued c → exec i s = .next (s1.park c k (.cond .matrixRoom)))
    let sends := sendsIn s1 u
    let traps (i : Instr) (p : Trap) : Prop := t.trapReady = true → exec i s = .next (s.takeTrap c k p)
    let bad : Trap := { cause := 2, val := s.curWord.setWidth 64, val2 := t.a.csr.fmtsh }
    sends (.mzero g acc) (.zero acc) ∧
    (x.toNat % 64 = 0 → s.tilePlace c x.toNat ≠ none → sends (.mstore g acc rs1) (.store acc x)) ∧
    (x.toNat % 64 ≠ 0 → traps (.mstore g acc rs1) { cause := 6, val := x }) ∧
    (x.toNat % 64 = 0 → s.tilePlace c x.toNat = none → traps (.mstore g acc rs1) { cause := 7, val := x }) ∧
    (kbOk fb y.toNat = true → x.toNat % 64 = 0 → ∀ s2 s3 tile scaleb,
      s.bldSpan c x.toNat (mBytes fb y.toNat) = (s2, tile) →
      s2.bldSpan c t.a.csr.scaleb.toNat (mScales fb y.toNat) = (s3, scaleb) →
      (∀ data scales s4 u', tile = .ok data → scaleb = .ok scales → s3.Commits c k t s4 u' →
        sendsIn s4 u' (.mbld g rs1 rs2) (.bld x y.toNat fb t.a.csr.scaleb data scales)) ∧
      (∀ a p, s3.slot c k = .thread t → t.trapReady = true →
        (tile = .error (a, .trap p) ∧ (∀ e, scaleb = .error e → a ≤ e.1)) ∨
          (scaleb = .error (a, .trap p) ∧ ∀ e, tile = .error e → a < e.1) →
        exec (.mbld g rs1 rs2) s = .next (s3.takeTrap c k p))) ∧
    (kbOk fb y.toNat = false → traps (.mbld g rs1 rs2) bad) ∧
    (∀ scales s3 s4 u', (mFormat fa).isSome = true → kbOk fb y.toNat = true → mFam fa = mFam fb → x.toNat % 64 = 0 →
      s.aOutside c x.toNat (mBytes fa ((s.mx c).gsize * y.toNat)) = none →
      s.spans c t.a.csr.scalea.toNat (mScales fa (16 * y.toNat)) .load (spanFuel (mScales fa (16 * y.toNat))) = (s3, .ok scales) →
      s3.Commits c k t s4 u' → sendsIn s4 u' (.mma g acc rs1 rs2) (.mma acc x y.toNat fa fb t.a.csr.scalea scales)) ∧
    (((mFormat fa).isNone = true ∨ kbOk fb y.toNat = false ∨ mFam fa ≠ mFam fb) → traps (.mma g acc rs1 rs2) bad) ∧
    (x.toNat ∉ [1, 2, 4, 8, 16] → exec (.mgang g rd rs1 rs2) s = .next (s.done c k (t.wx rd 2))) ∧
    (x.toNat ∈ [1, 2, 4, 8, 16] → s1.mQueued c < 8 → ∃ s',
      exec (.mgang g rd rs1 rs2) s = .next s' ∧
      (s'.mx c).queue = (s1.mx c).queue ++ [⟨.gang x.toNat (y.toNat % 2 ^ 16), t.ref c, k, t.a.pc⟩] ∧
      s'.slot c k = .thread (u.parkedOn (s1.core c).cycle s1.curWord (.gang x.toNat (y.toNat % 2 ^ 16) rd))) ∧
    (x.toNat % 8 = 0 → (∀ j ∈ [(0 : Word), 16, 24], ∃ off key, s.resolve c (x + j).toNat .load = (s, .ok (.own off key)) ∧
        s.Clear c k t (.own off key) 8) → ∃ u : Thread, exec (.mcfg g rs1) s = .next (s.done c k u) ∧
      (∀ off key, s.resolve c x.toNat .load = (s, .ok (.own off key)) →
        u.a.csr.fmtsh = BitVec.ofNat 64 (s.num key 8 / 2 ^ 24 % 2 ^ 16)) ∧
      (∀ off key, s.resolve c (x + 16).toNat .load = (s, .ok (.own off key)) → u.a.csr.scalea = BitVec.ofNat 64 (s.num key 8)) ∧
      (∀ off key, s.resolve c (x + 24).toNat .load = (s, .ok (.own off key)) → u.a.csr.scaleb = BitVec.ofNat 64 (s.num key 8)) ∧
      u = { t with a := { t.a with csr := { t.a.csr with
        fmtsh := u.a.csr.fmtsh, scalea := u.a.csr.scalea, scaleb := u.a.csr.scaleb } } }) ∧
    (x.toNat % 8 ≠ 0 → traps (.mcfg g rs1) { cause := 4, val := x }) ∧
    exec (.mstat g rd) s = .next (s.done c k (t.wx rd (let m := s.mx c
      BitVec.ofNat 64 (m.gid * 2 ^ 32 + m.gpos * 2 ^ 24 + m.gsize * 2 ^ 16 + m.err * 2 ^ 13 +
        (if m.current.poison.isSome then 2 ^ 12 else 0) + m.poison.toNat * 2 ^ 8 + s.mQueued c * 2 +
        (if s.mStarted c then 1 else 0))))) ∧
    ((s.mx c).queue = [] → exec (.mwait g) s = .next (s.done c k t)) ∧
    ((s.mx c).queue ≠ [] → exec (.mwait g) s = .next (s.park c k (.cond .matrixIdle)))

/-- R40, R41, R168 to R170, R175 to R179, R182: the commands at the head of the engine's queue: what MZERO, MBLD and MSTORE
write; an MMA adds the exact products of its INT8 operands, and of every other format the groups along k, in the order of
the ring; each execution is one ring step, which is the model's choice (log entry 27); an operand error poisons its tile;
MGANG completes for every core whose span is complete, with the new gang where all members agree. -/
def Obligations.MatrixEngine : Prop :=
  (∀ (s : State) (m : MCmd) (ms : List MCmd),
    let c := s.subject.core
    (s.mx c).stopped = false → s.mHolds c = false → (s.mx c).queue = m :: ms →
    (∀ acc, m.op = .zero acc → ∃ s', exec .mzeroExecute s = .next s' ∧ (s'.mx c).queue = ms ∧
      (∀ i j, (s'.mx c).word acc i j = 0) ∧ (s'.mx c).poison.getLsbD acc = false ∧
      (∀ b : Fin 4, b ≠ acc → (s'.mx c).acc[b] = (s.mx c).acc[b] ∧ (s'.mx c).poison.getLsbD b = (s.mx c).poison.getLsbD b) ∧
      s'.mem = s.mem) ∧
    (∀ src kb fmt scale data scales, m.op = .bld src kb fmt scale data scales →
      ∃ s', exec .mbldExecute s = .next s' ∧ (s'.mx c).queue = ms ∧
      (s'.mx c).current = ⟨some (fmt, kb), s.spanBytes data, s.spanBytes scales,
        ((s.spanBad data).map fun o => src + BitVec.ofNat 64 o).or ((s.spanBad scales).map fun o => scale + BitVec.ofNat 64 o)⟩ ∧ (s'.mx c).acc = (s.mx c).acc ∧
      s'.mem = s.mem) ∧
    (∀ acc dst d off key, m.op = .store acc dst → s.tilePlace c dst.toNat = some (d, off, key) →
      (s.mx c).poison.getLsbD acc = false → ((s.spanLock [(key, 16384)] none).isSome = true → exec .mstoreExecute s = .next s) ∧
      (s.spanLock [(key, 16384)] none = none → ∃ s', exec .mstoreExecute s = .next s' ∧ (s'.mx c).queue = ms ∧
      (∀ i j b, i < 64 → j < 64 → b < 4 →
        s'.byte (key + 4 * (64 * i + j) + b) = BitVec.ofNat 8 (((s.mx c).word acc i j).toNat / 256 ^ b)) ∧
      (∀ q, q < key ∨ key + 16384 ≤ q → s'.byte q = s.byte q))) ∧
    (∀ acc dst, m.op = .store acc dst → (s.mx c).poison.getLsbD acc = true → s.findRef m.by_ ≠ none →
      ∃ s', exec .mstoreExecute s = .next s' ∧ s'.mem = s.mem ∧ s'.full = s.full ∧ (∀ i t, s.slot m.by_.core i = .thread t → t.serial = m.by_.serial →
        ∃ t', s'.slot m.by_.core i = .thread t' ∧ ∃ d ∈ t'.deferred, d.cause = 30))) ∧
  (∀ (s : State) (m : MCmd) (ms : List MCmd) (acc : Fin 4) (base sc : Word) (kb : Nat) (scales : List (Nat × Nat)),
    let c := s.subject.core
    let e := s.mx c
    e.stopped = false → s.mHolds c = false → e.queue = m :: ms → m.op = .mma acc base kb 3 3 sc scales → e.gsize = 1 → e.gpos = 0 →
    e.current.tag = some (3, kb) → e.current.poison = none → s.aOutside c base.toNat (mBytes 3 (1 * kb)) = none → s.bad = [] →
    let key := spadKey c ((s.share c).1 + (base.toNat - 0xFFFFFFFE00000000))
    let a (i n : Nat) : Int := (s.byte (key + 64 * n + i)).toInt
    let b (n j : Nat) : Int := (e.current.bytes.getD (64 * n + j) 0).toInt
    (∃ s', exec .mmaExecute s = .next s' ∧ (s'.mx c).queue = ms ∧ (s'.mx c).err = 0 ∧ s'.mem = s.mem ∧
      (∀ i j, i < 64 → j < 64 → (s'.mx c).word acc i j =
        BitVec.ofInt 32 ((e.word acc i j).toInt + ((List.range kb).map fun n => a i n * b n j).sum)) ∧
      (∀ t : Fin 4, t ≠ acc → (s'.mx c).acc[t] = e.acc[t])) ∧
    (∃ s', exec .mmaOperandError s = .next s' ∧ (s'.mx c).queue = ms ∧ (s'.mx c).err = 1 ∧
      (s'.mx c).poison.getLsbD acc = true)) ∧
  (∀ (s : State) (hs : List MmaAt), s.mmaReady s.subject.core = some hs → s.bad = [] →
    let g := hs.length
    let n := ((s.mx s.subject.core).ring).getD 0
    ((s.mx s.subject.core).ring.isSome = true ∨ ((∀ x ∈ hs, ∀ y ∈ hs, x.kb = y.kb ∧ x.fa = y.fa ∧ x.fb = y.fb) ∧
      ∀ x ∈ hs, (s.mx x.core).current.tag = some (x.fb, x.kb) ∧ (s.mx x.core).current.poison = none ∧
        s.aOutside x.core x.base (mBytes x.fa (g * x.kb)) = none)) →
    (∀ x ∈ hs, mScales x.fa (g * x.kb) ≤ (s.spanBytes x.scales).length) →
    ∃ s', exec .mmaExecute s = .next s' ∧ s'.mem = s.mem ∧ ∀ j x, hs[j]? = some x →
      let e := s.mx x.core
      let key := spadKey x.core ((s.share x.core).1 + (x.base - 0xFFFFFFFE00000000))
      let a (i m : Nat) : Val := mElem x.fa (s.bytes key (mBytes x.fa (g * x.kb))) (s.spanBytes x.scales) ((j + g - n) % g * x.kb + m) i
      let b (m i : Nat) : Val := mElem x.fb e.current.bytes e.current.scales m i
      let w := if mFam x.fa ∈ [.plain, .int] ∧ mFam x.fb ∈ [.plain, .int] then 16 else 32
      (∀ i i', i < 64 → i' < 64 →
        (mFam x.fa = .int → (s'.mx x.core).word x.acc i i' =
          BitVec.ofInt 32 ((e.word x.acc i i').toInt + ((List.range x.kb).map fun m => ((a i m).mul (b m i')).units 0).sum)) ∧
        (mFam x.fa ≠ .int → (s'.mx x.core).word x.acc i i' = (List.range (x.kb / w)).foldl (fun r q =>
          mmGroup ((List.range w).map fun m => (a i (q * w + m)).mul (b (q * w + m) i')) r) (e.word x.acc i i'))) ∧
      (∀ t : Fin 4, t ≠ x.acc → (s'.mx x.core).acc[t] = e.acc[t]) ∧
      (n + 1 < g → (s'.mx x.core).queue = e.queue ∧ (s'.mx x.core).ring = some (n + 1) ∧
        ∀ y, hs[(j + g - 1) % g]? = some y → (s'.mx x.core).current = (s.mx y.core).current) ∧
      (g ≤ n + 1 → (s'.mx x.core).queue = e.queue.tail ∧ (s'.mx x.core).ring = none ∧ (s'.mx x.core).err = 0)) ∧
  (∀ (s : State) (hs : List MmaAt) (n : Nat), s.mmaReady s.subject.core = some hs →
    (s.mx s.subject.core).ring = some n → n + 1 < hs.length → s.bad = [] →
    ∃ s', exec .mmaExecute s = .next s' ∧ s'.mem = s.mem ∧ ∀ x ∈ hs,
      (s'.mx x.core).queue = (s.mx x.core).queue ∧ (s'.mx x.core).ring = some (n + 1)) ∧
  (∀ (s : State), ∃ s', exec .mgangExecute s = .next s' ∧ ∀ d, d / 16 = s.subject.core / 16 →
    (s.gangReady d = false → s'.mx d = s.mx d) ∧
    (s.gangReady d = true → ∀ g id, s.gangHead d = some (g, id) →
      let all := ((List.range g).all fun j => s.gangHead (d - d % 16 % g + j) == some (g, id)) = true
      (all → s'.mx d = { s.mx d with queue := (s.mx d).queue.tail, ring := none, gsize := g, gid := id, gpos := d % 16 % g }) ∧
      (¬all → s'.mx d = { s.mx d with queue := (s.mx d).queue.tail, ring := none })))
/-! ### Stream accumulator (R42 to R46, R220 to R237) -/

/-- R224 to R233: the stream accumulator instructions: what each checks in the row or element its address names, what it
posts or reads once it may, and what its reply brings. -/
def Obligations.AccumulatorInstructions : Prop :=
  ∀ (s : State) (c : Nat) (k : SlotN) (t : Thread) (g : Guard) (rd rs1 rs2 : XReg) (vr : VNum),
    s.Ready c k t { guard := g, src := [rs1, rs2], dst := [rd] } →
    let a := t.a.xr rs1
    let y := t.a.xr rs2
    let n := y.toNat
    let traps (i : Instr) (v : Word) (code : Word) : Prop := s.Traps c k t i { cause := 32, val := v, val2 := code }
    -- no region at the address
    (s.locate c a.toNat = none → t.snap = none →
      traps (.saddF32 g vr rs1) a 2 ∧ traps (.saddBf16 g vr rs1) a 2 ∧ traps (.snormRms g vr rs1) a 2 ∧
      traps (.snormLayer g vr rs1) a 2 ∧ traps (.snormUnit g vr rs1) a 2 ∧ traps (.ssq g rd rs1) a 2 ∧
      traps (.szero g rs1 rs2) a 2 ∧ traps (.sevict g rs1 rs2) a 2 ∧ traps (.sload g rs1 rs2) a 2 ∧
      traps (.sexport g rs1 rs2) a 2) ∧
    (∀ l, s.locate c a.toNat = some l →
      let i := (l.off - 48) / 12
      let elem := 48 ≤ l.off ∧ (l.off - 48) % 12 = 0 ∧ i % 32 = 0 ∧ i < l.reg.n
      let base := a - BitVec.ofNat 64 l.off
      let act := (List.range 32).filter fun j => laneActive t.a t.a.csr.vctl j
      -- an element
      (¬elem → traps (.saddF32 g vr rs1) a 3 ∧ traps (.saddBf16 g vr rs1) a 3 ∧ traps (.snormRms g vr rs1) a 3 ∧
        traps (.snormLayer g vr rs1) a 3 ∧ traps (.snormUnit g vr rs1) a 3) ∧
      (elem → t.vPending vr = false → t.kPending (midxOf t.a.csr.vctl) = false →
        let adds := act.map fun j => (j, t.a.lane vr j)
        s.Posts c k t (.saddF32 g vr rs1) 1 l.key (.sadd l.key l.reg.n base i l.reg.q adds false) ∧
        s.Posts c k t (.saddBf16 g vr rs1) 1 l.key (.sadd l.key l.reg.n base i l.reg.q adds true)) ∧
      (elem → t.psc1 = 0 → s.heldStamp (bankCore l.key) 4 = none → t.vq = [] →
        ∀ (gam : Nat → Word32) (s0 : State), gammas s c k l.reg.gamma (act.map fun j => i + j) = .ok s0 (act.map gam) →
        s0.slot c k = .thread t → badIn s0.bad l.key (48 + 12 * l.reg.n) = none →
        let reads (ins : Instr) (m : NMode) : Prop := ∃ v : VReg,
          exec ins s = .next (s0.replied c k t { ws := [.v false vr v] }) ∧
          ∀ j < 32, getLane v j = if j ∈ act then BitVec.ofNat 32
              ((s0.rowAt l.key l.reg.n).norm (i + j) m l.reg.q l.reg.eps (gam j) l.reg.fmt (s0.e4nan c))
            else getLane t.a.v[vr] j
        reads (.snormRms g vr rs1) .rms ∧ reads (.snormLayer g vr rs1) .layer ∧ reads (.snormUnit g vr rs1) .unit) ∧
      -- a whole row
      (l.off ≠ 0 → t.snap = none → traps (.ssq g rd rs1) a 3 ∧ traps (.szero g rs1 rs2) a 3 ∧ traps (.sevict g rs1 rs2) a 3 ∧
        traps (.sload g rs1 rs2) a 3 ∧ traps (.sexport g rs1 rs2) a 3) ∧
      (l.off = 0 → t.psc1 = 0 → s.heldStamp (bankCore l.key) 4 = none → badIn s.bad l.key (48 + 12 * l.reg.n) = none → exec (.ssq g rd rs1) s =
        .next (s.replied c k t { ws := [.x rd (BitVec.ofNat 64 (round64 (.ofInt (s.rowAt l.key l.reg.n).s (2 * l.reg.q))))] })) ∧
      (l.off = 0 → (n = 0 ∨ l.reg.rows - l.row < n) → traps (.szero g rs1 rs2) a 5) ∧
      (l.off = 0 → 0 < n → n ≤ l.reg.rows - l.row →
        s.Posts c k t (.szero g rs1 rs2) 1 l.key (.szero l.key l.reg.n n)) ∧
      (l.off = 0 → t.snap = none → (y.toNat % 16 ≠ 0 → s.Traps c k t (.sevict g rs1 rs2) { cause := 6, val := y } ∧
          s.Traps c k t (.sload g rs1 rs2) { cause := 4, val := y }) ∧
        (y.toNat % 8 ≠ 0 → s.Traps c k t (.sexport g rs1 rs2) { cause := 6, val := y })) ∧
      (∀ s1 u s4 xs, l.off = 0 → t.snap = none → s.Commits c k t s1 u → u.psc1 = 0 → s1.heldStamp (bankCore l.key) 4 = none →
        badIn s1.bad l.key (48 + 12 * l.reg.n) = none → (∀ q, s1.place c y.toNat ≠ .lane q) →
        let r := s1.rowAt l.key l.reg.n
        let goes (ins : Instr) (bs : List Byte) (evict : Bool) (s2 : State) : Prop :=
          let s3 := s2.setThr c k { u with snap := some ⟨l.key, l.reg.n, evict, bs⟩ }
          s3.spans c y.toNat bs.length .store (spanFuel bs.length) = (s4, .ok xs) → s4.spanLock xs (some (c, k)) = none →
          exec ins s = .next (let s5 := s4.spanWrite xs bs; s5.replied c k { s5.thr c k with snap := none } {})
        (y.toNat % 16 = 0 → goes (.sevict g rs1 rs2) r.image true (s1.putRow l.key (Row.zero l.reg.n))) ∧
        (y.toNat % 8 = 0 → goes (.sexport g rs1 rs2) (r.lossy l.reg.q) false s1)) ∧
      (∀ s1 u s2 xs, l.off = 0 → y.toNat % 16 = 0 → t.psc1 = 0 → s.heldStamp (bankCore l.key) 4 = none → s.Commits c k t s1 u →
        u.vq = [] →
        s1.spans c y.toNat (12 * l.reg.n + 48) .load (spanFuel (12 * l.reg.n + 48)) = (s2, .ok xs) →
        s2.slot c k = .thread u → s2.posted = [] → badIn s2.bad l.key (48 + 12 * l.reg.n) = none →
        s2.spanLock xs (some (c, k)) = none → s2.spanBad xs = none →
        let img := rowOfImage (s2.spanBytes xs) l.reg.n
        (imageOk (s2.spanBytes xs) l.reg.n = true → exec (.sload g rs1 rs2) s = .next
          (let s3 := s2.putRow l.key ((s2.rowAt l.key l.reg.n).addRow img.x img.sat img.inv)
           s3.replied c k u {})) ∧
        (imageOk (s2.spanBytes xs) l.reg.n = false → u.trapReady = true → exec (.sload g rs1 rs2) s =
          .next (s2.takeTrap c k { cause := 32, val := a, val2 := 4 })))) ∧
    -- regions
    (a.toNat % 32 ≠ 0 → s.Traps c k t (.sacfg g rd rs1) { cause := 4, val := a }) ∧
    (∀ s1 u s2 d here_ p, a.toNat % 32 = 0 → s.Commits c k t s1 u → blockFor s1 c k a.toNat 32 false = .ok s2 (d, here_) →
      s2.slot c k = .thread u → s2.partOf c = some p →
      let ends (v : Word) : Thread := if here_ then (u.wx rd v).finish none 4
        else u.parkedOn (s2.core c).cycle s2.curWord (.reply ((s2.core c).cycle + 1) false { ws := [.x rd v] })
      let gives (s3 : State) (v : Word) : Prop := exec (.sacfg g rd rs1) s = .next (s3.setThr c k (ends v))
      (regionOf d (dieOf c) = none → u.trapReady = true → exec (.sacfg g rd rs1) s =
        .next (s2.takeTrap c k { cause := 2, val := s2.curWord.setWidth 64, val2 := a })) ∧
      ∀ r, regionOf d (dieOf c) = some r →
      let old := p.regions.find? fun x => x.die == dieOf c && x.idx == r.idx
      let here := p.regions.filter fun x => x.die == dieOf c
      let kept := ((p.launches.filter fun l => l.id != u.launch).map (p.unusedOf (dieOf c))).sum
      (∀ x, r.rows = 0 → old = some x →
        (s2.regionBusy x = false → gives (s2.modPart p.cfg.part fun p => { p with regions := p.regions.erase x }) 0) ∧
        (s2.regionBusy x = true →
          exec (.sacfg g rd rs1) s = .next (s2.park c k (.cond (.region (dieOf c) r.idx))))) ∧
      (∀ x, r.rows ≠ 0 → old = some x → gives s2 0) ∧
      (old = none →
        (r.rows = 0 ∨ p.freeSpan (dieOf c) r.size = none → gives s2 0) ∧
        (∀ b, r.rows ≠ 0 → p.freeSpan (dieOf c) r.size = some b →
          ((p.crucibleOf (dieOf c)).2 < (here.map Region.size).sum + kept + r.size → gives s2 0) ∧
          ((here.map Region.size).sum + kept + r.size ≤ (p.crucibleOf (dieOf c)).2 →
            ∃ s' x, exec (.sacfg g rd rs1) s = .next s' ∧ s'.parts = (s2.modPart p.cfg.part fun p =>
                { p with regions := p.regions ++ [x] }).parts ∧
              x = { r with base := b, drawn := x.drawn } ∧
              (∀ q, b ≤ q → q < b + r.size → s'.byte q = 0) ∧ (∀ q, q < b ∨ b + r.size ≤ q → s'.byte q = s2.byte q) ∧
              s'.slot c k = .thread (ends (BitVec.ofNat 64
                (0xFFFFFFC000000000 + (b - slateKey (dieOf c) (p.slateOf (dieOf c)).1))))))))

/-- R42, R43, R227, R230, R234, R237, R247: what a bank does with a posted operation: an SADD adds its lanes in order, an
SZERO makes rows of zeros, a whole-row addition adds element by element, each completed and acknowledged; an addition keeps
the row's sums; an error in the row's storage sets INV and leaves a record of cause 31. That the record's trval2 is the
row's base and that the row's marks are cleared are the model's choices (log entry 31). -/
def Obligations.AccumulatorBanks : Prop :=
  (∀ (s : State) (p : Posted), s.postedAt s.subject.idx = some p →
    let acked (s' : State) (sat : Option (Word × Word)) : Prop := exec .saddBankUpdate s = .next s' ∧ s' = s.bankStep p ∧
      s'.posted = s.posted.erase p ∧ s'.acks = s.acks ++ [⟨p.src, p.cls, p.launch, p.op.spans, sat⟩]
    (∀ key n base i q adds bf, p.op = .sadd key n base i q adds bf →
      let sum := (s.rowAt key n).addLanes i q bf adds
      ∃ s', acked s' (if (s.coreFor p.src).supBit 1 then
          sum.2.map fun e => (base + BitVec.ofNat 64 (48 + 12 * e), base) else none) ∧
      (badIn s.bad key (48 + 12 * n) = none → s'.bytes key (48 + 12 * n) = sum.1.image ∧
        ∀ a, a < key ∨ key + (48 + 12 * n) ≤ a → s'.byte a = s.byte a)) ∧
    (∀ key n rows, p.op = .szero key n rows → ∃ s', acked s' none ∧
      (∀ j < rows, s'.rowAt (key + j * rowStride n) n = Row.zero n)) ∧
    (∀ key n base xs inv, p.op = .rowAdd key n base xs inv → ∃ s', acked s' none ∧
      (badIn s.bad key (48 + 12 * n) = none →
        s'.bytes key (48 + 12 * n) = ((s.rowAt key n).addRow xs false inv).image))) ∧
  (∀ (r : Row) (i : Nat) (d : Val) (q : Int),
    r.sx = r.x.sum → r.s = (r.x.map fun x => x * x).sum →
    let r' := r.saAdd i d q
    i < r.x.length → r'.sx = r'.x.sum ∧ r'.s = (r'.x.map fun x => x * x).sum ∧ r'.x.length = r.x.length ∧
      (∀ j, j ≠ i → r'.x[j]? = r.x[j]?) ∧ (d.isNan = true → r' = { r with inv := true })) ∧
  (∀ (s : State), ∃ s', exec .crucibleRowError s = .next s' ∧ s'.posted = s.posted ∧ s'.parts = s.parts ∧
    s'.full = s.full) ∧
  (∀ (s : State) (p : Posted) (key n : Nat) (base : Word), s.postedAt s.subject.idx = some p →
    ((∃ i q adds bf, p.op = .sadd key n base i q adds bf) ∨ ∃ xs inv, p.op = .rowAdd key n base xs inv) →
    (badIn s.bad key (48 + 12 * n) = none → exec .crucibleRowError s = .next s) ∧
    (badIn s.bad key (48 + 12 * n) ≠ none → ∃ s1 : State,
      exec .crucibleRowError s =
        .next (s.inCtx p.src fun x =>
          { x with mem := s1.mem, bad := s1.bad }.unitRec p.src.core (bankCore key) 31 5 base base 0 0) ∧
      s1 = { s with mem := s1.mem, bad := s.bad.filter fun u => !unitMeets u key (rowStride n) } ∧
      s1.bytes key (48 + 12 * n) = ({ s.rowAt key n with inv := true } : Row).image ∧
      ∀ a, a < key ∨ key + (48 + 12 * n) ≤ a → s1.byte a = s.byte a))
/-! ### Tongs (R295 to R311) -/

/-- R299 to R304, R309, R310: the pair task instructions: the checks of each, and what each does when they pass. -/
def Obligations.PairTaskInstructions : Prop :=
  ∀ (s : State) (c : Nat) (k : SlotN) (t : Thread) (g : Guard) (rd rs1 rs2 : XReg) (vs : VNum),
    s.Ready c k t { guard := g, who := .user, src := [rs1, rs2, rd], dst := [rd] } →
    let x := t.a.xr rs1
    let y := t.a.xr rs2
    let illegal (i : Instr) (v : Word) : Prop := s.Traps c k t i { cause := 2, val := s.curWord.setWidth 64, val2 := v }
    -- PTCFG
    (16 < y.toNat → illegal (.ptcfg g rs1 rs2) y) ∧
    (∀ s1 u s2 q bs l, s.Commits c k t s1 u →
      (∀ e, y.toNat < 16 → x.toNat % 64 = 0 → blockFor s1 c k x.toNat 64 false = .ok s2 (bs, l) →
        s2.slot c k = .thread u → s2.partOf c = some q → pairOfImage bs = some e →
        ∀ h : y.toNat < 16, exec (.ptcfg g rs1 rs2) s = .next
          ((s2.modPart q.cfg.part fun p => { p with pairs := p.pairs.set y.toNat e h }).replied c k u {})) ∧
      (y.toNat = 16 → x.toNat % 32 = 0 → blockFor s1 c k x.toNat 32 false = .ok s2 (bs, l) →
        s2.slot c k = .thread u → s2.partOf c = some q → q.ring = [] →
        let w := leNat (bs.take 8)
        10 ≤ w % 32 → w % 32 ≤ 24 → exec (.ptcfg g rs1 rs2) s = .next
          ((s2.modPart q.cfg.part fun p => { p with
            ringBase := w / 2 ^ 16 * 2 ^ 16, ringLog := w % 32, ringHead := 0, ringTail := 0 }).replied c k u {}))) ∧
    -- PTSERVE, PDONE
    ((x.toNat = 0 ∨ 2 ^ 16 ≤ x.toNat ∨ t.paired = true ∨ t.kind = .migrant) → illegal (.ptserve g rs1) 0) ∧
    (∀ s1 u, 0 < x.toNat → x.toNat < 2 ^ 16 → t.paired = false → t.kind ≠ .migrant →
      s.Commits c k t s1 u → ∃ s', exec (.ptserve g rs1) s = .next s' ∧
        (s'.cluster (clusterOf c)).tongs.parked = (s1.cluster (clusterOf c)).tongs.parked ++ [u.ref c] ∧
        s'.slot c k = .thread (({ u with
          kind := .task, serve := BitVec.ofNat 16 x.toNat, a := { u.a with csr := u.a.csr.setCount 0 } } : Thread).parkedOn (s1.core c).cycle s1.curWord
          (.cond .task))) ∧
    (t.kind ≠ .task → illegal (.pdone g) 0) ∧
    (∀ s1 u, t.kind = .task → s.Commits c k t s1 u → ∃ s', exec (.pdone g) s = .next s' ∧
      (s'.cluster (clusterOf c)).tongs.parked = (s1.cluster (clusterOf c)).tongs.parked ++ [u.ref c] ∧
      s'.slot c k = .thread (({ u with a := { u.a with csr := u.a.csr.setCount 0 } } : Thread).parkedOn (s1.core c).cycle s1.curWord
        (.cond .task))) ∧
    -- PTENQ
    (∀ s0 s1 u q bs l, s.Commits c k t s0 u → x.toNat % 32 = 0 →
      blockFor s0 c k x.toNat 32 false = .ok s1 (bs, l) → s1.slot c k = .thread u → s1.partOf c = some q →
      let w := (List.range 4).map fun i => BitVec.ofNat 64 (leNat ((bs.drop (8 * i)).take 8))
      let task := freshTask w u.launch
      ((task.w0.testBit 7 = true ∨ (q.pair task.desc).pc = 0) → u.trapReady = true → exec (.ptenq g rs1) s =
        .next (s1.takeTrap c k { cause := 2, val := s1.curWord.setWidth 64, val2 := x })) ∧
      (∀ s2, task.w0.testBit 7 = false → (q.pair task.desc).pc ≠ 0 →
        (s1.placeBatch (clusterOf c) c [task] = (s2, .done) →
          exec (.ptenq g rs1) s = .next (s2.park c k (.reply ((s2.core c).cycle + 1) false {}))) ∧
        (s1.placeBatch (clusterOf c) c [task] = (s2, .full) → (s2.thr c k).trapReady = true →
          exec (.ptenq g rs1) s =
            .next (s2.takeTrap c k { cause := 28, val := BitVec.ofNat 64 task.desc, val2 := 1 })))) ∧
    -- the entry word 0 of TOPEN, PFORK, NACC and NDOWN names
    (∀ q, s.partOf c = some q →
      let d := x.toNat % 16
      let e := q.pair d
      let sel := y.toNat
      let bad := BitVec.ofNat 64 d
      ((e.pc = 0 ∨ e.nfmt = 1) → illegal (.topen g rd rs1 rs2) bad ∧
        (sel / 2 ^ 48 % 2 ^ 15 = 0 → illegal (.nacc g vs rs1 rs2) bad) ∧
        (sel / 2 ^ 32 % 2 ^ 31 = 0 → illegal (.ndown g rs1 rs2) bad ∧ illegal (.ndownUp g rs1 rs2) bad)) ∧
      (sel / 2 ^ 48 % 2 ^ 15 ≠ 0 → illegal (.nacc g vs rs1 rs2) y) ∧
      (sel / 2 ^ 32 % 2 ^ 31 ≠ 0 → illegal (.ndown g rs1 rs2) y ∧ illegal (.ndownUp g rs1 rs2) y) ∧
      (e.pc ≠ 0 → e.nfmt ≠ 1 →
        -- TOPEN
        (∀ s1 s2 u na nb la lb, treeNode s c k e.rootA (sel % 2 ^ 32) = .ok s1 (na, la) →
          treeNode s1 c k e.rootB (sel / 2 ^ 32) = .ok s2 (nb, lb) → s2.slot c k = .thread u →
          let v := value .fp32
          let sq (p q : Nat) : Val := ((v p).add .rne (v q).flip).mul ((v p).add .rne (v q).flip)
          let dist := v (round32 (sqrtVal (((sq na.cx nb.cx).add .rne (sq na.cy nb.cy)).add .rne (sq na.cz nb.cz))).1)
          let far := ((v na.r).add .rne (v nb.r)).lt ((v e.theta.toNat).mul dist) = true
          let aFirst := ((v nb.r).lt (v na.r) || (v na.r).eq (v nb.r)) = true
          let code := if far then 0 else if na.leaf ∧ nb.leaf then 4 else if na.leaf then 2 else if nb.leaf then 1
            else if e.policy then 3 else if aFirst then 1 else 2
          exec (.topen g rd rs1 rs2) s = .next (if la && lb
            then s2.done c k ((u.wx rd (BitVec.ofNat 64 code)).wp 1 (code == 0))
            else s2.replied c k u { ws := [.x rd (BitVec.ofNat 64 code), .p 1 (code == 0)] })) ∧
        -- PFORK: nothing for other codes; else the product of the parts, pushed as one batch
        (∀ s1 u, s.Commits c k t s1 u → ((t.a.xr rd).toNat = 0 ∨ 3 < (t.a.xr rd).toNat) →
          exec (.pfork g rd rs1 rs2) s = .next (s1.done c k u)) ∧
        (∀ s1 s2 s3 s4 s5 s6 s7 u v na nb as_ bs, 0 < (t.a.xr rd).toNat → (t.a.xr rd).toNat ≤ 3 → s.Commits c k t s1 u →
          s1.partOf c = some q →
          treeNode s1 c k e.rootA (sel % 2 ^ 32) = .ok s2 na → treeNode s2 c k e.rootB (sel / 2 ^ 32) = .ok s3 nb →
          partsOf s3 c k e.rootA (sel % 2 ^ 32) na.1 ((t.a.xr rd).toNat % 2 == 1) = .ok s4 as_ →
          partsOf s4 c k e.rootB (sel / 2 ^ 32) nb.1 (2 ≤ (t.a.xr rd).toNat) = .ok s5 bs →
          commitFirst s5 c k = .ok s6 () → s6.slot c k = .thread v →
          s6.placeBatch (clusterOf c) c (as_.flatMap fun p => bs.map fun r => childTask v x p.1 r.1 p.2 r.2) = (s7, .done) →
          exec (.pfork g rd rs1 rs2) s = .next (s7.park c k (.reply ((s7.core c).cycle + 1) false {}))) ∧
        -- NACC, NDOWN, NDOWN.UP
        (∀ r nd, regionFor s c k e = .ok s r →
          let root := if y.getLsbD 63 then e.rootB else e.rootA
          let i := sel / 2 ^ 32 % 2 ^ 16
          let row (j : Nat) : Word := e.region + BitVec.ofNat 64 (j * (12 * r.n + 64))
          let key (j : Nat) : Nat := r.base + j * (12 * r.n + 64)
          (∀ l s1 v own, nodeFor s c k root (sel % 2 ^ 32) = .ok s1 (nd, own) → s1.slot c k = .thread v →
            sel / 2 ^ 48 % 2 ^ 15 = 0 →
            let a := row nd.row + BitVec.ofNat 64 (48 + 12 * i)
            (r.rows ≤ nd.row → v.trapReady = true →
              exec (.nacc g vs rs1 rs2) s = .next (s1.takeTrap c k { cause := 32, val := a, val2 := 6 })) ∧
            (∀ s2 u, nd.row < r.rows → i % 32 = 0 → i < r.n → elemFor s1 c k a = .ok s1 (l, i) → v.vPending vs = false →
              v.kPending (midxOf v.a.csr.vctl) = false → s1.Commits c k v s2 u → u.psc1 + 1 ≤ 0xFFFF →
              exec (.nacc g vs rs1 rs2) s = .next
                (let s3 := s2.postFor c k 1 l.key (.sadd l.key l.reg.n (row nd.row) i l.reg.q (v.addends vs) false)
                 if own then s3.done c k (s3.thr c k) else s3.replied c k (s3.thr c k) {}))) ∧
          (∀ rows s2 s3 v s1 u l, treeNode s c k root (sel % 2 ^ 32) = .ok s2 (nd, l) → sel / 2 ^ 32 % 2 ^ 31 = 0 →
            childRows s2 c k root (if nd.leaf then 0 else nd.count) nd.first = .ok s3 rows → s3.slot c k = .thread v →
            (∀ j ∈ nd.row :: rows, j < r.rows) → v.psc1 = 0 → s3.heldStamp (bankCore r.base) 4 = none → s3.Commits c k v s1 u → u.psc1 + rows.length ≤ 0xFFFF →
            rows.length = (if nd.leaf then 0 else nd.count) →
            (rows = [] → exec (.ndown g rs1 rs2) s = .next (s1.done c k u) ∧
              exec (.ndownUp g rs1 rs2) s = .next (s1.done c k u)) ∧
            (rows ≠ [] → s1.bad = [] →
              let sends (up : Bool) : State := rows.foldl (fun s j =>
                let o := if up then j else nd.row
                let d := if up then nd.row else j
                let f := s.rowAt (key o) r.n
                s.postFor c k 1 (key d) (.rowAdd (key d) r.n (row d) f.x f.inv)) s1
              exec (.ndown g rs1 rs2) s = .next ((sends false).replied c k ((sends false).thr c k) {}) ∧
              exec (.ndownUp g rs1 rs2) s = .next ((sends true).replied c k ((sends true).thr c k) {}))))))

/-- R302, R304 to R308: the steps of a Tongs unit: what a delivered packet writes into its task thread, what stealing,
refilling and the entry of a held seed move, and that the task threads of exhausted launches end. That a failed read of a
ring pauses refills, and how a held seed whose write fails is recorded and kept, are the model's choices (log entry 32). -/
def Obligations.TongsUnits : Prop :=
  ∀ (s : State),
    let cl := s.subject.cluster
    let g := (s.cluster cl).tongs
    (∀ r x s1 p, s.nextServed cl = some (r, x, s1) → s.partOf (cl * 8) = some p → ∃ s', exec .taskDelivery s = .next s' ∧
      (s'.cluster cl).tongs.parked = ((s1.cluster cl).tongs.parked.filter fun q => q != r) ∧
      (∀ i t, s1.slot r.core i = .thread t → t.serial = r.serial → ∃ t', s'.slot r.core i = .thread t' ∧
        t'.a.xr 10 = x.w.getD 0 0 ∧ t'.a.xr 11 = x.w.getD 1 0 ∧ t'.a.xr 12 = x.w.getD 2 0 ∧ t'.a.xr 13 = x.w.getD 3 0 ∧
        t'.a.csr.scalea = x.w.getD 2 0 ∧ t'.a.csr.scaleb = x.w.getD 3 0 ∧
        t'.a.csr.fmtsh = BitVec.ofNat 64 ((x.w.getD 0 0).toNat / 2 ^ 24 % 2 ^ 16) ∧
        t'.wait = .reply (s.core r.core).cycle false { next := some (p.pair x.desc).pc } ∧
        (∀ j : XReg, j.val ∉ [10, 11, 12, 13] → t'.a.xr j = t.a.xr j))) ∧
    (s.nextServed cl = none → s.servedFault cl = none → exec .taskDelivery s = .next s) ∧
    (∀ p r t ts x s1 cause f, s.nextServed cl = none → s.partOf (cl * 8) = some p → g.refillFault = false →
      g.parked = r :: ts → s.findRef r = some t → t.serving = true → s.chooseTask cl p t = none → p.ring.find? (p.eligible t) = some x →
      s.ringRead cl p (p.ring.idxOf x) = (s1, .error (some (cause, f))) → exec .taskDelivery s =
        .next ((s1.modTongs cl fun g => { g with refillFault := true }).engineRec (cl * 8) cause 3 f.val f.val2 f.val3
          (s1.tongsHandle cl 1))) ∧
    (∀ v ts, s.steal cl = some (v, ts) → g.front.length + ts.length + ((ts.head?.map fun t => s.frontKept cl t.launch).getD 0) ≤ 4096 →
      v ≠ cl → ∃ s', exec .taskSteal s = .next s' ∧
      (s'.cluster cl).tongs.front = g.front ++ ts.map (fun t => t.mark 5) ∧
      (s'.cluster v).tongs.front = ts.foldl List.erase (s.cluster v).tongs.front ∧ s'.cores = s.cores) ∧
    (s.steal cl = none → exec .taskSteal s = .next s) ∧
    (∀ p, s.partOf (cl * 8) = some p → (p.ring = [] ∨ 1024 ≤ g.front.length ∨ g.refillFault = true ∨
        ∃ x xs, p.ring = x :: xs ∧ 4096 ≤ g.front.length + s.frontKept cl x.launch) →
      exec .frontierRefill s = .next s ∧ (g.batch = none → exec .tongsSpillFault s = .next s)) ∧
    (∀ p x s1 key, s.partOf (cl * 8) = some p → (s.core (cl * 8)).part = some p.cfg.part → p.ring = [x] → g.front.length < 1024 →
      g.front.length + s.frontKept cl x.launch < 4096 → g.refillFault = false → s.engineKey (cl * 8) (p.ringAddr p.ringHead) .load = (s1, .ok key) → badIn s1.bad key 32 = none →
      ∃ s', exec .frontierRefill s = .next s' ∧ (s'.cluster cl).tongs.front = g.front ++ [x] ∧ s'.mem = s1.mem ∧
        ∃ q, s'.part? p.cfg.part = some q ∧ q.ring = [] ∧ q.ringHead = p.ringHead + 1) ∧
    (g.batch.isSome = true → g.batchFault = false → exec .tongsSpillFault s = .next (s.retryBatch cl)) ∧
    (g.seeds = [] ∨ g.seedFault = true → exec .heldSeedEntry s = .next s) ∧
    (∀ x xs s1, g.seeds = x :: xs → g.seedFault = false → s.placeBatch cl (cl * 8) [x] = (s1, .done) → ∃ s',
      exec .heldSeedEntry s = .next s' ∧ (s'.cluster cl).tongs.seeds = xs ∧ s'.mem = s1.mem) ∧
    (∀ x xs s1 f, g.seeds = x :: xs → g.seedFault = false → s.placeBatch cl (cl * 8) [x] = (s1, .held (some f)) →
      exec .heldSeedEntry s = .next ((s1.modTongs cl fun g => { g with seedFault := true }).engineRec (cl * 8) 15 3 f.val f.val2
        f.val3 (s1.tongsHandle cl 0))) ∧
    (∀ p, s.part? s.subject.part = some p → s.exhausted p s.subject.launch = true →
      exec .tasksExhausted s = .next ((s.taskSlots p s.subject.launch).foldl (fun s e =>
        (s.modTongs (clusterOf e.1) fun g => { g with parked := g.parked.filter fun q => q != (s.thr e.1 e.2).ref e.1 }).endThread
          e.1 e.2) s)) ∧
    (∀ p, s.part? s.subject.part = some p → s.exhausted p s.subject.launch = false → exec .tasksExhausted s = .next s)
/-! ### Traversal and raster (R312 to R354) -/

/-- R80, R331, R341 to R347: the traversal instructions: their checks, and what each does when they pass and the thread's
earlier stores are performed. That children are linked from the 66th on, and that what a unit knew of a drained ray is kept
with the bytes of its record, are the model's choices (log entries 45, 44). -/
def Obligations.TraversalInstructions : Prop :=
  ∀ (s : State) (c : Nat) (k : SlotN) (t : Thread) (g : Guard) (rd rs1 rs2 : XReg) (mode : Fin 2),
    s.Ready c k t { guard := g, src := [rs1, rs2], dst := [rd], custom3 := true } →
    let x := t.a.xr rs1
    let y := t.a.xr rs2
    let cl := clusterOf c
    let me := t.ref c
    let illegal (i : Instr) (v : Word) : Prop := s.Traps c k t i { cause := 2, val := s.curWord.setWidth 64, val2 := v }
    -- TRACE
    (x.toNat % 64 ≠ 0 → s.Traps c k t (.trace g rd rs1) { cause := 4, val := x }) ∧
    (x.toNat % 64 = 0 → s.recordHandle c x.toNat = none → s.Traps c k t (.trace g rd rs1) { cause := 5, val := x }) ∧
    (∀ h key s1 u, x.toNat % 64 = 0 → s.recordHandle c x.toNat = some h → handleFor s c k h = .ok s key →
      s.Commits c k t s1 u → u.psc0 = 0 → s1.spanLock [(key, 256)] (some (c, k)) = none → s1.bad = [] →
      (s1.byte (key + 0x30) ≠ 0 → u.trapReady = true → exec (.trace g rd rs1) s =
        .next (s1.takeTrap c k { cause := 2, val := s1.curWord.setWidth 64, val2 := h })) ∧
      (s1.byte (key + 0x30) = 0 → s1.rayRoom c = true → ∃ s', exec (.trace g rd rs1) s = .next s' ∧
        s' = complete (s1.startRay c h key me false) c k { ws := [.x rd h] } ∧
        (badRecord (s1.bytes key 256) = false →
          (s'.core c).c.tv.rays = (s1.core c).c.tv.rays ++ [rayOf (s1.bytes key 256) h me (((s1.core c).part).getD 0)] ∧
          s'.byte (key + 0x30) = 1 ∧ (∀ j < 0x40, s'.byte (key + 0x40 + j) = 0) ∧
          ∀ q, q < key ∨ key + 256 ≤ q → s'.byte q = s1.byte q)) ∧
      (s1.byte (key + 0x30) = 0 → s1.rayRoom c = false →
        exec (.trace g rd rs1) s = .next (s1.park c k (.cond .rayRoom)))) ∧
    -- TWAIT
    (∀ s1 u, (x = 0 ∨ ∃ key, handleFor s c k x = .ok s key) → s.Commits c k t s1 u →
      (∀ s2 v, s1.takeRay c me x = some (s2, v) → exec (.twait g rd rs1) s = .next (s2.done c k (u.wx rd v))) ∧
      (s1.takeRay c me x = none → s1.ownsRay c me x = false → exec (.twait g rd rs1) s = .next (s1.done c k (u.wx rd 0))) ∧
      (s1.takeRay c me x = none → s1.ownsRay c me x = true →
        exec (.twait g rd rs1) s = .next (s1.park c k (.cond (.rayEvent x rd))))) ∧
    -- TRESUME, TACCEPT, TIGNORE, TTERM
    (∀ key s1 u, handleFor s c k x = .ok s key → s.Commits c k t s1 u → u.psc0 = 0 →
      s1.spanLock [(key, 256)] (some (c, k)) = none →
      let refused (i : Instr) : Prop := u.trapReady = true →
        exec i s = .next (s1.takeTrap c k { cause := 2, val := s1.curWord.setWidth 64, val2 := x })
      let attrs := wordsAt (s1.bytes key 256) 0x70 4
      (s1.answered c key x me = none → refused (.tresume g rs1 rs2) ∧ refused (.taccept g rs1) ∧ refused (.tignore g rs1) ∧
        refused (.tterm g rs1)) ∧
      (∀ d r load, s1.answered c key x me = some (d, r, load) →
        (r.status ≠ 3 → refused (.taccept g rs1) ∧ refused (.tignore g rs1) ∧ refused (.tterm g rs1)) ∧
        (y.toNat / 2 ^ 33 ≠ 0 → refused (.tresume g rs1 rs2)) ∧
        (let goes (i : Instr) (a : Option (Ray × Bool)) : Prop := (a = none → refused i) ∧ ∀ z ends, a = some (z, ends) →
            (load = true → s1.rayRoom c = false → exec i s = .next (s1.park c k (.cond .rayRoom))) ∧
            (load = false ∨ s1.rayRoom c = true →
              let s2 := if load then s1.modTv d fun v => { v with rays := v.rays ++ [z] } else s1
              exec i s = .next (complete (if ends then s2.endRay d { z with term := true } 4 0 else s2.goOn d z) c k {}))
         goes (.tresume g rs1 rs2) (r.answer load (.tresume g rs1 rs2) y (rs2 == 0) attrs) ∧
         goes (.taccept g rs1) (r.answer load (.taccept g rs1) (t.a.xr 0) true attrs) ∧
         goes (.tignore g rs1) (r.answer load (.tignore g rs1) (t.a.xr 0) true attrs) ∧
         goes (.tterm g rs1) (r.answer load (.tterm g rs1) (t.a.xr 0) true attrs)))) ∧
    -- TSPAWN
    (∀ key ckey s1 u, handleFor s c k x = .ok s key → handleFor s c k y = .ok s ckey → s.Commits c k t s1 u → u.psc0 = 0 →
      s1.spanLock [(ckey, 256)] (some (c, k)) = none →
      let depth := s1.num (key + 0x34) 1 + 1
      (s1.rayCode cl key x ≠ some 3 → u.trapReady = true → exec (.tspawn g rd rs1 rs2) s =
        .next (s1.takeTrap c k { cause := 2, val := s1.curWord.setWidth 64, val2 := 0 })) ∧
      (s1.rayCode cl key x = some 3 → s1.byte (ckey + 0x30) = 0 →
        (8 < depth → exec (.tspawn g rd rs1 rs2) s = .next (s1.done c k ((u.wx rd 0).wp 1 false))) ∧
        (depth ≤ 8 → (s1.core c).c.tv.children.length < 65 → ∃ s', exec (.tspawn g rd rs1 rs2) s = .next s' ∧
          s'.slot c k = .thread (((u.wx rd y).wp 1 true).finish none 4) ∧
          (s'.core c).c.tv.children = (s1.core c).c.tv.children ++ [(y, me)] ∧
          s'.byte (ckey + 0x34) = BitVec.ofNat 8 depth) ∧
        (∀ e link, depth ≤ 8 → 65 ≤ (s1.core c).c.tv.children.length → (s1.core c).c.tv.children.getLast? = some e →
          s1.clusterKey cl (e.1.toNat + 0x40) = some link → s1.spanLock [(link, 8)] (some (c, k)) = none →
          ∃ s', exec (.tspawn g rd rs1 rs2) s = .next s' ∧ s'.slot c k = .thread (((u.wx rd y).wp 1 true).finish none 4) ∧
          (s'.core c).c.tv.children = (s1.core c).c.tv.children ++ [(y, me)] ∧ s'.bytes link 8 = leBytes 8 y.toNat))) ∧
    -- TRSAVE
    (∀ key s1 u, handleFor s c k x = .ok s key → s.Commits c k t s1 u → u.psc0 = 0 →
      s1.spanLock [(key, 256)] (some (c, k)) = none →
      (s1.rayAt cl x = none → exec (.trsave g rs1) s = .next (s1.done c k u)) ∧
      (∀ d r, s1.rayAt cl x = some (d, r) →
        let s2 := s1.drainRay d x (r.prims.length + 2)
        let own := (s2.core d).c.tv.rays.find? fun r => r.handle == x
        (∀ b, s1.clusterKey cl r.spill = some b → s1.spanLock [(b, 512)] (some (c, k)) = none) →
        (own = none → exec (.trsave g rs1) s = .next (s2.replied c k (s2.thr c k) {})) ∧
        (∀ r1 s3 r2, own = some r1 → r1.sink s2 d 12 (some (c, k)) = (s3, .ok r2) → ∃ s', exec (.trsave g rs1) s = .next s' ∧
          s'.drained = (r2, recordImage (s'.bytes key 256)) :: s3.drained ∧ (∀ z ∈ (s'.core d).c.tv.rays, z.handle ≠ x)) ∧
        (∀ r1 s3 p, own = some r1 → r1.sink s2 d 12 (some (c, k)) = (s3, .error (some p)) →
          ∃ s', exec (.trsave g rs1) s = .next s' ∧ (∀ z ∈ (s'.core d).c.tv.rays, z.handle ≠ x)))) ∧
    -- HHTINV
    (x.toNat / 2 ^ 12 ≠ 0 → illegal (.hhtinv g mode rs1 rs2) x) ∧
    (x.toNat / 2 ^ 12 = 0 → y.toNat / 2 ^ 16 ≠ 0 → illegal (.hhtinv g mode rs1 rs2) y) ∧
    (∀ s1 u p, x.toNat / 2 ^ 12 = 0 → y.toNat / 2 ^ 16 = 0 → s.Commits c k t s1 u → u.psc0 = 0 → s1.partOf c = some p →
      ∃ s', exec (.hhtinv g mode rs1 rs2) s = .next s' ∧
      s'.slot c k = .thread (u.parkedOn (s1.core c).cycle s1.curWord (.reply ((s1.core c).cycle + 1) false {})) ∧
      ∀ r ∈ p.cfg.rows, ∀ h, h ∈ (s'.cluster (r.1 * 64 + r.2 * 2)).hints ↔
        h ∈ (s1.cluster (r.1 * 64 + r.2 * 2)).hints ∧
        ¬(p.cfg.ways.getLsbD h.way = true ∧ h.ctx = x.toNat ∧ (mode = 1 → h.gen = y.toNat)))

/-- R336, R340, R343, R345, R348, R349: the steps of a traversal unit for a ray that walks: what the next part of its walk
comes to decides which step moves it; a ray without an owner ends ABORTED at its next node boundary; children start in
order; while a lock covers its record no step writes it. That a ray without an owner stands at a boundary when it is
suspended or has no primitive left is the model's choice (log entry 46). -/
def Obligations.TraversalUnit : Prop :=
  ∀ (s : State),
    let c := s.subject.core
    let v := (s.core c).c.tv
    (∀ r, s.subjectRay = some r → (s.findRef r.owner).isSome = true ∨ r.prims ≠ [] → r.status = 1 →
      let held := s.recordHeld c r.handle
      (∀ s1 r1, rayStep s c r = .moved s1 r1 →
        exec .rayCandidate s = .next (if r1.status = 2 ∨ r1.status = 3
          then if held then s else ((s1.putRayState c r1).writeRay c r1 false false).rayEvent r1 (r1.status - 1)
          else s1.putRayState c r1) ∧
        exec .stackRestart s = .next s ∧ exec .rayEnd s = .next s ∧ exec .rayFault s = .next s) ∧
      (∀ s1, rayStep s c r = .held s1 → exec .rayCandidate s = .next s1 ∧
        exec .stackRestart s = .next s ∧ exec .rayEnd s = .next s ∧ exec .rayFault s = .next s) ∧
      (rayStep s c r = .restart → exec .stackRestart s = .next ((s.putRayState c r.restart).countRay c 2 1) ∧
        exec .rayCandidate s = .next s ∧ exec .rayEnd s = .next s ∧ exec .rayFault s = .next s) ∧
      (∀ s1 r1 code idx, rayStep s c r = .ended s1 r1 code idx → exec .rayEnd s = .next (if held then s else s1.endRay c r1 code idx) ∧
        exec .rayCandidate s = .next s ∧ exec .stackRestart s = .next s ∧ exec .rayFault s = .next s) ∧
      (∀ s1 p, rayStep s c r = .fault s1 p → exec .rayFault s = .next (if held then s else
          ((s1.putRayState c { r with status := 6 }).writeRay c { r with status := 6 } false false).rayRecord c r p) ∧
        exec .rayCandidate s = .next s ∧ exec .stackRestart s = .next s ∧ exec .rayEnd s = .next s) ∧
      (∀ s1 p, rayStep s c r = .writeFault s1 p → exec .rayFault s = .next (if held then s else (s1.rayRecord c r p).endRay c r 9 0) ∧
        exec .rayCandidate s = .next s ∧ exec .stackRestart s = .next s ∧ exec .rayEnd s = .next s)) ∧
    (∀ r, s.subjectRay = some r → (s.findRef r.owner).isNone = true → r.status ≠ 1 ∨ r.prims = [] →
      exec .rayEnd s = .next (if s.recordHeld c r.handle then s else s.endRay c r 9 0) ∧
      exec .rayCandidate s = .next s ∧ exec .stackRestart s = .next s ∧ exec .rayFault s = .next s) ∧
    (s.subjectRay = none → exec .rayCandidate s = .next s ∧ exec .stackRestart s = .next s ∧ exec .rayEnd s = .next s ∧
      exec .rayFault s = .next s) ∧
    (64 ≤ v.rays.length → exec .childRayStart s = .next s) ∧
    (∀ h o rest, v.rays.length < 64 → v.children = (h, o) :: rest →
      let s1 := s.modTv c fun v => { v with children := rest }
      (s.recordHeld c h = true → exec .childRayStart s = .next s) ∧
      (∀ key, s.recordHeld c h = false → (s.findRef o).isSome = true → s.clusterKey (clusterOf c) h.toNat = some key →
        exec .childRayStart s = .next (s1.startRay c h key o true)) ∧
      (s.recordHeld c h = false → (s.findRef o).isNone = true → exec .childRayStart s = .next s1))

/-- R351 to R354: RSETUP stores a plane block from a vertex block; RCOVER gives a tile's 64 coverage bits by the signs of
its edges and the rule for pixels on an edge; RDEPTH tests and replaces a tile's depths in the own scratchpad. -/
def Obligations.RasterInstructions : Prop :=
  ∀ (s : State) (c : Nat) (k : SlotN) (t : Thread) (g : Guard) (rd rs1 rs2 : XReg),
    s.Ready c k t { guard := g, src := [rd, rs1, rs2], dst := [rd], custom3 := true } →
    let x := t.a.xr rs1
    let y := t.a.xr rs2
    (x.toNat % 16 ≠ 0 → s.Traps c k t (.rsetup g rs1 rs2) { cause := 4, val := x } ∧
      s.Traps c k t (.rcover g rd rs1 rs2) { cause := 4, val := x } ∧
      s.Traps c k t (.rdepth g rd rs1 rs2) { cause := 4, val := x }) ∧
    (x.toNat % 16 = 0 → y.toNat % 16 ≠ 0 → s.Traps c k t (.rsetup g rs1 rs2) { cause := 4, val := y }) ∧
    (∀ v l s0 s1, x.toNat % 16 = 0 → y.toNat % 16 = 0 → readBlock s c k x.toNat 48 = .ok s0 (v, l) →
      storeBlock s0 c k y.toNat (planeBlock v) = .ok s1 () → exec (.rsetup g rs1 rs2) s =
        .next (if l then s1.done c k (s1.thr c k) else s1.replied c k (s1.thr c k) {})) ∧
    (∀ p l s0 u, x.toNat % 16 = 0 → readBlock s c k x.toNat 64 = .ok s0 (p, l) → s0.slot c k = .thread u →
      let vx (i : Nat) : Int := (wordAt p (8 * (i % 3))).toInt
      let vy (i : Nat) : Int := (wordAt p (8 * (i % 3) + 4)).toInt
      let area : Int := (BitVec.ofNat 64 (dwordAt p 0x28)).toInt
      let px (tx : Int) (b : Nat) : Int := (tx + (b % 8 : Nat)) * 256 + 128
      let py (ty : Int) (b : Nat) : Int := (ty + (b / 8 : Nat)) * 256 + 128
      let e (i : Nat) (qx qy : Int) : Int := (vx (i + 2) - vx (i + 1)) * (qy - vy (i + 1)) - (vy (i + 2) - vy (i + 1)) * (qx - vx (i + 1))
      let covered (qx qy : Int) : Prop := (p.getD 0x38 0).getLsbD 0 = false ∧ ∀ i < 3,
        0 < area.sign * e i qx qy ∨ (area.sign * e i qx qy = 0 ∧
          (0 < area.sign * (vy (i + 2) - vy (i + 1)) ∨
            (vy (i + 2) = vy (i + 1) ∧ area.sign * (vx (i + 2) - vx (i + 1)) < 0)))
      (let tx := (y.setWidth 16 : BitVec 16).toInt
        let ty := ((y >>> 16).setWidth 16 : BitVec 16).toInt
        ∃ m : Word, exec (.rcover g rd rs1 rs2) s = .next (if l then s0.done c k (u.wx rd m)
            else s0.replied c k u { ws := [.x rd m] }) ∧
          ∀ b < 64, m.getLsbD b = true ↔ covered (px tx b) (py ty b)) ∧
      (∀ off key off' key', s.place c y.toNat = .own off key →
        s.place c ((y.toNat + 271) % 2 ^ 64) = .own off' key' → y.toNat % 16 = 0 →
        s0.lockHolds c off 272 (some (c, k)) = false → u.overlaps key 272 = false → u.logFull 1 = false →
        badIn s0.bad key 272 = none →
        let tx := (BitVec.ofNat 16 (s0.num key 2)).toInt
        let ty := (BitVec.ofNat 16 (s0.num (key + 2) 2)).toInt
        let z (b : Nat) : Word32 := depthAt p (px tx b) (py ty b)
        let old (b : Nat) : Nat := s0.num (key + 16 + 4 * b) 4
        let passes (b : Nat) : Prop := (t.a.xr rd).getLsbD b = true ∧
          (value .fp32 (z b).toNat).lt (value .fp32 (old b)) = true
        let logged : Thread := { u with chunk := u.chunk.map fun ch =>
          { ch with undo := ((List.range 256).map fun j => (key + 16 + j, s0.byte (key + 16 + j))) :: ch.undo } }
        ∃ s' m, exec (.rdepth g rd rs1 rs2) s = .next s' ∧ s'.slot c k = .thread (if l then (logged.wx rd m).finish none 4
            else logged.parkedOn (s0.core c).cycle s0.curWord (.reply ((s0.core c).cycle + 1) false { ws := [.x rd m] })) ∧
          (∀ b < 64, (m.getLsbD b = true ↔ passes b) ∧
            (passes b → s'.num (key + 16 + 4 * b) 4 = (z b).toNat) ∧
            (¬passes b → s'.num (key + 16 + 4 * b) 4 = old b)) ∧
          ∀ q, q < key + 16 ∨ key + 272 ≤ q → s'.byte q = s0.byte q)) ∧
    (x.toNat % 16 = 0 → (∀ off key, s.place c y.toNat ≠ .own off key) →
      s.Traps c k t (.rdepth g rd rs1 rs2) { cause := 5, val := y })
/-! ### Steps of the cores and what is on its way (R49, R80, R137, R240 to R248, R262, R263, R281, R361, R366, R372) -/

/-- R120, R121, R137, R264, R415: the CSR writes as steps. R49: a reply completes what waits for it. R80: a timing error
spends the turn and changes no register, or strikes what the turn issues after its pops (R417); more than 4 in 1,024 cycles
are reported, after which the count starts again, which is the model's choice (log entry 9). R263, R368, R372: expired waits
and deferred traps take their entries, by their causes. -/
def Obligations.ThreadSteps : Prop :=
  (∀ (s : State) (k : SlotN) (t : Thread), s.subject.slot = k → s.slot s.subject.core k = .thread t →
    let c := s.subject.core
    let n := s.subject.num
    let v := s.subject.val
    let sets (u : UserCsrs) : State := s.setThr c k { t with a := { t.a with csr := u } }
    (n ∈ [0x800, 0x802, 0x803, 0x804, 0x805, 0x806, 0x809] → exec .csrWrite s = .next (sets (t.a.csr.write t.paired n v))) ∧
    (n = 0x5C0 → exec .csrWrite s = .next (s.modCtx c fun x => { x with trqbase := v &&& ~~~1023#64 })) ∧
    (t.vq = [] → exec .vstatCsrWrite s = .next (sets { t.a.csr with vstat := v &&& 31 })) ∧
    (t.vq ≠ [] → exec .vstatCsrWrite s = .next (s.park c k (.cond .strips))) ∧
    (n = 0x807 → v.toNat % 2 ^ 32 = 0 →
      exec .repeatCsrWrite s = .next
        (s.setThr c k { t with a := { t.a with endPend := false, csr := { t.a.csr with repcnt := v &&& 0xFFFFFFFFFFFF#64 } } })) ∧
    ((s.core c).supBit 0 = true → exec .dldetCsrWrite s =
      .next (s.modCtx c fun x => { x with supctl := v &&& 0xFFFFFFFF000000FF#64 })) ∧
    ((s.core c).supBit 0 = false → v.getLsbD 0 = true → ∃ s', exec .dldetCsrWrite s = .next s' ∧
      (s'.core c).c.supctl = v &&& 0xFFFFFFFF000000FF#64 ∧ (s'.die (dieOf c)).passDue = true) ∧
    (∀ due x fin, t.st = .parked → t.wait = .reply due x fin → due ≤ (s.core c).cycle →
      exec .replyArrival s = .next ((complete s c k fin).resumed c k)) ∧
    (t.st ≠ .parked → exec .replyArrival s = .next s) ∧
    (∀ v v2, s.expired c k = true → s.limitVals c k t = some (v, v2) →
      exec .waitLimitExpiry s = .next (s.trapBetween c k { cause := 24, val := v, val2 := v2 })) ∧
    (s.expired c k = false → exec .waitLimitExpiry s = .next s) ∧
    (∀ v v2, s.bartoOver c t = true → s.barrierVals c t = some (v, v2) →
      exec .barrierTimeout s = .next (s.trapBetween c k { cause := 26, val := v, val2 := v2 })) ∧
    (s.bartoOver c t = false → exec .barrierTimeout s = .next s ∧ exec .gangTimeout s = .next s) ∧
    (∀ g id rd, s.bartoOver c t = true → s.gangWaits c t = true → t.wait = .gang g id rd → exec .gangTimeout s =
      .next (s.trapBetween c k { cause := 26, val := BitVec.ofNat 64 id, val2 := BitVec.ofNat 64 g })) ∧
    (t.deferReady = true → exec .deferredTrap s = .next (s.takeDeferred c k)) ∧
    (t.deferReady = false → exec .deferredTrap s = .next s)) ∧
  (∀ (s : State),
    let c := s.subject.core
    let m := s.mgmt
    let x := s.core c
    (∀ k, s.canIssue c = some k →
      (s.subject.flag = false → ∃ s', exec .timingErrorReplay s = .next s' ∧ (s'.core c).c = x.c ∧
        (s'.core c).turnDone = true ∧ s'.mem = s.mem ∧
        (s'.core c).replays = x.cycle :: x.replays.filter (fun n => x.cycle < n + 1024)) ∧
      (s.subject.flag = true → exec .timingErrorReplay s = .next (s.modCore c fun x => { x with strikes := true }))) ∧
    (s.canIssue c = none → exec .timingErrorReplay s = .next s) ∧
    (x.recentReplays.length ≤ 4 → exec .replayRateReport s = .next s) ∧
    (4 < x.recentReplays.length → exec .replayRateReport s = .next { s.modCore c fun x => { x with replays := [] } with
      mgmt := m.setVolts (dieOf c) (rowOf c) (m.volts (dieOf c) (rowOf c) + 1) }))

/-- R240, R242, R245: chunks close at their limit and are judged, the token goes to the first that asked. R247, R248, R262,
R281: posted operations are performed where nothing earlier to their destination is left, acknowledged, and counted down;
pushes and messages reach their owners. R361, R366: copies complete, and barrier signals arrive. The rows of a copy that one
step moves, and that an acknowledgement is a step of its own, kept for a swapped thread, are the model's choices (log
entries 59, 93). -/
def Obligations.OperationsArrive : Prop :=
  (∀ (s : State) (k : SlotN) (t : Thread), s.subject.slot = k → s.slot s.subject.core k = .thread t →
    let c := s.subject.core
    let due : Prop := t.atLimit = true ∨ (t.st = .stopped ∧ t.chunk.isSome = true)
    (due → t.closable = true → exec .chunkLimitClose s = .next (s.softClose c k).1) ∧
    (¬due ∨ t.closable = false → exec .chunkLimitClose s = .next s) ∧
    (∀ ch, t.closed = some ch → t.judgeable ch = true → exec .chunkCommit s = .next (s.judgeClosed c k).1) ∧
    (∀ ch, t.closed = some ch → t.judgeable ch = false → exec .chunkCommit s = .next s) ∧
    (t.closed = none → exec .chunkCommit s = .next s)) ∧
  (∀ (s : State) (r : TRef) (rs : List TRef), s.tokenQ = r :: rs →
    (s.tokenFree = true → exec .commitTokenGrant s = .next { s with token := some r, tokenQ := rs }) ∧
    (s.tokenFree = false → exec .commitTokenGrant s = .next s)) ∧
  (∀ (s : State) (p : Posted), s.postedAt s.subject.idx = some p →
    let ack : Ack := ⟨p.src, p.cls, p.launch, p.op.spans, none⟩
    (∀ key bs full, p.op = .store key bs full → s.spanLock [(key, bs.length)] none = none → ∃ s',
      exec .postedOpArrival s = .next s' ∧ s'.posted = s.posted.erase p ∧ s'.acks = s.acks ++ [ack] ∧
      (∀ j < bs.length, s'.byte (key + j) = bs.getD j 0) ∧ (∀ q, q < key ∨ key + bs.length ≤ q → s'.byte q = s.byte q)) ∧
    (∀ key bs full x, p.op = .store key bs full → s.spanLock [(key, bs.length)] none = some x →
      exec .postedOpArrival s = .next s) ∧
    (∀ cs, p.op = .cells cs → (∀ e ∈ cs, s.spanLock [(e.1, 1)] none = none) → ∃ s',
      exec .postedOpArrival s = .next s' ∧ s'.posted = s.posted.erase p ∧ s'.acks = s.acks ++ [ack] ∧
      ∀ q, s'.byte q = match cs.find? fun e => e.1 == q with | some e => e.2 | none => s.byte q) ∧
    (∀ key n b, p.op = .fe key n b → s.spanLock [(key, n)] none = none →
      exec .postedOpArrival s = .next ((s.changeFull key n b).acked p)) ∧
    (∀ c h v q, p.op = .push c h v → qref c h = some q → s.popWaits q = false → (s.queueLocked q true none).isSome = true →
      exec .queuePushPerform s = .next s) ∧
    (∀ c h v q, p.op = .push c h v → qref c h = some q → (s.popWaits q = true ∨ s.queueLocked q true none = none) →
      exec .queuePushPerform s =
      .next ((((s.setQueue q { s.queue q with kept := (s.queue q).kept - 1 }).performPush q v).servePush q).acked p)) ∧
    (∀ m, p.op = .msg m → s.departed m = true → exec .messageArrival s = .next ((s.deliverMsg m).acked p)) ∧
    (∀ m, p.op = .msg m → s.departed m = false → exec .messageArrival s = .next s)) ∧
  (∀ (s : State) (a : Ack), s.acks[s.subject.idx]? = some a →
    (s.isSwapped a.dst = true → exec .postedAck s = .next s) ∧
    (∀ v b, s.isSwapped a.dst = false → a.sat = some (v, b) → exec .postedAck s =
      .next (({ s with acks := s.acks.erase a }.modRef a.dst fun t => t.subPsc a.cls).defer a.dst 33 5 v b)) ∧
    (s.isSwapped a.dst = false → a.sat = none → ∃ s', exec .postedAck s = .next s' ∧
    s'.acks = s.acks.erase a ∧ s'.mem = s.mem ∧ s'.posted = s.posted ∧
    ∀ i t, s.slot a.dst.core i = .thread t → s'.slot a.dst.core i = .thread (if t.serial = a.dst.serial then t.subPsc a.cls else t))) ∧
  (∀ (s : State) (m : Msg), let c := s.subject.core
    s.msgOut c s.subject.idx = some m →
    exec .messageDepart s = .next (s.modCtx c fun x => { x with outbox := x.outbox.eraseIdx s.subject.idx })) ∧
  (∀ (s : State) (g : BarSignal), s.signalAt s.subject.idx = some g →
    let s1 := { s with signals := s.signals.eraseIdx s.subject.idx }
    (g.kind ≠ 3 → exec .barrierArrivalSignal s = .next (s1.receive g) ∧ exec .barrierReleaseSignal s = .next s) ∧
    (g.kind = 3 → exec .barrierReleaseSignal s = .next (s1.receive g) ∧ exec .barrierArrivalSignal s = .next s)) ∧
  (∀ (s : State) (ch : Fin 8) (j : CopyJob), s.subject.idx = ch.val →
    let cl := s.subject.cluster
    ((s.cluster cl).chans[ch]).job = some j →
    (j.rows * j.rowBytes ≤ ((s.cluster cl).chans[ch]).pos → ∃ s', exec .copyJobComplete s = .next s' ∧
      ((s'.cluster cl).chans[ch]).job = none ∧ ((s'.cluster cl).chans[ch]).done = j.id ∧ s'.mem = s.mem ∧
      ∀ i < 8, (s'.core (cl * 8 + i)).c.cpydone[ch] = j.id) ∧
    (((s.cluster cl).chans[ch]).pos < j.rows * j.rowBytes → exec .copyJobComplete s = .next s) ∧
    (j.rows * j.rowBytes ≤ ((s.cluster cl).chans[ch]).pos → ∃ s', exec .copyJobStart s = .next s' ∧ s'.mem = s.mem) ∧
    (∀ i s2 s3 pos, ((s.cluster cl).chans[ch]).pos < j.rows * j.rowBytes → ((s.cluster cl).chans[ch]).fault = false →
      j.toPort = false →
      (s.modCluster cl fun q => q).choose (j.rows - ((s.cluster cl).chans[ch]).pos / j.rowBytes) = (i, s2) →
      s2.copyRows j ((s.cluster cl).chans[ch]).pos (i + 1) = (s3, pos, none) → exec .copyJobStart s = .next
        (s3.modCluster cl fun q => { q with chans := q.chans.set ch { q.chans[ch] with pos := pos } })))

/-! ### Scheduling of threads and launches (R59, R64 to R79, R256, R261, R264, R265, R414) -/

/-- R71 to R76: the dispatcher reads, places, promotes and ends launches as their queue and the room of their partition say:
what a launch is when its entry is first read, what each of its threads starts with, the completion record, and what its end
does to the launches that wait for it. R67 to R69, R256, R261: packets arrive and tiers refill, the packet being what the
ring's bytes say. R59, R79, R414: slots are removed and returned. R264, R265, R266: the detector takes the largest set of
blocked threads whose parties all belong to it, Prefect the stage that is furthest above its threshold, and a thread it
rebinds starts at the stage's pc, with its role and number. -/
def Obligations.SchedulingSteps : Prop :=
  (∀ (l : Launch) (d c : Nat) (k : SlotN),
    let t := l.thread d c k
    t.a.pc = l.d.getD 1 0 ∧ t.a.xr 10 = l.d.getD 2 0 ∧ t.a.xr 11 = l.id.setWidth 64 ∧
    t.a.xr 12 = BitVec.ofNat 64 (l.indexOf c k) ∧ t.a.xr 13 = BitVec.ofNat 64 l.threadCount ∧
    (∀ r : XReg, r.val < 10 ∨ 14 ≤ r.val → t.a.xr r = 0) ∧ t.a.csr.qlimit = BitVec.ofNat 64 (l.f 13 0 32) ∧
    t.a.csr.fmtsh = BitVec.ofNat 64 (l.f 9 0 16) ∧ t.a.csr.scalea = l.d.getD 10 0 ∧ t.a.csr.scaleb = l.d.getD 11 0 ∧
    t.launch = l.id ∧ t.prio = l.prioOn d ∧ t.role = l.f 8 (32 + 4 * k.val) 4 ∧ t.st = .runnable) ∧
  (∀ (s : State) (l : Launch) (d c : Nat),
    let s' := l.slots.foldl (fun s k => s.bindIn c k (l.thread d c k)) s
    ∀ k, (k ∈ l.slots → ∃ n, s'.slot c k = .thread { l.thread d c k with serial := n, resumedAt := (s.core c).cycle }) ∧
      (k ∉ l.slots → s'.slot c k = s.slot c k)) ∧
  (∀ (s s1 : State) (p : Part) (l : Launch) (st key : Nat),
    let at_ := l.f 12 0 64
    at_ ≠ 0 → at_ % 16 = 0 → s.mayStamp (l.endDie * 512) 7 = true →
    s.engineKey (p.lowCore l.endDie) at_ .store = (s1, .ok key) → ∃ s2 : State,
      s.writeEnd p l st = (if key < 2 ^ 60 then s2.record [key / 64] else s2, true) ∧
      s2.num key 8 = ((s1.source (l.endDie * 512) 7).draw s1.rot).1.toNat ∧ s2.num (key + 8) 4 = st % 2 ^ 32 ∧
      s2.num (key + 12) 4 = l.id.toNat ∧ ∀ q, q < key ∨ key + 16 ≤ q → s2.byte q = s1.byte q) ∧
  (∀ (f : Node_ → Option (Word × Nat × List (Option TRef))) (ns : List Node_),
    let closed (D : List Node_) : Prop := ∀ n ∈ D, ∃ v b ps, f n = some (v, b, ps) ∧
      ∀ p ∈ ps, ∃ r, p = some r ∧ ∃ m ∈ D, m.ref = r
    let ds := deadSet f (ns.length + 1) (ns.filter fun n => (f n).isSome)
    (∀ n ∈ ds, n ∈ ns) ∧ closed ds ∧ ∀ D, (∀ n ∈ D, n ∈ ns) → closed D → ∀ n ∈ D, n ∈ ds) ∧
  (∀ (ss : List Stage),
    (∀ t, receiver ss = some t → t ∈ ss ∧ t.high < t.depth ∧ ∀ x ∈ ss, x.depth - x.high ≤ t.depth - t.high) ∧
    (receiver ss = none → ∀ x ∈ ss, x.depth ≤ x.high)) ∧
  (∀ (s s' : State) (c : Nat) (k : SlotN) (g t : Stage) (u : Thread), s.rebind c k g t = some s' → s'.slot c k = .thread u →
    u.role = 8 + t.s ∧ u.a.pc = t.pc ∧ u.a.xr 10 = BitVec.ofNat 64 t.s) ∧
  (∀ (s : State) (c : Nat) (q : Packet) (qs : List Packet),
    let x := (s.core c).c
    let y := ((s.refillTiers c 1).core c).c
    x.spill.ring = q :: qs → s.spillLocked c none = false → x.runQ.length < 16 →
      y.runQ = x.runQ ++ [q.ofBytes (s.bytes (s.ringKey c x.spill.head) 96)] ∧ y.spill.ring = qs ∧
      y.spill.head = (x.spill.head + 1) % 64) ∧
  ∀ (s : State),
    let u := s.subject
    let c := u.core
    let d := u.die
    (∀ p, s.part? u.part = some p →
      (∀ q, s.launchQueue p = some q → (q.producer ≤ p.nextRead q d ∨ p.rowsOn d = [] ∨ s.running p = false) →
        exec .launchEntryRead s = .next s) ∧
      (p.resetting.isSome = true → exec .launchEntryRead s = .next s ∧ exec .launchPlacement s = .next s) ∧
      (∀ q l, s.launchQueue p = some q → p.nextRead q d < q.producer → p.rowsOn d ≠ [] → s.running p = true → p.resetting = none →
        p.endedIdx.contains (p.nextRead q d) = false → p.launchAt (p.nextRead q d) = some l → exec .launchEntryRead s =
          .next (s.modPart u.part fun p => (p.setLaunch { l with taken := l.taken ++ [d] }).readOn d (p.nextRead q d))) ∧
      (∀ q w s1 p1, s.launchQueue p = some q → p.nextRead q d < q.producer → p.rowsOn d ≠ [] → s.running p = true →
        p.resetting = none → p.endedIdx.contains (p.nextRead q d) = false → p.launchAt (p.nextRead q d) = none →
        p.cfg.part = u.part → s.readEntry (p.lowCore d) q (p.nextRead q d) = (s1, some w) → s1.part? u.part = some p1 →
        ∃ s' p' l, exec .launchEntryRead s = .next s' ∧ s'.part? u.part = some p' ∧ p'.launchAt (p.nextRead q d) = some l ∧
          l.d = w ∧ l.id = (w.getD 0 0).setWidth 32 ∧ l.taken = [d] ∧ l.placed = [] ∧
          l.ending = (if (Launch.fresh w (p.nextRead q d)).valid p = false ∨ (∃ x ∈ p.launches, x.id = l.id) then some 1
            else if (Launch.fresh w (p.nextRead q d)).fits p = false then some 2 else none)) ∧
      (∀ l st s1, p.launchAt u.idx = some l → (l.ending = some st ∨ (l.ending = none ∧ s.launchOver p l = true ∧ st = 0)) →
        s.writeEnd p l st = (s1, true) → (s1.part? u.part).map (·.launches) = some p.launches →
        ∃ s' p', exec .launchCompletion s = .next s' ∧ s'.part? u.part = some p' ∧ (∀ y ∈ p'.launches, y.order ≠ l.order) ∧
          ∀ x ∈ p.launches, x.order ≠ l.order → ∃ y ∈ p'.launches, y.order = x.order ∧ y.id = x.id ∧
            (x.ending.isSome = true ∨ l.id ∉ x.preds → y = x) ∧
            (x.ending = none → l.id ∈ x.preds → (st = 0 → y.preds = x.preds.erase l.id ∧ y.ending = none) ∧
              (st ≠ 0 → y.ending = some 3))) ∧
      (s.running p = false → exec .launchPlacement s = .next s) ∧
      (s.running p = true → p.resetting = none → (∀ l ∈ p.waiting d, l.placed = [] → l.fits p = true) →
        (∀ l e x, s.nextPlaced p d = some l → s.stalledAt l d = some (e, x) →
          exec .launchPlacement s = .next (s.ipaReport e x.1 x.2)) ∧
        (∀ l, s.nextPlaced p d = some l → s.stalledAt l d = none → p.cfg.part = u.part →
          let bad (s : State) : State := s.modPart u.part fun p => p.setLaunch { l with ending := some 1 }
          (l.placed ≠ [] → exec .launchPlacement s = .next (s.placeLaunch u.part d l)) ∧
          (l.placed = [] → l.pairOk p = false → exec .launchPlacement s = .next (bad s)) ∧
          (l.placed = [] → l.pairOk p = true → ∀ s1 r, s.readSeeds (p.lowCore d) l = (s1, r) →
            (∀ ts, r = .ok ts → exec .launchPlacement s = .next (s1.placeLaunch u.part d { l with seeds := ts })) ∧
            (r = .bad → exec .launchPlacement s = .next (bad s1)) ∧ (r = .held → exec .launchPlacement s = .next s1))) ∧
        (s.nextPlaced p d = none → exec .launchPlacement s = .next s)) ∧
      (∀ l, s.running p = true → p.resetting = none → ((p.waiting d).find? fun l => l.placed == [] && !l.fits p) = some l →
        exec .launchPlacement s = .next (s.modPart u.part fun p => p.setLaunch { l with ending := some 2 })) ∧
      (∀ l, p.launchAt u.idx = some l →
        (l.promoteDue d s.clock = true → exec .priorityPromotion s = .next (s.modPart u.part fun p => p.setLaunch
          { l with eff := l.eff.map fun e => if e.1 = d then (d, e.2.1 + 1, e.2.2 + msPeriods) else e })) ∧
        (l.promoteDue d s.clock = false → exec .priorityPromotion s = .next s) ∧
        (∀ st, l.ending = some st → exec .launchCompletion s = .next (s.endLaunch u.part l st).1) ∧
        (l.ending = none → s.launchOver p l = true → exec .launchCompletion s = .next (s.endLaunch u.part l 0).1) ∧
        (l.ending = none → s.launchOver p l = false → exec .launchCompletion s = .next s))) ∧
    (exec .migrantArrival s = .next (s.deliverHeld c u.idx) ∧ exec .packetAcceptance s = .next (s.deliverHeld c u.idx)) ∧
    exec .spillRefill s = .next ((s.refillTiers c 80).bindPackets c 8) ∧
    (s.parkedLong c u.slot = false → exec .migrantParkSwap s = .next s) ∧
    (∀ e, s.parkedLong c u.slot = true → s.swapStall c = some e → exec .migrantParkSwap s = .next (s.ipaReport c e.1 e.2)) ∧
    (s.parkedLong c u.slot = true → s.swapStall c = none → exec .migrantParkSwap s = .next
      (let p := s.standin c u.slot (s.thr c u.slot)
       (((s.swapOut c u.slot false true false).fillPacketFirst c u.slot).sendPacket c p).deliverNext c p)) ∧
    (s.mayRemove c u.slot = false → exec .slotRemoval s = .next s) ∧
    (s.mayRemove c u.slot = true → s.thread? c u.slot = none → ∃ s', exec .slotRemoval s = .next s' ∧
      (s'.core c).removed = (s.core c).removed ||| BitVec.ofNat 8 (2 ^ u.slot.val) ∧ (s'.core c).c = (s.core c).c) ∧
    (s.mayReturn c u.slot = false → exec .slotReturn s = .next s) ∧
    (s.mayReturn c u.slot = true → exec .slotReturn s = .next ((s.modCore c fun x => { x with
      removed := x.removed &&& ~~~(BitVec.ofNat 8 (2 ^ u.slot.val)), lastReturn := x.cycle }).fill c)) ∧
    (s.passDue d = false ∨ s.mayStamp 0 6 = false → exec .deadlockPass s = .next s) ∧
    (s.passDue d = true → s.mayStamp 0 6 = true → exec .deadlockPass s = .next ((s.modDie d fun x => { x with
      passDue := false, lastPass := if x.lastPass + 65536 ≤ s.clock then s.clock else x.lastPass }).deadlockPass d)) ∧
    (s.clock < (s.die d).lastSample + 4096 → exec .prefectSample s = .next s) ∧
    ((s.die d).lastSample + 4096 ≤ s.clock → exec .prefectSample s = .next (((List.range 64).map fun i => d * 64 + i).foldl
      State.prefect (s.modDie d fun x => { x with lastSample := s.clock })))
/-! ### Memory system, Nolmon and the outside world (R188, R192 to R200, R208, R255, R325, R327, R356 to R410) -/

/-- R192 to R195: walks, repairs, refusals and invalidations of translations. R197, R199, R208, R255: lines that migrate,
are evicted, owned and invalidated. R188, R200, R325, R327, R360: scrubbing, pages on the move, budgets, the mode table. -/
def Obligations.MemorySystemSteps : Prop :=
  ∀ (s : State),
    let u := s.subject
    let cl := u.cluster
    (∀ r, (∀ p ipa, r.2 ≠ .error (.stage2 p ipa)) → s.resolve u.core u.addr (needOf u.num) false = r →
      exec .pageWalk s = .next r.1) ∧
    (∀ s1 p ipa, s.resolve u.core u.addr (needOf u.num) false = (s1, .error (.stage2 p ipa)) → ∃ s', exec .pageWalk s = .next s' ∧
      (⟨⟨u.core, 0⟩, p.val, p.cause, p.val2, ipa, ((s.core u.core).part).getD 0⟩ : S2Wait) ∈ s'.s2waits ∧ s'.mem = s1.mem) ∧
    ((s.s2waits.any (·.at_ u.part u.idx)) = false → exec .stage2Repair s = .next s) ∧
    ((s.s2waits.any (·.at_ u.part u.idx)) = true → s.enginesAt u.part u.idx = [] → ∃ s', exec .stage2Repair s = .next s' ∧
      s'.s2waits = s.s2waits.filter (fun w => !w.at_ u.part u.idx) ∧ s'.num u.addr 8 = u.val.toNat ∧
      (∀ q, q < u.addr ∨ u.addr + 8 ≤ q → s'.byte q = s.byte q) ∧
      (∀ x ∈ s'.bad, ¬(unitOf u.addr ≤ unitStart x ∧ unitStart x + unitSize x ≤ unitOf u.addr + 64)) ∧
      (∀ e ∈ s'.clusters, ∀ x ∈ e.2.tlb, ¬(x.part = u.part ∧ x.through u.idx = true)) ∧
      ∀ e ∈ s'.cores, ∀ x ∈ e.2.utlb, ¬(x.part = u.part ∧ x.through u.idx = true)) ∧
    (s.s2waits.filter (·.at_ u.part u.idx) = [] → exec .stage2Refusal s = .next s) ∧
    (∀ w k, s.s2waits.filter (·.at_ u.part u.idx) = [w] → w.who.serial ≠ 0 →
      (s.core w.who.core).slotOf w.who.serial = some k → (s.thr w.who.core k).trapReady = true →
      exec .stage2Refusal s = .next
        (State.refuseThread { s with s2waits := s.s2waits.filter fun w => !w.at_ u.part u.idx } w)) ∧
    (∀ p, u.flag = true → s.part? u.part = some p →
      let root := s.modPart u.part fun p => { p with cfg := { p.cfg with s2root := u.val.toNat } }
      let begun (s : State) (base len kind : Nat) (gone : TlbEntry → Bool) : State := (s.dropTlb u.part gone).modPart u.part fun q =>
        { q with s2 := ⟨base, len, kind, q.s2.req + 1, q.s2.done, some (s.openChunks p, s.openCmds p)⟩ }
      (p.s2.waits = none →
        exec .tlbInvalidateAll s = .next (begun s 0 0 1 fun _ => true) ∧
        exec .tlbInvalidateNonglobal s = .next (begun s 0 0 2 fun e => !e.global) ∧
        exec .tlbInvalidateRange s = .next (begun s u.addr u.num 0 fun e =>
          e.ipn * 2 ^ 16 < u.addr + u.num && u.addr < (e.ipn + e.pages) * 2 ^ 16) ∧
        ∃ s', exec .rootRereadInvalidate s = .next s' ∧ (s'.part? u.part).map (fun q => (q.cfg.s2root, q.s2.kind, q.s2.req, q.s2.done))
          = some (u.val.toNat, 3, p.s2.req + 1, p.s2.done) ∧ s'.mem = s.mem) ∧
      (∀ w, p.s2.waits = some w →
        let done := if s.inFlight w then s else s.modPart u.part fun q => { q with s2 := { q.s2 with done := q.s2.req, waits := none } }
        exec .tlbInvalidateAll s = .next done ∧ exec .tlbInvalidateNonglobal s = .next done ∧ exec .tlbInvalidateRange s = .next done ∧
        exec .rootRereadInvalidate s = .next (root.s2Finish u.part))) ∧
    (u.flag = false → (∀ p, s.part? u.part = some p → s.invalRequest p = none →
      exec .tlbInvalidateRange s = .next s ∧ exec .tlbInvalidateAll s = .next s ∧ exec .tlbInvalidateNonglobal s = .next s ∧
      exec .rootRereadInvalidate s = .next s)) ∧
    (s.mover u.addr = none → exec .lineMigration s = .next s) ∧
    (∀ m n, s.mover u.addr = some (m, n) →
      let d := homeDie (u.addr * 64)
      exec .lineMigration s = .next (s.modDie d fun x => x.migrate u.addr m (d * 64 + homeSlice (u.addr * 64)) n)) ∧
    (∃ s', exec .migratedLineEviction s = .next s' ∧ s'.mem = s.mem ∧
      ∀ e ∈ (s'.die (homeDie (u.addr * 64))).moved, e.1 ≠ u.addr) ∧
    (u.flag = true → s.inDomain = false → exec .samplerInvalidate s = .next s) ∧
    (u.flag = true → s.inDomain = true → ∃ s', exec .samplerInvalidate s = .next s' ∧ s'.shPending = [] ∧
      ∀ g < 512, ∀ l ∈ (s'.cluster g).sampler, ¬(l.part = u.part ∧ u.addr ≤ l.line ∧ l.line < u.addr + u.num)) ∧
    (∀ q, u.flag = false → (s.samplerReqs.find? fun q => q.2.1 == cl) = some q → ∃ s', exec .samplerInvalidate s = .next s' ∧
      s'.samplerReqs = s.samplerReqs.erase q ∧ s'.mem = s.mem ∧
      ∀ l ∈ (s'.cluster cl).sampler, ¬(l.part = q.2.2.1 ∧ l.line ∈ q.2.2.2)) ∧
    (s.inDomain = true →
      (u.flag = true → exec .shOwnershipRequest s = .next (s.shCopy u.addr u.num)) ∧
      (u.flag = false → u.num = s.modnum.val → exec .shOwnershipRequest s = .next (s.takeLine u.addr (u.idx != 0)) ∧
        u.addr ∈ (s.takeLine u.addr (u.idx != 0)).shOwned) ∧
      (u.flag = false → u.num ≠ s.modnum.val → s.homeHere u.addr = false → exec .shOwnershipRequest s = .next s) ∧
      (u.flag = false → u.num ≠ s.modnum.val → s.homeHere u.addr = true → ∃ s', exec .shOwnershipRequest s = .next s' ∧
        s'.shDir = (u.addr, u.num, [u.num]) :: s.shDir.filter (fun e => e.1 != u.addr) ∧ u.addr ∉ s'.shOwned ∧ s'.mem = s.mem)) ∧
    (s.inDomain = false → exec .shOwnershipRequest s = .next s ∧ exec .shInvalidationReceive s = .next s) ∧
    (s.inDomain = true → u.flag = true →
      exec .shInvalidationReceive s = .next { s with shUnacked := s.shUnacked.filter fun e => e.1 != u.addr }) ∧
    (s.inDomain = true → u.flag = false → u.bytes.length = 64 → ∃ s', exec .shInvalidationReceive s = .next s' ∧
      s'.shPending = s.shPending ++ [(u.addr, u.bytes)] ∧ u.addr ∉ s'.shOwned ∧ s'.mem = s.mem) ∧
    (∀ e, (s.shPending.find? fun e => e.1 == u.addr) = some e → ∃ s', exec .shInvalidationApply s = .next s' ∧
      s'.shPending = s.shPending.erase e ∧ (∀ j < e.2.length, s'.byte (u.addr * 64 + j) = e.2.getD j 0) ∧
      ∀ q, q < u.addr * 64 ∨ u.addr * 64 + e.2.length ≤ q → s'.byte q = s.byte q) ∧
    (∀ p, s.part? u.part = some p → s.movable p u.idx = none →
      (s.mgmt.mayRun 5 = false → exec .pageConsolidation s = .next s) ∧
      (s.mgmt.mayRun 5 = true → exec .pageConsolidation s = .next
        { s with movingPages := s.movingPages.erase (u.part, u.idx) })) ∧
    (∀ p l, s.part? u.part = some p → s.movable p u.idx = some l →
      (∀ w, p.s2.waits = some w → exec .pageConsolidation s = .next (s.s2Finish u.part)) ∧
      (p.s2.waits = none → (u.part, u.idx) ∉ s.movingPages → exec .pageConsolidation s =
        .next { s.s2Start u.part (u.idx * 2 ^ 16) (2 ^ 16) 0 (fun e => e.through u.idx) with
          movingPages := s.movingPages ++ [(u.part, u.idx)] }) ∧
      (p.s2.waits = none → (u.part, u.idx) ∈ s.movingPages →
        s.frameUsed p (ptePfn l.pte) = true ∨ s.freeFrame (ptePfn l.pte) u.num = false → exec .pageConsolidation s = .next s) ∧
      (p.s2.waits = none → (u.part, u.idx) ∈ s.movingPages →
        s.frameUsed p (ptePfn l.pte) = false → s.freeFrame (ptePfn l.pte) u.num = true →
        let t := s.poke (u.num * 2 ^ 16) (s.bytes (ptePfn l.pte * 2 ^ 16) (2 ^ 16))
        ∃ s', exec .pageConsolidation s = .next s' ∧ s'.movingPages = s.movingPages.erase (u.part, u.idx) ∧
          (∀ q, s'.byte q = (t.poke l.at_ (leBytes 8 (l.pte - ptePfn l.pte * 2 ^ 16 + u.num * 2 ^ 16))).byte q) ∧
          (∀ e ∈ s'.clusters, ∀ x ∈ e.2.sampler, x.line / 1024 ≠ ptePfn l.pte) ∧
          ∀ e ∈ s'.cores, ∀ x ∈ e.2.utlb, ¬(x.part = u.part ∧ x.through u.idx = true))) ∧
    (s.mgmt.mayRun 0 = true → ∃ s', exec .patrolScrub s = .next s' ∧ s'.mem = s.mem ∧ s'.bad = s.bad) ∧
    (s.mgmt.mayRun 0 = false → exec .patrolScrub s = .next s) ∧
    (∀ i : Fin 7, u.idx = i.val → ((s.mgmt.budgets[i]).start + 2 ^ (s.mgmt.budgets[i]).period ≤ s.rot →
        ∃ s', exec .budgetPeriod s = .next s' ∧ (s'.mgmt.budgets[i]).used = 0 ∧ (s'.mgmt.budgets[i]).start = s.rot) ∧
      (s.rot < (s.mgmt.budgets[i]).start + 2 ^ (s.mgmt.budgets[i]).period → exec .budgetPeriod s = .next s)) ∧
    (∀ p, s.part? u.part = some p →
      let seq := s.ctl p 0xC8 / 2 ^ 32
      (seq = s.ctl p 0xD0 / 2 ^ 32 → exec .modeTableRequest s = .next s) ∧
      (seq ≠ s.ctl p 0xD0 / 2 ^ 32 → exec .modeTableRequest s = .next
        ((if s.modeStatus p = 0 then s.applyMode p (s.modeFields p) else s).setCtl p 0xD0 (seq * 2 ^ 32 + s.modeStatus p))))

/-- R386 to R388, R398 to R407, R416: management operations answer the request with its status; a switch waits for its
cores; boot, partitions, time slices, power and temperature; debug steps act only under a grant or session; trace and
stamps. -/
def Obligations.ManagementSteps : Prop :=
  ∀ (s : State),
    let u := s.subject
    let c := u.core
    let k := s.home c u.slot
    (∀ p, s.part? u.part = some p →
      (s.mgmtRequest p = none → exec .mgmtSlot0Resume s = .next s ∧ exec .mgmtSlot0Kill s = .next s ∧
        exec .debugSessionOpen s = .next s ∧ exec .debugSessionClose s = .next s ∧ exec .debugSessionStep s = .next s ∧
        exec .eventCounterSelect s = .next s) ∧
      (∀ op a b seq, s.mgmtRequest p = some (op, a, b, seq) → s.mgmtReserved p = false →
        (op = 1 → s.running p = true → s.ctl p 0x80 = 1 → ∀ d t, s.coreNamed p a = some d → s.slot d 0 = .thread t →
          (t.st = .trapped → exec .mgmtSlot0Resume s = .next ((s.resumeThread d 0).mgmtDone p seq 0)) ∧
          (t.st ≠ .trapped → exec .mgmtSlot0Resume s = .next (s.mgmtDone p seq 2))) ∧
        (op = 2 → s.running p = true → ∀ d t, s.coreNamed p a = some d → s.slot d 0 = .thread t →
          exec .mgmtSlot0Kill s = .next ((s.restartSup p d).mgmtDone p seq 0)) ∧
        (op = 2 → s.running p = true → s.coreNamed p a = none → exec .mgmtSlot0Kill s = .next (s.mgmtDone p seq 1)) ∧
        (s.running p = false → exec .mgmtSlot0Resume s = .next s ∧ exec .mgmtSlot0Kill s = .next s ∧ exec .eventCounterSelect s = .next s) ∧
        (op = 5 → s.running p = true → Config.sessionOp a b = 0 →
          (s.grantFor p.cfg.part = none → exec .debugSessionOpen s = .next (s.mgmtDone p seq 3)) ∧
          (∀ g, s.grantFor p.cfg.part = some g → exec .debugSessionOpen s = .next
            ((s.modPart p.cfg.part fun p => { p with session := some ⟨g.expiry, 1, false, 0⟩ }).mgmtDone p seq 0))) ∧
        (op = 5 → s.running p = true → Config.sessionOp a b = 1 →
          (p.session = none → exec .debugSessionClose s = .next (s.mgmtDone p seq 2)) ∧
          (p.session.isSome = true → exec .debugSessionClose s = .next ((s.endSession p.cfg.part).mgmtDone p seq 0))) ∧
        (op = 5 → s.running p = true → Config.sessionOp a b = 2 → p.session = none → exec .debugSessionStep s = .next (s.mgmtDone p seq 2)) ∧
        (op = 5 → s.running p = true → Config.sessionOp a b = 2 → p.session.isSome = true → ∀ d,
          s.coreNamed p (Config.sessionThread a b) = some d → exec .debugSessionStep s = .next
            (let r := s.stepThread d (s.home d (slotOfLoc (Config.sessionThread a b))) false
             r.1.mgmtDone p seq (if r.2 then 0 else 2))) ∧
        (op = 6 → s.running p = true → p.session.isSome = true → ∀ d v, ∀ i : Fin 4, s.coreNamed p (Config.counterCore a b) = some d →
          Config.counterIndex a b = i.val → Config.counterSet a b = some v → exec .eventCounterSelect s = .next
            ((s.modCore d fun x => { x with evSel := x.evSel.set i v }).mgmtDone p seq 0)) ∧
        (op = 6 → s.running p = true → s.coreNamed p (Config.counterCore a b) = none → exec .eventCounterSelect s = .next (s.mgmtDone p seq 1))) ∧
      (s.sliceOver p = true ∨ (u.flag = true ∧ s.running p = true ∧ s.sharesRows p = true ∧ p.switchAsked = false) →
        exec .timeSliceExpiry s = .next (p.cores.foldl (fun s c => s.modCore c fun x => { x with halted := true })
        (s.modPart p.cfg.part fun p => { p with switchAsked := true }))) ∧
      (s.sliceOver p = false → (u.flag = false ∨ s.running p = false ∨ s.sharesRows p = false ∨ p.switchAsked = true) → exec .timeSliceExpiry s = .next s) ∧
      (s.running p = true ∨ p.cores.all s.switchable = false → exec .partitionSwitch s = .next s) ∧
      (s.running p = false → p.cores.all s.switchable = true → ∃ s', exec .partitionSwitch s = .next s' ∧
        ∀ d ∈ p.cores, (s'.core d).part = some p.cfg.part ∧ (s'.core d).halted = false) ∧
      (p.msOver s.clock = true → p.mode.bpol = 1 → p.cfg.powerCap < p.energy - p.msEnergy →
        u.num ≤ 8 → ∀ r, s.capRow p u.num = some r → ∃ s', exec .powerCapExceeded s = .next s' ∧
        (∀ q ∈ p.cfg.rows, (∃ d ∈ coresOfRow q.1 q.2, (s.core d).nextDivider < u.num) → s.rowEnergy q ≤ s.rowEnergy r) ∧
        (∀ d ∈ coresOfRow r.1 r.2, (s'.core d).nextDivider = max (s.core d).nextDivider u.num) ∧
        ∀ d, d ∉ coresOfRow r.1 r.2 → (s'.core d).nextDivider = (s.core d).nextDivider) ∧
      (p.msOver s.clock = false → exec .powerCapExceeded s = .next s) ∧
      (p.msOver s.clock = true → (p.mode.bpol ≠ 1 ∨ p.energy - p.msEnergy ≤ p.cfg.powerCap) → ∃ s',
        exec .powerCapExceeded s = .next s' ∧ (∀ d, (s'.core d).nextDivider = (s.core d).nextDivider) ∧
        ∃ q, s'.part? u.part = some q ∧ q.msStart = s.clock ∧ q.msEnergy = p.energy)) ∧
    (exec .launchQueueReset s = .next (s.resetStep 3) ∧ exec .partitionReset s = .next (s.resetStep 4)) ∧
    (u.flag = false → s.sessionOver u.part = true → exec .debugSessionExpiry s = .next (s.endSession u.part)) ∧
    (u.flag = false → s.sessionOver u.part = false → exec .debugSessionExpiry s = .next s) ∧
    (u.flag = true → s.makerOver = true → exec .debugSessionExpiry s = .next s.endMaker) ∧
    (u.flag = true → s.makerOver = false → exec .debugSessionExpiry s = .next s) ∧
    (u.cfg = none → exec .partitionCreate s = .next s) ∧
    (∀ g, u.cfg = some g → s.creatable g = false → exec .partitionCreate s = .next s) ∧
    (∀ g, u.cfg = some g → s.creatable g = true → ∃ s' p, exec .partitionCreate s = .next s' ∧
      s'.mgmt.measured = s.mgmt.measured ++ [(g.part, sha3 g.image)] ∧ s'.part? g.part = some p ∧ p.cfg = g ∧
      s'.mem = (s.writeModeReset p).mem) ∧
    (∃ s', exec .moduleReset s = .next s' ∧ s'.mem = [] ∧ s'.parts = [] ∧ s'.clock = 0 ∧ s'.mgmt.booted = nolmonVerifies u.bytes) ∧
    (exec .thermalLimit s = .next (s.modDie u.die fun x => { x with hot := true }) ∧
      exec .thermalRecovery s = .next (s.modDie u.die fun x => { x with hot := false })) ∧
    ((s.core c).cycle < (s.core c).windowStart + windowCycles → exec .efficiencyDividerStep s = .next s) ∧
    ((s.core c).windowStart + windowCycles ≤ (s.core c).cycle → exec .efficiencyDividerStep s = .next (s.modCore c fun x => { x with
      windowStart := x.cycle, issued := 0
      nextDivider := if s.policy c = 2 ∧ 2 * x.issued < windowCycles then min 8 (2 * x.divider) else x.nextDivider })) ∧
    (s.captureDue u.part u.die = false → exec .stallMapCapture s = .next s) ∧
    (∀ p e, s.part? u.part = some p → s.captureDue u.part u.die = true →
      s.ringStop p stallCtl (64 + 128 * (p.coresOn u.die).length) = some e →
      exec .stallMapCapture s = .next (s.ipaReport (u.die * 512) p e)) ∧
    (∀ p, s.part? u.part = some p → s.captureDue u.part u.die = true →
      s.ringStop p stallCtl (64 + 128 * (p.coresOn u.die).length) = none → ∃ s', exec .stallMapCapture s = .next s' ∧
      ∀ d ∈ p.coresOn u.die, (s'.core d).flits = [] ∧ (s'.core d).stalls = []) ∧
    (s.heldStamp c u.num = none ∨ (s.source c u.num).ready s.rot = false → exec .stampHoldRelease s = .next s) ∧
    (∀ e, s.heldStamp c u.num = some e → (s.source c u.num).ready s.rot = true →
      let d := (s.source c u.num).draw s.rot
      let s1 := ({ s with unstamped := s.unstamped.erase e } : State).setSource c u.num d.2
      exec .stampHoldRelease s = .next (match e.what with
        | .trap c image r => s1.sendRec c image { r with stamp := d.1 }
        | .trace c n r => s1.trace c n { r with stamp := d.1 }
        | .error kind unit addr count owner => s1.putError ⟨d.1, kind, unit, addr, count⟩ owner)) ∧
    (∀ e n, let s' := s.putError e (some n); s'.mgmt.errors = s.mgmt.errors ++ [e] ∧
      ∀ p, s.part? n = some p → ∃ q, s'.part? n = some q ∧ q.memErrors = p.memErrors ++ [e]) ∧
    ((∀ e ∈ (s.core c).traceHeld, e.1 ≠ u.part) → exec .traceHeldRecordDrain s = .next s) ∧
    (∀ r rs s1, (s.core c).traceHeld = (u.part, r) :: rs → s.tracing u.part = true → s.putNext c u.part r = some s1 →
      exec .traceHeldRecordDrain s = .next (s1.modCore c fun x => { x with traceHeld := x.traceHeld.erase (u.part, r) })) ∧
    (∀ t, s.slot c k = .thread t →
      (s.debugs c = true → (t.st = .runnable ∨ t.st = .parked) →
        exec .debugStop s = .next (s.holdThread c k) ∧
        (t.chunk = none → t.closed = none → t.st = .runnable → t.owed = none → t.redo = false →
          s.holdThread c k = s.setThr c k { t with st := .stopped, stepping := none }) ∧
        (t.chunk = none → t.closed = none → t.st = .parked → ∃ v, (s.holdThread c k).slot c k = .thread v ∧ v.st = .stopped ∧
          v.a = t.a ∧ (∀ d e f, t.wait = .reply d e f → v.wait = t.wait) ∧
          (∀ w, t.wait = .cond w → (∀ i, w ≠ .resume i) → v.wait = .none))) ∧
      (s.debugs c = false → exec .debugStop s = .next s ∧ exec .debugResume s = .next s ∧ exec .debugSingleStep s = .next s ∧
        exec .debugStepToIdle s = .next s ∧ exec .debugGangStop s = .next s ∧ exec .debugStateRead s = .next s ∧
        exec .debugCounterAccess s = .next s) ∧
      (s.debugs c = true → t.st = .stopped → t.wait = .none →
        exec .debugSingleStep s = .next
          (s.setThr c k { t with st := .runnable, stepping := some false, resumedAt := (s.core c).cycle }) ∧
        exec .debugStepToIdle s = .next
          (s.setThr c k { t with st := .runnable, stepping := some true, resumedAt := (s.core c).cycle })) ∧
      (s.debugs c = true → exec .debugStateRead s = .next { s with mgmt := { s.mgmt with
        lastResponse := (11, leBytes 8 (if t.st = .runnable then 0 else s.xrdt c k t u.num).toNat) } })) ∧
    (s.debugs c = true → ∃ s', exec .debugGangStop s = .next s' ∧ s'.mem = s.mem ∧
      ∀ d ∈ spanOf c (s.mx c).gsize, (s'.mx d).stopped = true ∧ (s'.mx d).queue = (s.mx d).queue) ∧
    (s.debugs c = true → u.flag = true → ∃ s', exec .debugResume s = .next s' ∧
      ∀ d ∈ spanOf c (s.mx c).gsize, (s'.mx d).stopped = false ∧ (s'.mx d).queue = (s.mx d).queue) ∧
    (∀ i : Fin 4, u.idx = i.val → s.debugs c = true → u.flag = true → ∃ s', exec .debugCounterAccess s = .next s' ∧
      (s'.core c).evSel[i] = BitVec.ofNat 8 u.num ∧ (s'.core c).evCnt[i] = u.val.setWidth 48) ∧
    (∀ j : Fin 6, u.idx = 4 + j.val → s.debugs c = true → u.flag = false → exec .debugCounterAccess s =
      .next { s with mgmt := { s.mgmt with lastResponse := (12, leBytes 8 ((s.core c).rayCnt[j]).toNat) } }) ∧
    exec .debugTraceControl s = .next
      (s.modPart u.part fun p => { p with session := p.session.map fun x => { x with trace := u.flag } })

/-- R388 to R391, R394 to R397, R405, R410: the host reads and writes through a partition's function, within its BAR; ports,
links and modules fail as their rules say; a domain sets the module's numbers and time; each request of Anvil leaves its
response. R319, R325, R360, R403: rows and the complex's activities. -/
def Obligations.OutsideWorld : Prop :=
  ∀ (s : State),
    let u := s.subject
    let r := (u.die, u.row)
    (∀ p, s.part? u.part = some p →
      (u.addr + u.bytes.length ≤ barBytes → (∀ s1, s.ipaWriteAll p u.addr u.bytes (pageFuel u.bytes.length) = some s1 →
          exec .hostWrite s = .next s1) ∧
        (s.ipaWriteAll p u.addr u.bytes (pageFuel u.bytes.length) = none → exec .hostWrite s = .next (s.abort u.part u.addr))) ∧
      (u.addr + u.num ≤ barBytes → (∀ bs, s.ipaReadAll p u.addr u.num (pageFuel u.num) = some bs →
          exec .hostRead s = .next { s with hostRead := bs }) ∧
        (s.ipaReadAll p u.addr u.num (pageFuel u.num) = none → exec .hostRead s = .next (s.abort u.part u.addr))) ∧
      (∀ i : Fin 8, u.idx = i.val →
        let seq := s.ctl p (portCtl i + 0x18) / 2 ^ 32
        (seq = s.ctl p (portCtl i + 0x20) / 2 ^ 32 → exec .portControlRequest s = .next s) ∧
        (seq ≠ s.ctl p (portCtl i + 0x20) / 2 ^ 32 → s.sendingOn p i = false → s.portStatus p i ≠ 0 →
          exec .portControlRequest s = .next (s.setCtl p (portCtl i + 0x20) (seq * 2 ^ 32 + s.portStatus p i))) ∧
        (seq ≠ s.ctl p (portCtl i + 0x20) / 2 ^ 32 → s.sendingOn p i = false → s.portStatus p i = 0 →
          exec .portControlRequest s = .next ((s.modPart u.part fun q => { q with ports := q.ports.set i (s.portFields p i) }).setCtl
            p (portCtl i + 0x20) (seq * 2 ^ 32)))) ∧
      (let e := (p.ports.toList.getD u.idx ⟨0, false, 0, false, 0, 0⟩).sbase + 32 * u.num + 0x10
       (∀ f, s.ipaStop p e 8 true = some f → exec .ueDeliveryFailure s = .next (s.ipaReport p.firstCore p f)) ∧
       (s.ipaStop p e 8 true = none → ∃ s', exec .ueDeliveryFailure s = .next s' ∧
        (s.mayStamp 0 6 = true → ∃ e ∈ s'.mgmt.errors, e.kind = 4 ∧ e.unit = u.idx ∧ e.addr = u.num) ∧
        (s.mayStamp 0 6 = false → ∃ e ∈ s'.unstamped, e.what = .error 4 u.idx u.num 1 none)))) ∧
    ((s.parts.find? fun e => e.2.cfg.jobs.contains (u.val.setWidth 32)) = none → exec .ueMessageReceive s = .next s) ∧
    (∀ e, (s.parts.find? fun e => e.2.cfg.jobs.contains (u.val.setWidth 32)) = some e →
      let g := e.2.ports.toList.getD u.idx ⟨0, false, 0, false, 0, 0⟩
      let at_ := g.rbase + 64 * u.num
      (g.ren = false → exec .ueMessageReceive s = .next s) ∧
      (∀ f, g.ren = true → u.num < g.nrq → s.ipaStop e.2 at_ 64 true = some f →
        exec .ueMessageReceive s = .next (s.ipaReport e.2.firstCore e.2 f)) ∧
      (∀ q s1, g.ren = true → u.num < g.nrq → s.ipaStop e.2 at_ 64 true = none →
        ((q.pieces at_ u.bytes.length).findSome? fun x => s.ipaStop e.2 x.1 x.2 true) = none → s.recvQueue e.2 (g.rbase + 64 * u.num) = some q →
        q.accepts u.bytes.length = true →
        s.takeMessage e.2 (g.rbase + 64 * u.num) q u.val u.row u.addr u.bytes = some s1 →
        exec .ueMessageReceive s = .next s1)) ∧
    (u.flag = true → u.addr + u.bytes.length ≤ s.mgmt.cxl.2 → ∃ s', exec .cxlMemAccess s = .next s' ∧
      (∀ j < u.bytes.length, s'.byte (s.mgmt.cxl.1 + u.addr + j) = u.bytes.getD j 0) ∧
      ∀ q, q < s.mgmt.cxl.1 + u.addr ∨ s.mgmt.cxl.1 + u.addr + u.bytes.length ≤ q → s'.byte q = s.byte q) ∧
    (u.flag = false → u.addr + u.num ≤ s.mgmt.cxl.2 →
      exec .cxlMemAccess s = .next { s with hostRead := s.bytes (s.mgmt.cxl.1 + u.addr) u.num }) ∧
    (∀ i : Fin 8, u.idx = i.val →
      ((s.mgmt.links[i]).peer = none → u.flag = false → exec .linkPortFailure s = .next s) ∧
      (∀ m, i.val < 7 → u.flag = false → (s.mgmt.links[i]).peer = some m → (s.mgmt.links[7]).up = true →
        (s.mgmt.links[7]).peer = none → s.mgmt.moving = [] → ∃ s',
        exec .linkPortFailure s = .next s' ∧ s'.mgmt.moving = [(m, u.num, s.clock)] ∧ (s'.mgmt.links[i]).up = false ∧
        s'.mgmt.lost = s.mgmt.lost) ∧
      (∀ m n at_ ms, u.flag = true → s.mgmt.moving = (m, n, at_) :: ms → ∃ s',
        exec .linkPortFailure s = .next s' ∧ (s'.mgmt.links[7]).peer = some m ∧ (s'.mgmt.links[7]).up = true ∧
        s'.mgmt.moving = ms ∧ s'.mgmt.lost = s.mgmt.lost) ∧
      ((s.mgmt.links[i]).up = true → (s.mgmt.links[i]).peer.isSome = true → ∃ s', exec .linkRetransmission s = .next s' ∧
        (s'.mgmt.links[i]).resent = (s.mgmt.links[i]).resent + u.num ∧ s'.mem = s.mem)) ∧
    (s.inDomain = true → u.num ≠ s.modnum.val → ∃ s', exec .moduleLoss s = .next s' ∧ u.num ∈ s'.mgmt.lost ∧
      ∀ e ∈ s'.shDir, u.num ∉ e.2.2) ∧
    (s.inDomain = false → exec .moduleLoss s = .next s ∧ exec .timeSynchronisation s = .next s) ∧
    (let peers := ((List.range 7).filterMap fun i => u.bytes[i]?).filter fun b => b.toNat < 8
     u.flag = false → peers.eraseDups = peers → (∀ b ∈ peers, b.toNat ≠ u.num % 8) →
      ∃ s', exec .domainFormation s = .next s' ∧ s'.inDomain = true ∧ s'.domain = u.val.setWidth 14 ∧
      s'.modnum.val = u.num % 8 ∧ s'.rot = u.addr % 2 ^ 48) ∧
    (u.flag = true → exec .domainFormation s = .next { s with shHome := s.shHome.set u.addr u.num }) ∧
    (s.inDomain = true → s.rot + 2 < u.addr % 2 ^ 48 → ∃ s', exec .timeSynchronisation s = .next s' ∧ s'.rot = u.addr % 2 ^ 48) ∧
    (let answers (i : Instr) (n : Nat) : Prop :=
        ∃ s' bs, exec i s = .next s' ∧ s'.mgmt.lastResponse = (n, bs) ∧ s'.cores = s.cores ∧ s'.mem = s.mem
     answers .getVersion 0 ∧ answers .getCapabilities 1 ∧ answers .negotiateAlgorithms 2 ∧ answers .getDigests 3 ∧
     answers .getCertificate 4 ∧ answers .challenge 5 ∧ answers .getMeasurements 6 ∧ answers .keyExchange 7 ∧
     answers .finish 8 ∧ answers .endSession 9 ∧ answers .debugUnlock 10) ∧
    (s.acceptsGrant u.bytes = true → ∃ s', exec .debugUnlock s = .next s' ∧
      s'.mgmt.grants = s.mgmt.grants ++ [⟨(grantOf u.bytes).level, (grantOf u.bytes).part, (grantOf u.bytes).expiry⟩]) ∧
    (s.acceptsGrant u.bytes = false → ∃ s', exec .debugUnlock s = .next s' ∧ s'.mgmt.grants = s.mgmt.grants) ∧
    (s.mgmt.rowsOff.contains r = false → exec .rowPowerOn s = .next s) ∧
    (s.mgmt.rowsOff.contains r = true → ∃ s', exec .rowPowerOn s = .next s' ∧ s'.mgmt.rowsOff = s.mgmt.rowsOff.erase r ∧
      (s'.cluster (u.die * 64 + u.row * 2)).hints = [] ∧ (s'.cluster (u.die * 64 + u.row * 2 + 1)).hints = []) ∧
    ((s.parts.any fun e => e.2.cfg.rows.contains r) = true → exec .rowPowerOff s = .next s) ∧
    ((s.parts.any fun e => e.2.cfg.rows.contains r) = false → s.mgmt.rowsOff.contains r = false → u.die < 8 → u.row < 32 →
      exec .rowPowerOff s = .next { s with mgmt := { s.mgmt with rowsOff := r :: s.mgmt.rowsOff } }) ∧
    (s.idleRow u.die u.row = false → exec .idleRowVoltageDrop s = .next s) ∧
    (s.idleRow u.die u.row = true → ((coresOfRow u.die u.row).all fun c => s.policy c == 2) = true →
      let n := s.mgmt.volts u.die u.row - 1
      exec .idleRowVoltageDrop s = .next (if (coresOfRow u.die u.row).all fun c => Config.voltSafe n (s.core c).divider then
        { s with mgmt := s.mgmt.setVolts u.die u.row n } else s)) ∧
    (s.mgmt.mayRun 1 = false → exec .inFieldTest s = .next s) ∧ (s.mgmt.mayRun 2 = false → exec .ballast s = .next s) ∧
    (s.mgmt.mayRun 1 = true → ∃ s', exec .inFieldTest s = .next s' ∧ s'.cores = s.cores ∧ s'.mem = s.mem) ∧
    (s.mgmt.mayRun 2 = true → ∃ s', exec .ballast s = .next s' ∧ s'.cores = s.cores ∧ s'.mem = s.mem)
/-! ### The step, decoding, reset, and what every step keeps (R5, R12, R48, R102 to R117, R184, R187) -/

/-- R48, R49, R102, R110: the step that gives a slot its turn fetches the word at the thread's pc, and a LIMM's literal
after it, and where they decode performs that instruction; around it the turn is used, and counters and trace see what it
did. A thread whose wait has ended performs, with no turn of its own, the instruction whose word it fetched before the
wait. -/
def Obligations.StepRunsDecodedInstruction : Prop :=
  (∀ (s s1 s2 s3 : State) (c : Nat) (k : SlotN) (t : Thread) (w l : Word32) (i : Instr),
    s.coresOk = true → s.due = none → s.againLeft = none → s.nextMove = (.turn c, s1) → s1.canIssue c = some k →
    s1.slot c k = .thread t →
    t.deferred = [] → t.atLimit = false → (t.a.endPend = false ∨ t.a.csr.count = 0) →
    (s1.beginTurn c k).fetchWord c t.a.pc.toNat = (s2, .ok w) →
    (if takesLiteral w.toNat then
        ({ s2 with curWord := w } : State).fetchWord c ((t.a.pc.toNat + 4) % 2 ^ 64) = (s3, .ok l)
      else s3 = { s2 with curWord := w } ∧ l = 0) →
    (∀ rest, decode (bytesOfWord w.toNat ++ (if takesLiteral w.toNat then bytesOfWord l.toNat else []) ++ rest) = .ok (i, rest)) →
    step s = thenDo (thenDo (s3.soloHeld c k (exec i s3)) fun s4 => s3.seeInstr s4 c k i true) s.see ∧
    (s3.soloLines = none → s3.soloHeld c k (exec i s3) = exec i s3)) ∧
  (∀ (s s3 : State) (c : Nat) (k : SlotN) (t : Thread) (l : Word32) (i : Instr),
    s.coresOk = true → s.due = none → s.againLeft = some (c, k) → s.slot c k = .thread t →
    (t.a.endPend = false ∨ t.a.csr.count = 0) →
    (if takesLiteral t.word.toNat then
        ({ s with cur := (c, k), curWord := t.word } : State).fetchWord c ((t.a.pc.toNat + 4) % 2 ^ 64) = (s3, .ok l)
      else s3 = { s with cur := (c, k), curWord := t.word } ∧ l = 0) →
    (∀ rest, decode (bytesOfWord t.word.toNat ++ (if takesLiteral t.word.toNat then bytesOfWord l.toNat else []) ++ rest)
      = .ok (i, rest)) →
    step s = thenDo (thenDo (s3.soloHeld c k (exec i s3))
      fun s4 => s3.seeInstr (s4.release ((s3.thr c k).ref c)) c k i false) s.see ∧
    (s3.soloLines = none → s3.soloHeld c k (exec i s3) = exec i s3))

/-- The model's own: a step of the module always answers a next state; the one fault is for a state that lists a core the
module does not have. -/
def Obligations.StepTotal : Prop :=
  ∀ s : State, (∃ t, step s = .next t) ∨ (s.coresOk = false ∧ step s = .fault .noSuchCore)

/-- R102 to R110, R130 to R354: the words written for a well-formed instruction decode to it, every field at every value. -/
def Obligations.DecodeEncodeRoundTrip : Prop :=
  ∀ (i : Instr) (rest : List Byte), i.isWord = true → i.wf = true → decode (encode i ++ rest) = .ok (i, rest)

/-- The model's own: every step keeps the canonical form of memory: addresses rise strictly and no listed byte is 0, so that
equal memories are equal lists. -/
def Obligations.MemoryCanonicalKept : Prop :=
  ∀ s t : State, s.mem.wf = true → step s = .next t → t.mem.wf = true

/-- R123, R124, R129, R174, R187, R326, R356, R360: the state after module reset: the registers a thread starts from, the
counters and controls of every core, full/empty bits empty, an empty mode table and empty accounts; memory lists nothing. -/
def Obligations.ResetState : Prop :=
  (∀ r : XReg, Arch.reset.xr r = 0) ∧ (∀ p : PReg, Arch.reset.p p = decide (p = 0)) ∧
  (∀ n : VNum, Arch.reset.v[n] = 0 ∧ Arch.reset.vOdd[n] = 0) ∧ (∀ n : KReg, Arch.reset.k[n] = 0) ∧
  Arch.reset.csr = ⟨0, 0, 0, 0, 0, 0, 0, 0, 0, 0⟩ ∧
  Thread.reset.psc0 = 0 ∧ Thread.reset.psc1 = 0 ∧ Thread.reset.psc2 = 0 ∧ Thread.reset.instret = 0 ∧ Thread.reset.tr = ⟨0, 0, 0, 0⟩ ∧
  (∀ (c : Nat) (k : SlotN), let x := State.reset.core c
    x.c.slots[k] = .empty ∧ x.cycle = 0 ∧ x.c.supctl = 1 ∧ (x.c.mx.gsize, x.c.mx.gid, x.c.mx.gpos) = (1, 0, 0) ∧
    x.stamps.seq = 0 ∧ x.c.lock = none) ∧
  (∀ key, State.reset.isFull key = false) ∧
  (let m := ModeTable.reset
   m.clen = 0 ∧ m.cruc = 0 ∧ m.smk = 14 ∧ m.bpol = 0 ∧ m.flifo = false ∧ m.l2mig = true ∧ m.lend = true ∧ m.e4nan = false) ∧
  (∀ i : Fin 7, (State.reset.mgmt.budgets[i]).account = 0 ∧ (State.reset.mgmt.budgets[i]).overruns = 0) ∧
  State.reset.mem = [] ∧ State.reset.mem.wf = true ∧ State.reset.coresOk = true

/-- R5, R105 to R115: words that the spec writes out bit by bit, and the instructions they stand for. -/
def Obligations.DecodeSanityWords : Prop :=
  decodeTableWord 32 0x00550513 = some (.addi 10 10 5) ∧
  decodeTableWord 32 0x80029073 = some (.csrrw 0 0x800 5) ∧
  decodeTableWord 32 0x24B5218B = some (.pslt 1 3 10 11) ∧
  decodeTableWord 32 0x71A5850B = some (.ldx 3 2 3 2 10 11) ∧
  decodeTableWord 32 0x0CC5950B = some (.aadd true true false 10 12 11) ∧
  decodeTableWord 64 0x123456785800228B = some (.limm 2 5 0x12345678) ∧
  decodeTableWord 32 0x003100AB = some (.vadd .f32 1 2 3) ∧
  decodeTableWord 32 0x133150AB = some (.vkopXor 1 2 3) ∧
  decodeTableWord 32 0x06C580DB = some (.mma 0 1 11 12) ∧
  decodeTableWord 32 0x08B512DB = some (.pfork 0 5 10 11) ∧
  decodeTableWord 32 0x040A22DB = some (.snormRms 0 5 20) ∧
  decodeTableWord 32 0x0318007B = some (.tresume 0 16 17) ∧
  decodeTableWord 32 0x1050D00B = some (.barwait 0 1 5)
end

