-- ==== Sys2Proof/Laws/Table.lean ====
section
/-! SUPPORT. Table.lean: what the tables of State answer after one entry is set. -/

namespace Sys2Proof.Machine

theorem Table.getD_set_same {α : Type} (t : Table α) (n : Nat) (v d : α) : (Table.set t n v).getD n d = v := by
  induction t with
  | nil => simp [Table.set, Table.getD]
  | cons e r ih =>
    obtain ⟨k, w⟩ := e
    simp only [Table.set]
    split
    · rename_i h; simp [Table.getD, Nat.ne_of_lt h, ih]
    · split <;> simp [Table.getD]

theorem Table.getD_set_ne {α : Type} (t : Table α) {n m : Nat} (v d : α) (h : m ≠ n) :
    (Table.set t n v).getD m d = t.getD m d := by
  induction t with
  | nil => simp [Table.set, Table.getD, h.symm]
  | cons e r ih =>
    obtain ⟨k, w⟩ := e
    simp only [Table.set]
    split
    · simp [Table.getD, ih]
    · split
      · rename_i h1; subst h1; simp [Table.getD, h.symm]
      · simp [Table.getD, h.symm]

theorem Table.get?_set_same {α : Type} (t : Table α) (n : Nat) (v : α) : (Table.set t n v).get? n = some v := by
  induction t with
  | nil => simp [Table.set, Table.get?]
  | cons e r ih =>
    obtain ⟨k, w⟩ := e
    simp only [Table.set]
    split
    · rename_i h; simp [Table.get?, Nat.ne_of_lt h, ih]
    · split <;> simp [Table.get?]

theorem Table.get?_set_ne {α : Type} (t : Table α) {n m : Nat} (v : α) (h : m ≠ n) :
    (Table.set t n v).get? m = t.get? m := by
  induction t with
  | nil => simp [Table.set, Table.get?, h.symm]
  | cons e r ih =>
    obtain ⟨k, w⟩ := e
    simp only [Table.set]
    split
    · simp [Table.get?, ih]
    · split
      · rename_i h1; subst h1; simp [Table.get?, h.symm]
      · simp [Table.get?, h.symm]

theorem Table.set_set {α : Type} (t : Table α) (n : Nat) (v w : α) : (Table.set t n v).set n w = t.set n w := by
  induction t with
  | nil => simp [Table.set]
  | cons e r ih =>
    obtain ⟨k, u⟩ := e
    by_cases h : k < n
    · simp [Table.set, h, ih]
    · by_cases h1 : k = n
      · simp [Table.set, h1]
      · simp [Table.set, h, h1]

end Sys2Proof.Machine
end

