-- ==== Sys2Proof/Laws/State.lean ====
section
/-! SUPPORT. State.lean: what each update of a core, cluster, die, slot or thread leaves of the other fields of State. -/

namespace Sys2Proof.Machine

/-! ### `setCore` -/

@[simp] theorem State.setCore_cur (s : State) (c : Nat) (k : Core) : (s.setCore c k).cur = s.cur := rfl
@[simp] theorem State.setCore_curWord (s : State) (c : Nat) (k : Core) : (s.setCore c k).curWord = s.curWord := rfl
@[simp] theorem State.setCore_subject (s : State) (c : Nat) (k : Core) : (s.setCore c k).subject = s.subject := rfl
@[simp] theorem State.setCore_clock (s : State) (c : Nat) (k : Core) : (s.setCore c k).clock = s.clock := rfl
@[simp] theorem State.setCore_timeBase (s : State) (c : Nat) (k : Core) : (s.setCore c k).timeBase = s.timeBase := rfl
@[simp] theorem State.setCore_domain (s : State) (c : Nat) (k : Core) : (s.setCore c k).domain = s.domain := rfl
@[simp] theorem State.setCore_modnum (s : State) (c : Nat) (k : Core) : (s.setCore c k).modnum = s.modnum := rfl
@[simp] theorem State.setCore_inDomain (s : State) (c : Nat) (k : Core) : (s.setCore c k).inDomain = s.inDomain := rfl
@[simp] theorem State.setCore_clusters (s : State) (c : Nat) (k : Core) : (s.setCore c k).clusters = s.clusters := rfl
@[simp] theorem State.setCore_dies (s : State) (c : Nat) (k : Core) : (s.setCore c k).dies = s.dies := rfl
@[simp] theorem State.setCore_parts (s : State) (c : Nat) (k : Core) : (s.setCore c k).parts = s.parts := rfl
@[simp] theorem State.setCore_shadow (s : State) (c : Nat) (k : Core) : (s.setCore c k).shadow = s.shadow := rfl
@[simp] theorem State.setCore_shadowCl (s : State) (c : Nat) (k : Core) : (s.setCore c k).shadowCl = s.shadowCl := rfl
@[simp] theorem State.setCore_mem (s : State) (c : Nat) (k : Core) : (s.setCore c k).mem = s.mem := rfl
@[simp] theorem State.setCore_full (s : State) (c : Nat) (k : Core) : (s.setCore c k).full = s.full := rfl
@[simp] theorem State.setCore_bad (s : State) (c : Nat) (k : Core) : (s.setCore c k).bad = s.bad := rfl
@[simp] theorem State.setCore_commitSeq (s : State) (c : Nat) (k : Core) : (s.setCore c k).commitSeq = s.commitSeq := rfl
@[simp] theorem State.setCore_records (s : State) (c : Nat) (k : Core) : (s.setCore c k).records = s.records := rfl
@[simp] theorem State.setCore_token (s : State) (c : Nat) (k : Core) : (s.setCore c k).token = s.token := rfl
@[simp] theorem State.setCore_tokenQ (s : State) (c : Nat) (k : Core) : (s.setCore c k).tokenQ = s.tokenQ := rfl
@[simp] theorem State.setCore_posted (s : State) (c : Nat) (k : Core) : (s.setCore c k).posted = s.posted := rfl
@[simp] theorem State.setCore_acks (s : State) (c : Nat) (k : Core) : (s.setCore c k).acks = s.acks := rfl
@[simp] theorem State.setCore_signals (s : State) (c : Nat) (k : Core) : (s.setCore c k).signals = s.signals := rfl
@[simp] theorem State.setCore_unstamped (s : State) (c : Nat) (k : Core) : (s.setCore c k).unstamped = s.unstamped := rfl
@[simp] theorem State.setCore_s2waits (s : State) (c : Nat) (k : Core) : (s.setCore c k).s2waits = s.s2waits := rfl
@[simp] theorem State.setCore_shOwned (s : State) (c : Nat) (k : Core) : (s.setCore c k).shOwned = s.shOwned := rfl
@[simp] theorem State.setCore_shUnacked (s : State) (c : Nat) (k : Core) : (s.setCore c k).shUnacked = s.shUnacked := rfl
@[simp] theorem State.setCore_shPending (s : State) (c : Nat) (k : Core) : (s.setCore c k).shPending = s.shPending := rfl
@[simp] theorem State.setCore_shDir (s : State) (c : Nat) (k : Core) : (s.setCore c k).shDir = s.shDir := rfl
@[simp] theorem State.setCore_shHome (s : State) (c : Nat) (k : Core) : (s.setCore c k).shHome = s.shHome := rfl
@[simp] theorem State.setCore_movingPages (s : State) (c : Nat) (k : Core) : (s.setCore c k).movingPages = s.movingPages := rfl
@[simp] theorem State.setCore_refusedPages (s : State) (c : Nat) (k : Core) : (s.setCore c k).refusedPages = s.refusedPages := rfl
@[simp] theorem State.setCore_samplerReqs (s : State) (c : Nat) (k : Core) : (s.setCore c k).samplerReqs = s.samplerReqs := rfl
@[simp] theorem State.setCore_mgmt (s : State) (c : Nat) (k : Core) : (s.setCore c k).mgmt = s.mgmt := rfl
@[simp] theorem State.setCore_drained (s : State) (c : Nat) (k : Core) : (s.setCore c k).drained = s.drained := rfl
@[simp] theorem State.setCore_ueOut (s : State) (c : Nat) (k : Core) : (s.setCore c k).ueOut = s.ueOut := rfl
@[simp] theorem State.setCore_hostRead (s : State) (c : Nat) (k : Core) : (s.setCore c k).hostRead = s.hostRead := rfl
@[simp] theorem State.setCore_inputs (s : State) (c : Nat) (k : Core) : (s.setCore c k).inputs = s.inputs := rfl
@[simp] theorem State.setCore_choices (s : State) (c : Nat) (k : Core) : (s.setCore c k).choices = s.choices := rfl
@[simp] theorem State.setCore_moves (s : State) (c : Nat) (k : Core) : (s.setCore c k).moves = s.moves := rfl
@[simp] theorem State.setCore_freeN (s : State) (c : Nat) (k : Core) : (s.setCore c k).freeN = s.freeN := rfl

/-! ### `modCore` -/

@[simp] theorem State.modCore_cur (s : State) (c : Nat) (f : Core → Core) : (s.modCore c f).cur = s.cur := rfl
@[simp] theorem State.modCore_curWord (s : State) (c : Nat) (f : Core → Core) : (s.modCore c f).curWord = s.curWord := rfl
@[simp] theorem State.modCore_subject (s : State) (c : Nat) (f : Core → Core) : (s.modCore c f).subject = s.subject := rfl
@[simp] theorem State.modCore_clock (s : State) (c : Nat) (f : Core → Core) : (s.modCore c f).clock = s.clock := rfl
@[simp] theorem State.modCore_timeBase (s : State) (c : Nat) (f : Core → Core) : (s.modCore c f).timeBase = s.timeBase := rfl
@[simp] theorem State.modCore_domain (s : State) (c : Nat) (f : Core → Core) : (s.modCore c f).domain = s.domain := rfl
@[simp] theorem State.modCore_modnum (s : State) (c : Nat) (f : Core → Core) : (s.modCore c f).modnum = s.modnum := rfl
@[simp] theorem State.modCore_inDomain (s : State) (c : Nat) (f : Core → Core) : (s.modCore c f).inDomain = s.inDomain := rfl
@[simp] theorem State.modCore_clusters (s : State) (c : Nat) (f : Core → Core) : (s.modCore c f).clusters = s.clusters := rfl
@[simp] theorem State.modCore_dies (s : State) (c : Nat) (f : Core → Core) : (s.modCore c f).dies = s.dies := rfl
@[simp] theorem State.modCore_parts (s : State) (c : Nat) (f : Core → Core) : (s.modCore c f).parts = s.parts := rfl
@[simp] theorem State.modCore_shadow (s : State) (c : Nat) (f : Core → Core) : (s.modCore c f).shadow = s.shadow := rfl
@[simp] theorem State.modCore_shadowCl (s : State) (c : Nat) (f : Core → Core) : (s.modCore c f).shadowCl = s.shadowCl := rfl
@[simp] theorem State.modCore_mem (s : State) (c : Nat) (f : Core → Core) : (s.modCore c f).mem = s.mem := rfl
@[simp] theorem State.modCore_full (s : State) (c : Nat) (f : Core → Core) : (s.modCore c f).full = s.full := rfl
@[simp] theorem State.modCore_bad (s : State) (c : Nat) (f : Core → Core) : (s.modCore c f).bad = s.bad := rfl
@[simp] theorem State.modCore_commitSeq (s : State) (c : Nat) (f : Core → Core) : (s.modCore c f).commitSeq = s.commitSeq := rfl
@[simp] theorem State.modCore_records (s : State) (c : Nat) (f : Core → Core) : (s.modCore c f).records = s.records := rfl
@[simp] theorem State.modCore_token (s : State) (c : Nat) (f : Core → Core) : (s.modCore c f).token = s.token := rfl
@[simp] theorem State.modCore_tokenQ (s : State) (c : Nat) (f : Core → Core) : (s.modCore c f).tokenQ = s.tokenQ := rfl
@[simp] theorem State.modCore_posted (s : State) (c : Nat) (f : Core → Core) : (s.modCore c f).posted = s.posted := rfl
@[simp] theorem State.modCore_acks (s : State) (c : Nat) (f : Core → Core) : (s.modCore c f).acks = s.acks := rfl
@[simp] theorem State.modCore_signals (s : State) (c : Nat) (f : Core → Core) : (s.modCore c f).signals = s.signals := rfl
@[simp] theorem State.modCore_unstamped (s : State) (c : Nat) (f : Core → Core) : (s.modCore c f).unstamped = s.unstamped := rfl
@[simp] theorem State.modCore_s2waits (s : State) (c : Nat) (f : Core → Core) : (s.modCore c f).s2waits = s.s2waits := rfl
@[simp] theorem State.modCore_shOwned (s : State) (c : Nat) (f : Core → Core) : (s.modCore c f).shOwned = s.shOwned := rfl
@[simp] theorem State.modCore_shUnacked (s : State) (c : Nat) (f : Core → Core) : (s.modCore c f).shUnacked = s.shUnacked := rfl
@[simp] theorem State.modCore_shPending (s : State) (c : Nat) (f : Core → Core) : (s.modCore c f).shPending = s.shPending := rfl
@[simp] theorem State.modCore_shDir (s : State) (c : Nat) (f : Core → Core) : (s.modCore c f).shDir = s.shDir := rfl
@[simp] theorem State.modCore_shHome (s : State) (c : Nat) (f : Core → Core) : (s.modCore c f).shHome = s.shHome := rfl
@[simp] theorem State.modCore_movingPages (s : State) (c : Nat) (f : Core → Core) : (s.modCore c f).movingPages = s.movingPages := rfl
@[simp] theorem State.modCore_refusedPages (s : State) (c : Nat) (f : Core → Core) : (s.modCore c f).refusedPages = s.refusedPages := rfl
@[simp] theorem State.modCore_samplerReqs (s : State) (c : Nat) (f : Core → Core) : (s.modCore c f).samplerReqs = s.samplerReqs := rfl
@[simp] theorem State.modCore_mgmt (s : State) (c : Nat) (f : Core → Core) : (s.modCore c f).mgmt = s.mgmt := rfl
@[simp] theorem State.modCore_drained (s : State) (c : Nat) (f : Core → Core) : (s.modCore c f).drained = s.drained := rfl
@[simp] theorem State.modCore_ueOut (s : State) (c : Nat) (f : Core → Core) : (s.modCore c f).ueOut = s.ueOut := rfl
@[simp] theorem State.modCore_hostRead (s : State) (c : Nat) (f : Core → Core) : (s.modCore c f).hostRead = s.hostRead := rfl
@[simp] theorem State.modCore_inputs (s : State) (c : Nat) (f : Core → Core) : (s.modCore c f).inputs = s.inputs := rfl
@[simp] theorem State.modCore_choices (s : State) (c : Nat) (f : Core → Core) : (s.modCore c f).choices = s.choices := rfl
@[simp] theorem State.modCore_moves (s : State) (c : Nat) (f : Core → Core) : (s.modCore c f).moves = s.moves := rfl
@[simp] theorem State.modCore_freeN (s : State) (c : Nat) (f : Core → Core) : (s.modCore c f).freeN = s.freeN := rfl

/-! ### `modCtx` -/

@[simp] theorem State.modCtx_cur (s : State) (c : Nat) (f : CoreCtx → CoreCtx) : (s.modCtx c f).cur = s.cur := rfl
@[simp] theorem State.modCtx_curWord (s : State) (c : Nat) (f : CoreCtx → CoreCtx) : (s.modCtx c f).curWord = s.curWord := rfl
@[simp] theorem State.modCtx_subject (s : State) (c : Nat) (f : CoreCtx → CoreCtx) : (s.modCtx c f).subject = s.subject := rfl
@[simp] theorem State.modCtx_clock (s : State) (c : Nat) (f : CoreCtx → CoreCtx) : (s.modCtx c f).clock = s.clock := rfl
@[simp] theorem State.modCtx_timeBase (s : State) (c : Nat) (f : CoreCtx → CoreCtx) : (s.modCtx c f).timeBase = s.timeBase := rfl
@[simp] theorem State.modCtx_domain (s : State) (c : Nat) (f : CoreCtx → CoreCtx) : (s.modCtx c f).domain = s.domain := rfl
@[simp] theorem State.modCtx_modnum (s : State) (c : Nat) (f : CoreCtx → CoreCtx) : (s.modCtx c f).modnum = s.modnum := rfl
@[simp] theorem State.modCtx_inDomain (s : State) (c : Nat) (f : CoreCtx → CoreCtx) : (s.modCtx c f).inDomain = s.inDomain := rfl
@[simp] theorem State.modCtx_clusters (s : State) (c : Nat) (f : CoreCtx → CoreCtx) : (s.modCtx c f).clusters = s.clusters := rfl
@[simp] theorem State.modCtx_dies (s : State) (c : Nat) (f : CoreCtx → CoreCtx) : (s.modCtx c f).dies = s.dies := rfl
@[simp] theorem State.modCtx_parts (s : State) (c : Nat) (f : CoreCtx → CoreCtx) : (s.modCtx c f).parts = s.parts := rfl
@[simp] theorem State.modCtx_shadow (s : State) (c : Nat) (f : CoreCtx → CoreCtx) : (s.modCtx c f).shadow = s.shadow := rfl
@[simp] theorem State.modCtx_shadowCl (s : State) (c : Nat) (f : CoreCtx → CoreCtx) : (s.modCtx c f).shadowCl = s.shadowCl := rfl
@[simp] theorem State.modCtx_mem (s : State) (c : Nat) (f : CoreCtx → CoreCtx) : (s.modCtx c f).mem = s.mem := rfl
@[simp] theorem State.modCtx_full (s : State) (c : Nat) (f : CoreCtx → CoreCtx) : (s.modCtx c f).full = s.full := rfl
@[simp] theorem State.modCtx_bad (s : State) (c : Nat) (f : CoreCtx → CoreCtx) : (s.modCtx c f).bad = s.bad := rfl
@[simp] theorem State.modCtx_commitSeq (s : State) (c : Nat) (f : CoreCtx → CoreCtx) : (s.modCtx c f).commitSeq = s.commitSeq := rfl
@[simp] theorem State.modCtx_records (s : State) (c : Nat) (f : CoreCtx → CoreCtx) : (s.modCtx c f).records = s.records := rfl
@[simp] theorem State.modCtx_token (s : State) (c : Nat) (f : CoreCtx → CoreCtx) : (s.modCtx c f).token = s.token := rfl
@[simp] theorem State.modCtx_tokenQ (s : State) (c : Nat) (f : CoreCtx → CoreCtx) : (s.modCtx c f).tokenQ = s.tokenQ := rfl
@[simp] theorem State.modCtx_posted (s : State) (c : Nat) (f : CoreCtx → CoreCtx) : (s.modCtx c f).posted = s.posted := rfl
@[simp] theorem State.modCtx_acks (s : State) (c : Nat) (f : CoreCtx → CoreCtx) : (s.modCtx c f).acks = s.acks := rfl
@[simp] theorem State.modCtx_signals (s : State) (c : Nat) (f : CoreCtx → CoreCtx) : (s.modCtx c f).signals = s.signals := rfl
@[simp] theorem State.modCtx_unstamped (s : State) (c : Nat) (f : CoreCtx → CoreCtx) : (s.modCtx c f).unstamped = s.unstamped := rfl
@[simp] theorem State.modCtx_s2waits (s : State) (c : Nat) (f : CoreCtx → CoreCtx) : (s.modCtx c f).s2waits = s.s2waits := rfl
@[simp] theorem State.modCtx_shOwned (s : State) (c : Nat) (f : CoreCtx → CoreCtx) : (s.modCtx c f).shOwned = s.shOwned := rfl
@[simp] theorem State.modCtx_shUnacked (s : State) (c : Nat) (f : CoreCtx → CoreCtx) : (s.modCtx c f).shUnacked = s.shUnacked := rfl
@[simp] theorem State.modCtx_shPending (s : State) (c : Nat) (f : CoreCtx → CoreCtx) : (s.modCtx c f).shPending = s.shPending := rfl
@[simp] theorem State.modCtx_shDir (s : State) (c : Nat) (f : CoreCtx → CoreCtx) : (s.modCtx c f).shDir = s.shDir := rfl
@[simp] theorem State.modCtx_shHome (s : State) (c : Nat) (f : CoreCtx → CoreCtx) : (s.modCtx c f).shHome = s.shHome := rfl
@[simp] theorem State.modCtx_movingPages (s : State) (c : Nat) (f : CoreCtx → CoreCtx) : (s.modCtx c f).movingPages = s.movingPages := rfl
@[simp] theorem State.modCtx_refusedPages (s : State) (c : Nat) (f : CoreCtx → CoreCtx) : (s.modCtx c f).refusedPages = s.refusedPages := rfl
@[simp] theorem State.modCtx_samplerReqs (s : State) (c : Nat) (f : CoreCtx → CoreCtx) : (s.modCtx c f).samplerReqs = s.samplerReqs := rfl
@[simp] theorem State.modCtx_mgmt (s : State) (c : Nat) (f : CoreCtx → CoreCtx) : (s.modCtx c f).mgmt = s.mgmt := rfl
@[simp] theorem State.modCtx_drained (s : State) (c : Nat) (f : CoreCtx → CoreCtx) : (s.modCtx c f).drained = s.drained := rfl
@[simp] theorem State.modCtx_ueOut (s : State) (c : Nat) (f : CoreCtx → CoreCtx) : (s.modCtx c f).ueOut = s.ueOut := rfl
@[simp] theorem State.modCtx_hostRead (s : State) (c : Nat) (f : CoreCtx → CoreCtx) : (s.modCtx c f).hostRead = s.hostRead := rfl
@[simp] theorem State.modCtx_inputs (s : State) (c : Nat) (f : CoreCtx → CoreCtx) : (s.modCtx c f).inputs = s.inputs := rfl
@[simp] theorem State.modCtx_choices (s : State) (c : Nat) (f : CoreCtx → CoreCtx) : (s.modCtx c f).choices = s.choices := rfl
@[simp] theorem State.modCtx_moves (s : State) (c : Nat) (f : CoreCtx → CoreCtx) : (s.modCtx c f).moves = s.moves := rfl
@[simp] theorem State.modCtx_freeN (s : State) (c : Nat) (f : CoreCtx → CoreCtx) : (s.modCtx c f).freeN = s.freeN := rfl

/-! ### `setSlot` -/

@[simp] theorem State.setSlot_cur (s : State) (c : Nat) (k : SlotN) (v : Slot) : (s.setSlot c k v).cur = s.cur := rfl
@[simp] theorem State.setSlot_curWord (s : State) (c : Nat) (k : SlotN) (v : Slot) : (s.setSlot c k v).curWord = s.curWord := rfl
@[simp] theorem State.setSlot_subject (s : State) (c : Nat) (k : SlotN) (v : Slot) : (s.setSlot c k v).subject = s.subject := rfl
@[simp] theorem State.setSlot_clock (s : State) (c : Nat) (k : SlotN) (v : Slot) : (s.setSlot c k v).clock = s.clock := rfl
@[simp] theorem State.setSlot_timeBase (s : State) (c : Nat) (k : SlotN) (v : Slot) : (s.setSlot c k v).timeBase = s.timeBase := rfl
@[simp] theorem State.setSlot_domain (s : State) (c : Nat) (k : SlotN) (v : Slot) : (s.setSlot c k v).domain = s.domain := rfl
@[simp] theorem State.setSlot_modnum (s : State) (c : Nat) (k : SlotN) (v : Slot) : (s.setSlot c k v).modnum = s.modnum := rfl
@[simp] theorem State.setSlot_inDomain (s : State) (c : Nat) (k : SlotN) (v : Slot) : (s.setSlot c k v).inDomain = s.inDomain := rfl
@[simp] theorem State.setSlot_clusters (s : State) (c : Nat) (k : SlotN) (v : Slot) : (s.setSlot c k v).clusters = s.clusters := rfl
@[simp] theorem State.setSlot_dies (s : State) (c : Nat) (k : SlotN) (v : Slot) : (s.setSlot c k v).dies = s.dies := rfl
@[simp] theorem State.setSlot_parts (s : State) (c : Nat) (k : SlotN) (v : Slot) : (s.setSlot c k v).parts = s.parts := rfl
@[simp] theorem State.setSlot_shadow (s : State) (c : Nat) (k : SlotN) (v : Slot) : (s.setSlot c k v).shadow = s.shadow := rfl
@[simp] theorem State.setSlot_shadowCl (s : State) (c : Nat) (k : SlotN) (v : Slot) : (s.setSlot c k v).shadowCl = s.shadowCl := rfl
@[simp] theorem State.setSlot_mem (s : State) (c : Nat) (k : SlotN) (v : Slot) : (s.setSlot c k v).mem = s.mem := rfl
@[simp] theorem State.setSlot_full (s : State) (c : Nat) (k : SlotN) (v : Slot) : (s.setSlot c k v).full = s.full := rfl
@[simp] theorem State.setSlot_bad (s : State) (c : Nat) (k : SlotN) (v : Slot) : (s.setSlot c k v).bad = s.bad := rfl
@[simp] theorem State.setSlot_commitSeq (s : State) (c : Nat) (k : SlotN) (v : Slot) : (s.setSlot c k v).commitSeq = s.commitSeq := rfl
@[simp] theorem State.setSlot_records (s : State) (c : Nat) (k : SlotN) (v : Slot) : (s.setSlot c k v).records = s.records := rfl
@[simp] theorem State.setSlot_token (s : State) (c : Nat) (k : SlotN) (v : Slot) : (s.setSlot c k v).token = s.token := rfl
@[simp] theorem State.setSlot_tokenQ (s : State) (c : Nat) (k : SlotN) (v : Slot) : (s.setSlot c k v).tokenQ = s.tokenQ := rfl
@[simp] theorem State.setSlot_posted (s : State) (c : Nat) (k : SlotN) (v : Slot) : (s.setSlot c k v).posted = s.posted := rfl
@[simp] theorem State.setSlot_acks (s : State) (c : Nat) (k : SlotN) (v : Slot) : (s.setSlot c k v).acks = s.acks := rfl
@[simp] theorem State.setSlot_signals (s : State) (c : Nat) (k : SlotN) (v : Slot) : (s.setSlot c k v).signals = s.signals := rfl
@[simp] theorem State.setSlot_unstamped (s : State) (c : Nat) (k : SlotN) (v : Slot) : (s.setSlot c k v).unstamped = s.unstamped := rfl
@[simp] theorem State.setSlot_s2waits (s : State) (c : Nat) (k : SlotN) (v : Slot) : (s.setSlot c k v).s2waits = s.s2waits := rfl
@[simp] theorem State.setSlot_shOwned (s : State) (c : Nat) (k : SlotN) (v : Slot) : (s.setSlot c k v).shOwned = s.shOwned := rfl
@[simp] theorem State.setSlot_shUnacked (s : State) (c : Nat) (k : SlotN) (v : Slot) : (s.setSlot c k v).shUnacked = s.shUnacked := rfl
@[simp] theorem State.setSlot_shPending (s : State) (c : Nat) (k : SlotN) (v : Slot) : (s.setSlot c k v).shPending = s.shPending := rfl
@[simp] theorem State.setSlot_shDir (s : State) (c : Nat) (k : SlotN) (v : Slot) : (s.setSlot c k v).shDir = s.shDir := rfl
@[simp] theorem State.setSlot_shHome (s : State) (c : Nat) (k : SlotN) (v : Slot) : (s.setSlot c k v).shHome = s.shHome := rfl
@[simp] theorem State.setSlot_movingPages (s : State) (c : Nat) (k : SlotN) (v : Slot) : (s.setSlot c k v).movingPages = s.movingPages := rfl
@[simp] theorem State.setSlot_refusedPages (s : State) (c : Nat) (k : SlotN) (v : Slot) : (s.setSlot c k v).refusedPages = s.refusedPages := rfl
@[simp] theorem State.setSlot_samplerReqs (s : State) (c : Nat) (k : SlotN) (v : Slot) : (s.setSlot c k v).samplerReqs = s.samplerReqs := rfl
@[simp] theorem State.setSlot_mgmt (s : State) (c : Nat) (k : SlotN) (v : Slot) : (s.setSlot c k v).mgmt = s.mgmt := rfl
@[simp] theorem State.setSlot_drained (s : State) (c : Nat) (k : SlotN) (v : Slot) : (s.setSlot c k v).drained = s.drained := rfl
@[simp] theorem State.setSlot_ueOut (s : State) (c : Nat) (k : SlotN) (v : Slot) : (s.setSlot c k v).ueOut = s.ueOut := rfl
@[simp] theorem State.setSlot_hostRead (s : State) (c : Nat) (k : SlotN) (v : Slot) : (s.setSlot c k v).hostRead = s.hostRead := rfl
@[simp] theorem State.setSlot_inputs (s : State) (c : Nat) (k : SlotN) (v : Slot) : (s.setSlot c k v).inputs = s.inputs := rfl
@[simp] theorem State.setSlot_choices (s : State) (c : Nat) (k : SlotN) (v : Slot) : (s.setSlot c k v).choices = s.choices := rfl
@[simp] theorem State.setSlot_moves (s : State) (c : Nat) (k : SlotN) (v : Slot) : (s.setSlot c k v).moves = s.moves := rfl
@[simp] theorem State.setSlot_freeN (s : State) (c : Nat) (k : SlotN) (v : Slot) : (s.setSlot c k v).freeN = s.freeN := rfl

/-! ### `setThr` -/

@[simp] theorem State.setThr_cur (s : State) (c : Nat) (k : SlotN) (t : Thread) : (s.setThr c k t).cur = s.cur := rfl
@[simp] theorem State.setThr_curWord (s : State) (c : Nat) (k : SlotN) (t : Thread) : (s.setThr c k t).curWord = s.curWord := rfl
@[simp] theorem State.setThr_subject (s : State) (c : Nat) (k : SlotN) (t : Thread) : (s.setThr c k t).subject = s.subject := rfl
@[simp] theorem State.setThr_clock (s : State) (c : Nat) (k : SlotN) (t : Thread) : (s.setThr c k t).clock = s.clock := rfl
@[simp] theorem State.setThr_timeBase (s : State) (c : Nat) (k : SlotN) (t : Thread) : (s.setThr c k t).timeBase = s.timeBase := rfl
@[simp] theorem State.setThr_domain (s : State) (c : Nat) (k : SlotN) (t : Thread) : (s.setThr c k t).domain = s.domain := rfl
@[simp] theorem State.setThr_modnum (s : State) (c : Nat) (k : SlotN) (t : Thread) : (s.setThr c k t).modnum = s.modnum := rfl
@[simp] theorem State.setThr_inDomain (s : State) (c : Nat) (k : SlotN) (t : Thread) : (s.setThr c k t).inDomain = s.inDomain := rfl
@[simp] theorem State.setThr_clusters (s : State) (c : Nat) (k : SlotN) (t : Thread) : (s.setThr c k t).clusters = s.clusters := rfl
@[simp] theorem State.setThr_dies (s : State) (c : Nat) (k : SlotN) (t : Thread) : (s.setThr c k t).dies = s.dies := rfl
@[simp] theorem State.setThr_parts (s : State) (c : Nat) (k : SlotN) (t : Thread) : (s.setThr c k t).parts = s.parts := rfl
@[simp] theorem State.setThr_shadow (s : State) (c : Nat) (k : SlotN) (t : Thread) : (s.setThr c k t).shadow = s.shadow := rfl
@[simp] theorem State.setThr_shadowCl (s : State) (c : Nat) (k : SlotN) (t : Thread) : (s.setThr c k t).shadowCl = s.shadowCl := rfl
@[simp] theorem State.setThr_mem (s : State) (c : Nat) (k : SlotN) (t : Thread) : (s.setThr c k t).mem = s.mem := rfl
@[simp] theorem State.setThr_full (s : State) (c : Nat) (k : SlotN) (t : Thread) : (s.setThr c k t).full = s.full := rfl
@[simp] theorem State.setThr_bad (s : State) (c : Nat) (k : SlotN) (t : Thread) : (s.setThr c k t).bad = s.bad := rfl
@[simp] theorem State.setThr_commitSeq (s : State) (c : Nat) (k : SlotN) (t : Thread) : (s.setThr c k t).commitSeq = s.commitSeq := rfl
@[simp] theorem State.setThr_records (s : State) (c : Nat) (k : SlotN) (t : Thread) : (s.setThr c k t).records = s.records := rfl
@[simp] theorem State.setThr_token (s : State) (c : Nat) (k : SlotN) (t : Thread) : (s.setThr c k t).token = s.token := rfl
@[simp] theorem State.setThr_tokenQ (s : State) (c : Nat) (k : SlotN) (t : Thread) : (s.setThr c k t).tokenQ = s.tokenQ := rfl
@[simp] theorem State.setThr_posted (s : State) (c : Nat) (k : SlotN) (t : Thread) : (s.setThr c k t).posted = s.posted := rfl
@[simp] theorem State.setThr_acks (s : State) (c : Nat) (k : SlotN) (t : Thread) : (s.setThr c k t).acks = s.acks := rfl
@[simp] theorem State.setThr_signals (s : State) (c : Nat) (k : SlotN) (t : Thread) : (s.setThr c k t).signals = s.signals := rfl
@[simp] theorem State.setThr_unstamped (s : State) (c : Nat) (k : SlotN) (t : Thread) : (s.setThr c k t).unstamped = s.unstamped := rfl
@[simp] theorem State.setThr_s2waits (s : State) (c : Nat) (k : SlotN) (t : Thread) : (s.setThr c k t).s2waits = s.s2waits := rfl
@[simp] theorem State.setThr_shOwned (s : State) (c : Nat) (k : SlotN) (t : Thread) : (s.setThr c k t).shOwned = s.shOwned := rfl
@[simp] theorem State.setThr_shUnacked (s : State) (c : Nat) (k : SlotN) (t : Thread) : (s.setThr c k t).shUnacked = s.shUnacked := rfl
@[simp] theorem State.setThr_shPending (s : State) (c : Nat) (k : SlotN) (t : Thread) : (s.setThr c k t).shPending = s.shPending := rfl
@[simp] theorem State.setThr_shDir (s : State) (c : Nat) (k : SlotN) (t : Thread) : (s.setThr c k t).shDir = s.shDir := rfl
@[simp] theorem State.setThr_shHome (s : State) (c : Nat) (k : SlotN) (t : Thread) : (s.setThr c k t).shHome = s.shHome := rfl
@[simp] theorem State.setThr_movingPages (s : State) (c : Nat) (k : SlotN) (t : Thread) : (s.setThr c k t).movingPages = s.movingPages := rfl
@[simp] theorem State.setThr_refusedPages (s : State) (c : Nat) (k : SlotN) (t : Thread) : (s.setThr c k t).refusedPages = s.refusedPages := rfl
@[simp] theorem State.setThr_samplerReqs (s : State) (c : Nat) (k : SlotN) (t : Thread) : (s.setThr c k t).samplerReqs = s.samplerReqs := rfl
@[simp] theorem State.setThr_mgmt (s : State) (c : Nat) (k : SlotN) (t : Thread) : (s.setThr c k t).mgmt = s.mgmt := rfl
@[simp] theorem State.setThr_drained (s : State) (c : Nat) (k : SlotN) (t : Thread) : (s.setThr c k t).drained = s.drained := rfl
@[simp] theorem State.setThr_ueOut (s : State) (c : Nat) (k : SlotN) (t : Thread) : (s.setThr c k t).ueOut = s.ueOut := rfl
@[simp] theorem State.setThr_hostRead (s : State) (c : Nat) (k : SlotN) (t : Thread) : (s.setThr c k t).hostRead = s.hostRead := rfl
@[simp] theorem State.setThr_inputs (s : State) (c : Nat) (k : SlotN) (t : Thread) : (s.setThr c k t).inputs = s.inputs := rfl
@[simp] theorem State.setThr_choices (s : State) (c : Nat) (k : SlotN) (t : Thread) : (s.setThr c k t).choices = s.choices := rfl
@[simp] theorem State.setThr_moves (s : State) (c : Nat) (k : SlotN) (t : Thread) : (s.setThr c k t).moves = s.moves := rfl
@[simp] theorem State.setThr_freeN (s : State) (c : Nat) (k : SlotN) (t : Thread) : (s.setThr c k t).freeN = s.freeN := rfl

/-! ### `modThr` -/

@[simp] theorem State.modThr_cur (s : State) (c : Nat) (k : SlotN) (f : Thread → Thread) : (s.modThr c k f).cur = s.cur := rfl
@[simp] theorem State.modThr_curWord (s : State) (c : Nat) (k : SlotN) (f : Thread → Thread) : (s.modThr c k f).curWord = s.curWord := rfl
@[simp] theorem State.modThr_subject (s : State) (c : Nat) (k : SlotN) (f : Thread → Thread) : (s.modThr c k f).subject = s.subject := rfl
@[simp] theorem State.modThr_clock (s : State) (c : Nat) (k : SlotN) (f : Thread → Thread) : (s.modThr c k f).clock = s.clock := rfl
@[simp] theorem State.modThr_timeBase (s : State) (c : Nat) (k : SlotN) (f : Thread → Thread) : (s.modThr c k f).timeBase = s.timeBase := rfl
@[simp] theorem State.modThr_domain (s : State) (c : Nat) (k : SlotN) (f : Thread → Thread) : (s.modThr c k f).domain = s.domain := rfl
@[simp] theorem State.modThr_modnum (s : State) (c : Nat) (k : SlotN) (f : Thread → Thread) : (s.modThr c k f).modnum = s.modnum := rfl
@[simp] theorem State.modThr_inDomain (s : State) (c : Nat) (k : SlotN) (f : Thread → Thread) : (s.modThr c k f).inDomain = s.inDomain := rfl
@[simp] theorem State.modThr_clusters (s : State) (c : Nat) (k : SlotN) (f : Thread → Thread) : (s.modThr c k f).clusters = s.clusters := rfl
@[simp] theorem State.modThr_dies (s : State) (c : Nat) (k : SlotN) (f : Thread → Thread) : (s.modThr c k f).dies = s.dies := rfl
@[simp] theorem State.modThr_parts (s : State) (c : Nat) (k : SlotN) (f : Thread → Thread) : (s.modThr c k f).parts = s.parts := rfl
@[simp] theorem State.modThr_shadow (s : State) (c : Nat) (k : SlotN) (f : Thread → Thread) : (s.modThr c k f).shadow = s.shadow := rfl
@[simp] theorem State.modThr_shadowCl (s : State) (c : Nat) (k : SlotN) (f : Thread → Thread) : (s.modThr c k f).shadowCl = s.shadowCl := rfl
@[simp] theorem State.modThr_mem (s : State) (c : Nat) (k : SlotN) (f : Thread → Thread) : (s.modThr c k f).mem = s.mem := rfl
@[simp] theorem State.modThr_full (s : State) (c : Nat) (k : SlotN) (f : Thread → Thread) : (s.modThr c k f).full = s.full := rfl
@[simp] theorem State.modThr_bad (s : State) (c : Nat) (k : SlotN) (f : Thread → Thread) : (s.modThr c k f).bad = s.bad := rfl
@[simp] theorem State.modThr_commitSeq (s : State) (c : Nat) (k : SlotN) (f : Thread → Thread) : (s.modThr c k f).commitSeq = s.commitSeq := rfl
@[simp] theorem State.modThr_records (s : State) (c : Nat) (k : SlotN) (f : Thread → Thread) : (s.modThr c k f).records = s.records := rfl
@[simp] theorem State.modThr_token (s : State) (c : Nat) (k : SlotN) (f : Thread → Thread) : (s.modThr c k f).token = s.token := rfl
@[simp] theorem State.modThr_tokenQ (s : State) (c : Nat) (k : SlotN) (f : Thread → Thread) : (s.modThr c k f).tokenQ = s.tokenQ := rfl
@[simp] theorem State.modThr_posted (s : State) (c : Nat) (k : SlotN) (f : Thread → Thread) : (s.modThr c k f).posted = s.posted := rfl
@[simp] theorem State.modThr_acks (s : State) (c : Nat) (k : SlotN) (f : Thread → Thread) : (s.modThr c k f).acks = s.acks := rfl
@[simp] theorem State.modThr_signals (s : State) (c : Nat) (k : SlotN) (f : Thread → Thread) : (s.modThr c k f).signals = s.signals := rfl
@[simp] theorem State.modThr_unstamped (s : State) (c : Nat) (k : SlotN) (f : Thread → Thread) : (s.modThr c k f).unstamped = s.unstamped := rfl
@[simp] theorem State.modThr_s2waits (s : State) (c : Nat) (k : SlotN) (f : Thread → Thread) : (s.modThr c k f).s2waits = s.s2waits := rfl
@[simp] theorem State.modThr_shOwned (s : State) (c : Nat) (k : SlotN) (f : Thread → Thread) : (s.modThr c k f).shOwned = s.shOwned := rfl
@[simp] theorem State.modThr_shUnacked (s : State) (c : Nat) (k : SlotN) (f : Thread → Thread) : (s.modThr c k f).shUnacked = s.shUnacked := rfl
@[simp] theorem State.modThr_shPending (s : State) (c : Nat) (k : SlotN) (f : Thread → Thread) : (s.modThr c k f).shPending = s.shPending := rfl
@[simp] theorem State.modThr_shDir (s : State) (c : Nat) (k : SlotN) (f : Thread → Thread) : (s.modThr c k f).shDir = s.shDir := rfl
@[simp] theorem State.modThr_shHome (s : State) (c : Nat) (k : SlotN) (f : Thread → Thread) : (s.modThr c k f).shHome = s.shHome := rfl
@[simp] theorem State.modThr_movingPages (s : State) (c : Nat) (k : SlotN) (f : Thread → Thread) : (s.modThr c k f).movingPages = s.movingPages := rfl
@[simp] theorem State.modThr_refusedPages (s : State) (c : Nat) (k : SlotN) (f : Thread → Thread) : (s.modThr c k f).refusedPages = s.refusedPages := rfl
@[simp] theorem State.modThr_samplerReqs (s : State) (c : Nat) (k : SlotN) (f : Thread → Thread) : (s.modThr c k f).samplerReqs = s.samplerReqs := rfl
@[simp] theorem State.modThr_mgmt (s : State) (c : Nat) (k : SlotN) (f : Thread → Thread) : (s.modThr c k f).mgmt = s.mgmt := rfl
@[simp] theorem State.modThr_drained (s : State) (c : Nat) (k : SlotN) (f : Thread → Thread) : (s.modThr c k f).drained = s.drained := rfl
@[simp] theorem State.modThr_ueOut (s : State) (c : Nat) (k : SlotN) (f : Thread → Thread) : (s.modThr c k f).ueOut = s.ueOut := rfl
@[simp] theorem State.modThr_hostRead (s : State) (c : Nat) (k : SlotN) (f : Thread → Thread) : (s.modThr c k f).hostRead = s.hostRead := rfl
@[simp] theorem State.modThr_inputs (s : State) (c : Nat) (k : SlotN) (f : Thread → Thread) : (s.modThr c k f).inputs = s.inputs := rfl
@[simp] theorem State.modThr_choices (s : State) (c : Nat) (k : SlotN) (f : Thread → Thread) : (s.modThr c k f).choices = s.choices := rfl
@[simp] theorem State.modThr_moves (s : State) (c : Nat) (k : SlotN) (f : Thread → Thread) : (s.modThr c k f).moves = s.moves := rfl
@[simp] theorem State.modThr_freeN (s : State) (c : Nat) (k : SlotN) (f : Thread → Thread) : (s.modThr c k f).freeN = s.freeN := rfl

/-! ### `modCluster` -/

@[simp] theorem State.modCluster_cur (s : State) (n : Nat) (f : Cluster → Cluster) : (s.modCluster n f).cur = s.cur := rfl
@[simp] theorem State.modCluster_curWord (s : State) (n : Nat) (f : Cluster → Cluster) : (s.modCluster n f).curWord = s.curWord := rfl
@[simp] theorem State.modCluster_subject (s : State) (n : Nat) (f : Cluster → Cluster) : (s.modCluster n f).subject = s.subject := rfl
@[simp] theorem State.modCluster_clock (s : State) (n : Nat) (f : Cluster → Cluster) : (s.modCluster n f).clock = s.clock := rfl
@[simp] theorem State.modCluster_timeBase (s : State) (n : Nat) (f : Cluster → Cluster) : (s.modCluster n f).timeBase = s.timeBase := rfl
@[simp] theorem State.modCluster_domain (s : State) (n : Nat) (f : Cluster → Cluster) : (s.modCluster n f).domain = s.domain := rfl
@[simp] theorem State.modCluster_modnum (s : State) (n : Nat) (f : Cluster → Cluster) : (s.modCluster n f).modnum = s.modnum := rfl
@[simp] theorem State.modCluster_inDomain (s : State) (n : Nat) (f : Cluster → Cluster) : (s.modCluster n f).inDomain = s.inDomain := rfl
@[simp] theorem State.modCluster_cores (s : State) (n : Nat) (f : Cluster → Cluster) : (s.modCluster n f).cores = s.cores := rfl
@[simp] theorem State.modCluster_dies (s : State) (n : Nat) (f : Cluster → Cluster) : (s.modCluster n f).dies = s.dies := rfl
@[simp] theorem State.modCluster_parts (s : State) (n : Nat) (f : Cluster → Cluster) : (s.modCluster n f).parts = s.parts := rfl
@[simp] theorem State.modCluster_shadow (s : State) (n : Nat) (f : Cluster → Cluster) : (s.modCluster n f).shadow = s.shadow := rfl
@[simp] theorem State.modCluster_shadowCl (s : State) (n : Nat) (f : Cluster → Cluster) : (s.modCluster n f).shadowCl = s.shadowCl := rfl
@[simp] theorem State.modCluster_mem (s : State) (n : Nat) (f : Cluster → Cluster) : (s.modCluster n f).mem = s.mem := rfl
@[simp] theorem State.modCluster_full (s : State) (n : Nat) (f : Cluster → Cluster) : (s.modCluster n f).full = s.full := rfl
@[simp] theorem State.modCluster_bad (s : State) (n : Nat) (f : Cluster → Cluster) : (s.modCluster n f).bad = s.bad := rfl
@[simp] theorem State.modCluster_commitSeq (s : State) (n : Nat) (f : Cluster → Cluster) : (s.modCluster n f).commitSeq = s.commitSeq := rfl
@[simp] theorem State.modCluster_records (s : State) (n : Nat) (f : Cluster → Cluster) : (s.modCluster n f).records = s.records := rfl
@[simp] theorem State.modCluster_token (s : State) (n : Nat) (f : Cluster → Cluster) : (s.modCluster n f).token = s.token := rfl
@[simp] theorem State.modCluster_tokenQ (s : State) (n : Nat) (f : Cluster → Cluster) : (s.modCluster n f).tokenQ = s.tokenQ := rfl
@[simp] theorem State.modCluster_posted (s : State) (n : Nat) (f : Cluster → Cluster) : (s.modCluster n f).posted = s.posted := rfl
@[simp] theorem State.modCluster_acks (s : State) (n : Nat) (f : Cluster → Cluster) : (s.modCluster n f).acks = s.acks := rfl
@[simp] theorem State.modCluster_signals (s : State) (n : Nat) (f : Cluster → Cluster) : (s.modCluster n f).signals = s.signals := rfl
@[simp] theorem State.modCluster_unstamped (s : State) (n : Nat) (f : Cluster → Cluster) : (s.modCluster n f).unstamped = s.unstamped := rfl
@[simp] theorem State.modCluster_s2waits (s : State) (n : Nat) (f : Cluster → Cluster) : (s.modCluster n f).s2waits = s.s2waits := rfl
@[simp] theorem State.modCluster_shOwned (s : State) (n : Nat) (f : Cluster → Cluster) : (s.modCluster n f).shOwned = s.shOwned := rfl
@[simp] theorem State.modCluster_shUnacked (s : State) (n : Nat) (f : Cluster → Cluster) : (s.modCluster n f).shUnacked = s.shUnacked := rfl
@[simp] theorem State.modCluster_shPending (s : State) (n : Nat) (f : Cluster → Cluster) : (s.modCluster n f).shPending = s.shPending := rfl
@[simp] theorem State.modCluster_shDir (s : State) (n : Nat) (f : Cluster → Cluster) : (s.modCluster n f).shDir = s.shDir := rfl
@[simp] theorem State.modCluster_shHome (s : State) (n : Nat) (f : Cluster → Cluster) : (s.modCluster n f).shHome = s.shHome := rfl
@[simp] theorem State.modCluster_movingPages (s : State) (n : Nat) (f : Cluster → Cluster) : (s.modCluster n f).movingPages = s.movingPages := rfl
@[simp] theorem State.modCluster_refusedPages (s : State) (n : Nat) (f : Cluster → Cluster) : (s.modCluster n f).refusedPages = s.refusedPages := rfl
@[simp] theorem State.modCluster_samplerReqs (s : State) (n : Nat) (f : Cluster → Cluster) : (s.modCluster n f).samplerReqs = s.samplerReqs := rfl
@[simp] theorem State.modCluster_mgmt (s : State) (n : Nat) (f : Cluster → Cluster) : (s.modCluster n f).mgmt = s.mgmt := rfl
@[simp] theorem State.modCluster_drained (s : State) (n : Nat) (f : Cluster → Cluster) : (s.modCluster n f).drained = s.drained := rfl
@[simp] theorem State.modCluster_ueOut (s : State) (n : Nat) (f : Cluster → Cluster) : (s.modCluster n f).ueOut = s.ueOut := rfl
@[simp] theorem State.modCluster_hostRead (s : State) (n : Nat) (f : Cluster → Cluster) : (s.modCluster n f).hostRead = s.hostRead := rfl
@[simp] theorem State.modCluster_inputs (s : State) (n : Nat) (f : Cluster → Cluster) : (s.modCluster n f).inputs = s.inputs := rfl
@[simp] theorem State.modCluster_choices (s : State) (n : Nat) (f : Cluster → Cluster) : (s.modCluster n f).choices = s.choices := rfl
@[simp] theorem State.modCluster_moves (s : State) (n : Nat) (f : Cluster → Cluster) : (s.modCluster n f).moves = s.moves := rfl
@[simp] theorem State.modCluster_freeN (s : State) (n : Nat) (f : Cluster → Cluster) : (s.modCluster n f).freeN = s.freeN := rfl

/-! ### `modDie` -/

@[simp] theorem State.modDie_cur (s : State) (n : Nat) (f : Die → Die) : (s.modDie n f).cur = s.cur := rfl
@[simp] theorem State.modDie_curWord (s : State) (n : Nat) (f : Die → Die) : (s.modDie n f).curWord = s.curWord := rfl
@[simp] theorem State.modDie_subject (s : State) (n : Nat) (f : Die → Die) : (s.modDie n f).subject = s.subject := rfl
@[simp] theorem State.modDie_clock (s : State) (n : Nat) (f : Die → Die) : (s.modDie n f).clock = s.clock := rfl
@[simp] theorem State.modDie_timeBase (s : State) (n : Nat) (f : Die → Die) : (s.modDie n f).timeBase = s.timeBase := rfl
@[simp] theorem State.modDie_domain (s : State) (n : Nat) (f : Die → Die) : (s.modDie n f).domain = s.domain := rfl
@[simp] theorem State.modDie_modnum (s : State) (n : Nat) (f : Die → Die) : (s.modDie n f).modnum = s.modnum := rfl
@[simp] theorem State.modDie_inDomain (s : State) (n : Nat) (f : Die → Die) : (s.modDie n f).inDomain = s.inDomain := rfl
@[simp] theorem State.modDie_cores (s : State) (n : Nat) (f : Die → Die) : (s.modDie n f).cores = s.cores := rfl
@[simp] theorem State.modDie_clusters (s : State) (n : Nat) (f : Die → Die) : (s.modDie n f).clusters = s.clusters := rfl
@[simp] theorem State.modDie_parts (s : State) (n : Nat) (f : Die → Die) : (s.modDie n f).parts = s.parts := rfl
@[simp] theorem State.modDie_shadow (s : State) (n : Nat) (f : Die → Die) : (s.modDie n f).shadow = s.shadow := rfl
@[simp] theorem State.modDie_shadowCl (s : State) (n : Nat) (f : Die → Die) : (s.modDie n f).shadowCl = s.shadowCl := rfl
@[simp] theorem State.modDie_mem (s : State) (n : Nat) (f : Die → Die) : (s.modDie n f).mem = s.mem := rfl
@[simp] theorem State.modDie_full (s : State) (n : Nat) (f : Die → Die) : (s.modDie n f).full = s.full := rfl
@[simp] theorem State.modDie_bad (s : State) (n : Nat) (f : Die → Die) : (s.modDie n f).bad = s.bad := rfl
@[simp] theorem State.modDie_commitSeq (s : State) (n : Nat) (f : Die → Die) : (s.modDie n f).commitSeq = s.commitSeq := rfl
@[simp] theorem State.modDie_records (s : State) (n : Nat) (f : Die → Die) : (s.modDie n f).records = s.records := rfl
@[simp] theorem State.modDie_token (s : State) (n : Nat) (f : Die → Die) : (s.modDie n f).token = s.token := rfl
@[simp] theorem State.modDie_tokenQ (s : State) (n : Nat) (f : Die → Die) : (s.modDie n f).tokenQ = s.tokenQ := rfl
@[simp] theorem State.modDie_posted (s : State) (n : Nat) (f : Die → Die) : (s.modDie n f).posted = s.posted := rfl
@[simp] theorem State.modDie_acks (s : State) (n : Nat) (f : Die → Die) : (s.modDie n f).acks = s.acks := rfl
@[simp] theorem State.modDie_signals (s : State) (n : Nat) (f : Die → Die) : (s.modDie n f).signals = s.signals := rfl
@[simp] theorem State.modDie_unstamped (s : State) (n : Nat) (f : Die → Die) : (s.modDie n f).unstamped = s.unstamped := rfl
@[simp] theorem State.modDie_s2waits (s : State) (n : Nat) (f : Die → Die) : (s.modDie n f).s2waits = s.s2waits := rfl
@[simp] theorem State.modDie_shOwned (s : State) (n : Nat) (f : Die → Die) : (s.modDie n f).shOwned = s.shOwned := rfl
@[simp] theorem State.modDie_shUnacked (s : State) (n : Nat) (f : Die → Die) : (s.modDie n f).shUnacked = s.shUnacked := rfl
@[simp] theorem State.modDie_shPending (s : State) (n : Nat) (f : Die → Die) : (s.modDie n f).shPending = s.shPending := rfl
@[simp] theorem State.modDie_shDir (s : State) (n : Nat) (f : Die → Die) : (s.modDie n f).shDir = s.shDir := rfl
@[simp] theorem State.modDie_shHome (s : State) (n : Nat) (f : Die → Die) : (s.modDie n f).shHome = s.shHome := rfl
@[simp] theorem State.modDie_movingPages (s : State) (n : Nat) (f : Die → Die) : (s.modDie n f).movingPages = s.movingPages := rfl
@[simp] theorem State.modDie_refusedPages (s : State) (n : Nat) (f : Die → Die) : (s.modDie n f).refusedPages = s.refusedPages := rfl
@[simp] theorem State.modDie_samplerReqs (s : State) (n : Nat) (f : Die → Die) : (s.modDie n f).samplerReqs = s.samplerReqs := rfl
@[simp] theorem State.modDie_mgmt (s : State) (n : Nat) (f : Die → Die) : (s.modDie n f).mgmt = s.mgmt := rfl
@[simp] theorem State.modDie_drained (s : State) (n : Nat) (f : Die → Die) : (s.modDie n f).drained = s.drained := rfl
@[simp] theorem State.modDie_ueOut (s : State) (n : Nat) (f : Die → Die) : (s.modDie n f).ueOut = s.ueOut := rfl
@[simp] theorem State.modDie_hostRead (s : State) (n : Nat) (f : Die → Die) : (s.modDie n f).hostRead = s.hostRead := rfl
@[simp] theorem State.modDie_inputs (s : State) (n : Nat) (f : Die → Die) : (s.modDie n f).inputs = s.inputs := rfl
@[simp] theorem State.modDie_choices (s : State) (n : Nat) (f : Die → Die) : (s.modDie n f).choices = s.choices := rfl
@[simp] theorem State.modDie_moves (s : State) (n : Nat) (f : Die → Die) : (s.modDie n f).moves = s.moves := rfl
@[simp] theorem State.modDie_freeN (s : State) (n : Nat) (f : Die → Die) : (s.modDie n f).freeN = s.freeN := rfl

end Sys2Proof.Machine
end

