-- ==== Sys2Proof/Laws/Memory.lean ====
section
/-! SUPPORT. Memory.lean: what a byte reads after each memory operation, and that every operation keeps the canonical form. -/

namespace Sys2Proof.Machine

namespace Memory

/-! ### Reads after writes -/

theorem read_insert (m : Memory) (a b : Nat) (v : Byte) : (m.insert a v).read b = if a = b then v else m.read b := by
  induction m with
  | nil => simp [insert, read]
  | cons e r ih =>
    obtain ⟨k, c⟩ := e
    simp only [insert]
    split
    · simp only [read, ih]
      by_cases h : k = b
      · have : a ≠ b := by omega
        simp [h, this]
      · simp [h]
    · split
      · subst_vars; simp only [read]; split <;> rfl
      · simp only [read]

theorem read_erase (m : Memory) (a b : Nat) :
    read (m.filter fun e => e.1 != a) b = if a = b then 0 else m.read b := by
  induction m with
  | nil => simp [read]
  | cons e r ih =>
    obtain ⟨k, c⟩ := e
    by_cases h : k = a
    · simp only [List.filter, h, bne_self_eq_false, ih, read]
      by_cases h2 : a = b <;> simp [h2]
    · simp only [List.filter, bne_iff_ne.mpr h, read, ih]
      by_cases h2 : k = b
      · have : a ≠ b := by omega
        simp [h2, this]
      · simp [h2]

/-- A byte reads as the last byte written there. -/
theorem read_write (m : Memory) (a b : Nat) (v : Byte) : (m.write a v).read b = if a = b then v else m.read b := by
  unfold write
  split
  · subst_vars; exact read_erase m a b
  · exact read_insert m a b v

theorem read_writeBytes_low (m : Memory) (a b : Nat) (bs : List Byte) (h : b < a) : (m.writeBytes a bs).read b = m.read b := by
  induction bs generalizing m a with
  | nil => rfl
  | cons v bs ih =>
    rw [writeBytes, ih _ _ (by omega), read_write, if_neg (by omega)]

theorem read_writeBytes_high (m : Memory) (a b : Nat) (bs : List Byte) (h : a + bs.length ≤ b) :
    (m.writeBytes a bs).read b = m.read b := by
  induction bs generalizing m a with
  | nil => rfl
  | cons v bs ih =>
    simp only [List.length_cons] at h
    rw [writeBytes, ih _ _ (by omega), read_write, if_neg (by omega)]

/-- Bytes outside a write are unchanged. -/
theorem read_writeBytes_out (m : Memory) (a b : Nat) (bs : List Byte) (h : b < a ∨ a + bs.length ≤ b) :
    (m.writeBytes a bs).read b = m.read b :=
  h.elim (read_writeBytes_low m a b bs) (read_writeBytes_high m a b bs)

/-- Bytes inside a write are the bytes written. -/
theorem read_writeBytes_in (m : Memory) (a j : Nat) (bs : List Byte) (h : j < bs.length) :
    (m.writeBytes a bs).read (a + j) = bs.getD j 0 := by
  induction bs generalizing m a j with
  | nil => simp at h
  | cons v bs ih =>
    cases j with
    | zero => rw [writeBytes, read_writeBytes_low _ _ _ _ (by omega), read_write]; simp
    | succ j =>
      rw [writeBytes, show a + (j + 1) = a + 1 + j by omega, ih _ _ _ (by simpa using h)]
      simp

theorem read_writeCells_out (m : Memory) (cs : List Host.Cell) (a : Nat) (h : ∀ e ∈ cs, e.1 ≠ a) :
    (m.writeCells cs).read a = m.read a := by
  induction cs with
  | nil => rfl
  | cons e cs ih =>
    rw [writeCells, read_write, if_neg (h e List.mem_cons_self), ih fun e he => h e (List.mem_cons_of_mem _ he)]

/-! ### The canonical form -/

theorem wfFrom_mono {m : Memory} {lo hi : Nat} (h : m.wfFrom hi = true) (hl : lo ≤ hi) : m.wfFrom lo = true := by
  cases m with
  | nil => rfl
  | cons e r =>
    obtain ⟨k, b⟩ := e
    simp only [wfFrom, Bool.and_eq_true, decide_eq_true_eq] at h ⊢
    exact ⟨⟨by omega, h.1.2⟩, h.2⟩

theorem wfFrom_insert {m : Memory} {lo a : Nat} {b : Byte} (h : m.wfFrom lo = true) (hb : b ≠ 0) (ha : lo ≤ a) :
    (m.insert a b).wfFrom lo = true := by
  induction m generalizing lo with
  | nil => simpa [insert, wfFrom, ha] using hb
  | cons e r ih =>
    obtain ⟨k, c⟩ := e
    simp only [wfFrom, Bool.and_eq_true, decide_eq_true_eq] at h
    simp only [insert]
    split
    · simp only [wfFrom, Bool.and_eq_true, decide_eq_true_eq]
      exact ⟨h.1, ih h.2 (by omega)⟩
    · split
      · subst_vars
        simp only [wfFrom, Bool.and_eq_true, decide_eq_true_eq]
        exact ⟨⟨ha, by simpa using hb⟩, h.2⟩
      · simp only [wfFrom, Bool.and_eq_true, decide_eq_true_eq]
        exact ⟨⟨ha, by simpa using hb⟩, ⟨by omega, h.1.2⟩, h.2⟩

theorem wfFrom_filter {m : Memory} {lo : Nat} (p : Nat × Byte → Bool) (h : m.wfFrom lo = true) :
    wfFrom lo (m.filter p) = true := by
  induction m generalizing lo with
  | nil => rfl
  | cons e r ih =>
    obtain ⟨k, c⟩ := e
    simp only [wfFrom, Bool.and_eq_true, decide_eq_true_eq] at h
    simp only [List.filter]
    split
    · simp only [wfFrom, Bool.and_eq_true, decide_eq_true_eq]
      exact ⟨h.1, ih h.2⟩
    · exact ih (wfFrom_mono h.2 (by omega))

@[simp] theorem wf_nil : wf [] = true := rfl

theorem wf_write {m : Memory} (a : Nat) (b : Byte) (h : m.wf = true) : (m.write a b).wf = true := by
  unfold write
  split
  · exact wfFrom_filter _ h
  · exact wfFrom_insert h ‹_› (Nat.zero_le a)

theorem wf_writeBytes {m : Memory} (a : Nat) (bs : List Byte) (h : m.wf = true) : (m.writeBytes a bs).wf = true := by
  induction bs generalizing m a with
  | nil => exact h
  | cons b bs ih => exact ih _ (wf_write a b h)

theorem wf_writeCells {m : Memory} (cs : List Host.Cell) (h : m.wf = true) : (m.writeCells cs).wf = true := by
  induction cs with
  | nil => exact h
  | cons e cs ih => exact wf_write _ _ ih

/-- Below the bound of a canonical form nothing is listed. -/
theorem read_of_lt {m : Memory} {lo a : Nat} (h : m.wfFrom lo = true) (ha : a < lo) : m.read a = 0 := by
  induction m generalizing lo with
  | nil => rfl
  | cons e r ih =>
    obtain ⟨k, c⟩ := e
    simp only [wfFrom, Bool.and_eq_true, decide_eq_true_eq] at h
    rw [read, if_neg (by omega), ih h.2 (by omega)]

end Memory

/-! ### The operations of the state -/

theorem State.poke_wf {s : State} (key : Nat) (bs : List Byte) (h : s.mem.wf = true) : (s.poke key bs).mem.wf = true :=
  Memory.wf_writeBytes key bs h

theorem State.pokeCells_wf {s : State} (cs : List Host.Cell) (h : s.mem.wf = true) : (s.pokeCells cs).mem.wf = true :=
  Memory.wf_writeCells cs h

theorem State.byte_poke_out (s : State) (key a : Nat) (bs : List Byte) (h : a < key ∨ key + bs.length ≤ a) :
    (s.poke key bs).byte a = s.byte a := Memory.read_writeBytes_out s.mem key a bs h

theorem State.byte_poke_in (s : State) (key j : Nat) (bs : List Byte) (h : j < bs.length) :
    (s.poke key bs).byte (key + j) = bs.getD j 0 := Memory.read_writeBytes_in s.mem key j bs h

theorem reset_mem_wf : State.reset.mem.wf = true := rfl

end Sys2Proof.Machine
end

