-- ==== Sys2Proof/Laws/Places.lean ====
section
/-! SUPPORT. Places.lean: reading a core, a slot or a thread after one of them was written. -/

namespace Sys2Proof.Machine

@[simp] theorem State.core_setCore (s : State) (c : Nat) (k : Core) : (s.setCore c k).core c = k := by
  simp [State.core, State.setCore, Table.getD_set_same]

theorem State.core_setCore_ne (s : State) {c d : Nat} (k : Core) (h : d ≠ c) : (s.setCore c k).core d = s.core d := by
  simp [State.core, State.setCore, Table.getD_set_ne _ _ _ h]

@[simp] theorem State.setCore_setCore (s : State) (c : Nat) (k l : Core) : (s.setCore c k).setCore c l = s.setCore c l := by
  simp [State.setCore, Table.set_set]

@[simp] theorem State.core_modCore (s : State) (c : Nat) (f : Core → Core) : (s.modCore c f).core c = f (s.core c) := by
  simp [State.modCore]

theorem State.core_modCore_ne (s : State) {c d : Nat} (f : Core → Core) (h : d ≠ c) : (s.modCore c f).core d = s.core d := by
  simp [State.modCore, State.core_setCore_ne _ _ h]

@[simp] theorem State.core_modCtx (s : State) (c : Nat) (f : CoreCtx → CoreCtx) :
    (s.modCtx c f).core c = { s.core c with c := f (s.core c).c } := by simp [State.modCtx]

@[simp] theorem State.slot_setSlot (s : State) (c : Nat) (k : SlotN) (v : Slot) : (s.setSlot c k v).slot c k = v := by
  simp [State.slot, State.setSlot]

theorem State.slot_setSlot_ne (s : State) (c : Nat) {k j : SlotN} (v : Slot) (h : j ≠ k) :
    (s.setSlot c k v).slot c j = s.slot c j := by
  have : k.val ≠ j.val := fun e => h (Fin.ext e.symm)
  simp [State.slot, State.setSlot, Vector.getElem_set_ne, this]

theorem State.slot_setSlot_core (s : State) {c d : Nat} (k j : SlotN) (v : Slot) (h : d ≠ c) :
    (s.setSlot c k v).slot d j = s.slot d j := by
  simp [State.slot, State.setSlot, State.modCtx, State.core_modCore_ne _ _ h]

@[simp] theorem State.setSlot_setSlot (s : State) (c : Nat) (k : SlotN) (v w : Slot) :
    (s.setSlot c k v).setSlot c k w = s.setSlot c k w := by
  simp [State.setSlot, State.modCtx, State.modCore]

@[simp] theorem State.slot_setThr (s : State) (c : Nat) (k : SlotN) (t : Thread) : (s.setThr c k t).slot c k = .thread t := by
  simp [State.setThr]

theorem State.slot_setThr_ne (s : State) (c : Nat) {k j : SlotN} (t : Thread) (h : j ≠ k) :
    (s.setThr c k t).slot c j = s.slot c j := by simp [State.setThr, State.slot_setSlot_ne _ _ _ h]

theorem State.slot_setThr_core (s : State) {c d : Nat} (k j : SlotN) (t : Thread) (h : d ≠ c) :
    (s.setThr c k t).slot d j = s.slot d j := by simp [State.setThr, State.slot_setSlot_core _ _ _ _ h]

@[simp] theorem State.thr_setThr (s : State) (c : Nat) (k : SlotN) (t : Thread) : (s.setThr c k t).thr c k = t := by
  simp [State.thr, Slot.thread?]

theorem State.thr_of_slot {s : State} {c : Nat} {k : SlotN} {t : Thread} (h : s.slot c k = .thread t) : s.thr c k = t := by
  simp [State.thr, h, Slot.thread?]

@[simp] theorem State.setThr_setThr (s : State) (c : Nat) (k : SlotN) (t u : Thread) :
    (s.setThr c k t).setThr c k u = s.setThr c k u := by simp [State.setThr]

@[simp] theorem State.modThr_setThr (s : State) (c : Nat) (k : SlotN) (t : Thread) (f : Thread → Thread) :
    (s.setThr c k t).modThr c k f = s.setThr c k (f t) := by simp [State.modThr]

@[simp] theorem State.thr_modThr (s : State) (c : Nat) (k : SlotN) (f : Thread → Thread) :
    (s.modThr c k f).thr c k = f (s.thr c k) := by simp [State.modThr]

@[simp] theorem State.slot_modThr (s : State) (c : Nat) (k : SlotN) (f : Thread → Thread) :
    (s.modThr c k f).slot c k = .thread (f (s.thr c k)) := by simp [State.modThr]

@[simp] theorem State.modThr_modThr (s : State) (c : Nat) (k : SlotN) (f g : Thread → Thread) :
    (s.modThr c k f).modThr c k g = s.modThr c k fun t => g (f t) := by simp [State.modThr]

@[simp] theorem State.setThr_modThr (s : State) (c : Nat) (k : SlotN) (f : Thread → Thread) (t : Thread) :
    (s.modThr c k f).setThr c k t = s.setThr c k t := by simp [State.modThr]

/-- What a core has beside its slots is left alone when a thread is written. -/
@[simp] theorem State.core_setThr (s : State) (c : Nat) (k : SlotN) (t : Thread) :
    (s.setThr c k t).core c =
      { s.core c with c := { (s.core c).c with slots := (s.core c).c.slots.set k (.thread t) } } := by
  simp [State.setThr, State.setSlot]

theorem State.core_setThr_ne (s : State) {c d : Nat} (k : SlotN) (t : Thread) (h : d ≠ c) :
    (s.setThr c k t).core d = s.core d := by
  simp [State.setThr, State.setSlot, State.modCtx, State.core_modCore_ne _ _ h]

@[simp] theorem State.partOf_setThr (s : State) (c d : Nat) (k : SlotN) (t : Thread) :
    (s.setThr c k t).partOf d = s.partOf d := by
  have hp : (s.setThr c k t).part? = s.part? := rfl
  by_cases h : d = c
  · subst h; simp [State.partOf, hp]
  · simp [State.partOf, hp, State.core_setThr_ne _ _ _ h]

@[simp] theorem State.byte_setThr (s : State) (c : Nat) (k : SlotN) (t : Thread) (a : Nat) :
    (s.setThr c k t).byte a = s.byte a := rfl

/-- A step for a thread of a partition switched out leaves the context on the core alone (R387). -/
theorem State.core_inCtx (s : State) (r : TRef) (f : State → State) (h : (s.away r).isSome = true) :
    ((s.inCtx r f).core r.core).c = (s.core r.core).c ∧ ((s.inCtx r f).core r.core).part = (s.core r.core).part := by
  obtain ⟨e, he⟩ := Option.isSome_iff_exists.1 h
  simp [State.inCtx, he]

/-- A step for a thread whose context is on its core acts there. -/
theorem State.inCtx_here (s : State) (r : TRef) (f : State → State) (h : s.away r = none) : s.inCtx r f = f s := by
  simp [State.inCtx, h]

end Sys2Proof.Machine
end

