-- ==== Sys2Proof/Laws/Run.lean ====
section
/-! SUPPORT. Run.lean: an instruction of a thread: what issue, body and completion do, for callers to cite. -/

namespace Sys2Proof.Machine

theorem Got.bind_ok {α β : Type} (s : State) (v : α) (f : State → α → Got β) : (Got.ok s v).bind f = f s v := rfl
theorem Got.bind_stop {α β : Type} (s : State) (f : State → α → Got β) : (Got.stop s : Got α).bind f = .stop s := rfl

theorem Arch.mappedOf_nil {a : Arch} {rs : List XReg} (h : a.Unmapped rs) : a.mappedOf rs = [] := by
  have : rs.filter a.mapped = [] := List.filter_eq_nil_iff.mpr fun r hr => by simp [h r hr]
  simp [Arch.mappedOf, this]

theorem Arch.Unmapped.left {a : Arch} {xs ys : List XReg} (h : a.Unmapped (xs ++ ys)) : a.Unmapped xs :=
  fun r hr => h r (List.mem_append_left _ hr)
theorem Arch.Unmapped.right {a : Arch} {xs ys : List XReg} (h : a.Unmapped (xs ++ ys)) : a.Unmapped ys :=
  fun r hr => h r (List.mem_append_right _ hr)

/-- An unmapped source reads its register. -/
theorem Thread.xv_of {t : Thread} {r : XReg} (h : t.a.mapped r = false) : t.xv r = t.a.xr r := by
  simp [Thread.xv, h]

/-- A ready instruction issues and changes nothing by issuing. -/
theorem issue_ready {s : State} {c : Nat} {k : SlotN} {t : Thread} {f : Form} (h : s.Ready c k t f) :
    issue s c k f = .ok s true := by
  obtain ⟨⟨-, -, hs⟩, hw, hg, hc, hm, -⟩ := h
  have h1 : ¬(f.guard ≠ 0 ∧ (!t.a.p ⟨f.guard.val, Nat.lt_trans f.guard.isLt (by decide)⟩) = true) := by
    rcases hg with hg | hg
    · simp [hg]
    · unfold guardReg at hg; simp [hg]
  have h2 : ¬(f.custom3 = true ∧ (!equipped c) = true) := fun ⟨hx, hy⟩ => by simp [hc hx] at hy
  have h3 : mappedFirst s c k f = .ok s () := by
    simp [mappedFirst, State.thr_of_slot hs, Arch.mappedOf_nil hm.left, Arch.mappedOf_nil hm.right]
  unfold issue
  rw [hw, State.thr_of_slot hs]
  dsimp only
  rw [if_neg h1, if_neg h2, h3]
  rfl

/-- An instruction that has completed stands: it is not performed again. -/
theorem orAgain_of {s done : State} {c : Nat} {k : SlotN} (h : (done.thr c k).st ≠ .parked) : s.orAgain c k done = done := by
  unfold State.orAgain; dsimp only; split
  · exact absurd ‹_› h
  · rfl

/-- After a completion the thread in the slot is no parked one. -/
theorem orAgain_finish (s s2 : State) (c : Nat) (k : SlotN) (next : Option Word) (len : Nat) :
    s.orAgain c k (s2.modThr c k fun t => t.finish next len) = s2.modThr c k fun t => t.finish next len :=
  orAgain_of (by simp [State.modThr, Thread.finish])

/-- A ready instruction runs its body and completes; or performs it again, when a push of it found no entry. -/
theorem run_ready {s : State} {c : Nat} {k : SlotN} {t : Thread} {f : Form} (h : s.Ready c k t f) (body : Body)
    (len : Nat) :
    run f body s len = .next (match body s c k with
      | .stop s2 => s2
      | .ok s2 r => s.orAgain c k (complete s2 c k { r with len := len })) := by
  have hi := issue_ready h
  obtain ⟨⟨hc, hh, hs⟩, -, -, -, -, hk⟩ := h
  subst hc
  simp only [run, hh, hs, Slot.thread?, runAt, hi, hk, Bool.false_eq_true, if_false] <;> cases body s s.cur.1 k <;> rfl

/-- An instruction whose guard fails only completes. -/
theorem run_off {s : State} {c : Nat} {k : SlotN} {t : Thread} {f : Form} (h : s.At c k t) (hw : f.who.allows k = true)
    (hg : f.guard ≠ 0) (hp : t.a.p (guardReg f.guard) = false) (body : Body) (len : Nat) :
    run f body s len = .next (s.modThr c k fun t => t.skip len) := by
  obtain ⟨hc, hh, hs⟩ := h
  subst hc
  have hi : issue s s.cur.1 k f = .ok s false := by
    unfold issue
    rw [hw, State.thr_of_slot hs]
    simp only [guardReg] at hp
    simp [hg, hp]
  simp [run, hh, hs, Slot.thread?, runAt, hi]

/-- With no thread there, nothing is performed. -/
theorem run_none {s : State} {f : Form} {body : Body} {len : Nat} (h : s.thread? s.cur.1 s.cur.2 = none) :
    run f body s len = .next s := by
  simp only [State.thread?] at h
  simp [run, h]

/-- Whatever it does, an instruction of a thread gives a next state. -/
theorem run_next (f : Form) (body : Body) (s : State) (len : Nat) : ∃ s', run f body s len = .next s' := by
  unfold run; dsimp only; split <;> exact ⟨_, rfl⟩

/-- A completion that writes nothing. -/
@[simp] theorem complete_nil (s : State) (c : Nat) (k : SlotN) (next : Option Word) (len : Nat) :
    complete s c k { ws := [], next := next, len := len } = s.modThr c k fun t => t.finish next len := rfl

/-- A completion that writes an unmapped x register first. -/
theorem finishWs_x {s : State} {c : Nat} {k : SlotN} {next : Option Word} {len : Nat} {r : XReg} {v : Word}
    {ws : List RegWrite} (h : (s.thr c k).a.mapped r = false) :
    finishWs s c k next len (.x r v :: ws) = finishWs (s.modThr c k fun t => t.wx r v) c k next len ws := by
  simp [finishWs, h, Thread.wx]

theorem finishWs_p (s : State) (c : Nat) (k : SlotN) (next : Option Word) (len : Nat) (r : PReg) (v : Bool)
    (ws : List RegWrite) :
    finishWs s c k next len (.p r v :: ws) = finishWs (s.modThr c k fun t => t.wp r v) c k next len ws := rfl

theorem finishWs_k (s : State) (c : Nat) (k : SlotN) (next : Option Word) (len : Nat) (r : KReg) (v : Word)
    (ws : List RegWrite) :
    finishWs s c k next len (.k r v :: ws) = finishWs (s.modThr c k fun t => t.wk r v) c k next len ws := rfl

theorem finishWs_nil (s : State) (c : Nat) (k : SlotN) (next : Option Word) (len : Nat) :
    finishWs s c k next len [] = s.modThr c k fun t => t.finish next len := rfl

/-- A ready instruction that only computes registers completes with one x register written. -/
theorem run_x {s : State} {c : Nat} {k : SlotN} {t : Thread} {f : Form} {rd : XReg} (h : s.Ready c k t f)
    (hd : rd ∈ f.dst) (v : Thread → Word) (len : Nat) :
    run f (pure_ fun t => { ws := [.x rd (v t)] }) s len = .next (s.done c k (t.wx rd (v t)) len) := by
  have hm : t.a.mapped rd = false := h.2.2.2.2.1 rd (List.mem_append_right _ hd)
  have hs := State.thr_of_slot h.1.2.2
  rw [run_ready h]
  simp only [pure_, complete, hs]
  rw [finishWs_x (by rw [hs]; exact hm), finishWs_nil, orAgain_finish]
  simp [State.modThr, hs, State.done]

/-- A thread without a chunk has nothing to commit. -/
theorem commitFirst_none {s : State} {c : Nat} {k : SlotN} {t : Thread} (hs : s.slot c k = .thread t) (h : t.chunk = none)
    (h' : t.closed = none) (hv : t.storesPending = false) : commitFirst s c k = .ok s () := by
  simp [commitFirst, State.commit, State.judgeClosed, State.thr_of_slot hs, h, h', hv]

theorem commits_none {s : State} {c : Nat} {k : SlotN} {t : Thread} (hs : s.slot c k = .thread t) (h : t.chunk = none)
    (h' : t.closed = none) (hv : t.storesPending = false) : s.Commits c k t s t :=
  ⟨commitFirst_none hs h h' hv, hs, rfl, rfl, rfl, rfl, h, h'⟩

/-- A thread that may trap takes its trap. -/
theorem trap_ready {α : Type} {s : State} {c : Nat} {k : SlotN} {t : Thread} (hs : s.slot c k = .thread t)
    (h : t.trapReady = true) (p : Trap) : (trap s c k p : Got α) = .stop (s.takeTrap c k p) := by
  simp [trap, State.thr_of_slot hs, h]

/-- A condition that holds is no wait. -/
theorem waitFor_true (s : State) (c : Nat) (k : SlotN) (w : Cond) : waitFor s c k w true = .ok s () := rfl

end Sys2Proof.Machine
end

