-- ==== Sys2Proof/Tests/Slice0.lean ====
section
/-! SUPPORT. Slice0.lean: tests of decoding, of well-formedness and of single steps, and for each statement with hypotheses a
state and operands that meet them. -/

namespace Sys2Proof.Tests

open Sys2Proof Sys2Proof.Machine

set_option maxRecDepth 100000
set_option exponentiation.threshold 2000

/-! ### Well-formedness: an ill-formed term for each check -/

theorem test_wf_refuses_missing_csr : ([.csrrw 1 0x80A 2, .csrrs 1 0 2, .csrrc 1 0xCC5 2, .csrrwi 1 0xC01 2, .csrrsi 1 0x5C4 2,
    .csrrci 1 0xFFF 2] : List Instr).all (fun i => !i.wf) = true := by decide

theorem test_wf_refuses_empty_masks : ([.fencer 0 0 1 2 3, .cntwait 0 0] : List Instr).all (fun i => !i.wf) = true := by decide

theorem test_wf_refuses_complex_type : ([.vadd .c32 1 2 3, .vsub .c32 1 2 3, .vmul .c32 1 2 3, .vfma .c32 1 2 3, .vfms .c32 1 2 3,
    .vmin .c32 1 2 3, .vmax .c32 1 2 3, .vabs .c32 1 2, .vneg .c32 1 2, .vceq .c32 1 2 3, .vclt .c32 1 2 3, .vcle .c32 1 2 3,
    .vsel .c32 1 2 3, .vredmax .c32 1 2, .vredmin .c32 1 2, .vcvt .c32 1 2] : List Instr).all (fun i => !i.wf) = true := by decide

theorem test_wf_refuses_other_types : ([.vabs .u8 1 2, .vand .f32 1 2 3, .vor .bf16 1 2 3, .vxor .f16 1 2 3, .vshl .f32 1 2 3,
    .vshr .c32 1 2 3, .vsra .u8 1 2 3] : List Instr).all (fun i => !i.wf) = true := by decide

/-- A device step is no word: it has no encoding. -/
theorem test_events_are_no_words : ([.csrWrite, .chunkCommit, .stripExecute, .moduleReset] : List Instr).all
    (fun i => !i.isWord && encode i == []) = true := by decide

/-! ### Decoding: words written from the encoding tables (R105 to R115), every field with a value of its own -/

/-- The decoder reads each word as the instruction beside it. -/
def reads (l : List (Nat × Instr)) : Bool := l.all fun e => decodeTableWord 32 e.1 == some e.2

theorem test_decode_base_1 : reads [
    (0x078A0703, .lb 14 20 0x78),
    (0x21249F03, .lh 30 9 0x212),
    (0x31B13083, .ld 1 2 0x31B),
    (0x03044283, .lbu 5 8 0x30),
    (0x52755B03, .lhu 22 10 0x527),
    (0x3E966C03, .lwu 24 12 0x3E9),
    (0x8F5E2783, .lw 15 28 2293),
    (0x0FF0000F, .fence),
    (0x05F72E93, .slti 29 14 0x5F),
    (0x69DAB693, .sltiu 13 21 0x69D),
    (0x9DA8CD93, .xori 27 17 0x9DA),
    (0x34496313, .ori 6 18 0x344),
    (0x88BAFE13, .andi 28 21 0x88B),
    (0x03139A93, .slli 21 7 49),
    (0x032E5393, .srli 7 28 50),
    (0x43C9DA13, .srai 20 19 60),
    (0xC80F0E13, .addi 28 30 3200),
    (0x757CC917, .auipc 18 0x757CC),
    (0xC21A889B, .addiw 17 21 0xC21),
    (0x01B8959B, .slliw 11 17 27)] = true := by decide

theorem test_decode_base_2 : reads [
    (0x01D3DD9B, .srliw 27 7 29),
    (0x4128519B, .sraiw 3 16 18),
    (0x1B0A06A3, .sb 16 20 429),
    (0x95881823, .sh 24 16 2384),
    (0x83C22523, .sw 28 4 2090),
    (0xB69A3DA3, .sd 9 20 2939),
    (0x41AA8C33, .sub 24 21 26),
    (0x006E9633, .sll 12 29 6),
    (0x00BA25B3, .slt 11 20 11),
    (0x007F3EB3, .sltu 29 30 7),
    (0x007CC3B3, .xor 7 25 7),
    (0x00525EB3, .srl 29 4 5),
    (0x40545EB3, .sra 29 8 5),
    (0x0091EC33, .or 24 3 9),
    (0x00E276B3, .and 13 4 14),
    (0x02EF8DB3, .mul 27 31 14),
    (0x037D1933, .mulh 18 26 23),
    (0x02D3A2B3, .mulhsu 5 7 13),
    (0x03AB3AB3, .mulhu 21 22 26),
    (0x027240B3, .div 1 4 7)] = true := by decide

theorem test_decode_base_3 : reads [
    (0x02CB59B3, .divu 19 22 12),
    (0x03FDEF33, .rem 30 27 31),
    (0x03727633, .remu 12 4 23),
    (0x011787B3, .add 15 15 17),
    (0xEE4A91B7, .lui 3 0xEE4A9),
    (0x019100BB, .addw 1 2 25),
    (0x411A093B, .subw 18 20 17),
    (0x01099EBB, .sllw 29 19 16),
    (0x0063D2BB, .srlw 5 7 6),
    (0x4063D23B, .sraw 4 7 6),
    (0x02A30DBB, .mulw 27 6 10),
    (0x024B4F3B, .divw 30 22 4),
    (0x025159BB, .divuw 19 2 5),
    (0x02FB6FBB, .remw 31 22 15),
    (0x024CF1BB, .remuw 3 25 4),
    (0x7E968063, .beq 13 9 0x3F0),
    (0x41081863, .bne 16 16 0x208),
    (0xCCE5CAE3, .blt 11 14 0xE6A),
    (0xCDEDD8E3, .bge 27 30 0xE68),
    (0x8D0F6663, .bltu 30 16 0x866)] = true := by decide

theorem test_decode_base_4 : reads [
    (0x6245F063, .bgeu 11 4 0x310),
    (0xEC6D0FE7, .jalr 31 26 0xEC6),
    (0xF0CD776F, .jal 14 0xEBB86),
    (0x00000073, .ecall),
    (0x00100073, .ebreak),
    (0xCC66B5F3, .csrrc 11 0xCC6 13),
    (0xC008D773, .csrrwi 14 0xC00 17),
    (0x5C33E773, .csrrsi 14 0x5C3 7),
    (0x8000F673, .csrrci 12 0x800 1),
    (0x5C239E73, .csrrw 28 1474 7),
    (0x5C28A373, .csrrs 6 1474 17)] = true := by decide

theorem test_decode_custom0_1 : reads [
    (0x99F2030B, .ldx 4 3 3 7 6 4),
    (0x939D090B, .ldxF 4 2 true 1 18 26),
    (0xDCDF868B, .stx 6 3 1 5 13 31),
    (0x9E1D8E8B, .stxF 4 3 true 5 1 27),
    (0x0FD4138B, .aadd true true true 7 29 8),
    (0x1F3D978B, .aswp true true true 15 19 27),
    (0x2E1B180B, .aand true true true 16 1 22),
    (0x3F2F170B, .aor true true true 14 18 30),
    (0x4E889C8B, .axor true true true 25 8 17),
    (0x5F92198B, .amax true true true 19 25 4),
    (0x6E3F968B, .amin true true true 13 3 31),
    (0x7FEF138B, .amaxu true true true 7 30 30),
    (0x8ED71B8B, .aminu true true true 23 13 14),
    (0x9E35158B, .acas true true true 11 3 10),
    (0xACEC9F8B, .afadd true true 31 14 25),
    (0xBD72140B, .afmax true true 8 23 4),
    (0xCF031D0B, .aincw true true true 26 16 6),
    (0xC0F3A90B, .pseq 6 18 7 15),
    (0xA39C238B, .psne 5 7 24 25),
    (0x44DAA70B, .pslt 2 14 21 13)] = true := by decide

theorem test_decode_custom0_2 : reads [
    (0x2677268B, .psge 1 13 14 7),
    (0x29AE248B, .psltu 1 9 28 26),
    (0xAA1EA50B, .psgeu 5 10 29 1),
    (0x4DC6A30B, .pand 2 6 13 28),
    (0xAE49AA8B, .por 5 21 19 4),
    (0x30F3A28B, .pandn 1 5 7 15),
    (0x734CA08B, .pxor 3 1 25 20),
    (0x74002D8B, .prd 3 27),
    (0x7636A00B, .pwr 3 13 3),
    (0x2159B48B, .fencer 1 1 1 19 21),
    (0x422A308B, .ldro 2 1 20 2),
    (0x64FA300B, .feclr 3 20 15),
    (0x473FB00B, .feset 2 31 19),
    (0x8809BD8B, .fetest 4 27 19),
    (0x4A03B00B, .cntwait 2 7),
    (0x8D53300B, .stnibLo 4 6 21),
    (0x4DE5308B, .stnibHi 2 10 30),
    (0x4F4DB00B, .lockr 2 27 20),
    (0x5203BC0B, .chunk 2 24 7),
    (0xC12FCA8B, .spawn 6 21 31 18)] = true := by decide

theorem test_decode_custom0_3 : reads [
    (0x42DFCB0B, .mspawn 2 22 31 13),
    (0x840A400B, .migr 4 20),
    (0x2600400B, .retire 1),
    (0x8800410B, .waitev 4 2),
    (0x2A00420B, .pairon 1 4),
    (0x2C00400B, .pairoff 1),
    (0xAE9FC00B, .rep 5 31 9),
    (0x417C500B, .qpush 2 24 23),
    (0x8207548B, .qpop 4 9 14),
    (0xE50A5E8B, .qwait 7 29 20 16),
    (0x6603588B, .qstat 3 17 6),
    (0xC882D18B, .msend 6 3 5 8),
    (0x8B50590B, .mrecv 4 18 21),
    (0xED41D00B, .barset 7 3 20),
    (0x2E00D48B, .barrive 1 9 1),
    (0x5011D00B, .barwait 2 3 1),
    (0x3201548B, .barstat 1 9 2),
    (0x9401528B, .qmap 4 1 1 2),
    (0x54065C0B, .qreg 2 2 12),
    (0xA059E00B, .mbxput 5 19 5)] = true := by decide

theorem test_decode_custom0_4 : reads [
    (0x2202E60B, .mbxget 1 12 5),
    (0x858B658B, .cpyiss 4 11 22 24),
    (0xC738E00B, .cpywait 6 17 19),
    (0x4801698B, .cpydone 2 19 2),
    (0x2000780B, .trpop 1 16),
    (0x63F57B8B, .xrdt 3 23 10 31),
    (0x255A708B, .xwrt 1 1 20 21),
    (0x2608700B, .xresume 1 16),
    (0x280C700B, .xkill 1 24),
    (0x6A32F58B, .tcswap 3 11 5 3),
    (0x2C07F00B, .dbrk 1 15),
    (0xAE00760B, .stamp 5 12),
    (0xB479B10B, .pfetch 5 2 19 7),
    (0x1000300B, .unlockr),
    (0x3000300B, .unlockrP1),
    (0x5000300B, .unlockrP2),
    (0x7000300B, .unlockrP3),
    (0x9000300B, .unlockrP4),
    (0xB000300B, .unlockrP5),
    (0xD000300B, .unlockrP6)] = true := by decide

theorem test_decode_custom0_5 : reads [
    (0xF000300B, .unlockrP7)] = true := by decide

theorem test_decode_custom1_1 : reads [
    (0x21EE812B, .vadd .bf16 2 29 30),
    (0x825B8C2B, .vsub .i8 24 23 5),
    (0x8561862B, .vmul .i8 12 3 22),
    (0x87C18EAB, .vfma .i8 29 3 28),
    (0x481D0FAB, .vfms .f16 31 26 1),
    (0x4B4089AB, .vmin .f16 19 1 20),
    (0x6D3686AB, .vmax .i32 13 13 19),
    (0x8E018A2B, .vabs .i8 20 3),
    (0x300A81AB, .vneg .bf16 3 21),
    (0x52EE81AB, .vceq .f16 3 29 14),
    (0x35E681AB, .vclt .bf16 3 13 30),
    (0x96F9832B, .vcle .i8 6 19 15),
    (0x992D87AB, .vsel .i8 15 27 18),
    (0x019891AB, .vdiv 3 17 25),
    (0x020098AB, .vsqrt 17 1),
    (0x040A152B, .vrsqrt 10 20),
    (0x060811AB, .vrcp 3 16),
    (0x080410AB, .vexp2 1 8),
    (0x0A0B9FAB, .vlog2 31 23),
    (0x0C08122B, .vsin 4 16)] = true := by decide

theorem test_decode_custom1_2 : reads [
    (0x0E0A1CAB, .vcos 25 20),
    (0x80982F2B, .vand .i8 30 16 9),
    (0xA255262B, .vor .u8 12 10 5),
    (0x8513AA2B, .vxor .i8 20 7 17),
    (0x66BEACAB, .vshl .i32 25 29 11),
    (0xA907AF2B, .vshr .u8 30 15 16),
    (0x6B66A5AB, .vsra .i32 11 13 22),
    (0xC153B4AB, .vcadd 9 7 21),
    (0xC3AD372B, .vcsub 14 26 26),
    (0xC47F3CAB, .vcmul 25 30 7),
    (0xC6D3BEAB, .vcfma 29 7 13),
    (0xC809B42B, .vcconj 8 19),
    (0xCA05BF2B, .vcmag2 30 11),
    (0xCC02B3AB, .vcexpj 7 5),
    (0x8006482B, .vld .i8 16 12),
    (0x03F1CBAB, .vlds .f32 23 3 31),
    (0x84034DAB, .vst .i8 27 6),
    (0x669847AB, .vsts .i32 15 16 9),
    (0x08D74DAB, .vgath .f32 27 14 13),
    (0x8B6848AB, .vscat .i8 17 16 22)] = true := by decide

theorem test_decode_custom1_3 : reads [
    (0x0C0DCBAB, .vldl .f32 23 27),
    (0x8E05C7AB, .vstl .i8 15 11),
    (0x70014DAB, .vbcast .i32 27 2),
    (0x922A4E2B, .vmvx .i8 28 20 2),
    (0xD534CBAB, .vins .c32 23 9 19),
    (0x0155562B, .vcfg 12 10 21),
    (0x820AD0AB, .vredadd .i8 1 21),
    (0x0407D6AB, .vredmax .f32 13 15),
    (0x660CD0AB, .vredmin .i32 1 25),
    (0x080CD42B, .vcvt .f32 8 25),
    (0x0A1D52AB, .vpack 5 26 1),
    (0x0C825AAB, .vunpk 21 4 8),
    (0xAF595AAB, .vperm .u8 21 18 21),
    (0x31F65D2B, .vslide .bf16 26 12 31),
    (0x122350AB, .vkopAnd 1 6 2),
    (0x12C3D12B, .vkopOr 2 7 4),
    (0x136151AB, .vkopXor 3 2 6),
    (0x1383D0AB, .vkopNot 1 7),
    (0x1399522B, .vkopFromx 4 18),
    (0x13A0DBAB, .vkopTox 23 1)] = true := by decide

theorem test_decode_custom1_4 : reads [
    (0x13B1532B, .vkopCount 6 2),
    (0x160054AB, .vstat 9),
    (0x1400502B, .vfence)] = true := by decide

theorem test_decode_custom2_1 : reads [
    (0xE006005B, .mcfg 7 12),
    (0xA31F8BDB, .mgang 5 23 31 17),
    (0xA59A005B, .mbld 5 20 25),
    (0x47AE015B, .mma 2 2 28 26),
    (0xC80000DB, .mzero 6 1),
    (0x2A0F015B, .mstore 1 2 30),
    (0xCC0006DB, .mstat 6 13),
    (0x4E00005B, .mwait 2),
    (0x8077905B, .ptcfg 4 15 7),
    (0xC20E905B, .ptserve 6 29),
    (0x2406905B, .ptenq 1 13),
    (0xA7DA99DB, .topen 5 19 21 29),
    (0xEA00105B, .pdone 7),
    (0xECF59FDB, .nacc 7 31 11 15),
    (0x6E7A905B, .ndown 3 21 7),
    (0x2FCC10DB, .ndownUp 1 24 28),
    (0xE00AAD5B, .sacfg 7 26 21),
    (0xC203A25B, .saddF32 6 4 7),
    (0x4216AEDB, .saddBf16 2 29 13),
    (0x2409255B, .snormRms 1 10 18)] = true := by decide

theorem test_decode_custom2_2 : reads [
    (0xE415AF5B, .snormLayer 7 30 11),
    (0x642BAF5B, .snormUnit 3 30 23),
    (0xE60620DB, .ssq 7 1 12),
    (0xA821A05B, .szero 5 3 2),
    (0x8B25A05B, .sevict 4 11 18),
    (0x8C9CA05B, .sload 4 25 9),
    (0x8E1F205B, .sexport 4 30 1),
    (0xA8799F5B, .pfork 5 30 19 7)] = true := by decide

theorem test_decode_custom3_1 : reads [
    (0x400E0D7B, .trace 2 26 28),
    (0x23A7007B, .tresume 1 14 26),
    (0x2409037B, .twait 1 6 18),
    (0x660B007B, .taccept 3 22),
    (0xE80F007B, .tignore 7 30),
    (0x4A08007B, .tterm 2 16),
    (0x4D8E88FB, .tspawn 2 17 29 24),
    (0xAE0D807B, .trsave 5 27),
    (0xD1DF80FB, .hhtinv 6 1 31 29),
    (0x81F9907B, .rsetup 4 19 31),
    (0xC28C91FB, .rcover 6 3 25 8),
    (0x84A918FB, .rdepth 4 17 18 10)] = true := by decide

/-- R94: LIMM with the literal word after it. -/
theorem test_decode_limm : decodeTableWord 64 0x123456785800228B = some (.limm 2 5 0x12345678) := by decide

/-- Words that are no instruction: all zeros, all ones, FENCE.I, WFI, a k register above 7, a type the entry does not permit. -/
theorem test_decode_refuses : ([0x00000000, 0xFFFFFFFF, 0x0000100F, 0x10500073, 0x1200042B, 0x0000202B] : List Nat).all
    (fun w => decodeTableWord 32 w == none) = true := by decide

/-! ### States for the tests -/

/-- A partition on row 0, and the thread of slot 2 of core 3 about to perform its instruction. -/
def base : State := { State.reset.boot 2 [] with cur := (3, 2) }
/-- The same for the supervisor's slot, and for the movement slot. -/
def supBase : State := { State.reset.boot 0 [] with cur := (3, 0) }
def movBase : State := { State.reset.boot 1 [] with cur := (3, 1) }

/-- The state with its thread changed, and that thread. -/
def st (f : Thread → Thread) : State := base.modThr 3 2 f
def th (f : Thread → Thread) : Thread := (st f).thr 3 2

/-- x registers set. -/
def regs (l : List (XReg × Word)) (t : Thread) : Thread := l.foldl (fun t e => t.wx e.1 e.2) t

/-- The next state of an outcome. -/
def nextOf : Host.Outcome State Fault Refusal → Option State
  | .next s => some s
  | _ => none

/-- The thread of core 3 after a step that runs one word, from a program's first instruction. -/
def after (w : Nat) (k : SlotN := 2) : Option Thread := (nextOf (step (State.reset.withFetchWord 32 w))).map fun s => s.thr 3 k

/-- The thread of slot 2 after exec. -/
def ran (i : Instr) (s : State) : Option Thread := (nextOf (exec i s)).map fun s => s.thr 3 2

/-- The state an operation goes on in, if it does. -/
def okState {α : Type} (g : Got α) : Option State :=
  match g with
  | .ok s _ => some s
  | .stop _ => none

theorem base_slot (f : Thread → Thread) : (st f).slot 3 2 = .thread (th f) := by simp [st, th]

/-- A thread of these states without a chunk has nothing to commit. -/
theorem st_commits (f : Thread → Thread) (h : (th f).chunk = none) (h' : (th f).closed = none)
    (hv : (th f).storesPending = false) : (st f).Commits 3 2 (th f) (st f) (th f) :=
  commits_none (base_slot f) h h' hv

/-! ### Steps: the word at the pc runs (R48, R102) -/

theorem test_step_addi : (after 0x00550513).map (fun t => (t.a.xr 10, t.a.pc, t.instret)) = some (5, 0x40004, 1) := by decide

theorem test_step_lui : (after 0x800000B7).map (fun t => t.a.xr 1) = some 0xFFFFFFFF80000000 := by decide

/-- A word that is no instruction traps with cause 2 and itself in `trval` (R118). -/
theorem test_step_illegal : (after 0x00000000).map (fun t => (t.st, t.tr.trcause, t.tr.trval, t.tr.trpc)) =
    some (.trapped, 2, 0, 0x40000) := by decide

theorem test_step_ecall : (after 0x00000073).map (fun t => (t.st, t.tr.trcause, t.tr.trval)) = some (.trapped, 8, 0) := by decide

/-- A load from memory waits for its reply, the pc still at it (R49). -/
theorem test_step_load_parks : (after 0x00052503).map (fun t => (t.st, t.a.pc)) = some (.parked, 0x40000) := by decide +kernel

/-- TRPOP in slot 0 waits for a record; in slot 2 it is illegal (R52, R288). -/
theorem test_step_trpop : (after 0x0000700B 0).map (fun t => t.st) = some .parked := by decide

/-- PSLT sets p1 when 0 < 0 fails: p1 stays 0, and p0 is 1 (R119, R138). -/
theorem test_step_pslt : (after 0x0400208B).map (fun t => (t.a.p 1, t.a.p 0)) = some (false, true) := by decide

/-! ### Instructions on small states -/

theorem test_add_wraps : (ran (.add 10 11 12) (st (regs [(11, 0xFFFFFFFFFFFFFFFF), (12, 2)]))).map (fun t => t.a.xr 10) =
    some 1 := by decide

theorem test_addw_sign : (ran (.addw 10 11 12) (st (regs [(11, 0x7FFFFFFF), (12, 1)]))).map (fun t => t.a.xr 10) =
    some 0xFFFFFFFF80000000 := by decide

theorem test_sra_sign : (ran (.srai 10 11 4) (st (regs [(11, 0x8000000000000000)]))).map (fun t => t.a.xr 10) =
    some 0xF800000000000000 := by decide

theorem test_mulh_signs : (ran (.mulh 10 11 12) (st (regs [(11, 0xFFFFFFFFFFFFFFFF), (12, 2)]))).map (fun t => t.a.xr 10) =
    some 0xFFFFFFFFFFFFFFFF := by decide

theorem test_mulhsu_mixed : (ran (.mulhsu 10 11 12) (st (regs [(11, 0xFFFFFFFFFFFFFFFF), (12, 0xFFFFFFFFFFFFFFFF)]))).map
    (fun t => t.a.xr 10) = some 0xFFFFFFFFFFFFFFFF := by decide

/-- A register that is source and destination is read before it is written. -/
theorem test_jalr_same : (ran (.jalr 11 11 1) (st (regs [(11, 0x50003)]))).map (fun t => (t.a.pc, t.a.xr 11)) =
    some (0x50004, 0x40004) := by decide

theorem test_x0_discards : (ran (.addi 0 0 5) (st id)).map (fun t => (t.a.xr 0, t.a.pc)) = some (0, 0x40004) := by decide

/-- A division parks the thread, its result held by the divider (R133). -/
theorem test_div_waits : (ran (.div 10 11 12) (st (regs [(11, 7)]))).map (fun t => (t.st, t.wait)) =
    some (.parked, .reply 46 true { ws := [.x 10 0xFFFFFFFFFFFFFFFF] }) := by decide

theorem test_store_own : (nextOf (exec (.sw 12 11 0) (st (regs [(11, 0xFFFFFFFE00000000), (12, 0x11223344)])))).map
    (fun s => (s.byte (spadKey 3 0), s.byte (spadKey 3 3), s.byte (spadKey 3 4))) = some (0x44, 0x11, 0) := by decide

theorem test_vcfg : (ran (.vcfg 10 11 0) (st (regs [(11, 80)]))).map (fun t => (t.a.xr 10, t.a.csr.vctl)) = some (32, 32) := by decide

theorem test_csr_vctl : (ran (.csrrw 0 0x800 11) (st (regs [(11, 0x51A30)]))).map (fun t => t.a.csr.vctl) = some 0x51A20 := by decide

theorem test_pwr_p0 : (ran (.pwr 0 11 12) (st (regs [(11, 0), (12, 0xFFFFFFFF)]))).map (fun t => t.a.pw) = some 1 := by decide

theorem test_limm_two_words : (ran (.limm 0 5 0x80000000) (st id)).map (fun t => (t.a.xr 5, t.a.pc)) =
    some (0xFFFFFFFF80000000, 0x40008) := by decide


/-- SHA3-512 of no bytes begins a6 9f (FIPS 202, R2). -/
theorem test_sha3_empty : (sha3 []).take 2 = [0xA6, 0x9F] := by decide +kernel
/-! ### Witnesses: base instructions, loads, stores, atomics -/

/-- x11 = 7 and x12 = 0xFF…FE. -/
def two : Thread → Thread := regs [(11, 7), (12, 0xFFFFFFFFFFFFFFFE)]

theorem witness_BaseArithmetic : (st two).Ready 3 2 (th two) { src := [11, 12], dst := [10] } ∧
    (st two).Ready 3 2 (th two) { src := [11], dst := [10] } ∧ (st two).Ready 3 2 (th two) { dst := [10] } := by decide
theorem witness_Division : (st two).Ready 3 2 (th two) { src := [11, 12], dst := [10] } := by decide

/-- A branch taken to an aligned and to a misaligned target, and one not taken. -/
theorem witness_ControlTransfer : (st two).Ready 3 2 (th two) { src := [11, 12] } ∧
    (st two).Ready 3 2 (th two) { src := [11], dst := [10] } ∧ (st two).Ready 3 2 (th two) { dst := [10] } ∧
    (th two).trapReady = true ∧ (th two).a.xr 11 ≠ (th two).a.xr 12 ∧
    ((th two).a.pc + (2 : BitVec 12).signExtend 64 * 2).toNat % 4 = 0 ∧
    ((th two).a.pc + (1 : BitVec 12).signExtend 64 * 2).toNat % 4 ≠ 0 := by decide

/-- Where an address of the thread's lies, and that an access of n bytes there goes ahead. -/
def goesTo (f : Thread → Thread) (a : Nat) (need : Need) (n : Nat) (tg : Target) : Bool :=
  let r := (st f).resolve 3 a need
  decide (r.2 = .ok tg) && decide (a % n = 0) && !(th f).overlaps tg.key n && (badIn r.1.bad tg.key n).isNone &&
  r.1.posted.isEmpty && decide ((r.1.core 3).c.lock = none)

/-- The thread has an open chunk once it needs one. -/
def opens (s : State) : Bool := match ensureChunk s 3 2 with
  | .ok s1 _ => (s1.thr 3 2).chunk.isSome
  | .stop _ => false

/-- Each place a load may read: memory, lane slices, own scratchpad, another's, a Slate; and a misaligned address. -/
theorem witness_LoadsRead : (st two).Ready 3 2 (th two) { src := [11], dst := [10] } ∧
    goesTo two 0x60000 .load 8 (.global ⟨0x60000, 0x60000, false⟩) = true ∧ opens ((st two).resolve 3 0x60000 .load).1 = true ∧
    goesTo two 0xFFFFFFFF0001FFF8 .load 8 (.lane (laneKey 3 0x1FFF8)) = true ∧
    goesTo two 0xFFFFFFFE00000000 .load 8 (.own 0 (spadKey 3 0)) = true ∧
    goesTo two 0xFFFFFFFD00000000 .load 8 (.remote 0 0 (spadKey 0 0)) = true ∧
    goesTo two 0xFFFFFFC000000000 .load 8 (.slate 0 (slateKey 0 0)) = true ∧
    7 % 8 ≠ 0 ∧ (th two).trapReady = true := by decide

theorem witness_StoresWrite : (st two).Ready 3 2 (th two) { src := [11, 12] } ∧
    goesTo two 0x60000 .store 8 (.global ⟨0x60000, 0x60000, false⟩) = true ∧ opens ((st two).resolve 3 0x60000 .store).1 = true ∧
    (th two).bufFull [0x60000 / 64] = false ∧
    goesTo two 0xFFFFFFFF0001FFF8 .store 8 (.lane (laneKey 3 0x1FFF8)) = true ∧ (th two).logFull 1 = false ∧
    goesTo two 0xFFFFFFFE00000000 .store 8 (.own 0 (spadKey 3 0)) = true ∧
    goesTo two 0xFFFFFFFD00000000 .store 8 (.remote 0 0 (spadKey 0 0)) = true ∧
    goesTo two 0xFFFFFFC000000000 .store 8 (.slate 0 (slateKey 0 0)) = true ∧
    (th two).storesPending = false ∧ (th two).chunk = none ∧ (th two).closed = none ∧ (th two).psc0 + 1 ≤ 0xFFFF := by decide

/-- A full and an empty word of the own scratchpad. -/
theorem witness_FullEmptyAccess : let s := { st two with full := [spadKey 3 0] }
    s.Ready 3 2 (th two) { src := [11, 12], dst := [10] } ∧ s.allFull (spadKey 3 0) 4 = true ∧ s.allFull (spadKey 3 4) 4 = false ∧
    s.place 3 0xFFFFFFFE00000000 = .own 0 (spadKey 3 0) ∧ s.place 3 0xFFFFFFFD00000000 = .remote 0 0 (spadKey 0 0) ∧
    s.Commits 3 2 (th two) s (th two) := by
  and_intros <;> first | decide | (apply commits_none <;> decide)

theorem witness_AtomicsUpdate : (st two).Ready 3 2 (th two) { src := [11, 12, 10], dst := [10] } ∧
    goesTo two 0xFFFFFFFE00000000 .store 8 (.own 0 (spadKey 3 0)) = true ∧
    goesTo two 0x60000 .store 8 (.global ⟨0x60000, 0x60000, false⟩) = true ∧
    (st two).Commits 3 2 (th two) (st two) (th two) ∧ (st two).soloLines = none ∧
    (st two).ownsLine 0x1800 = true ∧ (st two).shUnacked = [] ∧
    (th two).psc0 = 0 ∧ (th two).psc1 = 0 ∧ (th two).psc2 = 0 ∧ (th two).overlaps 0 (2 ^ 64) = false := by
  and_intros <;> first | decide | (apply st_commits <;> decide)

/-! ### Witnesses: traps, system instructions, CSRs, guards, repeats -/

/-- A thread in a repeat of 3 passes of its body at 0x40000 to 0x40008, trapped at an address. -/
def inRepeat (n : Nat) (trpc : Word) (t : Thread) : Thread :=
  { t with st := .trapped, tr := ⟨2, 0, trpc, 0⟩, a := { t.a with
      repEnd := 0x40008, csr := { t.a.csr with repcnt := BitVec.ofNat 64 (2 * 2 ^ 32 + n), repbody := 0x40000 } } }

theorem witness_TrapsTakenAndLeft : base.slot 3 2 = .thread (th id) ∧ (th id).chunk = none ∧ (th id).closed = none ∧
    (th id).paired = false ∧ base.mayStamp 3 0 = true ∧
    (base.core 3).c.heldRecs = [] ∧ (base.core 3).c.trapQ.length < 16 ∧ (base.core 3).c.trqbase = 0 ∧
    (inRepeat 3 0x40004 (th id)).a.csr.count = 3 ∧ (inRepeat 1 0x40008 (th id)).a.csr.count = 1 ∧
    (inRepeat 3 0x40000 (th id)).tr.trpc.toNat < (inRepeat 3 0 (th id)).a.repEnd.toNat ∧
    (inRepeat 3 0x3FFFC (th id)).tr.trpc.toNat < (inRepeat 3 0 (th id)).a.csr.repbody.toNat ∧
    (inRepeat 3 0x4000C (th id)).a.repEnd.toNat ≤ (inRepeat 3 0x4000C (th id)).tr.trpc.toNat := by decide

/-- FENCE with nothing outstanding, and with a posted operation outstanding. -/
theorem witness_SystemCallsAndFence : let f (t : Thread) : Thread := { t with psc1 := 1 }
    base.Ready 3 2 (th id) {} ∧ (th id).trapReady = true ∧ (st id).Commits 3 2 (th id) (st id) (th id) ∧
    (st id).engineBusy ((th id).ref 3) = false ∧ (th id).vq = [] ∧
    (st f).Ready 3 2 (th f) {} ∧ (st f).Commits 3 2 (th f) (st f) (th f) ∧ (th f).psc1 ≠ 0 := by
  and_intros <;> first | decide | (apply st_commits <;> decide)

/-- A strip that no one executes yet. -/
def aStrip : Strip :=
  { instr := .vadd .i32 1 2 3, odd := false, vctl := 32, scalar := 0, scalar2 := 0, pc := 0x3FFFC, word := 0, issued := 0, no := 0
    done := none, flags := 0, lanes := List.replicate 5 none, last := true, els := [], logged := false, alone := false, away := false }

/-- A number that no CSR has, and numbers that CSRs have. -/
theorem witness_CsrInstructions_numbers : csrExists (immI 0x80A510F3) = false ∧ fld 0x80A510F3 0 7 = 0x73 ∧
    fld 0x80A510F3 12 3 ≠ 0 ∧ ([0x800, 0x801, 0x807, 0x808, 0x809, 0xC00, 0xCC6, 0x5C0, 0x5C1, 0x5C2, 0x5C3].all csrExists) = true := by
  decide

/-- The user CSRs from 0x800 to 0x809, `vstat` with and without strips, a repeat set up and not, the read-only range at its
lowest number, the supervisor's own. -/
theorem witness_CsrInstructions : let v (t : Thread) : Thread := { t with vq := [aStrip] }
    (∀ n ∈ [0x800, 0x801, 0x807, 0x808, 0x809, 0xC00, 0xCC6],
      base.Ready 3 2 (th id) { who := csrWho n, src := [11], dst := [10] }) ∧ (th id).trapReady = true ∧
    (st v).Ready 3 2 (th v) { who := csrWho 0x801, src := [11], dst := [10] } ∧ (th v).vq ≠ [] ∧
    (((th id).a.advance none 4).csr.write false 0x807 0x100000000).count = 0 ∧
    (((th id).a.advance none 4).csr.write false 0x807 0x100000001).count ≠ 0 ∧
    (base.bodyEnd 3 1 0x40000).2 = .ok 0x40004 ∧
    (∀ n ∈ [0x5C0, 0x5C1, 0x5C2, 0x5C3], supBase.Ready 3 0 (supBase.thr 3 0) { who := csrWho n, src := [11], dst := [10] }) := by decide

theorem witness_CsrFieldsAndReads : base.slot 3 2 = .thread (th id) ∧ (base.core 3).c.lock = none := by decide

theorem witness_GuardedOffInstructions : let i : Instr := .limm 1 10 5
    base.At 3 2 (th id) ∧ (whoOf i).allows 2 = true ∧ guardOf i ≠ 0 ∧ (th id).a.p (guardReg (guardOf i)) = false := by decide

/-- TRPOP outside slot 0, CPYISS outside slot 1, SPAWN in slot 0. -/
theorem witness_SlotPrivilege : base.At 3 2 (th id) ∧ (whoOf (.trpop 0 10)).allows 2 = false ∧ (whoOf (.cpyiss 0 10 11 12)).allows 2 = false ∧
    (th id).trapReady = true ∧ supBase.At 3 0 (supBase.thr 3 0) ∧ (whoOf (.spawn 0 10 11 12)).allows 0 = false ∧
    (supBase.thr 3 0).trapReady = true := by decide

/-- The end of a pass that is not the last, and of the last one. -/
theorem witness_CompletionAdvances : let t (n : Nat) : Thread := { inRepeat n 0 (th id) with a := { (inRepeat n 0 (th id)).a with pc := 0x40004 } }
    (t 3).a.pc + BitVec.ofNat 64 4 = (t 3).a.repEnd ∧ (t 3).a.csr.count = 3 ∧ (t 1).a.csr.count = 1 ∧ (th id).a.csr.count = 0 := by decide

theorem witness_PredicatesAndLiterals : base.Ready 3 2 (th id) { src := [11, 12] } ∧ base.Ready 3 2 (th id) {} ∧
    base.Ready 3 2 (th id) { dst := [10] } ∧ (1 : PReg) ≠ 0 ∧ (2 : PReg) ≠ 1 := by decide

/-- A REP in a repeat, one that starts a repeat, one with an empty body. -/
theorem witness_RepeatSetup : (st (inRepeat 3 0)).Ready 3 2 (th (inRepeat 3 0)) { src := [11, 12] } ∧
    (th (inRepeat 3 0)).a.csr.count ≠ 0 ∧ (th (inRepeat 3 0)).trapReady = true ∧ base.Ready 3 2 (th id) { src := [11, 12] } ∧
    (th id).a.csr.count = 0 ∧ (base.bodyEnd 3 1 0x40004).2 = .ok 0x40008 ∧ (base.bodyEnd 3 0 0x40004).2 = .ok 0x40004 := by decide

/-! ### Witnesses: the memory-system group -/

/-- A read of the sampler path delivered these bytes. -/
def sampledAs (r : Except AccErr (List Byte)) (bs : List Byte) : Bool := match r with
  | .ok b => b == bs
  | .error _ => false

theorem witness_SamplerLoadAndFences : let f := regs [(11, 0x60000), (12, 64)]
    let p (t : Thread) : Thread := { t with psc1 := 3 }
    (st f).Ready 3 2 (th f) { src := [11, 12], dst := [10] } ∧ sampledAs ((st f).sampleAt 3 0x60000 8 .sampler).2 (List.replicate 8 0) = true ∧
    (th f).trapReady = true ∧ (th f).psc1 = 0 ∧ (st p).Ready 3 2 (th p) {} ∧ (th p).psc1 ≠ 0 ∧
    (st f).Commits 3 2 (th f) (st f) (th f) ∧ (st f).engineIn ((th f).ref 3) 0x60000 64 = false ∧
    (st f).postedIn ((th f).ref 3) 0x60000 64 = false ∧ (st f).shUnacked = [] ∧ (st f).partOf 3 = some bootPart := by
  and_intros <;> first | decide | (apply st_commits <;> decide)

theorem witness_FullEmptyAndNibbles : let f := regs [(11, 0xFFFFFFFE00000000), (12, 64)]
    (st f).Ready 3 2 (th f) { src := [11, 12] } ∧ (st f).place 3 0xFFFFFFFE00000000 = .own 0 (spadKey 3 0) ∧
    (st f).place 3 0xFFFFFFFD00000000 = .remote 0 0 (spadKey 0 0) ∧ 64 ≤ (st f).partLeft 3 (.own 0 (spadKey 3 0)) ∧
    ((st f).core 3).c.lock = none ∧ (st f).Commits 3 2 (th f) (st f) (th f) ∧ (th f).chunk = none ∧ (th f).psc0 + 1 ≤ 0xFFFF := by
  and_intros <;> first | decide | (apply st_commits <;> decide)

/-- The lock free, held by the own slot, held by another. -/
theorem witness_LocksChunksPrefetch : let f := regs [(11, 0xFFFFFFFE00000000), (12, 64)]
    let l (k : SlotN) : State := (st f).modCtx 3 fun x => { x with lock := some ⟨k, 0, 64⟩ }
    (st f).Ready 3 2 (th f) { src := [11, 12], dst := [10] } ∧ 0xFFFFFFFE00000000 + 64 ≤ 0xFFFFFFFE00000000 + ((st f).share 3).2 ∧
    (st f).Commits 3 2 (th f) (st f) (th f) ∧ ((st f).core 3).c.lock = none ∧
    (l 2).Ready 3 2 (th f) { src := [11, 12] } ∧ (l 2).Commits 3 2 (th f) (l 2) (th f) ∧
    (l 4).Ready 3 2 (th f) { src := [11, 12] } ∧ (l 4).Commits 3 2 (th f) (l 4) (th f) ∧ (th f).trapReady = true ∧
    (let g (t : Thread) : Thread := { t with a := { t.a with pw := 0xFFFFFFFF } }
     ∀ e ∈ [(0 : Guard), 1, 2, 3, 4, 5, 6, 7], (st g).Ready 3 2 (th g) { guard := e }) := by
  and_intros <;> first | decide | (apply st_commits <;> decide) | (apply commits_none <;> decide)

/-! ### Witnesses: chunks and threads -/

/-- A chunk that has stored a byte to memory and one to the own scratchpad. -/
def aChunk (t : Thread) : Chunk :=
  { start := t.a, startHeld := t.held, openSeq := 0, insns := 1, reads := [], writes := [0x1800], shared := [], buf := [(0x60000, 5)]
    undo := [[(spadKey 3 0, 9)]], solo := false, limit := 384, no := 1 }

theorem witness_ChunksCommittedOrSquashed : let f (t : Thread) : Thread := { t with chunk := some (aChunk t) }
    (st f).slot 3 2 = .thread (th f) ∧ (th f).chunk = some (aChunk (th f)) ∧ (th f).closed = none ∧
    (okState (commitFirst (st f) 3 2)).isSome = true ∧ (aChunk (th f)).writes ≠ [] ∧
    (st id).Commits 3 2 (th id) (st id) (th id) := by
  and_intros <;> first | decide | (apply st_commits <;> decide)

/-- A launch whose slot mask names slots 2 and 3, and whose migrant mask names slot 4. -/
def aLaunch : Launch :=
  { id := 7, d := [0, 0, 0, 0x00100C0001000101] ++ List.replicate 12 0, order := 0, taken := [0], placed := [0], preds := []
    eff := [(0, 4, 0)], seeds := [], ending := none }
def inLaunch (f : Thread → Thread) : State :=
  (st fun t => { f t with launch := 7 }).modPart 0 fun p => { p with launches := [aLaunch] }
def lth (f : Thread → Thread) : Thread := (inLaunch f).thr 3 2

theorem lth_commits (f : Thread → Thread) (hs : (inLaunch f).slot 3 2 = .thread (lth f)) (h : (lth f).chunk = none)
    (h' : (lth f).closed = none) (hv : (lth f).storesPending = false) :
    (inLaunch f).Commits 3 2 (lth f) (inLaunch f) (lth f) := commits_none hs h h' hv

/-- SPAWN for its own handle; with a free slot of the launch's mask; with a misaligned entry. -/
theorem witness_SpawnBinds : let f := regs [(11, 0x50000), (12, 1)]
    (inLaunch f).Ready 3 2 (lth f) { who := .user, src := [11, 12], dst := [10] } ∧
    (inLaunch f).Ready 3 2 (lth f) { who := .user, src := [0, 0], dst := [10] } ∧
    (inLaunch f).Commits 3 2 (lth f) (inLaunch f) (lth f) ∧
    (inLaunch f).freeSlot 3 ((inLaunch f).maskBit 3 7 false) = some 3 ∧ (inLaunch f).freeSlot 3 (fun _ => true) = some 3 ∧
    (lth f).trapReady = true := by
  and_intros <;> first | decide | (apply lth_commits <;> decide)

theorem witness_MigrantsSent : let f := regs [(11, 0xFFFFFFFD00000000), (12, 0x50000)]
    (inLaunch f).Ready 3 2 (lth f) { who := .user, src := [11, 12], dst := [10] } ∧ (inLaunch f).noMigrants 3 (lth f) = false ∧
    (inLaunch f).place 3 0xFFFFFFFD00000000 = .remote 0 0 (spadKey 0 0) ∧ (lth f).migr.out = 0 ∧
    (inLaunch f).Commits 3 2 (lth f) (inLaunch f) (lth f) ∧ (lth f).psc0 = 0 ∧ (lth f).psc1 = 0 ∧ (lth f).psc2 = 0 ∧ (lth f).vq = [] ∧
    (st f).Ready 3 2 (th f) { who := .user, src := [11, 12], dst := [10] } ∧ (st f).noMigrants 3 (th f) = true ∧
    (th f).trapReady = true := by
  and_intros <;> first | decide | (apply lth_commits <;> decide)

/-- WAITEV with no mask, with an event pending, and with none. -/
theorem witness_RetireAndWaitev : let m (e : BitVec 8) (t : Thread) : Thread :=
      { t with evl := e, a := { t.a with csr := { t.a.csr with evmask := 0x40 } } }
    base.Ready 3 2 (th id) { who := .user, dst := [10] } ∧ (st id).Commits 3 2 (th id) (st id) (th id) ∧ (th id).vq = [] ∧
    (th id).regs = [] ∧ (th id).regsOdd = [] ∧ (th id).deferred = [] ∧ (th id).migr.migrant = false ∧ (base.core 3).swapped = [] ∧ (base.core 3).c.runQ = [] ∧ (th id).a.csr.evmask = 0 ∧
    (st (m 0x40)).Ready 3 2 (th (m 0x40)) { dst := [10] } ∧
    (st (m 0x40)).events 3 (th (m 0x40)) &&& (th (m 0x40)).a.csr.evmask.toNat ≠ 0 ∧
    (st (m 0)).Ready 3 2 (th (m 0)) { dst := [10] } ∧
    (st (m 0)).events 3 (th (m 0)) &&& (th (m 0)).a.csr.evmask.toNat = 0 :=
  ⟨by decide, st_commits _ (by decide) (by decide) (by decide), by and_intros <;> decide⟩

/-- PAIRON beside an empty slot, beside a thread parked in PAIRON, beside a runnable one; PAIROFF of a pair. -/
theorem witness_PairsJoinAndSplit :
    let o : Thread := { th id with serial := 2, st := .parked, wait := .cond (.partner 10) }
    let s2 := base.setThr 3 3 o
    let s3 := base.setThr 3 3 { o with st := .runnable, wait := .none }
    let p (t : Thread) : Thread := { t with paired := true }
    let s4 := (st p).setSlot 3 3 .odd
    base.Ready 3 2 (th id) { who := .user, dst := [10] } ∧ (st id).Commits 3 2 (th id) (st id) (th id) ∧ base.slot 3 3 = .empty ∧
    s2.Ready 3 2 (th id) { who := .user, dst := [10] } ∧ s2.Commits 3 2 (th id) s2 (th id) ∧ s2.slot 3 (pairMate 2) = .thread o ∧
    (s2.core 3).removed.getLsbD 3 = false ∧ s3.Ready 3 2 (th id) { who := .user, dst := [10] } ∧ s3.Commits 3 2 (th id) s3 (th id) ∧
    s4.Ready 3 2 (th p) { who := .user } ∧ s4.Commits 3 2 (th p) s4 (th p) ∧ (th p).vq = [] := by
  and_intros <;> first | decide | (apply st_commits <;> decide) | (apply commits_none <;> decide)

/-! ### Witnesses: queues, messages, mailboxes, barriers, copies -/

/-- Whether an operation goes on in the state it started in. -/
def stays {α : Type} (g : Got α) (s : State) : Bool := match g with
  | .ok s' _ => decide (s' = s)
  | .stop _ => false

/-- A local queue q0 of core 3 that holds two values. -/
def queued (f : Thread → Thread) : State := (st f).modCtx 3 fun x =>
  { x with lq := x.lq.set 0 { Queue.reset with entries := [5, 6], tail := 2 } }

/-- A queue with entries, with none, with a pop held; QWAIT for a quantity that is there and for one that is not. -/
theorem witness_QueuesAndTheirRegisters : let f := regs [(11, 0x300), (12, 2)]
    let s := queued f
    (s.queue (.lq 3 0)).entries = [5, 6] ∧ (s.queue (.lq 3 0)).count = 2 ∧ (s.queue (.lq 3 0)).pushes = [] ∧
    (base.queue (.lq 3 0)).count = 0 ∧ (base.queue (.lq 3 0)).pops = [] ∧
    s.Ready 3 2 (th f) { src := [11, 12], dst := [10] } ∧ qref 3 ((th f).a.xr 11) = some (.lq 3 0) ∧
    (s.queue (.lq 3 0)).free = 14 ∧ (th f).trapReady = true ∧
    (s.setRegs 3 2 (.lq 3 0) true false).isSome = true ∧ (th f).a.mapByte 0 < 128 := by decide

/-- A queue with room and one without, a value to pop and none, a handle that names no queue. -/
theorem witness_PushAndPop : let f := regs [(11, 0x300), (12, 2), (13, 0x800)]
    let s := queued f
    s.Ready 3 2 (th f) { src := [11, 12], dst := [10] } ∧ qref 3 ((th f).a.xr 11) = some (.lq 3 0) ∧ qref 3 ((th f).a.xr 13) = none ∧
    s.sentTo ((th f).ref 3) 3 = false ∧ s.queueLocked (.lq 3 0) false (some (3, 2)) = none ∧ s.queueTrap 3 0x300 true = none ∧
    s.queueTrap 3 0x300 false = none ∧ (th f).owed = none ∧ QRef.ownLocal (.lq 3 0) 3 = true ∧ QRef.ownLocal (.cq 0 0) 3 = false ∧
    ({ th f with owed := some 0x300 } : Thread).owed = some 0x300 ∧ s.Commits 3 2 (th f) s (th f) ∧ (th f).psc2 + 1 ≤ 0xFFFF ∧ (s.queue (.lq 3 0)).room = true ∧
    (s.takePop (.lq 3 0)).isSome = true ∧ s.takePop (.lq 3 1) = none ∧ (th f).storesPending = false ∧
    ({ Queue.reset with entries := List.replicate 16 0, tail := 16 } : Queue).room = false ∧ (th f).trapReady = true := by
  and_intros <;> first | decide | (apply commits_none <;> decide)

/-- A thread whose x28 and x29 are mapped to two queues of its core with entries, and whose x30 is mapped to an empty one. -/
def mapping (t : Thread) : Thread := { t with a := { t.a with csr := { t.a.csr with qmap := 0x828180 } } }

/-- Its state. -/
def mapped : State := (st mapping).modCtx 3 fun x =>
  { x with lq := (x.lq.set 0 { Queue.reset with entries := [5, 6], tail := 2 }).set 1 { Queue.reset with entries := [7], tail := 1 } }

/-- Two mapped sources and a mapped destination; one that waits at its empty queue, of a core's own and of a cluster; a refused
register; the read-only CSRs. -/
theorem witness_MappedRegisters :
    (mapped.Maps 3 2 (th mapping) { src := [28, 29], dst := [28] } mapped (th mapping) ∧
      ∃ s2 w, State.Pops 3 2 mapped (th mapping) [(28, 5), (29, 7)] s2 w ∧ s2.strikesNow 3 2 = false ∧ (s2.queue (.lq 3 0)).room = true) ∧
    mapped.Maps 3 2 (th mapping) { src := [28], dst := [10] } mapped (th mapping) ∧
    mapped.Maps 3 2 (th mapping) { dst := [29] } mapped (th mapping) ∧
    mapped.Maps 3 2 (th mapping) { src := [29, 29] } mapped (th mapping) ∧
    (mapped.Maps 3 2 (th mapping) { src := [30], dst := [10] } mapped (th mapping) ∧ mapped.takePop (.lq 3 2) = none ∧
      qref 3 ((th mapping).a.mapHandle 3 30) = some (.lq 3 2) ∧ mapped.queueLocked (.lq 3 2) false (some (3, 2)) = none) := by
  have m (f : Form) : f ∈ [({ src := [28, 29], dst := [28] } : Form), { src := [28], dst := [10] }, { dst := [29] },
      { src := [29, 29] }, { src := [30], dst := [10] }] → mapped.Maps 3 2 (th mapping) f mapped (th mapping) := by
    have c : mapped.Commits 3 2 (th mapping) mapped (th mapping) := by apply commits_none <;> decide
    intro h
    simp only [List.mem_cons, List.not_mem_nil, or_false] at h
    rcases h with rfl | rfl | rfl | rfl | rfl <;>
      exact ⟨by decide, by decide, by decide, by decide, by decide, c, by decide, by decide⟩
  refine ⟨⟨m _ (by simp), _, _, .popped (q := .lq 3 0) ?_ ?_ ?_ ?_ rfl ?_ (.popped (q := .lq 3 1) ?_ ?_ ?_ ?_ rfl ?_ (.none ?_)), ?_, ?_⟩,
    m _ (by simp), m _ (by simp), m _ (by simp), m _ (by simp), by decide, by decide, by decide⟩ <;> decide

/-- A message to the thread itself, one to no thread; a message waiting and none; a mailbox full and empty, here and elsewhere. -/
theorem witness_MessagesAndMailboxes : let f := regs [(11, 0x10000001A), (12, 9), (13, 0x380), (14, 0x080), (15, 0xFFFFFFFFFFFFFFFF)]
    let m : Msg := { dst := ⟨3, 1⟩, src := 0, sender := ⟨3, 1⟩, tag := 4, payload := 9, launch := 0, orphan := false }
    let s := (st f).modCtx 3 fun x => { x with inbox := [m], mbx := x.mbx.set 1 { val := some 3, puts := [], gets := [] } }
    (st f).Ready 3 2 (th f) { src := [11, 12], dst := [10] } ∧ (st f).refOf ((th f).a.xr 11) = some ⟨3, 1⟩ ∧
    (st f).refOf ((th f).a.xr 15) = none ∧ (st f).Commits 3 2 (th f) (st f) (th f) ∧ ((st f).core 3).c.outbox.length < 8 ∧
    s.Ready 3 2 (th f) { src := [11, 12], dst := [10, 13] } ∧ s.Commits 3 2 (th f) s (th f) ∧ (s.core 3).c.nextMsg 2 1 = some m ∧
    ((st f).core 3).c.nextMsg 2 1 = none ∧ qref 3 ((th f).a.xr 13) = some (.mbx 3 0) ∧ qref 3 ((th f).a.xr 14) = some (.mbx 0 0) ∧
    ((st f).core 3).c.mbx[0].val = none ∧ (s.core 3).c.mbx[1].val = some 3 ∧ (st f).sentTo ((th f).ref 3) 3 = false ∧ s.sentTo ((th f).ref 3) 3 = false ∧ (th f).psc2 + 1 ≤ 0xFFFF ∧
    (th f).trapReady = true := by
  and_intros <;> first | decide | (apply st_commits <;> decide) | (apply commits_none <;> decide)

/-- An armed register of core 3 alone, whose slot 2 has and has not arrived; a configuration that arms one; one that is refused. -/
theorem witness_BarrierInstructions : let f := regs [(12, 0x0000000401030100)]
    let b (a : BitVec 8) : Barrier := { Barrier.reset with armed := true, row0 := 0, rows := 1, col0 := 3, cols := 1, slots := 4, arr := a, gen := 5 }
    let s (a : BitVec 8) : State := (st f).setBar 3 1 (b a)
    (st f).Ready 3 2 (th f) { src := [12], dst := [10] } ∧ (st f).Commits 3 2 (th f) (st f) (th f) ∧
    (th f).a.xr 12 &&& 0xFFFFFF00E0F0C0E0#64 = 0 ∧ (st f).barParked 3 0 = false ∧ ((st f).bar 3 0).armed = false ∧
    ((st f).barConfig 3 ((th f).a.xr 12)).isSome = true ∧ (st f).barConfig 3 0x0000000401030200 = none ∧
    (s 0).Ready 3 2 (th f) { src := [12], dst := [10] } ∧ (s 0).Commits 3 2 (th f) (s 0) (th f) ∧ ((s 0).bar 3 1).slots.getLsbD 2 = true ∧
    (s 4).Commits 3 2 (th f) (s 4) (th f) ∧ ((s 4).bar 3 1).arr.getLsbD 2 = true ∧ barPassed 5 4 = true ∧ barPassed 5 5 = false ∧
    (th f).trapReady = true := by
  and_intros <;> first | decide | (apply st_commits <;> decide) | (apply commits_none <;> decide)

/-- A descriptor in the own scratchpad of the movement slot: one row of 64 bytes. -/
theorem witness_CopiesIssuedAwaited : let t := (movBase.thr 3 1).wx 11 0xFFFFFFFE00000000
    let s := (movBase.setThr 3 1 t).poke (spadKey 3 0) (leBytes 8 0x60000 ++ leBytes 8 0x61000 ++ leBytes 8 (2 ^ 32 + 64))
    s.Ready 3 1 t { who := .movement, src := [11, 12], dst := [10] } ∧ s.Commits 3 1 t s t ∧ (t.a.xr 12).toNat = 0 ∧
    s.resolve 3 (t.a.xr 11).toNat .load = (s, .ok (.own 0 (spadKey 3 0))) ∧ t.overlaps (spadKey 3 0) 64 = false ∧
    badIn s.bad (spadKey 3 0) 64 = none ∧ (s.core 3).c.lock = none ∧
    (copyJob (s.bytes (spadKey 3 0) 64) 0 (t.ref 3) 1 t.launch).isSome = true ∧ (s.cluster (clusterOf 3)).jobs.length < 32 ∧
    (∀ d < 8, d ≠ 3 → s.awaitsJob d = false) ∧
    (let f := regs [(12, 1)]
     let r := (st f).modCluster 0 fun q => { q with chans := q.chans.set 0 { q.chans[0] with last := 1 } }
     r.Ready 3 2 (th f) { src := [11, 12], dst := [10] } ∧ r.Commits 3 2 (th f) r (th f) ∧
     ((r.cluster 0).chans[0]).last = 1 ∧ ((r.core 3).c.cpydone[0]).toNat < 1 ∧ (th f).trapReady = true) := by
  and_intros <;> first | decide | (apply commits_none <;> decide)

/-! ### Witnesses: the supervisor, debug, stamps -/

/-- The supervisor of core 3, with x11 the handle of the thread y of slot 2. -/
def supOver (y : Thread) (f : Thread → Thread) : State := (supBase.modThr 3 0 f).setThr 3 2 { y with serial := 9 }
def supThr (y : Thread) (f : Thread → Thread) : Thread := (supOver y f).thr 3 0
/-- A trapped thread. -/
def trapped : Thread := { th id with serial := 9, st := .trapped, tr := ⟨8, 0, 0x40000, 0⟩ }

/-- A record to pop and none; a handle that names the trapped thread, one that names none. -/
theorem witness_RecordsPoppedAndStateAccess : let f := regs [(11, 0x90000001A), (12, 33), (13, 0xFFFFFFFFFFFFFFFF)]
    let s := supOver trapped f
    let t := supThr trapped f
    let r : TrapRec := ⟨0, 0, 0, 8, 0x1A, 0x40000, 0, 0, 0, 0, 0x73, 0x90000001A⟩
    let s2 := s.modCtx 3 fun x => { x with trapQ := [r] }
    s.Ready 3 0 t { who := .sup, src := [11, 12, 13], dst := [10] } ∧ s.Commits 3 0 t s t ∧ (s.core 3).c.trapQ = [] ∧
    s2.Ready 3 0 t { who := .sup, dst := [10] } ∧ s2.Commits 3 0 t s2 t ∧ (s2.core 3).c.trapQ = [r] ∧ (s2.core 3).c.heldRecs = [] ∧
    s.peer 3 (t.a.xr 11) = some (.bound 2 trapped) ∧ s.slot 3 2 = .thread trapped ∧ stripState 33 = false ∧
    s.peer 3 (t.a.xr 13) = none ∧ t.trapReady = true := by
  and_intros <;> first | decide | (apply commits_none <;> decide)

theorem witness_ThreadsResumedKilledSwapped : let f := regs [(11, 0x90000001A), (12, 2), (13, 0x8000000000000000)]
    let s := supOver trapped f
    let t := supThr trapped f
    s.Ready 3 0 t { who := .sup, src := [11] } ∧ s.Commits 3 0 t s t ∧ isEngine (t.a.xr 11) = false ∧
    s.peer 3 (t.a.xr 11) = some (.bound 2 trapped) ∧ trapped.a.endPend = false ∧ isEngine (t.a.xr 13) = true ∧
    s.engineOf 3 (t.a.xr 13) = none ∧ t.trapReady = true ∧ s.Ready 3 0 t { who := .sup, src := [12, 0], dst := [10] } ∧
    (t.a.xr 12).toNat = 2 ∧ (s.core 3).removed.getLsbD 2 = false ∧ s.peer 3 0 = none ∧ trapped.vq = [] ∧
    (s.core 3).swapped.length < 32 ∧ s.swapStall 3 = none ∧ s.slot 3 4 = .empty ∧ (s.fill 3).slot 3 0 = .thread t :=
  ⟨by decide, commits_none (by decide) (by decide) (by decide) (by decide), by and_intros <;> decide⟩

/-- DBRK in and out of a session; a source that may draw a stamp and one that has drawn 8 in the rot. -/
theorem witness_DebugBreakAndStamps : let s := base.modPart 0 fun p => { p with session := some ⟨1000, 1, false, 0⟩ }
    let w := base.modCore 3 fun x => { x with stamps := ⟨8, base.rot, 8⟩ }
    base.Ready 3 2 (th id) { src := [11], dst := [10] } ∧ base.partOf 3 = some bootPart ∧ bootPart.session = none ∧ (th id).trapReady = true ∧
    s.Ready 3 2 (th id) { src := [11] } ∧ (s.partOf 3).bind (·.session) = some ⟨1000, 1, false, 0⟩ ∧ s.Commits 3 2 (th id) s (th id) ∧
    (st id).Commits 3 2 (th id) (st id) (th id) ∧ base.heldStamp 3 0 = none ∧ (base.core 3).stamps.ready base.rot = true ∧
    w.Ready 3 2 (th id) { dst := [10] } ∧ w.Commits 3 2 (th id) w (th id) ∧ (w.core 3).stamps.ready w.rot = false ∧
    StampSrc.ready ⟨0xFFFF, 4, 7⟩ 4 = true := by
  and_intros <;> first | decide | (apply commits_none <;> decide)

/-! ### Witnesses: vectors and matrices -/

/-- A thread with vector length 32 and with x11 in the own scratchpad. -/
def vec (t : Thread) : Thread := (regs [(11, 0xFFFFFFFE00000000), (12, 4)] t).wx 13 0xFFFFFFFE00000001 |> fun t =>
  { t with a := { t.a with csr := { t.a.csr with vctl := 32 } } }

/-- Types that the entries permit and the type that VCVT refuses. -/
theorem witness_VectorIssue : let c (t : Thread) : Thread := { t with a := { t.a with csr := { t.a.csr with vctl := 0x6020 } } }
    (st vec).Ready 3 2 (th vec) { src := [11, 12] } ∧ (th vec).pendingStrips + (th vec).stripsFor ≤ 8 ∧
    dtypeOf (th vec).a.csr.vctl ≠ .c32 ∧ (st c).Ready 3 2 (th c) { src := [11, 12] } ∧
    (th c).pendingStrips + (th c).stripsFor ≤ 8 ∧ dtypeOf (th c).a.csr.vctl = .c32 ∧ (th c).trapReady = true := by decide

/-- 32 words in the own scratchpad, and a misaligned base. -/
theorem witness_VectorMemoryIssue : (st vec).Ready 3 2 (th vec) { src := [11, 12] } ∧
    (th vec).pendingStrips + (th vec).stripsFor ≤ 8 ∧ menOf (th vec).a.csr.vctl = false ∧ (th vec).vPending 4 = false ∧
    activeLanes (th vec).a (th vec).a.csr.vctl .i32 0 64 = List.range 32 ∧
    (∀ l < 32, (st vec).resolve 3 (0xFFFFFFFE00000000 + 4 * l) .load = (st vec, .ok (.own (4 * l) (spadKey 3 (4 * l)))) ∧
      (st vec).resolve 3 (0xFFFFFFFE00000000 + 4 * l) .store = (st vec, .ok (.own (4 * l) (spadKey 3 (4 * l))))) ∧
    ((st vec).core 3).c.lock = none ∧ (st vec).bad = [] ∧ (th vec).chunk = none ∧ (th vec).psc0 ≤ 0xFFFF ∧
    ((List.range 32).foldl (fun ls l => addLine ls ((spadKey 3 (4 * l)) / 64)) []).length ≤ 32 ∧ (th vec).trapReady = true ∧
    ((th vec).a.xr 13).toNat % 4 ≠ 0 ∧ ((th vec).a.xr 11).toNat % 4 = 0 := by decide

/-- The state after the addresses of some lanes are checked in order, if each has the place that tg gives it. -/
def located (c : Nat) (need : Need) (tg : Nat → Target) : State → List (Nat × Nat) → Option State
  | s, [] => some s
  | s, e :: es => match s.resolve c e.2 need with
    | (s0, .ok p) => if p = tg e.1 then located c need tg s0 es else none
    | _ => none

theorem locates_of_located (c : Nat) (need : Need) (tg : Nat → Target) (es : List (Nat × Nat)) (s s1 : State)
    (h : located c need tg s es = some s1) : State.Locates c need tg s es s1 := by
  induction es generalizing s with
  | nil => exact (Option.some.inj h).symm
  | cons e es ih =>
    unfold located at h
    split at h
    · rename_i s0 p hp
      split at h
      · rename_i q
        exact ⟨s0, q ▸ hp, ih s0 h⟩
      · cases h
    · cases h

/-- Lanes in the own scratchpad, in translated memory, in another core's scratchpad and in a Slate, and the place of each. -/
def placesOf : List (Nat × Nat) := [(0, 0xFFFFFFFE00000004), (1, 0x60004), (2, 0xFFFFFFFD00100000), (3, 0xFFFFFFC000000040)]

@[inherit_doc placesOf]
def placeAt (need : Need) (l : Nat) : Target := match placesOf.find? (·.1 == l) with
  | some e => match (base.resolve 3 e.2 need).2 with
    | .ok p => p
    | _ => .lane 0
  | none => .lane 0

/-- Lanes of every place, for a load and for a store that commits first; a later lane that fails. -/
theorem witness_VectorMemoryIssue_places :
    ((located 3 .load (placeAt .load) (st vec) placesOf).any fun s0 =>
      (placesOf.all fun e => e.2 % 4 == 0 && (match placeAt .load e.1 with
          | .own off _ => !s0.lockHolds 3 off 4 (some (3, 2))
          | .remote d off _ => !s0.lockHolds d off 4 (some (3, 2)) && !s0.sentTo ((th vec).ref 3) d
          | .slate d _ => !s0.sentTo ((th vec).ref 3) d
          | _ => true) &&
        (badIn s0.bad (placeAt .load e.1).key 4).isNone) && (okState (ensureChunk s0 3 2)).isSome) = true ∧
    ((located 3 .store (placeAt .store) (st vec) placesOf).any fun s0 =>
      (placesOf.all fun e => match placeAt .store e.1 with
        | .own off _ => !s0.lockHolds 3 off 4 (some (3, 2))
        | .global p => !p.shared
        | _ => true) && decide (okState (commitFirst s0 3 2) = some s0)) = true ∧
    (placesOf.map fun e => vplaceOf (placeAt .load e.1)) = [.own, .global false, .remote 2, .slate] ∧
    (match (st vec).resolve 3 0x10000000000000 .load with | (_, .error (.trap p)) => p.cause == 13 | _ => false) = true ∧
    (th vec).overlaps 0 (2 ^ 64) = false := by decide +kernel

/-- A pending result and none. -/
theorem witness_VectorMovesAndWaits : let v (t : Thread) : Thread := { t with vq := [aStrip] }
    base.Ready 3 2 (th id) { src := [11, 12], dst := [10] } ∧ (th id).vPending 1 = false ∧ (th id).vq = [] ∧ (th id).kPending 1 = false ∧
    (st v).Ready 3 2 (th v) { src := [11, 12], dst := [10] } ∧ (th v).vPending 1 = true ∧ (th v).vq ≠ [] := by decide

/-- Strips of instructions of floating types. -/
theorem witness_FloatingVectorResults : let s (i : Instr) : State :=
      { st (fun t => { t with vq := [{ aStrip with instr := i }] }) with subject := { core := 3, slot := 2 } }
    ∀ i ∈ ([.vadd .f32 1 2 3, .vcvt .i8 1 2, .vcmul 1 2 3, .vdiv 1 2 3, .vpack 1 2 4, .vredmax .bf16 1 2] : List Instr),
      (s i).nextStrip 3 2 = some { aStrip with instr := i } ∧ (s i).slot 3 2 = .thread ((s i).thr 3 2) ∧
      aStrip.els = [] ∧ activeLanes ((s i).thr 3 2).a aStrip.vctl .f32 0 32 = List.range 32 ∧ dtypeOf aStrip.vctl ≠ .c32 := by decide

/-- A load and a store whose elements lie in every place, the store's chunk open. -/
theorem witness_VectorMemoryPerformed : let els : List VEl :=
      [⟨0, spadKey 3 4, 4, .own, none⟩, ⟨1, 0x60004, 4, .global false, some 7⟩, ⟨2, spadKey 2 0, 4, .remote 2, some 8⟩,
        ⟨3, slateKey 0 64, 4, .slate, some 9⟩]
    let p (i : Instr) : Strip := { aStrip with instr := i, els := els, logged := true }
    let ch : Chunk := ⟨(th id).a, Vector.replicate 4 none, 0, 1, [], [], [], [], [], false, 64, 0⟩
    let s (i : Instr) : State := { st (fun t => { t with vq := [p i], chunk := some ch }) with subject := { core := 3, slot := 2 } }
    (els.map (·.lane)).Nodup ∧ (∀ e ∈ els, e.lane < 64) ∧
    ∀ i ∈ ([.vld .i32 1 11, .vst .i32 1 11] : List Instr), (s i).nextStrip 3 2 = some (p i) ∧
      (s i).slot 3 2 = .thread ((s i).thr 3 2) ∧ ((s i).thr 3 2).chunk = some ch ∧ ch.no = (p i).no := by decide

/-- Strips to execute, one of a mask instruction, one that executed long enough before and one that did not. -/
theorem witness_StripsExecuteAndComplete : let v (p : Strip) : Thread → Thread := fun t => { t with vq := [p] }
    let s (p : Strip) : State := { st (v p) with subject := { core := 3, slot := 2 } }
    let d : Strip := { aStrip with done := some 9 }
    let e : Strip := { aStrip with done := some 6 }
    let q : Strip := { aStrip with instr := .vkopAnd 1 2 3 }
    (s aStrip).subject.slot = 2 ∧ (s aStrip).slot 3 2 = .thread (th (v aStrip)) ∧
    (s aStrip).nextStrip 3 2 = some aStrip ∧ aStrip.els = [] ∧
    (s q).nextStrip 3 2 = some q ∧ q.last = true ∧ (th (v q)).chunk = none ∧ (th (v q)).closed = none ∧
    (s d).slot 3 2 = .thread (th (v d)) ∧ (th (v d)).st = .runnable ∧
    ((th (v d)).vq.find? fun p => p.done.any fun n => n + latencyOf p.instr p.local_ ≤ ((s d).core 3).cycle) = none ∧
    ((th (v e)).vq.find? fun p => p.done.any fun n => n + latencyOf p.instr p.local_ ≤ ((s e).core 3).cycle) = some e := by decide

/-- The pieces of a range were found in the state as it was; the range fails at an address with a cause, the state kept. -/
def piecesIn (r : State × Except (Nat × AccErr) (List (Nat × Nat))) (s : State) : Bool := match r with
  | (s', .ok _) => decide (s' = s)
  | _ => false
def failsAt (r : State × Except (Nat × AccErr) (List (Nat × Nat))) (s : State) (a cause : Nat) : Bool := match r with
  | (s', .error (b, .trap p)) => decide (s' = s) && b == a && p.cause == cause
  | _ => false

/-- x11 a multiple of 64 in the own scratchpad, formats FP8 (1) and INT8 (3), a size that is none; a tile and scales that may be
read, a tile in a lane slice, scales in one. -/
theorem witness_MatrixInstructions : let f (t : Thread) : Thread :=
      let u := regs [(11, 0xFFFFFFFE00000000), (12, 32), (13, 3), (14, 0xFFFFFFFE00000001), (15, 16), (16, 0xFFFFFFFF00000000)] t
      { u with a := { u.a with csr := { u.a.csr with fmtsh := 0x0303 } } }
    let b := (st f).modCtx 3 fun x => { x with mx := { x.mx with queue := List.replicate 9 ⟨.zero 0, ⟨3, 1⟩, 2, 0⟩ } }
    (st f).Ready 3 2 (th f) { src := [11, 12], dst := [10] } ∧ (st f).Commits 3 2 (th f) (st f) (th f) ∧ ((st f).mx 3).queue = [] ∧
    b.Ready 3 2 (th f) { src := [11, 12], dst := [10] } ∧ b.Commits 3 2 (th f) b (th f) ∧ b.mQueued 3 = 8 ∧ (st f).mQueued 3 = 0 ∧
    (st f).tilePlace 3 0xFFFFFFFE00000000 ≠ none ∧ (st f).tilePlace 3 0xFFFFFFFF00000000 = none ∧ (th f).trapReady = true ∧
    kbOk 3 32 = true ∧ kbOk 3 0 = false ∧
    piecesIn ((st f).bldSpan 3 0xFFFFFFFE00000000 (mBytes 3 32)) (st f) = true ∧
    failsAt ((st f).bldSpan 3 0xFFFFFFFF00000000 (mBytes 3 32)) (st f) 0xFFFFFFFF00000000 5 = true ∧
    piecesIn ((st f).bldSpan 3 0xFFFFFFFE00000000 (mScales 3 32)) (st f) = true ∧ mScales 0x10 32 = 64 ∧
    failsAt ((st f).bldSpan 3 0xFFFFFFFF00000000 64) (st f) 0xFFFFFFFF00000000 5 = true ∧
    (mFormat 3).isSome = true ∧ mFam 3 = mFam 3 ∧ (st f).aOutside 3 0xFFFFFFFE00000000 (mBytes 3 (1 * 32)) = none ∧
    ((st f).spans 3 0xFFFFFFFE00000000 (mBytes 3 32) .load (spanFuel (mBytes 3 32))).1 = st f ∧
    ((th f).a.xr 13).toNat ∉ [1, 2, 4, 8, 16] ∧ ((th f).a.xr 15).toNat ∈ [1, 2, 4, 8, 16] ∧
    (st f).resolve 3 0xFFFFFFFE00000018 .load = (st f, .ok (.own 24 (spadKey 3 24))) ∧ ((th f).a.xr 14).toNat % 8 ≠ 0 := by
  and_intros <;> first | decide | (apply st_commits <;> decide) | (apply commits_none <;> decide)

/-- A core whose engine's head is a given command; below, a locked tile, and a gang of two before its last ring step, too. -/
def headed (op : MOp) : State := { base.modCtx 3 fun x => { x with mx := { x.mx with
  queue := [⟨op, ⟨3, 1⟩, 2, 0⟩], current := ⟨some (3, 32), List.replicate 2048 1, [], none⟩ } } with subject := { core := 3, slot := 2 } }

theorem witness_MatrixEngine : let s := headed (.zero 1)
    let p := s.modCtx 3 fun x => { x with mx := { x.mx with poison := 2, queue := [⟨.store 1 0xFFFFFFFE00000000, ⟨3, 1⟩, 2, 0⟩] } }
    let m := headed (.mma 1 0xFFFFFFFE00000000 32 3 3 0 [])
    let w := headed (.store 1 0xFFFFFFFE00000000)
    let l := w.modCtx 3 fun x => { x with lock := some ⟨4, 0, 64⟩ }
    let b := headed (.bld 0xFFFFFFFE00000000 32 3 0 [(spadKey 3 0, 2048)] [])
    let duo (n : Nat) (s : State) : State := s.modCtx (2 + n) fun x => { x with mx := { x.mx with
      gsize := 2, gid := 5, gpos := n, ring := some 0, queue := [⟨.mma 1 0xFFFFFFFE00000000 32 3 3 0 [], ⟨3, 1⟩, 2, 0⟩] } }
    let r := duo 0 (duo 1 s)
    (s.mx 3).stopped = false ∧ s.mHolds 3 = false ∧ (s.mx 3).queue = [⟨.zero 1, ⟨3, 1⟩, 2, 0⟩] ∧
    (p.mx 3).poison.getLsbD 1 = true ∧ p.findRef ⟨3, 1⟩ ≠ none ∧ p.tilePlace 3 0xFFFFFFFE00000000 = some (3, 0, spadKey 3 0) ∧
    (w.mx 3).poison.getLsbD 1 = false ∧ w.tilePlace 3 0xFFFFFFFE00000000 = some (3, 0, spadKey 3 0) ∧
    w.spanLock [(spadKey 3 0, 16384)] none = none ∧ (l.spanLock [(spadKey 3 0, 16384)] none).isSome = true ∧
    ((b.mx 3).queue.map MCmd.op) = [.bld 0xFFFFFFFE00000000 32 3 0 [(spadKey 3 0, 2048)] []] ∧
    (r.mmaReady 3).map (·.map fun x => (x.core, x.fa, decide (mScales x.fa (2 * x.kb) ≤ (r.spanBytes x.scales).length))) =
      some [(2, 3, true), (3, 3, true)] ∧
    (m.mmaReady 3).map (·.map fun x => (x.kb, x.fa, x.fb)) = some [(32, 3, 3)] ∧
    (r.mmaReady 3).map (·.map MmaAt.core) = some [2, 3] ∧ (r.mx 3).ring = some 0 ∧ r.bad = [] ∧ (m.mx 3).gsize = 1 ∧ (m.mx 3).gpos = 0 ∧ (m.mx 3).current.tag = some (3, 32) ∧
    (m.mx 3).current.poison = none ∧ m.aOutside 3 0xFFFFFFFE00000000 (mBytes 3 (1 * 32)) = none ∧ m.bad = [] ∧
    (headed (.gang 1 5)).gangReady 3 = true ∧ s.gangReady 3 = false := by decide

/-! ### Witnesses: the accumulator, pair tasks, Tongs -/

/-- An operation goes on in the given state with the given value. -/
def givesIn {α : Type} [DecidableEq α] (g : Got α) (s : State) (v : α) : Bool := match g with
  | .ok s' v' => decide (s' = s) && decide (v' = v)
  | .stop _ => false

/-- A Crucible of 1 MiB with a region of two rows of 32 elements at its start. -/
def cruc : Nat := slateKey 0 (Config.slateBytes - 2 ^ 20)
def crucAddr : Word := BitVec.ofNat 64 (0xFFFFFFC000000000 + (Config.slateBytes - 2 ^ 20))
def aRegion : Region := ⟨0, 0, cruc, 2, 32, 0, 0, 0, 0, none⟩
def aPair : PairDesc := ⟨0xFFFFFFFE00000000, 0xFFFFFFFE00001000, 0x3F000000, false, 0, 0x50000, crucAddr⟩
def region (f : Thread → Thread) : State := (st f).modPart 0 fun p =>
  { p with mode := { p.mode with cruc := 1 }, regions := [aRegion], pairs := p.pairs.set 1 aPair }
def rth (f : Thread → Thread) : Thread := (region f).thr 3 2

theorem region_slot (f : Thread → Thread) (h : (region f).slot 3 2 = .thread (rth f)) (h1 : (rth f).chunk = none)
    (h2 : (rth f).closed = none) (hv : (rth f).storesPending = false) :
    (region f).Commits 3 2 (rth f) (region f) (rth f) := commits_none h h1 h2 hv

/-- A region's elements are all scaled by 1.0 where it names no γ. -/
theorem gammas_ones (s : State) (c : Nat) (k : SlotN) (is : List Nat) : gammas s c k 0 is = .ok s (is.map fun _ => 0x3F800000) := by
  induction is with
  | nil => rfl
  | cons i is ih =>
    simp only [gammas, if_true, Got.bind]
    rw [ih]
    rfl

/-- Whether pieces of an access were found in the state as it was. -/
def spansIn (r : State × Except (Nat × AccErr) (List (Nat × Nat))) (s : State) : Bool := match r with
  | (s', .ok xs) => decide (s' = s) && (s.spanLock xs (some (3, 2))).isNone && (s.spanBad xs).isNone
  | _ => false

/-- A SACFG descriptor for a region of rows of 32 elements. -/
def asks (idx rows : Nat) : List Byte := leBytes 8 (idx * 2 ^ 60 + 32 * 2 ^ 32 + rows) ++ List.replicate 24 0

/-- Addresses of no region, of a row, of an element, of neither; images that are sound and unsound. -/
theorem witness_AccumulatorInstructions :
    let f := regs [(11, crucAddr), (12, 0xFFFFFFFE00000000), (13, crucAddr + 48), (14, crucAddr + 49), (15, 0x60000), (16, 1)]
    let s := region f
    let t := rth f
    s.Ready 3 2 t { src := [11, 12], dst := [10] } ∧ t.trapReady = true ∧ t.snap = none ∧ s.locate 3 0x60000 = none ∧
    s.locate 3 crucAddr.toNat = some ⟨aRegion, 0, 0, cruc⟩ ∧ s.locate 3 (crucAddr + 48).toNat = some ⟨aRegion, 0, 48, cruc⟩ ∧
    s.locate 3 (crucAddr + 49).toNat = some ⟨aRegion, 0, 49, cruc⟩ ∧ t.vPending 3 = false ∧ t.kPending (midxOf t.a.csr.vctl) = false ∧
    t.psc1 = 0 ∧ s.heldStamp (bankCore cruc) 4 = none ∧ t.vq = [] ∧ badIn s.bad cruc 432 = none ∧ s.Commits 3 2 t s t ∧ s.posted = [] ∧
    s.place 3 0xFFFFFFFE00000000 = .own 0 (spadKey 3 0) ∧
    (let out (bs : List Byte) (evict : Bool) (s2 : State) : Bool :=
       let s3 := s2.setThr 3 2 { t with snap := some ⟨cruc, 32, evict, bs⟩ }
       spansIn (s3.spans 3 0xFFFFFFFE00000000 bs.length .store (spanFuel bs.length)) s3
     out (s.rowAt cruc 32).image true (s.putRow cruc (Row.zero 32)) = true ∧ out ((s.rowAt cruc 32).lossy 0) false s = true) ∧
    spansIn (s.spans 3 0xFFFFFFFE00000000 432 .load (spanFuel 432)) s = true ∧
    imageOk (List.replicate 432 0) 32 = true ∧ imageOk (1 :: List.replicate 431 0) 32 = false ∧
    givesIn (blockFor s 3 2 0xFFFFFFFE00000000 32 false) s (List.replicate 32 0, true) = true ∧ (s.partOf 3).isSome = true := by
  and_intros <;> first | decide | (apply region_slot <;> decide)

/-- SACFG: a descriptor refused, one that frees a region at rest and one in use, one for a region that exists, one too large,
one that a launch's reservation leaves no room for, and one that is met. -/
theorem witness_AccumulatorInstructions_regions :
    let s := region (regs [(11, 0xFFFFFFFE00000000)])
    let d (bs : List Byte) : State := s.poke (spadKey 3 0) bs
    let read (bs : List Byte) : Bool := givesIn (blockFor (d bs) 3 2 0xFFFFFFFE00000000 32 false) (d bs) (bs, true)
    let p := (s.partOf 3).getD bootPart
    let q := { p with launches := [{ id := 8, d := (List.replicate 16 0).set 7 0x500000000, order := 0, taken := [0], placed := [0]
                                     preds := [], eff := [], seeds := [], ending := none }] }
    let old (i : Nat) : Option Region := p.regions.find? fun x => x.die == 0 && x.idx == i
    let used (p : Part) (rows : Nat) : Nat :=
      ((p.regions.filter fun x => x.die == 0).map Region.size).sum +
      ((p.launches.filter fun l => l.id != 0).map (p.unusedOf 0)).sum + rows * rowStride 32
    read (List.replicate 32 0) = true ∧ regionOf (List.replicate 32 0) 0 = none ∧ read (asks 0 0) = true ∧
    (regionOf (asks 0 0) 0).map Region.rows = some 0 ∧ old 0 = some aRegion ∧ s.regionBusy aRegion = false ∧
    ({ s with posted := [⟨⟨3, 1⟩, 1, cruc, .szero cruc 32 1, 0⟩] } : State).regionBusy aRegion = true ∧
    (regionOf (asks 0 2) 0).map Region.rows = some 2 ∧ old 1 = none ∧ (regionOf (asks 1 0xFFFFFFFF) 0).isSome = true ∧
    p.freeSpan 0 (0xFFFFFFFF * rowStride 32) = none ∧ (regionOf (asks 1 2) 0).map Region.size = some aRegion.size ∧
    p.freeSpan 0 aRegion.size = some (cruc + aRegion.size) ∧ used p 2 ≤ (p.crucibleOf 0).2 ∧
    (q.freeSpan 0 (256 * rowStride 32)).isSome = true ∧ (q.crucibleOf 0).2 < used q 256 ∧ used p 256 ≤ (p.crucibleOf 0).2 := by decide

/-- Each kind of operation at a bank, at a sound row and at one that an error has struck; a row whose sums hold. -/
theorem witness_AccumulatorBanks :
    let p (o : POp) : Posted := ⟨⟨3, 1⟩, 1, cruc, o, 0⟩
    let s (o : POp) : State := { region id with posted := [p o] }
    let a : POp := .sadd cruc 32 crucAddr 0 0 [(0, 0x3F800000)] false
    (s a).postedAt (s a).subject.idx = some (p a) ∧ badIn (s a).bad cruc 432 = none ∧ ((s a).core 3).supBit 1 = false ∧
    (s (.szero cruc 32 2)).postedAt 0 = some (p (.szero cruc 32 2)) ∧
    (s (.rowAdd cruc 32 crucAddr [] false)).postedAt 0 = some (p (.rowAdd cruc 32 crucAddr [] false)) ∧
    (((s a).modCtx 3 fun x => { x with supctl := 3 }).core 3).supBit 1 = true ∧
    badIn ({ s a with bad := [cruc + 64] } : State).bad cruc 432 ≠ none ∧
    ({ s (.rowAdd cruc 32 crucAddr [] false) with bad := [cruc] } : State).postedAt 0 ≠ none ∧
    ((s a).away ⟨3, 1⟩).isNone = true ∧
    (let off : State := { (s a).modCore 3 fun k => { k with part := none } with shadow := [(0, 3, { ((s a).core 3).c with supctl := 2 })] }
     (off.away ⟨3, 1⟩).isSome = true) ∧
    (let r : Row := { Row.zero 2 with x := [3, -1], sx := 2, s := 10 }
     r.sx = r.x.sum ∧ r.s = (r.x.map fun x => x * x).sum ∧ 1 < r.x.length) := by decide

/-- Configuration, serving and completion, enqueueing; an entry with nodes, one without. -/
theorem witness_PairTaskInstructions :
    let f := regs [(11, 0xFFFFFFFE00000000), (12, 3), (13, 17), (14, 16), (15, 1), (16, 0x1000000000000), (17, 0x10000000000)]
    let s := region f
    let t := rth f
    let g (t : Thread) : Thread := { f t with kind := .task }
    s.Ready 3 2 t { who := .user, src := [11, 12, 10], dst := [10] } ∧ t.trapReady = true ∧ s.Commits 3 2 t s t ∧
    (s.partOf 3).isSome = true ∧ givesIn (blockFor s 3 2 0xFFFFFFFE00000000 64 false) s (List.replicate 64 0, true) = true ∧
    (pairOfImage (List.replicate 16 0 ++ leBytes 8 0x3F800000 ++ List.replicate 40 0)).isSome = true ∧
    (t.a.xr 12).toNat < 16 ∧ (t.a.xr 14).toNat = 16 ∧ 16 < (t.a.xr 13).toNat ∧
    givesIn (blockFor s 3 2 0xFFFFFFFE00000000 32 false) s (List.replicate 32 0, true) = true ∧
    t.paired = false ∧ t.kind ≠ .migrant ∧ 0 < (t.a.xr 12).toNat ∧ (t.a.xr 12).toNat < 2 ^ 16 ∧ t.kind ≠ .task ∧
    (region g).Commits 3 2 (rth g) (region g) (rth g) ∧ (rth g).kind = .task ∧
    (s.partOf 3).map (fun p => ((p.pair 1).pc, (p.pair 1).nfmt, (p.pair 0).pc)) = some (0x50000, 0, 0) ∧
    (freshTask [0, 0, 0, 0] 0).w0.testBit 7 = false ∧ (freshTask [0x80, 0, 0, 0] 0).w0.testBit 7 = true ∧
    (match s.placeBatch 0 3 [freshTask [1, 0, 0, 0] 0] with | (_, .done) => true | _ => false) = true := by
  and_intros <;> first | decide | (apply region_slot <;> decide)

/-- Nodes of the pair in the own scratchpad: two leaves; a node of one child. -/
theorem witness_PairTaskNodes :
    let f := regs [(11, 1), (12, 0)]
    let s := region f
    let t := rth f
    let n (k : Nat) : State := s.poke (spadKey 3 0) (List.replicate 16 0 ++ leBytes 4 1 ++ leBytes 4 1 ++ leBytes 4 0 ++ leBytes 4 k)
    let goesOn (g : Got (Node × Bool)) (s : State) : Bool := match g with
      | .ok s' v => decide (s' = s) && v.2
      | .stop _ => false
    goesOn (treeNode s 3 2 aPair.rootA 0) s = true ∧ goesOn (treeNode s 3 2 aPair.rootB 0) s = true ∧
    goesOn (nodeFor s 3 2 aPair.rootA 0) s = true ∧ givesIn (regionFor s 3 2 aPair) s aRegion = true ∧
    givesIn (elemFor s 3 2 (crucAddr + 48)) s (⟨aRegion, 0, 48, cruc⟩, 0) = true ∧
    givesIn (childRows s 3 2 aPair.rootA 0 0) s [] = true ∧ givesIn (childRows (n 1) 3 2 aPair.rootA 1 1) (n 1) [0] = true ∧
    t.psc1 = 0 ∧ s.heldStamp (bankCore aRegion.base) 4 = none ∧ t.vPending 3 = false ∧ t.kPending (midxOf t.a.csr.vctl) = false ∧
    s.bad = [] := by decide

/-- A unit with a task thread parked and a packet it may take; a frontier to steal from; a ring with a packet; a held seed. -/
theorem witness_TongsUnits :
    let y : Thread := { th id with kind := .task, serve := 2, st := .parked, wait := .cond .task }
    let x : Task := ⟨[1, 0, 0, 0], 0⟩
    let s (g : Tongs) : State := (((region id).setThr 3 2 y).modCore 0 fun x => { x with part := some 0 }).modTongs 0 fun _ => g
    let g : Tongs := { Tongs.reset with parked := [⟨3, 1⟩] }
    ((s { g with front := [x] }).nextServed 0).isSome = true ∧ ((s g).nextServed 0).isNone = true ∧ ((s g).partOf 0).isSome = true ∧
    ((s g).steal 0).isNone = true ∧ ((s g).cluster 0).tongs.seeds = [] ∧ (s g).part? 0 ≠ none ∧
    ((s { g with seeds := [x] }).cluster 0).tongs.seeds = [x] := by decide
/-! ### Witnesses: Tongs steps, traversal, raster -/

/-- The key an engine's address is found at, where it is readable. -/
def keyOf (r : State × Except (Option Trap) Nat) : Option Nat := match r with
  | (s', .ok k) => if badIn s'.bad k 32 = none then some k else none
  | _ => none

/-- A read of a spill ring failed with a cause. -/
def ringFails (r : State × Except (Option (Nat × Trap)) Unit) : Option Nat := match r with
  | (_, .error (some e)) => some e.1
  | _ => none

/-- What became of a batch, and the trap of one that is held. -/
def batchEnd (r : State × Placed) : Nat := match r.2 with
  | .done => 0
  | .full => 1
  | .held (some _) => 2
  | .held none => 3

/-- A task thread of core 3 that waits for a packet, in a partition that also has the first cores of two clusters. -/
def tongs : State :=
  let y : Thread := { th id with kind := .task, serve := 2, st := .parked, wait := .cond .task }
  let own (s : State) (c : Nat) : State := s.modCore c fun x => { x with part := some 0 }
  (own (own ((region id).setThr 3 2 y) 0) 8).modTongs 0 fun g => { g with parked := [⟨3, 1⟩] }
def aTask : Task := ⟨[1, 0, 0, 0], 0⟩
def ringed : State := tongs.modPart 0 fun p => { p with ring := [aTask], ringTail := 1, ringBase := 0x60000, ringLog := 10 }
/-- The same in every context of the partition's row. -/
def wide (s : State) : State := (List.range 16).foldl (fun s c => s.modCore c fun x => { x with part := some 0 }) s
/-- A ring at an address that does not translate, and a frontier with no room. -/
def unread : State := ringed.modPart 0 fun p => { p with ringBase := 2 ^ 50 }
def stuffed : State := (tongs.modTongs 0 fun g => { g with front := List.replicate 4096 aTask }).modPart 0 fun p =>
  { p with ringBase := 2 ^ 50, ringLog := 10 }
def batched : State := tongs.modTongs 0 fun g => { g with batch := some (⟨3, 1⟩, [aTask]) }

/-- A cluster to steal from; a ring with one packet at a readable address, and at one that does not translate; a batch held; a
launch with nothing left; seeds that enter and that stay. -/
theorem witness_TongsUnitsMove : (tongs.modTongs 1 fun g => { g with front := [aTask, aTask] }).steal 0 = some (1, [aTask]) ∧
    (ringed.partOf 0).map Part.ring = some [aTask] ∧ (ringed.core 0).part = some 0 ∧
    keyOf (ringed.engineKey 0 0x60000 .load) = some 0x60000 ∧ tongs.servedFault 0 = none ∧ tongs.frontKept 0 0 = 0 ∧
    (unread.part? 0).bind (fun p => ringFails (unread.ringRead 0 p 0)) = some 13 ∧ (unread.nextServed 0).isNone = true ∧ (unread.thr 3 2).serving = true ∧
    (unread.partOf 0).map (fun p => ((unread.chooseTask 0 p (unread.thr 3 2)).isNone, (p.ring.find? (p.eligible (unread.thr 3 2))).isSome)) =
      some (true, true) ∧ batchEnd (tongs.placeBatch 0 0 [aTask]) = 0 ∧ batchEnd (stuffed.placeBatch 0 0 [aTask]) = 2 ∧
    (batched.cluster 0).tongs.batch.isSome = true ∧ (batched.cluster 0).tongs.batchFault = false ∧
    (((wide tongs).part? 0).map fun p => (wide tongs).exhausted p 7) = some true ∧
    (((wide tongs).part? 0).map fun p => (wide tongs).exhausted p 0) = some true ∧
    (((wide ringed).part? 0).map fun p => (wide ringed).exhausted p 0) = some false := by
  and_intros <;> decide +kernel

/-- Record handles in the own scratchpad: x11 the record's address, x12 its handle, x13 the next record's. -/
def ray : Thread → Thread := regs [(11, 0xFFFFFFFE00000000), (12, 0xFFFFFFFD00180000), (13, 0xFFFFFFFD00180100), (14, 0x60000),
  (15, 0x1000), (16, 0x10000)]
def aRay (st : Nat) : Ray := { rayOf (List.replicate 256 0) 0xFFFFFFFD00180000 ⟨3, 1⟩ 0 with status := st, cand := some ⟨0x3F800000, 0, 0, 1, 0, 0, 1, [], 0, 0⟩ }
/-- A state whose core 0 belongs to the partition too, so that the cluster's window can be read; with a ray or none in core 3's unit. -/
def rays (l : List Ray) : State :=
  ((st ray).modCore 0 fun x => { x with part := some 0 }).modTv 3 fun v => { v with rays := l }

theorem rays_commits (l : List Ray) (h : (rays l).slot 3 2 = .thread (th ray)) (h1 : (th ray).chunk = none)
    (h2 : (th ray).closed = none) (hv : (th ray).storesPending = false) :
    (rays l).Commits 3 2 (th ray) (rays l) (th ray) := commits_none h h1 h2 hv

/-- What a stack's entries beyond those kept came to: sunk, held, failed. -/
def sinkEnd (r : State × Except (Option Trap) Ray) : Nat := match r.2 with
  | .ok _ => 0
  | .error none => 1
  | .error (some _) => 2

/-- Records that may start, records refused, rays that wait for an answer, in a unit and in a drained record, rays that are gone,
children within the queue and beyond it, rays to save that stay, end first, or cannot spill. -/
theorem witness_TraversalInstructions : let t := th ray
    let x : Word := 0xFFFFFFFD00180000
    let away (n : Nat) : State := (rays []).poke (spadKey 3 0 + 0x30) [BitVec.ofNat 8 n, 1]
    let found (n : Nat) : Option Ray := ((away n).answered 3 (spadKey 3 0) x ⟨3, 1⟩).bind fun e => if e.2.2 then some e.2.1 else none
    let full := (rays [aRay 3]).modTv 3 fun v => { v with children := List.replicate 65 (0xFFFFFFFD00180100, ⟨3, 1⟩) }
    let left (r : Ray) : Option Nat := (((rays [r]).drainRay 3 x (r.prims.length + 1)).core 3).c.tv.rays.find? (·.handle == x) |>.map (·.status)
    let deep : Ray := { aRay 3 with stack := List.replicate 13 ⟨0, 0, 0, 0, none⟩, spill := 2 ^ 48 }
    (found 3).map (·.status) = some 3 ∧ (found 2).map (·.status) = some 2 ∧ (found 1).map (·.status) = some 1 ∧
    ((found 3).bind fun r => r.answer true (.taccept 0 11) 0 true [0, 0, 0, 0]).isSome = true ∧
    ((found 1).bind fun r => r.answer true (.tresume 0 11 0) 0 true [0, 0, 0, 0]).isSome = true ∧
    (full.core 3).c.tv.children.length = 65 ∧ full.clusterKey 0 (0xFFFFFFFD00180100 + 0x40) = some (spadKey 3 0x140) ∧
    full.spanLock [(spadKey 3 0x140, 8)] (some (3, 2)) = none ∧ left (aRay 3) = some 3 ∧ left { aRay 1 with prims := [0] } = none ∧
    sinkEnd ((aRay 3).sink (rays [aRay 3]) 3 12 (some (3, 2))) = 0 ∧ sinkEnd (deep.sink (rays [deep]) 3 12 (some (3, 2))) = 2 ∧
    (rays []).clusterKey 0 (aRay 3).spill = none ∧
    (rays []).Ready 3 2 t { src := [11, 12], dst := [10], custom3 := true } ∧ (rays []).Commits 3 2 t (rays []) t ∧
    t.trapReady = true ∧ (rays []).recordHandle 3 0xFFFFFFFE00000000 = some 0xFFFFFFFD00180000 ∧
    (rays []).recordHandle 3 0x60000 = none ∧ givesIn (handleFor (rays []) 3 2 0xFFFFFFFD00180000) (rays []) (spadKey 3 0) = true ∧
    t.psc0 = 0 ∧ (rays []).spanLock [(spadKey 3 0, 256)] (some (3, 2)) = none ∧ (rays []).bad = [] ∧
    (rays []).byte (spadKey 3 0 + 0x30) = 0 ∧ (rays []).rayRoom 3 = true ∧
    (rays (List.replicate 64 (aRay 1))).rayRoom 3 = false ∧ badRecord ((rays []).bytes (spadKey 3 0) 256) = false ∧
    ((rays []).takeRay 3 ⟨3, 1⟩ 0).isNone = true ∧ (rays []).ownsRay 3 ⟨3, 1⟩ 0 = false ∧ (rays [aRay 1]).ownsRay 3 ⟨3, 1⟩ 0 = true ∧
    (((rays []).modTv 3 fun v => { v with events := [(⟨3, 1⟩, 0xFFFFFFFD00180000, 4)] }).takeRay 3 ⟨3, 1⟩ 0).isSome = true ∧
    (rays []).answered 3 (spadKey 3 0) 0xFFFFFFFD00180000 ⟨3, 1⟩ = none ∧
    (rays [aRay 3]).answered 3 (spadKey 3 0) 0xFFFFFFFD00180000 ⟨3, 1⟩ = some (3, aRay 3, false) ∧
    (rays [aRay 2]).answered 3 (spadKey 3 0) 0xFFFFFFFD00180000 ⟨3, 1⟩ = some (3, aRay 2, false) ∧
    (rays [aRay 3]).Commits 3 2 t (rays [aRay 3]) t ∧ ((aRay 3).answer false (.tterm 0 11) 0 true [0, 0, 0, 0]).isSome = true ∧
    ((aRay 3).answer false (.taccept 0 11) 0 true [0, 0, 0, 0]).isSome = true ∧
    ((aRay 3).answer false (.tignore 0 11) 0 true [0, 0, 0, 0]).isSome = true ∧
    ((aRay 2).answer false (.tresume 0 11 0) 0 true [0, 0, 0, 0]).isSome = true ∧
    (rays [aRay 3]).rayCode 0 (spadKey 3 0) 0xFFFFFFFD00180000 = some 3 ∧
    givesIn (handleFor (rays [aRay 3]) 3 2 0xFFFFFFFD00180100) (rays [aRay 3]) (spadKey 3 256) = true ∧
    (rays [aRay 3]).num (spadKey 3 0 + 0x34) 1 + 1 ≤ 8 ∧ ((rays [aRay 3]).core 3).c.tv.children.length < 65 ∧
    (rays []).rayAt 0 0xFFFFFFFD00180000 = none ∧ (rays [aRay 3]).rayAt 0 0xFFFFFFFD00180000 = some (3, aRay 3) ∧
    (t.a.xr 15).toNat / 2 ^ 12 ≠ 0 ∧ (t.a.xr 0).toNat / 2 ^ 12 = 0 ∧ (t.a.xr 16).toNat / 2 ^ 16 ≠ 0 ∧
    ((rays []).partOf 3).isSome = true := by
  and_intros <;> first | decide | (apply rays_commits <;> decide)

/-- The kind of result of a part of a walk. -/
def rayKind : RayRes → Nat
  | .moved _ _ => 0
  | .restart => 1
  | .ended _ _ _ _ => 2
  | .fault _ _ => 3
  | .writeFault _ _ => 4
  | .held _ => 5

/-- Rays at a restart, at their end, before their walk, at an unmapped node, at an unmapped spill; no owner; children waiting; a
record that a lock covers. -/
theorem witness_TraversalUnit :
    let o (r : Ray) : Ray := { r with opened := true }
    let s (r : Ray) : State := { rays [r] with subject := { core := 3, val := 0xFFFFFFFD00180000 } }
    let k (r : Ray) : Nat := rayKind (rayStep (s r) 3 r)
    let r0 := o (aRay 1)
    let e : StackEntry := ⟨0, 0, 0, 0, none⟩
    let unmapped : Ray := { r0 with frames := [⟨2 ^ 48, [0, 0, 0], [0, 0, 0], 0xFFFFFFFF, [], 0⟩], stack := [e] }
    (s r0).subjectRay = some r0 ∧ ((s r0).findRef r0.owner).isSome = true ∧ r0.status = 1 ∧
    k { r0 with trail := 1 } = 1 ∧ k r0 = 2 ∧ k unmapped = 3 ∧ k { r0 with spilled := [e] } = 0 ∧
    ((s r0).findRef ⟨3, 77⟩).isNone = true ∧ ({ rays [] with subject := { core := 3 } } : State).subjectRay = none ∧
    (rays [r0]).clusterKey 0 0xFFFFFFFD00180000 = some (spadKey 3 0) ∧ (rays [r0]).recordHeld 3 0xFFFFFFFD00180000 = false ∧
    ((rays [r0]).modCtx 3 fun x => { x with lock := some ⟨4, 0, 64⟩ }).recordHeld 3 0xFFFFFFFD00180000 = true ∧
    ((s r0).core 3).c.tv.rays.length < 64 ∧ r0.prims = [] ∧ (aRay 3).status ≠ 1 := by decide

/-- Blocks in the own scratchpad, a tile beside them, and addresses that are refused. -/
theorem witness_RasterInstructions : let f := regs [(11, 0xFFFFFFFE00000000), (12, 0xFFFFFFFE00000100), (13, 0xFFFFFFFE00000008),
      (14, 0xFFFFFFFD00000000)]
    let s := st f
    let t := th f
    s.Ready 3 2 t { src := [10, 11, 12], dst := [10], custom3 := true } ∧ t.trapReady = true ∧ (t.a.xr 13).toNat % 16 ≠ 0 ∧
    givesIn (readBlock s 3 2 0xFFFFFFFE00000000 48) s (List.replicate 48 0, true) = true ∧
    givesIn (readBlock s 3 2 0xFFFFFFFE00000000 64) s (List.replicate 64 0, true) = true ∧
    (okState (storeBlock s 3 2 0xFFFFFFFE00000100 (List.replicate 64 1))).isSome = true ∧
    s.place 3 0xFFFFFFFE00000100 = .own 256 (spadKey 3 256) ∧ s.place 3 (0xFFFFFFFE00000100 + 271) = .own 527 (spadKey 3 527) ∧
    s.lockHolds 3 256 272 (some (3, 2)) = false ∧ t.overlaps (spadKey 3 256) 272 = false ∧ t.logFull 1 = false ∧ t.chunk = none ∧
    badIn s.bad (spadKey 3 256) 272 = none ∧ s.place 3 0xFFFFFFFD00000000 = .remote 0 0 (spadKey 0 0) := by decide
/-! ### Witnesses: steps of the cores, operations on their way -/

/-- The subject of a device step of core 3, slot 2. -/
def sub : Subject := { core := 3, slot := 2 }
def onSub (s : State) (u : Subject := sub) : State := { s with subject := u }

/-- CSR numbers; a wait that a reply ends, one that has expired, a barrier wait over its time, a gang wait; a deferred trap;
a core that may issue; replays on record. -/
theorem witness_ThreadSteps :
    let rep (t : Thread) : Thread := { t with st := .parked, wait := .reply 5 false {} }
    let lim (t : Thread) : Thread := { t with
      st := .parked, wait := .pop 0x300 false 10, a := { t.a with csr := { t.a.csr with qlimit := 1 } } }
    let bar (t : Thread) : Thread := { t with st := .parked, wait := .cond (.barwait 0 1) }
    let gang (t : Thread) : Thread := { t with st := .parked, wait := .gang 2 7 10 }
    let dfr (t : Thread) : Thread := { t with deferred := [⟨30, 0, 0, 0, 1, 0⟩] }
    let strips (t : Thread) : Thread := { t with vq := [aStrip] }
    let barto (s : State) : State := s.modCtx 3 fun x => { x with supctl := 0x100000081 }
    let mg (s : State) : State := s.modCtx 3 fun x => { x with mx := { x.mx with queue := [⟨.gang 2 7, ⟨3, 1⟩, 2, 0⟩] } }
    let now (s : State) : State := s.modCore 3 fun x => { x with cycle := 100 }
    (onSub (st id)).slot 3 2 = .thread (th id) ∧ (th id).vq = [] ∧ (th strips).vq ≠ [] ∧ ((st id).core 3).supBit 0 = true ∧
    (((st id).modCtx 3 fun x => { x with supctl := 0 }).core 3).supBit 0 = false ∧ (5 : Word).getLsbD 0 = true ∧
    (onSub (st rep)).slot 3 2 = .thread (th rep) ∧ 5 ≤ ((st rep).core 3).cycle ∧ (th id).st ≠ .parked ∧
    (now (st lim)).expired 3 2 = true ∧ ((now (st lim)).limitVals 3 2 (th lim)).isSome = true ∧ (st id).expired 3 2 = false ∧
    (barto (now (st bar))).bartoOver 3 (th bar) = true ∧ ((barto (now (st bar))).barrierVals 3 (th bar)).isSome = true ∧
    (st bar).bartoOver 3 (th bar) = false ∧ (barto (mg (now (st gang)))).bartoOver 3 (th gang) = true ∧
    (barto (mg (now (st gang)))).gangWaits 3 (th gang) = true ∧ (th dfr).deferReady = true ∧ (th id).deferReady = false ∧
    base.canIssue 3 = some 2 ∧ (base.modCore 3 fun x => { x with turnDone := true }).canIssue 3 = none ∧
    (base.core 3).recentReplays.length ≤ 4 ∧
    4 < ((base.modCore 3 fun x => { x with replays := [8, 8, 8, 8, 8] }).core 3).recentReplays.length := by decide

/-- Chunks at their limit and closed; the token asked for and held; each kind of posted operation on its way; an
acknowledgement; a message that may leave; signals due; copies begun and finished. -/
theorem witness_OperationsArrive :
    let lim (t : Thread) : Thread := { t with chunk := some { aChunk t with insns := 384 } }
    let cl (t : Thread) : Thread := { t with closed := some (aChunk t) }
    let p (o : POp) : Posted := ⟨⟨3, 1⟩, 0, 7, o, 0⟩
    let s (o : POp) : State := { base with posted := [p o] }
    let m : Msg := { dst := ⟨3, 1⟩, src := 0, sender := ⟨3, 1⟩, tag := 4, payload := 9, launch := 0, orphan := false }
    let out : State := base.modCtx 3 fun x => { x with outbox := [m] }
    let g (k : Fin 4) : State := { base with signals := [⟨3, 0, k, 2, [], 0⟩] }
    let j : CopyJob := ⟨1, 0, 0x60000, 0x61000, 64, 2, 64, 64, false, false, ⟨3, 1⟩, 1, 0⟩
    let ch (n : Nat) : State := base.modCluster 0 fun q => { q with chans := q.chans.set 0 { q.chans[0] with job := some j, pos := n } }
    (th lim).atLimit = true ∧ (th lim).storesPending = false ∧ (th id).atLimit = false ∧ (th cl).closed.isSome = true ∧
    (th cl).storesPending = false ∧ (th id).closed = none ∧ (th lim).closable = true ∧ (th cl).judgeable (aChunk (th cl)) = true ∧
    (th (fun t => { t with closed := some { aChunk t with shared := [5] } })).judgeable { aChunk (th id) with shared := [5] } = false ∧
    (th (fun t => { t with closed := some { aChunk t with shared := [5] } })).closable = false ∧
    base.isSwapped ⟨3, 1⟩ = false ∧ ({ (base.modCore 3 fun x => { x with swapped := [⟨th id, 0, 2, false, false, false, false, [], .none⟩] }) with
      acks := [⟨⟨3, 1⟩, 1, 0, [], some (7, 8)⟩] } : State).isSwapped ⟨3, 1⟩ = true ∧
    ({ base with tokenQ := [⟨3, 1⟩] } : State).tokenFree = true ∧
    ({ st (fun t => { t with chunk := some { aChunk t with solo := true } }) with tokenQ := [⟨3, 1⟩], token := some ⟨3, 1⟩ } : State).tokenFree = false ∧
    (s (.store (spadKey 3 0) [1, 2] true)).postedAt 0 = some (p (.store (spadKey 3 0) [1, 2] true)) ∧
    base.spanLock [(spadKey 3 0, 2)] none = none ∧
    (base.modCtx 3 fun x => { x with lock := some ⟨4, 0, 64⟩ }).spanLock [(spadKey 3 0, 2)] none ≠ none ∧
    (s (.cells [(spadKey 3 0, 1)])).postedAt 0 ≠ none ∧ (s (.fe (spadKey 3 0) 8 true)).postedAt 0 ≠ none ∧
    (s (.push 3 0x300 9)).postedAt 0 ≠ none ∧ qref 3 0x300 = some (.lq 3 0) ∧ (s (.msg m)).departed m = true ∧
    ({ out with posted := [p (.msg m)] } : State).departed m = false ∧
    ({ base with acks := [⟨⟨3, 1⟩, 0, 0, [], none⟩] } : State).acks[0]? = some ⟨⟨3, 1⟩, 0, 0, [], none⟩ ∧ out.msgOut 3 0 = some m ∧
    (g 0).signalAt 0 = some ⟨3, 0, 0, 2, [], 0⟩ ∧ (g 3).signalAt 0 = some ⟨3, 0, 3, 2, [], 0⟩ ∧
    (((ch 0).cluster 0).chans[0]).job = some j ∧ (((ch 128).cluster 0).chans[0]).job = some j ∧ j.rows * j.rowBytes = 128 ∧
    (((ch 0).cluster 0).chans[0]).fault = false ∧ j.toPort = false ∧
    (match (ch 0).copyRows j 0 1 with | (_, n, none) => n == 64 | _ => false) = true := by
  and_intros <;> decide +kernel

/-! ### Witnesses: launches, slots, memory system -/

/-- The partition's contexts on all sixteen cores of its row. -/
def onRow : State := (List.range 16).foldl (fun s c => s.modCore c fun x => { x with part := some 0 }) base
/-- Doublewords of the partition control page. -/
def withCtl (l : List (Nat × Nat)) (s : State) : State := l.foldl (fun s e => s.poke (0x50000 + e.1) (leBytes 8 e.2)) s
/-- A launch read and not placed, and the same placed; one too large for its partition. -/
def newLaunch : Launch := { aLaunch with taken := [0], placed := [] }
def bigLaunch : Launch := { newLaunch with d := (List.replicate 16 0).set 7 0xFFFFFFFF |>.set 3 0x00100C0001000101 }
def launched (l : Launch) : State := onRow.modPart 0 fun p => { p with launches := [l] }

/-- A packet of no launch. -/
def aPacket : Packet :=
  { pc := 0, pw := 0, origin := 0, launch := 0, hops := 0, spawned := false, standin := false, a := [], target := 0
    spawner := ⟨0, 0⟩, dest := 3, sender := none, departs := false, since := none }

/-- A queue of 16 entries with one published and with none; launches that wait, fit and do not, are due for promotion, have
ended; a tier with a packet; slots to be removed and returned; periods that are over. -/
theorem witness_SchedulingSteps_reads :
    let q := withCtl [(0x40, 0x60000), (0x48, 16), (0x50, 1)] onRow
    let part (s : State) : Part := (s.part? 0).getD bootPart
    let held := launched { newLaunch with ending := some 3 }
    let record : Launch := { aLaunch with d := aLaunch.d.set 12 0x60010 }
    let full : State := ((base.poke 0x10000 [0]).modPart 0 fun p => { p with cfg := { p.cfg with ctxArea := 0x70000 } }).modCore 3 fun x =>
      { x with swapped := List.replicate 32 ⟨th id, 0, 2, false, false, false, false, [], .none⟩ }
    let g (n : Fin 64) : Stage := ⟨n, .cq 0 n, 0, 0x40000, 1, 2, 3⟩
    let ring := base.modCtx 3 fun x => { x with spill := { x.spill with ring := [aPacket] } }
    let wait : Launch := { newLaunch with order := 1, id := 8, preds := [7] }
    (part q).resetting = none ∧ ((part (q.modPart 0 fun p => { p with resetting := some (3, 0) })).resetting).isSome = true ∧
    (part q).launchAt 0 = none ∧ (part q).cfg.part = 0 ∧
    (((q.launchQueue (part q)).map fun x => q.readEntry ((part q).lowCore 0) x 0).map fun r => (r.2.isSome, (r.1.part? 0).isSome)) =
      some (true, true) ∧
    (launched newLaunch).stalledAt newLaunch 0 = none ∧
    ((part held).launchAt 0).map (·.ending) = some (some 3) ∧ ((launched aLaunch).writeEnd (part (launched aLaunch)) aLaunch 0).2 = true ∧
    (((launched aLaunch).writeEnd (part (launched aLaunch)) aLaunch 0).1.part? 0).map (·.launches) = some (part (launched aLaunch)).launches ∧
    record.f 12 0 64 = 0x60010 ∧ (launched record).mayStamp 0 7 = true ∧
    (match ((launched record).engineKey ((part (launched record)).lowCore 0) 0x60010 .store).2 with | .ok _ => true | _ => false) = true ∧
    wait.ending = none ∧ aLaunch.id ∈ wait.preds ∧ aLaunch.slots ≠ [] ∧
    base.swapStall 3 = none ∧ (full.swapStall 3).isSome = true ∧
    (base.rebind 3 2 (g 0) (g 1)).isSome = true ∧ receiver [g 0, g 1] = some (g 0) ∧
    (((base.rebind 3 2 (g 0) (g 1)).getD base).slot 3 2).thread?.isSome = true ∧
    (ring.core 3).c.spill.ring = [aPacket] ∧ ring.spillLocked 3 none = false ∧ (ring.core 3).c.runQ.length < 16 := by
  and_intros <;> decide

theorem witness_SchedulingSteps :
    let q := withCtl [(0x40, 0x60000), (0x48, 16), (0x50, 1)] onRow
    let hot (b : Bool) (s : State) : State := s.modDie 0 fun x => { x with hot := b }
    let gone := base.modCore 3 fun x => { x with removed := 4 }
    let part (s : State) : Part := (s.part? 0).getD bootPart
    let now (s : State) : State := s.modCore 3 fun x => { x with cycle := 5000 }
    (q.launchQueue (part q)).isSome = true ∧ (onRow.launchQueue (part onRow)).isSome = false ∧
    ((q.launchQueue (part q)).map fun x => (x.producer, (part q).nextRead x 0)) = some (1, 0) ∧
    (part q).rowsOn 0 ≠ [] ∧ q.running (part q) = true ∧ base.running (part base) = false ∧ (part q).endedIdx.contains 0 = false ∧
    ((part (launched newLaunch)).launchAt 0).isSome = true ∧
    ((part (launched newLaunch)).waiting 0).map (fun l => l.fits (part (launched newLaunch))) = [true] ∧
    ((part (launched bigLaunch)).waiting 0).map (fun l => l.fits (part (launched bigLaunch))) = [false] ∧
    ((launched newLaunch).nextPlaced (part (launched newLaunch)) 0).isSome = true ∧
    (part (launched newLaunch)).cfg.part = 0 ∧ newLaunch.placed = [] ∧ aLaunch.placed ≠ [] ∧
    newLaunch.pairOk (part (launched newLaunch)) = true ∧
    ({ newLaunch with d := newLaunch.d.set 6 0x100000000 } : Launch).pairOk (part (launched newLaunch)) = false ∧
    ((launched newLaunch).readSeeds 0 newLaunch).2 = .ok [] ∧
    ((launched newLaunch).readSeeds 0 { newLaunch with d := (newLaunch.d.set 5 8).set 6 0x100000001 }).2 = .bad ∧
    ((launched newLaunch |>.poke 0x10000 [0]).readSeeds 0 { newLaunch with d := newLaunch.d.set 6 0x100000001 }).2 = .held ∧
    ((((now onRow).modThr 3 2 fun t => { t with kind := .migrant, st := .parked }).modCtx 3 fun x =>
      { x with runQ := [aPacket] }).parkedLong 3 2) = true ∧ newLaunch.promoteDue 0 10000000 = false ∧ ({ newLaunch with eff := [(0, 2, 0)] } : Launch).promoteDue 0 10000000 = true ∧
    newLaunch.ending = none ∧ (launched aLaunch).launchOver (part (launched aLaunch)) aLaunch = true ∧
    (launched newLaunch).launchOver (part (launched newLaunch)) newLaunch = false ∧
    base.mayStamp 0 6 = true ∧ base.parkedLong 3 2 = false ∧ base.mayRemove 3 4 = false ∧ (hot true base).mayRemove 3 4 = true ∧ (hot true base).thread? 3 4 = none ∧
    base.mayReturn 3 2 = false ∧ gone.mayReturn 3 2 = true ∧ base.passDue 0 = false ∧
    ({ base with clock := 65536 } : State).passDue 0 = true ∧ base.clock < (base.die 0).lastSample + 4096 ∧
    ((base.die 0).lastSample + 4096 ≤ ({ base with clock := 5000 } : State).clock) := by
  and_intros <;> decide

/-- Addresses translated and refused by stage 2; accesses that wait for a page; requests made and none; lines to be moved and
invalidated; activities within their budget and not; the mode table's request. -/
theorem witness_MemorySystemSteps :
    let w : S2Wait := ⟨⟨3, 1⟩, 0, 21, 0, 0x70000, 0⟩
    let s2 : State := { base with s2waits := [w] }
    let inv := withCtl [(0x18, 2 ^ 32)] base
    let run := onRow.modDie 0 fun x => { x with runs := [(0x1800, 1, 0, 4)] }
    let ask (p : Part → Part) : Option Part := (base.modPart 0 p).part? 0
    let dom : State := { base with inDomain := true }
    let far : State := { dom with shHome := [(6, 5)] }
    let tables (s : State) : State :=
      ((s.poke 0x10000 (leBytes 8 0x80001)).poke 0x80000 (leBytes 8 0x90001)).poke 0x90038 (leBytes 8 0x7007F)
    let page : State := tables { base with mgmt := { base.mgmt with budgets := base.mgmt.budgets.set 5 { base.mgmt.budgets[5] with
      budget := 9 } } } |>.modPart 0 fun p => { p with mode := { p.mode with bpol := 1 } }
    let reads (t : Thread) : Thread := { t with chunk := some { aChunk t with reads := [7 * 1024] } }
    let part (s : State) : Part := (s.part? 0).getD bootPart
    let i : Fin 7 := 1
    (match (base.resolve 3 0x60000 .load false).2 with | .ok _ => true | _ => false) = true ∧
    (match ((base.poke 0x10000 [0]).resolve 3 0x60000 .load false).2 with | .error (.stage2 _ _) => true | _ => false) = true ∧
    base.s2waits.any (·.at_ 0 7) = false ∧ s2.s2waits.any (·.at_ 0 7) = true ∧ s2.enginesAt 0 7 = [] ∧
    base.s2waits.filter (·.at_ 0 7) = [] ∧ s2.s2waits.filter (·.at_ 0 7) = [w] ∧ w.who.serial ≠ 0 ∧
    (s2.core 3).slotOf 1 = some 2 ∧ (s2.thr 3 2).trapReady = true ∧ (onSub base).subject.flag = false ∧
    (inv.invalRequest (part inv)).isSome = true ∧ base.invalRequest (part base) = none ∧
    ({ dom with subject := { dom.subject with flag := true } } : State).subject.flag = true ∧
    base.movable (part base) 7 = none ∧ base.mgmt.mayRun 5 = false ∧ page.mgmt.mayRun 5 = true ∧ page.movable (part page) 8 = none ∧
    base.mover 0x1800 = none ∧ run.mover 0x1800 = some (1, 0) ∧ ({ base with samplerReqs := [(⟨3, 1⟩, 0, 0, [])] } : State).samplerReqs ≠ [] ∧
    (ask id).map (·.s2.waits) = some none ∧
    (ask fun p => { p with s2 := { p.s2 with waits := some ([], []) } }).map (·.s2.waits) = some (some ([], [])) ∧
    base.inFlight ([], []) = false ∧ (st reads).inFlight ([(⟨3, 1⟩, 1)], []) = true ∧
    base.inDomain = false ∧ dom.inDomain = true ∧ dom.homeHere 0x1800 = true ∧ far.homeHere 0x1800 = false ∧
    (page.movable (part page) 7).map (fun l => (ptePfn l.pte, l.at_)) = some (7, 0x90038) ∧ page.movingPages = [] ∧
    page.frameUsed (part page) 7 = false ∧ (page.modThr 3 2 reads).frameUsed (part page) 7 = true ∧
    page.freeFrame 7 40 = true ∧ page.freeFrame 7 39 = false ∧
    (({ base with shPending := [(0x1800, [])] } : State).shPending.find? fun e => e.1 == 0x1800) = some (0x1800, []) ∧
    base.mgmt.mayRun 0 = false ∧ ({ base.mgmt with budgets := base.mgmt.budgets.set 0 { base.mgmt.budgets[0] with budget := 9 } } : Mgmt).mayRun 0 = true ∧
    State.reset.rot < (base.mgmt.budgets[i]).start + 2 ^ (base.mgmt.budgets[i]).period ∧
    (base.mgmt.budgets[i]).start + 2 ^ (base.mgmt.budgets[i]).period ≤ base.rot ∧
    base.ctl (part base) 0xC8 / 2 ^ 32 = base.ctl (part base) 0xD0 / 2 ^ 32 ∧
    (withCtl [(0xC8, 2 ^ 32)] base).ctl (part base) 0xC8 / 2 ^ 32 ≠ (withCtl [(0xC8, 2 ^ 32)] base).ctl (part base) 0xD0 / 2 ^ 32 := by
  and_intros <;> decide

/-! ### Witnesses: management, the outside world -/

/-- Requests of each operation and none; slot 0 trapped; sessions and grants; partitions that may be created and may not;
periods that are over; held stamps and records. -/
theorem witness_ManagementSteps :
    let op (n a : Nat) (s : State) : State := withCtl [(0x80, n), (0x88, a), (0x98, 2 ^ 32)] s
    let part (s : State) : Part := (s.part? 0).getD bootPart
    let loc : Nat := (base.loc 3 0).toNat % 2 ^ 32
    let sup : State := supBase.modThr 3 0 fun t => { t with st := .trapped }
    let g : State := { base with mgmt := { base.mgmt with grants := [⟨2, 0, 1000⟩] } }
    let g1 : State := { base with mgmt := { base.mgmt with grants := [⟨1, 0, 1000⟩] } }
    let ses (e : Nat) (s : State) : State := s.modPart 0 fun p => { p with session := some ⟨e, 1, false, 0⟩ }
    let cfg : PartCfg := { bootPart.cfg with part := 1, rows := [(0, 5)], slate := [], ways := 0, jobs := [] }
    let ok : State := { State.reset with mgmt := { State.reset.mgmt with booted := true } }
    let held : State := { base with unstamped := [⟨3, 0, .trap 3 false ⟨0, 0, 0, 8, 0x1A, 0x40000, 0, 0, 0, 0, 0x73, 0⟩⟩] }
    let tired := held.modCore 3 fun x => { x with stamps := ⟨8, base.rot, 8⟩ }
    base.mgmtRequest (part base) = none ∧ (op 1 loc sup).mgmtRequest (part sup) = some (1, BitVec.ofNat 64 loc, 0, 1) ∧
    (op 1 loc sup).mgmtReserved (part sup) = false ∧ (op 1 loc sup).ctl (part sup) 0x80 = 1 ∧
    (op 1 loc sup).coreNamed (part sup) (BitVec.ofNat 64 loc) = some 3 ∧ ((op 1 loc sup).thr 3 0).st = .trapped ∧
    (supBase.thr 3 0).st ≠ .trapped ∧ (op 2 0x12345 sup).coreNamed (part sup) 0x12345 = none ∧
    base.grantFor 0 = none ∧ (g1.grantFor 0).isSome = true ∧ (part (ses 1000 base)).session.isSome = true ∧ (part base).session = none ∧
    base.sliceOver (part base) = false ∧ onRow.running (part onRow) = true ∧ base.running (part base) = false ∧
    (part base).cores.all base.switchable = false ∧ (part base).msOver base.clock = false ∧ (part base).msOver 100000000 = true ∧
    (ses 0 base).sessionOver 0 = true ∧ (ses 1000 base).sessionOver 0 = false ∧ (onSub base).subject.cfg = none ∧
    ok.creatable cfg = true ∧ State.reset.creatable cfg = false ∧ (base.core 3).cycle < (base.core 3).windowStart + windowCycles ∧
    (let x := base.modCore 3 fun x => { x with cycle := windowCycles }
     (x.core 3).windowStart + windowCycles ≤ (x.core 3).cycle) ∧
    (let smk := (onRow.modPart 0 fun p => { p with mode := { p.mode with smk := 0 } })
     let due : State := { smk with mgmt := { smk.mgmt with budgets := smk.mgmt.budgets.set 4 { smk.mgmt.budgets[4] with budget := 9 } } }
     let stuck := withCtl [(stallCtl, 0x40000010), (stallCtl + 8, 1)] due
     due.captureDue 0 0 = true ∧ due.ringStop (part due) stallCtl (64 + 128 * ((part due).coresOn 0).length) = none ∧
      stuck.captureDue 0 0 = true ∧ (stuck.ringStop (part due) stallCtl (64 + 128 * ((part due).coresOn 0).length)).isSome = true) ∧
    base.makerOver = false ∧ ({ base with mgmt := { base.mgmt with grants := [⟨2, 0, 0⟩] } } : State).makerOver = true ∧
    base.captureDue 0 0 = false ∧ base.heldStamp 3 0 = none ∧ (held.heldStamp 3 0).isSome = true ∧
    (held.source 3 0).ready held.rot = true ∧ (tired.source 3 0).ready tired.rot = false ∧ (base.core 3).traceHeld = [] ∧ (base.slot 3 2).thread? = some (th id) ∧
    g.debugs 3 = true ∧ base.debugs 3 = false := by decide

/-- Host accesses within the function and beyond; port requests; link ports with and without a peer; domains; rows. -/
theorem witness_OutsideWorld :
    let part : Part := (base.part? 0).getD bootPart
    let port := withCtl [(portCtl 0 + 0x18, 2 ^ 32)] base
    let ln (m : Mgmt) (i : Fin 8) (p : Option Nat) : Mgmt := { m with links := m.links.set i { m.links[i] with up := true, peer := p } }
    let m7 := ln (ln base.mgmt 0 (some 4)) 7 none
    base.part? 0 ≠ none ∧ base.mayStamp 0 6 = true ∧
    ({ base with unstamped := [⟨0, 6, .error 4 0 0 1 none⟩] } : State).mayStamp 0 6 = false ∧ 0x60000 + 8 ≤ barBytes ∧ (base.ipaReadAll part 0x60000 8 (pageFuel 8)).isSome = true ∧
    (base.ipaWriteAll part 0x60000 [1, 2] (pageFuel 2)).isSome = true ∧
    base.ctl part (portCtl 0 + 0x18) / 2 ^ 32 = base.ctl part (portCtl 0 + 0x20) / 2 ^ 32 ∧
    port.ctl part (portCtl 0 + 0x18) / 2 ^ 32 ≠ port.ctl part (portCtl 0 + 0x20) / 2 ^ 32 ∧ port.sendingOn part 0 = false ∧
    (base.parts.find? fun e => e.2.cfg.jobs.contains 0) = none ∧ base.mgmt.cxl.2 ≥ 0 ∧
    (m7.links[0]).peer = some 4 ∧ (m7.links[7]).up = true ∧ (m7.links[7]).peer = none ∧
    base.inDomain = false ∧ ({ base with inDomain := true } : State).inDomain = true ∧ (4 : Nat) ≠ base.modnum.val ∧
    base.acceptsGrant [] = false ∧ base.mgmt.rowsOff.contains (0, 5) = false ∧
    ({ base.mgmt with rowsOff := [(0, 5)] } : Mgmt).rowsOff.contains (0, 5) = true ∧
    (base.parts.any fun e => e.2.cfg.rows.contains (0, 0)) = true ∧ (base.parts.any fun e => e.2.cfg.rows.contains (0, 5)) = false ∧
    base.idleRow 0 0 = false ∧ base.mgmt.mayRun 1 = false := by decide

/-! ### Witnesses: the step, decoding, memory -/

/-- A program's first instruction: its core's turn, its word fetched. -/
def first : State := State.reset.withFetchWord 32 0x00550513

/-- The state in which the turn of the core begins, if a turn comes next. -/
def turnOf (s : State) : Option (Nat × State) := match s.nextMove with
  | (.turn c, s1) => some (c, s1)
  | _ => none

/-- The word a fetch delivers. -/
def fetched (r : State × Except AccErr Word32) : Option Word32 := match r.2 with
  | .ok w => some w
  | .error _ => none

/-- The same thread, a wait of its instruction just ended. -/
def again : State := first.modThr 3 2 fun t => { t with redo := true, word := 0x00550513 }

theorem witness_StepRunsDecodedInstruction : first.coresOk = true ∧ first.due = none ∧ first.againLeft = none ∧ (turnOf first).map (·.1) = some 3 ∧
    (turnOf first).bind (fun e => e.2.canIssue 3) = some 2 ∧
    (turnOf first).map (fun e => ((e.2.thr 3 2).a.pc, (e.2.thr 3 2).deferred, (e.2.thr 3 2).atLimit)) = some (0x40000, [], false) ∧
    first.soloLines = none ∧
    (turnOf first).bind (fun e => fetched ((e.2.beginTurn 3 2).fetchWord 3 0x40000)) = some 0x00550513 ∧
    takesLiteral 0x00550513 = false ∧ decodeTableWord 32 0x00550513 = some (.addi 10 10 5) ∧
    again.coresOk = true ∧ again.due = none ∧ again.againLeft = some (3, 2) ∧ (again.thr 3 2).word = 0x00550513 ∧
    ((nextOf (step again)).map fun t => (t.thr 3 2).redo) = some false := by decide

theorem witness_DecodeEncodeRoundTrip : (Instr.limm 7 31 0xFFFFFFFF).isWord = true ∧ (Instr.limm 7 31 0xFFFFFFFF).wf = true ∧
    (Instr.csrrwi 31 0xC00 31).isWord = true ∧ (Instr.csrrsi 31 0xC00 0).wf = true ∧ (Instr.vadd .f32 63 63 63).wf = true := by decide

theorem witness_MemoryCanonicalKept : first.mem.wf = true ∧ (nextOf (step first)).isSome = true := by decide

end Sys2Proof.Tests
end

section
/-! The proof of O2: floating vector results (R29 to R39, R155 to R164). -/

namespace Sys2Proof.Machine

/-! ### A number cut at a unit, and its rounding to whole units (R32) -/

/-- The sign of a value as a factor. -/
def sgn (n : Bool) : ℚ := if n then -1 else 1

@[simp] theorem sgn_true : sgn true = -1 := rfl
@[simp] theorem sgn_false : sgn false = 1 := rfl
@[simp] theorem abs_sgn (n : Bool) : |sgn n| = 1 := by cases n <;> norm_num
theorem sgn_ne (a b : Bool) : sgn (a != b) = sgn a * sgn b := by cases a <;> cases b <;> norm_num

/-- y is the integer m, or lies strictly between m and m + 1 when `rest` is set. -/
def Near (m : Nat) (rest : Bool) (y : ℝ) : Prop := if rest then (m : ℝ) < y ∧ y < m + 1 else y = m

/-- y consists of i whole units, a half when h is set, and less than a half, which is not 0 just when t is set. -/
def IsCut (y : ℝ) (i : Nat) (h t : Bool) : Prop :=
  ∃ d : ℝ, 0 ≤ d ∧ d < 1 / 2 ∧ (t = true ↔ d ≠ 0) ∧ y = i + (if h then 1 / 2 else 0) + d

theorem Near.bounds {m : Nat} {r : Bool} {y : ℝ} (h : Near m r y) : (m : ℝ) ≤ y ∧ y < m + 1 := by
  unfold Near at h
  split at h
  · exact ⟨h.1.le, h.2⟩
  · subst h; exact ⟨le_rfl, by linarith⟩

theorem Near.pos {m : Nat} {r : Bool} {y : ℝ} (h : Near m r y) (hm : m ≠ 0) : 0 < y :=
  lt_of_lt_of_le (by exact_mod_cast Nat.pos_of_ne_zero hm) h.bounds.1

theorem Near.eq_iff {m : Nat} {r : Bool} {y : ℝ} (h : Near m r y) : y = m ↔ r = false := by
  unfold Near at h
  split at h
  · rename_i hr; simp [hr, h.1.ne']
  · rename_i hr; simp [hr, h]

/-- A natural number is less than the power of 2 above its logarithm. -/
theorem succ_le_pow_log2 (m : Nat) : m + 1 ≤ 2 ^ (m.log2 + 1) := Nat.lt_log2_self

theorem isCut_small {m : Nat} {r : Bool} {y : ℝ} (hy : Near m r y) {k : Nat} (hk : m.log2 + 2 < k) :
    IsCut (y * (2 ^ k)⁻¹) 0 false (m != 0 || r) := by
  have hb := hy.bounds
  have hlt : y < 2 ^ (m.log2 + 1) := lt_of_lt_of_le hb.2 (by exact_mod_cast succ_le_pow_log2 m)
  have hpow : (2 : ℝ) ^ (m.log2 + 1) ≤ 2 ^ k * (1 / 2) := by
    have : (2 : ℝ) ^ (m.log2 + 2) ≤ 2 ^ k := pow_le_pow_right₀ (by norm_num) (by omega)
    rw [pow_succ] at this; linarith
  have hp : (0 : ℝ) < 2 ^ k := by positivity
  have h0 : 0 ≤ y := le_trans (Nat.cast_nonneg m) hb.1
  refine ⟨y * (2 ^ k)⁻¹, by positivity, ?_, ?_, by simp⟩
  · rw [← div_eq_mul_inv, div_lt_iff₀ hp]; linarith
  · have : (m != 0 || r) = true ↔ y ≠ 0 := by
      rcases Nat.eq_zero_or_pos m with rfl | hm
      · have := hy.eq_iff
        simp only [Nat.cast_zero] at this
        simp [this]
      · simp [hm.ne', (hy.pos hm.ne').ne']
    simp [this, hp.ne']

theorem isCut_large {m : Nat} {r : Bool} {y : ℝ} (hy : Near m r y) (k : Nat) :
    IsCut (y * (2 ^ (k + 1))⁻¹) (m / 2 ^ (k + 1)) (m / 2 ^ k % 2 == 1) (m % 2 ^ k != 0 || r) := by
  have hb := hy.bounds
  have hp : (0 : ℝ) < 2 ^ k := by positivity
  have hlow : m % 2 ^ k + 1 ≤ 2 ^ k := Nat.mod_lt _ (by positivity)
  have hlow' : ((m % 2 ^ k : ℕ) : ℝ) + 1 ≤ 2 ^ k := by exact_mod_cast hlow
  have hsplit : m = 2 ^ k * (2 * (m / 2 ^ (k + 1)) + m / 2 ^ k % 2) + m % 2 ^ k := by
    have h1 := Nat.div_add_mod (m / 2 ^ k) 2
    rw [Nat.div_div_eq_div_mul, ← pow_succ] at h1
    rw [h1, Nat.div_add_mod]
  have hsplit' : (m : ℝ) = 2 ^ k * (2 * (m / 2 ^ (k + 1) : ℕ) + (m / 2 ^ k % 2 : ℕ)) + (m % 2 ^ k : ℕ) := by
    exact_mod_cast hsplit
  refine ⟨((m % 2 ^ k : ℕ) + (y - m)) / 2 ^ (k + 1), ?_, ?_, ?_, ?_⟩
  · have : (0 : ℝ) ≤ (m % 2 ^ k : ℕ) := Nat.cast_nonneg _
    have : 0 ≤ y - m := by linarith
    positivity
  · rw [div_lt_iff₀ (by positivity), pow_succ]; linarith
  · have h0 : (0 : ℝ) ≤ (m % 2 ^ k : ℕ) := Nat.cast_nonneg _
    have : ((m % 2 ^ k : ℕ) + (y - m)) / 2 ^ (k + 1) = (0 : ℝ) ↔ m % 2 ^ k = 0 ∧ r = false := by
      rw [← hy.eq_iff, div_eq_zero_iff, or_iff_left (by positivity)]
      constructor
      · intro h
        exact ⟨by exact_mod_cast (by linarith : ((m % 2 ^ k : ℕ) : ℝ) = 0), by linarith⟩
      · rintro ⟨h, h'⟩; simp [h, h']
    rw [Ne, this]; simp [Classical.or_iff_not_imp_left]
  · rw [pow_succ, show (if (m / 2 ^ k % 2 == 1) = true then (1 / 2 : ℝ) else 0) = (m / 2 ^ k % 2 : ℕ) / 2 by
      rcases Nat.mod_two_eq_zero_or_one (m / 2 ^ k) with h | h <;> simp [h]]
    field_simp
    rw [hsplit']; ring_nf

/-- `cut` cuts the number at the unit 2^(-s). -/
theorem cut_isCut {m : Nat} {r : Bool} {y : ℝ} (hy : Near m r y) {s : Int} (hs : r = false ∨ s < 0) :
    IsCut (y * 2 ^ s) (cut m s r).1 (cut m s r).2.1 (cut m s r).2.2 := by
  unfold cut
  split
  · rename_i h0
    have hr : r = false := hs.resolve_right (by omega)
    obtain ⟨k, rfl⟩ := Int.eq_ofNat_of_zero_le h0
    subst hr
    simp only [Near, Bool.false_eq_true, if_false] at hy
    exact ⟨0, le_rfl, by norm_num, by simp, by simp [hy]⟩
  · rename_i h0
    obtain ⟨k, hk⟩ : ∃ k : Nat, s = -((k + 1 : Nat) : Int) := ⟨(-s).toNat - 1, by omega⟩
    subst hk
    have hz : (2 : ℝ) ^ (-((k + 1 : Nat) : Int)) = (2 ^ (k + 1))⁻¹ := by rw [zpow_neg, zpow_natCast]
    have hn : (- -((k + 1 : Nat) : Int)).toNat = k + 1 := by omega
    simp only [hz, hn, Nat.add_sub_cancel]
    split
    · rename_i hk; exact isCut_small hy hk
    · exact isCut_large hy k

theorem IsCut.le {y : ℝ} {i : Nat} {h t : Bool} (c : IsCut y i h t) : (i : ℝ) ≤ y ∧ y < i + 1 := by
  obtain ⟨d, h0, h1, -, rfl⟩ := c
  split <;> constructor <;> linarith

theorem IsCut.eq_iff {y : ℝ} {i : Nat} {h t : Bool} (c : IsCut y i h t) : y = i ↔ (h || t) = false := by
  obtain ⟨d, h0, h1, ht, rfl⟩ := c
  cases h
  · cases t <;> simp_all
  · simp; linarith

theorem IsCut.lt_of {y : ℝ} {i : Nat} {h t : Bool} (c : IsCut y i h t) (hi : (h || t) = true) : (i : ℝ) < y :=
  lt_of_le_of_ne c.le.1 fun e => by simp [c.eq_iff.1 e.symm] at hi

/-- Rounded to a number other than i units, the number is not a whole one. -/
theorem roundUnits_cases (mode : RMode) (n : Bool) (i : Nat) (h t : Bool) :
    roundUnits mode n i h t = i ∨ (roundUnits mode n i h t = i + 1 ∧ (h || t) = true) := by
  unfold roundUnits
  cases mode <;> cases n <;> cases h <;> cases t <;> simp [Nat.mod_two_eq_zero_or_one]

/-- The rounded number equals the exact one just when nothing was cut off. -/
theorem IsCut.round_eq_iff {y : ℝ} {i : Nat} {h t : Bool} (c : IsCut y i h t) (mode : RMode) (n : Bool) :
    ((roundUnits mode n i h t : ℕ) : ℝ) = y ↔ (h || t) = false := by
  rcases roundUnits_cases mode n i h t with e | ⟨e, ht⟩
  · rw [e, eq_comm, c.eq_iff]
  · rw [e, ht]; push_cast; simp [c.le.2.ne']

/-- z is no number strictly between i and i + 1 units, of either sign. -/
def Clear (i : Nat) (z : ℝ) : Prop := |z| ≤ i ∨ (i : ℝ) + 1 ≤ |z|

theorem IsCut.floor_max {y z : ℝ} {i : Nat} {h t : Bool} (c : IsCut y i h t) (hz : Clear i z) (h' : z ≤ y) : z ≤ i := by
  rcases hz with hz | hz
  · exact le_trans (le_abs_self z) hz
  · rcases abs_cases z with ⟨e, -⟩ | ⟨-, hn⟩
    · linarith [c.le.2]
    · exact le_trans hn.le (Nat.cast_nonneg i)

/-- Rounding away from zero (R32). -/
theorem IsCut.away {y : ℝ} {i : Nat} {h t : Bool} (c : IsCut y i h t) :
    y ≤ ((if h || t then i + 1 else i : ℕ) : ℝ) ∧
      ∀ z, Clear i z → y ≤ z → ((if h || t then i + 1 else i : ℕ) : ℝ) ≤ z := by
  cases hi : (h || t) with
  | true =>
    refine ⟨by simpa using c.le.2.le, fun z hz hle => ?_⟩
    have h0 : (0 : ℝ) ≤ i := Nat.cast_nonneg i
    have hlt := c.lt_of hi
    rcases hz with hz | hz
    · linarith [le_abs_self z]
    · simpa [abs_of_nonneg (by linarith : 0 ≤ z)] using hz
  | false =>
    have := c.eq_iff.2 hi
    exact ⟨by simp [this], fun z _ hz => by simpa [this] using hz⟩

/-- Round to nearest, ties to even (R32). -/
theorem IsCut.nearest {y z : ℝ} {i : Nat} {h t : Bool} (c : IsCut y i h t) (n : Bool) (hz : Clear i z) :
    |y - (roundUnits .rne n i h t : ℕ)| < |y - z| ∨ z = (roundUnits .rne n i h t : ℕ) ∨
      (|y - (roundUnits .rne n i h t : ℕ)| = |y - z| ∧ roundUnits .rne n i h t % 2 = 0) := by
  have h0 : (0 : ℝ) ≤ i := Nat.cast_nonneg i
  have hle := c.le
  have far : z ≤ i ∧ |y - z| = y - z ∨ (i : ℝ) + 1 ≤ z ∧ |y - z| = z - y := by
    rcases hz with hz | hz
    · have := le_trans (le_abs_self z) hz
      exact .inl ⟨this, abs_of_nonneg (by linarith)⟩
    · rcases abs_cases z with ⟨e, -⟩ | ⟨e, hn⟩
      · rw [e] at hz
        exact .inr ⟨hz, by rw [abs_sub_comm, abs_of_nonneg (by linarith)]⟩
      · exact .inl ⟨by linarith, abs_of_nonneg (by linarith)⟩
  obtain ⟨d, d0, d1, dt, dy⟩ := c
  have down : |y - i| = y - i := abs_of_nonneg (by linarith)
  have up : |y - ((i + 1 : ℕ) : ℝ)| = i + 1 - y := by
    rw [abs_sub_comm, abs_of_nonneg (by push_cast; linarith)]; push_cast; ring
  have key : (y - i < 1 / 2 ∧ roundUnits .rne n i h t = i) ∨ (1 / 2 < y - i ∧ roundUnits .rne n i h t = i + 1) ∨
      (y - i = 1 / 2 ∧ roundUnits .rne n i h t = i + i % 2) := by
    cases h with
    | false => exact .inl ⟨by simp at dy; linarith, by simp [roundUnits]⟩
    | true =>
      simp only [if_true] at dy
      cases t with
      | true =>
        have : 0 < d := lt_of_le_of_ne d0 (dt.1 rfl).symm
        exact .inr (.inl ⟨by linarith, by simp [roundUnits]⟩)
      | false =>
        have : d = 0 := by simpa using dt
        refine .inr (.inr ⟨by linarith, ?_⟩)
        rcases Nat.mod_two_eq_zero_or_one i with e | e <;> simp [roundUnits, e]
  rcases key with ⟨hy, e⟩ | ⟨hy, e⟩ | ⟨hy, e⟩
  · rw [e, down]
    rcases far with ⟨hz, ez⟩ | ⟨hz, ez⟩ <;> rw [ez]
    · rcases hz.lt_or_eq with hlt | heq
      · exact .inl (by linarith)
      · exact .inr (.inl heq)
    · exact .inl (by linarith)
  · rw [e, up]
    rcases far with ⟨hz, ez⟩ | ⟨hz, ez⟩ <;> rw [ez]
    · exact .inl (by linarith)
    · rcases hz.lt_or_eq with hlt | heq
      · exact .inl (by linarith)
      · exact .inr (.inl (by push_cast; exact heq.symm))
  · have hu : (roundUnits .rne n i h t) % 2 = 0 := by omega
    have dist : |y - (roundUnits .rne n i h t : ℕ)| = 1 / 2 := by
      rcases Nat.mod_two_eq_zero_or_one i with e2 | e2 <;> rw [e, e2]
      · rw [Nat.add_zero, down, hy]
      · rw [up]; linarith
    rw [dist]
    rcases far with ⟨hz, ez⟩ | ⟨hz, ez⟩ <;> rw [ez]
    · rcases hz.lt_or_eq with hlt | heq
      · exact .inl (by linarith)
      · exact .inr (.inr ⟨by linarith, hu⟩)
    · rcases hz.lt_or_eq with hlt | heq
      · exact .inl (by linarith)
      · exact .inr (.inr ⟨by linarith, hu⟩)

/-- The rounded number of units is the exact number rounded into any set that holds it, and holds nothing strictly between
the two whole numbers of units beside the exact one (R32). -/
theorem rounding_of_isCut {num : Bool → ℚ → Prop} {mode : RMode} {n : Bool} {i : Nat} {h t : Bool} {y : ℝ} {q : ℤ}
    (c : IsCut y i h t)
    (mem : ∀ even, (even = true → roundUnits mode n i h t % 2 = 0) → num even (sgn n * (roundUnits mode n i h t : ℕ) * 2 ^ q))
    (gap : ∀ z, num false z → |z| ≤ i * 2 ^ q ∨ ((i : ℚ) + 1) * 2 ^ q ≤ |z|) :
    Rounding mode num ((sgn n : ℚ) * y * 2 ^ q) (sgn n * (roundUnits mode n i h t : ℕ) * 2 ^ q) := by
  have hw : (0 : ℝ) < 2 ^ q := by positivity
  have hwq : (0 : ℚ) < 2 ^ q := by positivity
  have h0 : (0 : ℝ) ≤ y := le_trans (Nat.cast_nonneg i) c.le.1
  -- each competitor, in units and with the sign of the number taken away
  have scaled : ∀ z, num false z → ∃ z' : ℚ, z = sgn n * z' * 2 ^ q ∧ Clear i z' := by
    intro z hz
    refine ⟨sgn n * z / 2 ^ q, ?_, ?_⟩
    · field_simp; cases n <;> norm_num
    · have ez : |sgn n * z / 2 ^ q| = |z| / 2 ^ q := by rw [abs_div, abs_mul, abs_sgn, one_mul, abs_of_pos hwq]
      have : |sgn n * z / 2 ^ q| ≤ i ∨ (i : ℚ) + 1 ≤ |sgn n * z / 2 ^ q| := by
        rw [ez, div_le_iff₀ hwq, le_div_iff₀ hwq]; exact gap z hz
      unfold Clear
      exact_mod_cast this
  have flip : ∀ a b : ℝ, |(sgn n : ℝ) * a * 2 ^ q - (sgn n : ℝ) * b * 2 ^ q| = |a - b| * 2 ^ q := by
    intro a b
    rw [← sub_mul, ← mul_sub, abs_mul, abs_mul, abs_of_pos hw]
    cases n <;> norm_num
  have cmp : ∀ a b : ℝ, (sgn n : ℝ) * a * 2 ^ q ≤ (sgn n : ℝ) * b * 2 ^ q ↔ if n then b ≤ a else a ≤ b := by
    intro a b
    rw [mul_le_mul_iff_left₀ hw]
    cases n <;> simp
  refine ⟨mem false (by simp), ?_⟩
  cases mode with
  | rne =>
    intro z hz
    obtain ⟨z', rfl, hc⟩ := scaled z hz
    push_cast
    rw [flip, flip, mul_lt_mul_iff_left₀ hw, mul_left_inj' hw.ne']
    rcases c.nearest n hc with hlt | heq | ⟨heq, hu⟩
    · exact .inl hlt
    · exact .inr (.inl (by rw [show z' = _ by exact_mod_cast heq]))
    · exact .inr (.inr ⟨heq, mem true fun _ => hu⟩)
  | rtz =>
    have hu : roundUnits .rtz n i h t = i := by simp [roundUnits]
    have ab : ∀ a : ℝ, |(sgn n : ℝ) * a * 2 ^ q| = |a| * 2 ^ q := by simpa using fun a => flip a 0
    rw [hu]
    push_cast
    refine ⟨?_, ?_, ?_⟩
    · rw [ab, ab, abs_of_nonneg h0, abs_of_nonneg (Nat.cast_nonneg i)]
      exact mul_le_mul_of_nonneg_right c.le.1 hw.le
    · have : (sgn n : ℝ) * y * 2 ^ q * ((sgn n : ℝ) * i * 2 ^ q) = y * i * 2 ^ q * 2 ^ q := by
        cases n <;> norm_num <;> ring
      rw [this]; positivity
    · intro z hz hle
      obtain ⟨z', rfl, hc⟩ := scaled z hz
      have hz' : |(z' : ℝ)| ≤ y := by
        push_cast at hle
        rw [ab, ab, abs_of_nonneg h0] at hle
        exact le_of_mul_le_mul_right hle hw
      have : |(z' : ℝ)| ≤ i := hc.resolve_right fun h' => absurd (lt_of_lt_of_le c.le.2 h') (not_lt.2 hz')
      have : |z'| ≤ (i : ℚ) := by exact_mod_cast this
      rw [abs_mul, abs_mul, abs_mul, abs_mul, abs_of_nonneg (Nat.cast_nonneg i : (0 : ℚ) ≤ i)]
      gcongr
  | rup =>
    have above (u : Nat) (h1 : if n then (u : ℝ) ≤ y else y ≤ u)
        (h2 : ∀ z, Clear i z → (if n then z ≤ y else y ≤ z) → if n then z ≤ u else u ≤ z) :
        (sgn n : ℝ) * y * 2 ^ q ≤ ((sgn n * (u : ℕ) * 2 ^ q : ℚ) : ℝ) ∧
          ∀ z, num false z → (sgn n : ℝ) * y * 2 ^ q ≤ z → sgn n * (u : ℕ) * 2 ^ q ≤ z := by
      refine ⟨by push_cast; exact (cmp _ _).2 h1, fun z hz hle => ?_⟩
      obtain ⟨z', rfl, hc⟩ := scaled z hz
      push_cast at hle
      rw [← Rat.cast_le (K := ℝ)]
      push_cast
      exact (cmp _ _).2 (h2 z' hc ((cmp _ _).1 hle))
    cases n with
    | false => exact above _ c.away.1 c.away.2
    | true => exact above i c.le.1 fun z => c.floor_max
  | rdn =>
    have below (u : Nat) (h1 : if n then y ≤ (u : ℝ) else u ≤ y)
        (h2 : ∀ z, Clear i z → (if n then y ≤ z else z ≤ y) → if n then u ≤ z else z ≤ u) :
        ((sgn n * (u : ℕ) * 2 ^ q : ℚ) : ℝ) ≤ (sgn n : ℝ) * y * 2 ^ q ∧
          ∀ z, num false z → z ≤ (sgn n : ℝ) * y * 2 ^ q → z ≤ sgn n * (u : ℕ) * 2 ^ q := by
      refine ⟨by push_cast; exact (cmp _ _).2 h1, fun z hz hle => ?_⟩
      obtain ⟨z', rfl, hc⟩ := scaled z hz
      push_cast at hle
      rw [← Rat.cast_le (K := ℝ)]
      push_cast
      exact (cmp _ _).2 (h2 z' hc ((cmp _ _).1 hle))
    cases n with
    | false => exact below i c.le.1 fun z => c.floor_max
    | true => exact below _ c.away.1 c.away.2

/-! ### Encodings as magnitudes (R29) -/

/-- What the formats of R29 have in common: a fraction, a normal number, and finite codes below those of infinity and NaN. -/
structure Fmt.Ok (f : Fmt) : Prop where
  frac : 1 ≤ f.fb
  normal : 2 ^ f.fb ≤ f.maxCode
  max : f.maxCode < 2 ^ f.magBits
  inf : ∀ i, f.inf = some i → i = f.maxCode + 1 ∧ i < 2 ^ f.magBits
  nan : f = .e4m3 → f.maxCode < f.nan
  nanLt : f.nan < 2 ^ f.magBits

theorem Fmt.Ok.fp32 : Fmt.fp32.Ok := by constructor <;> decide
theorem Fmt.Ok.fp16 : Fmt.fp16.Ok := by constructor <;> decide
theorem Fmt.Ok.bf16 : Fmt.bf16.Ok := by constructor <;> decide
theorem Fmt.Ok.e5m2 : Fmt.e5m2.Ok := by constructor <;> decide
theorem Fmt.Ok.e4m3 : Fmt.e4m3.Ok := by constructor <;> decide
theorem Fmt.Ok.e3m2 : Fmt.e3m2.Ok := by constructor <;> decide
theorem Fmt.Ok.e2m3 : Fmt.e2m3.Ok := by constructor <;> decide
theorem Fmt.Ok.e2m1 : Fmt.e2m1.Ok := by constructor <;> decide

/-- The significand of a finite code, in units of its last place. -/
def Fmt.sig (f : Fmt) (code : Nat) : Nat := code % 2 ^ f.fb + if code / 2 ^ f.fb = 0 then 0 else 2 ^ f.fb

/-- How many binades the last place of a finite code lies above that of the subnormals. -/
def Fmt.grade (f : Fmt) (code : Nat) : Nat := code / 2 ^ f.fb - 1

/-- The magnitude of a finite code. -/
def Fmt.mag (f : Fmt) (code : Nat) : ℚ := f.sig code * 2 ^ (f.qmin + f.grade code)

theorem Fmt.sig_lt (f : Fmt) (code : Nat) : f.sig code < 2 ^ (f.fb + 1) := by
  have := Nat.mod_lt code (Nat.two_pow_pos f.fb)
  unfold Fmt.sig
  split <;> rw [pow_succ] <;> omega

theorem Fmt.grade_or (f : Fmt) (code : Nat) : f.grade code = 0 ∨ 2 ^ f.fb ≤ f.sig code := by
  unfold Fmt.grade Fmt.sig
  split <;> omega

theorem Fmt.grade_sig (f : Fmt) (code : Nat) : f.grade code * 2 ^ f.fb + f.sig code = code := by
  have h := Nat.div_add_mod code (2 ^ f.fb)
  unfold Fmt.grade Fmt.sig
  rcases hd : code / 2 ^ f.fb with _ | d
  · rw [hd] at h; simp at h ⊢; exact h
  · rw [hd, Nat.mul_succ] at h
    simp only [Nat.succ_ne_zero, if_false, Nat.add_sub_cancel]
    rw [Nat.mul_comm d]; omega

theorem Fmt.mag_subnormal (f : Fmt) {r : Nat} (hr : r < 2 ^ f.fb) : f.mag r = r * 2 ^ f.qmin := by
  simp [Fmt.mag, Fmt.sig, Fmt.grade, Nat.div_eq_of_lt hr, Nat.mod_eq_of_lt hr]

theorem Fmt.mag_normal (f : Fmt) (d : Nat) {r : Nat} (hr : r < 2 ^ f.fb) :
    f.mag ((d + 1) * 2 ^ f.fb + r) = ((r : ℚ) + 2 ^ f.fb) * 2 ^ (f.qmin + d) := by
  have h1 : ((d + 1) * 2 ^ f.fb + r) / 2 ^ f.fb = d + 1 := by
    rw [Nat.mul_comm, Nat.mul_add_div (Nat.two_pow_pos _), Nat.div_eq_of_lt hr, Nat.add_zero]
  have h2 : ((d + 1) * 2 ^ f.fb + r) % 2 ^ f.fb = r := by rw [Nat.mul_comm, Nat.mul_add_mod, Nat.mod_eq_of_lt hr]
  simp only [Fmt.mag, Fmt.sig, Fmt.grade, h1, h2]
  simp

/-- The code that u units of the binade g take. -/
theorem Fmt.mag_grid (f : Fmt) {g u : Nat} (hu : u ≤ 2 ^ (f.fb + 1)) (hg : g = 0 ∨ 2 ^ f.fb ≤ u) :
    f.mag (g * 2 ^ f.fb + u) = u * 2 ^ (f.qmin + g) := by
  rcases lt_or_ge u (2 ^ f.fb) with hlt | hge
  · obtain rfl : g = 0 := hg.resolve_right (by omega)
    simpa using f.mag_subnormal hlt
  · rcases hu.lt_or_eq with hlt | rfl
    · obtain ⟨v, rfl⟩ := Nat.exists_eq_add_of_le hge
      rw [show g * 2 ^ f.fb + (2 ^ f.fb + v) = (g + 1) * 2 ^ f.fb + v by ring,
        f.mag_normal g (by rw [pow_succ] at hlt; omega)]
      push_cast; ring
    · have h := f.mag_normal (g + 1) (Nat.two_pow_pos f.fb)
      rw [show g * 2 ^ f.fb + 2 ^ (f.fb + 1) = (g + 1 + 1) * 2 ^ f.fb + 0 by ring, h]
      push_cast
      rw [← add_assoc, zpow_add_one₀ (by norm_num)]
      ring

theorem Fmt.mag_lt_succ (f : Fmt) (code : Nat) : f.mag code < f.mag (code + 1) := by
  have h := f.mag_grid (g := f.grade code) (u := f.sig code + 1) (f.sig_lt code) ((f.grade_or code).imp_right (by omega))
  rw [← Nat.add_assoc, f.grade_sig] at h
  rw [h, Fmt.mag]
  exact mul_lt_mul_of_pos_right (by push_cast; linarith) (by positivity)

theorem Fmt.mag_lt_iff (f : Fmt) {a b : Nat} : f.mag a < f.mag b ↔ a < b :=
  (strictMono_nat_of_lt_succ f.mag_lt_succ).lt_iff_lt

theorem Fmt.mag_nonneg (f : Fmt) (code : Nat) : 0 ≤ f.mag code := by unfold Fmt.mag; positivity

theorem Val.rat_fin (n : Bool) (m : Nat) (e : Int) (r : Bool) : (Val.fin n m e r).rat = sgn n * m * 2 ^ e := rfl

/-- A finite code is read as its magnitude with its sign. -/
theorem value_of_code {f : Fmt} (ok : f.Ok) (n : Bool) {code : Nat} (h : code ≤ f.maxCode) :
    value f (if n then code + 2 ^ f.magBits else code) = .fin n (f.sig code) (f.qmin + f.grade code) false := by
  have hlt := lt_of_le_of_lt h ok.max
  have hp := Nat.two_pow_pos f.magBits
  have hmag : (if n then code + 2 ^ f.magBits else code) % 2 ^ f.magBits = code := by
    cases n <;> simp [Nat.mod_eq_of_lt hlt]
  have hn : ((if n then code + 2 ^ f.magBits else code) / 2 ^ f.magBits % 2 == 1) = n := by
    cases n
    · simp [Nat.div_eq_of_lt hlt]
    · simp [Nat.add_div_right _ hp, Nat.div_eq_of_lt hlt]
  unfold value
  simp only [hmag, hn, Fmt.sig, Fmt.grade]
  cases hi : f.inf with
  | none =>
    have : ¬(code = f.nan ∧ f = .e4m3) := fun ⟨e, e'⟩ => absurd (ok.nan e') (by omega)
    simp only [if_neg this]
    split <;> rename_i h0 <;> simp [h0]
  | some i =>
    obtain ⟨hmi, -⟩ := ok.inf i hi
    simp only [if_neg (by omega : ¬code = i), if_neg (by omega : ¬i < code)]
    split <;> rename_i h0 <;> simp [h0]

theorem value_code_rat {f : Fmt} (ok : f.Ok) (n : Bool) {code : Nat} (h : code ≤ f.maxCode) :
    (value f (if n then code + 2 ^ f.magBits else code)).rat = sgn n * f.mag code := by
  rw [value_of_code ok n h, Val.rat_fin, Fmt.mag]; ring

theorem value_rat_mag {f : Fmt} (ok : f.Ok) {code : Nat} (h : code ≤ f.maxCode) : (value f code).rat = f.mag code := by
  simpa using value_code_rat ok false h

/-! ### Rounding into a format (R31 to R33) -/

/-- Numbers of at most fb + 1 bits do not lie between i and i + 1 units, if their last place is no lower than the
unit, or i itself has as many bits. -/
theorem grid_gap {fb i K : Nat} {q q' : ℤ} (hK : K < 2 ^ (fb + 1)) (h : q ≤ q' ∨ 2 ^ fb ≤ i) :
    (K : ℚ) * 2 ^ q' ≤ i * 2 ^ q ∨ ((i : ℚ) + 1) * 2 ^ q ≤ K * 2 ^ q' := by
  have hw : (0 : ℚ) < 2 ^ q := by positivity
  rcases le_or_gt q q' with hq | hq
  · obtain ⟨j, rfl⟩ := Int.le.dest hq
    rw [zpow_add₀ (by norm_num), zpow_natCast, show (K : ℚ) * (2 ^ q * 2 ^ j) = ((K * 2 ^ j : ℕ) : ℚ) * 2 ^ q by push_cast; ring,
      mul_le_mul_iff_left₀ hw, mul_le_mul_iff_left₀ hw]
    norm_cast
    omega
  · have hi : 2 ^ fb ≤ i := h.resolve_left (by omega)
    left
    calc (K : ℚ) * 2 ^ q' ≤ 2 ^ (fb + 1) * 2 ^ (q - 1) := by
          gcongr
          · exact_mod_cast hK.le
          · norm_num
          · omega
      _ = 2 ^ fb * 2 ^ q := by rw [zpow_sub_one₀ (by norm_num), pow_succ]; ring
      _ ≤ i * 2 ^ q := by gcongr; exact_mod_cast hi

theorem abs_sgn_mul (n : Bool) (u : Nat) (q : ℤ) : |sgn n * (u : ℚ) * 2 ^ q| = u * 2 ^ q := by
  rw [abs_mul, abs_mul, abs_sgn, one_mul, Nat.abs_cast, abs_of_pos (by positivity)]

/-- The numbers of R31's unbounded exponent: u units, u of the format's precision or the next power of 2. -/
theorem Fmt.wide_units {f : Fmt} (ok : f.Ok) (even n : Bool) {u : Nat} (q : ℤ) (h1 : 2 ^ f.fb ≤ u) (h2 : u ≤ 2 ^ (f.fb + 1))
    (he : even = true → u % 2 = 0) : f.wide even (sgn n * u * 2 ^ q) := by
  rcases h2.lt_or_eq with hlt | rfl
  · exact ⟨u, q, h1, hlt, abs_sgn_mul n u q, he⟩
  · refine ⟨2 ^ f.fb, q + 1, le_rfl, Nat.pow_lt_pow_right (by norm_num) (by omega), ?_, fun _ => ?_⟩
    · rw [abs_sgn_mul, zpow_add_one₀ (by norm_num)]; push_cast; ring
    · obtain ⟨k, hk⟩ := Nat.exists_eq_add_of_le ok.frac
      rw [hk, pow_add]; omega

theorem Fmt.wide_gap {f : Fmt} {i : Nat} (q : ℤ) (h1 : 2 ^ f.fb ≤ i) (z : ℚ) (hz : f.wide false z) :
    |z| ≤ i * 2 ^ q ∨ ((i : ℚ) + 1) * 2 ^ q ≤ |z| := by
  obtain ⟨K, q', -, hK, hz, -⟩ := hz
  rw [hz]
  exact grid_gap hK (.inr h1)

theorem Fmt.has_units {f : Fmt} (ok : f.Ok) (even n : Bool) {u g : Nat} (hu : u ≤ 2 ^ (f.fb + 1)) (hg : g = 0 ∨ 2 ^ f.fb ≤ u)
    (hc : g * 2 ^ f.fb + u ≤ f.maxCode) (he : even = true → u % 2 = 0) : f.has even (sgn n * u * 2 ^ (f.qmin + g)) := by
  refine ⟨_, hc, ?_, fun h => ?_⟩
  · rw [abs_sgn_mul, value_rat_mag ok hc, f.mag_grid hu hg]
  · obtain ⟨k, hk⟩ := Nat.exists_eq_add_of_le ok.frac
    rw [Nat.add_mod, he h, hk, pow_add, pow_one, Nat.mul_left_comm, Nat.mul_mod_right]

theorem Fmt.has_gap {f : Fmt} (ok : f.Ok) {i g : Nat} (h : g = 0 ∨ 2 ^ f.fb ≤ i) (z : ℚ) (hz : f.has false z) :
    |z| ≤ i * 2 ^ (f.qmin + g) ∨ ((i : ℚ) + 1) * 2 ^ (f.qmin + g) ≤ |z| := by
  obtain ⟨code, hc, hz, -⟩ := hz
  rw [hz, value_rat_mag ok hc, Fmt.mag]
  exact grid_gap (f.sig_lt code) (h.imp_left fun h => by omega)

/-- A magnitude of m units 2^e, with a rest, in units of the last place of the format's precision at m (R31). -/
theorem Near.precision {m : Nat} {r : Bool} {y : ℝ} (hy : Near m r y) (hm : m ≠ 0) (fb : Nat) :
    (2 : ℝ) ^ fb ≤ y * 2 ^ ((fb : ℤ) - m.log2) ∧ y * 2 ^ ((fb : ℤ) - m.log2) < 2 ^ (fb + 1) := by
  have hb := hy.bounds
  have h1 : (2 : ℝ) ^ m.log2 ≤ m := by exact_mod_cast Nat.log2_self_le hm
  have h2 : (m : ℝ) + 1 ≤ 2 ^ (m.log2 + 1) := by exact_mod_cast succ_le_pow_log2 m
  have hp : (0 : ℝ) < 2 ^ m.log2 := by positivity
  rw [zpow_sub₀ (by norm_num), zpow_natCast, zpow_natCast, mul_div_assoc', le_div_iff₀ hp, div_lt_iff₀ hp]
  constructor
  · rw [mul_comm]; gcongr; linarith
  · calc y * 2 ^ fb < 2 ^ (m.log2 + 1) * 2 ^ fb := by gcongr; linarith
      _ = _ := by ring

theorem roundUnits_bounds (mode : RMode) (n : Bool) (i : Nat) (h t : Bool) :
    i ≤ roundUnits mode n i h t ∧ roundUnits mode n i h t ≤ i + 1 := by
  rcases roundUnits_cases mode n i h t with e | ⟨e, -⟩ <;> omega

theorem IsCut.nat_bounds {y : ℝ} {i : Nat} {h t : Bool} (c : IsCut y i h t) {a b : Nat} (ha : (a : ℝ) ≤ y) (hb : y < b) :
    a ≤ i ∧ i < b := by
  constructor
  · have : (a : ℝ) < ((i + 1 : ℕ) : ℝ) := by push_cast; exact lt_of_le_of_lt ha c.le.2
    exact Nat.lt_succ_iff.1 (by exact_mod_cast this)
  · exact_mod_cast lt_of_le_of_lt c.le.1 hb

/-- What `fpround` makes of a finite value that is not zero: the units `u` of the last place that the format has there, the
units `w` of an unbounded exponent, the code, and the flags (R31, R33). -/
theorem fpround_fin (f : Fmt) (mode : RMode) (n : Bool) {m : Nat} (hm : m ≠ 0) (e : Int) (r e4nan : Bool) :
    let q := (m.log2 : Int) + e - f.fb
    let qd := max q f.qmin
    let c := cut m (e - qd) r
    let w := cut m (e - q) r
    let code := (qd - f.qmin).toNat * 2 ^ f.fb + roundUnits mode n c.1 c.2.1 c.2.2
    fpround f mode (.fin n m e r) e4nan =
      if f.maxCode < code then (withSign f n (overCode f mode n e4nan), 0b101)
      else (withSign f n code, if c.2.1 || c.2.2 then
        (if q < f.qmin && roundUnits mode n w.1 w.2.1 w.2.2 < 2 ^ ((f.qmin - q).toNat + f.fb) then 0b11 else 0b1) else 0) := by
  simp [fpround, hm]

/-- The exact number with a rest or without, cut at a unit that is no lower than its own. -/
theorem isCut_at {m : Nat} {r : Bool} {y : ℝ} (hy : Near m r y) {fb : Nat} (hr : r = false ∨ fb < m.log2) {e q : Int}
    (hq : (m.log2 : Int) + e - fb ≤ q) :
    IsCut (y * 2 ^ (e - q)) (cut m (e - q) r).1 (cut m (e - q) r).2.1 (cut m (e - q) r).2.2 :=
  cut_isCut hy (hr.imp_right fun h => by omega)

theorem withSign_eq (f : Fmt) (n : Bool) (code : Nat) : withSign f n code = if n then code + 2 ^ f.magBits else code := by
  cases n <;> rfl

/-- The number rounded with an unbounded exponent is tiny just when it lies below the least normal one (R31). -/
theorem tiny_iff (f : Fmt) {k : Nat} (q : ℤ) (hk : 2 ^ f.fb ≤ k) :
    (q < f.qmin && k < 2 ^ ((f.qmin - q).toNat + f.fb) : Bool) = true ↔ (k : ℚ) * 2 ^ q < 2 ^ (1 - (f.bias : ℤ)) := by
  have hw : (0 : ℚ) < 2 ^ q := by positivity
  rcases lt_or_ge q f.qmin with hlt | hge
  · obtain ⟨j, hj⟩ := Int.le.dest hlt.le
    have e : (2 : ℚ) ^ (1 - (f.bias : ℤ)) = ((2 ^ (j + f.fb) : ℕ) : ℚ) * 2 ^ q := by
      rw [show 1 - (f.bias : ℤ) = (j + f.fb : ℕ) + q by simp only [Fmt.qmin] at hj; push_cast; omega, zpow_add₀ (by norm_num),
        zpow_natCast]
      push_cast; rfl
    rw [e, mul_lt_mul_iff_left₀ hw, Nat.cast_lt, show (f.qmin - q).toNat = j by omega]
    simp [hlt]
  · have : (2 : ℚ) ^ (1 - (f.bias : ℤ)) ≤ k * 2 ^ q :=
      calc (2 : ℚ) ^ (1 - (f.bias : ℤ)) ≤ 2 ^ ((f.fb : ℤ) + q) :=
            zpow_le_zpow_right₀ (by norm_num) (by simp only [Fmt.qmin] at hge; omega)
        _ = ((2 ^ f.fb : ℕ) : ℚ) * 2 ^ q := by rw [zpow_add₀ (by norm_num), zpow_natCast]; push_cast; rfl
        _ ≤ k * 2 ^ q := by gcongr
    simp [not_lt.2 hge, not_lt.2 this]

/-- A code of u units in the binade g, beside the k units 2^q of the number rounded with an unbounded exponent, with the
flags of R31 and the overflow of R33. -/
theorem rounded_of_units {f : Fmt} (ok : f.Ok) {mode : RMode} {n : Bool} {x : ℝ} {k u g : Nat} {q : ℤ} {inexact tiny e4nan : Bool}
    (hsign : n = true ↔ x < 0) (hwide : Rounding mode f.wide x (sgn n * k * 2 ^ q)) (hu : u ≤ 2 ^ (f.fb + 1))
    (hg : g = 0 ∨ 2 ^ f.fb ≤ u) (hbig : f.mag f.maxCode < (k : ℚ) * 2 ^ q ↔ f.maxCode < g * 2 ^ f.fb + u)
    (hhas : g * 2 ^ f.fb + u ≤ f.maxCode → Rounding mode f.has x (sgn n * u * 2 ^ (f.qmin + g)))
    (hexact : inexact = true ↔ ((sgn n * u * 2 ^ (f.qmin + g) : ℚ) : ℝ) ≠ x)
    (htiny : tiny = true ↔ (k : ℚ) * 2 ^ q < 2 ^ (1 - (f.bias : ℤ))) :
    let out : Nat × FFlags := if f.maxCode < g * 2 ^ f.fb + u then (withSign f n (overCode f mode n e4nan), 0b101)
      else (withSign f n (g * 2 ^ f.fb + u), if inexact then (if tiny then 0b11 else 0b1) else 0)
    Rounded f mode x out.1 out.2 e4nan := by
  intro out
  have hmax := value_rat_mag ok le_rfl
  have habs := abs_sgn_mul n k q
  rcases lt_or_ge f.maxCode (g * 2 ^ f.fb + u) with hb | hb
  · have hb' := hbig.2 hb
    have hout : out = (withSign f n (overCode f mode n e4nan), 0b101) := if_pos hb
    -- a number that overflows is not tiny
    have hlarge : ¬(k : ℚ) * 2 ^ q < 2 ^ (1 - (f.bias : ℤ)) := by
      have h2 : f.mag (2 ^ f.fb) ≤ f.mag f.maxCode := by rw [← not_lt, f.mag_lt_iff]; have := ok.normal; omega
      have h3 : f.mag (2 ^ f.fb) = 2 ^ (1 - (f.bias : ℤ)) := by
        have h := f.mag_grid (g := 0) (u := 2 ^ f.fb) (Nat.pow_le_pow_right (by norm_num) (by omega)) (.inl rfl)
        simp only [zero_mul, zero_add, Nat.cast_zero, add_zero] at h
        rw [h, show (1 - (f.bias : ℤ)) = f.fb + f.qmin by simp only [Fmt.qmin]; ring, zpow_add₀ (by norm_num), zpow_natCast]
        push_cast; rfl
      rw [not_lt, ← h3]; exact h2.trans hb'.le
    rw [hout]
    refine ⟨_, n, overCode f mode n e4nan, hwide, hsign, withSign_eq f n _, ?_⟩
    simp only [hmax, habs, hb', hlarge, true_or, not_true, false_implies, true_implies, iff_true, true_and, false_and, iff_false]
    exact ⟨by unfold overCode; rfl, by decide, by decide, by decide, by decide, by decide⟩
  · have hb' : ¬f.mag f.maxCode < (k : ℚ) * 2 ^ q := fun h => absurd (hbig.1 h) (by omega)
    have hout : out = (withSign f n (g * 2 ^ f.fb + u), if inexact then (if tiny then 0b11 else 0b1) else 0) :=
      if_neg (by omega)
    have hval : (value f (withSign f n (g * 2 ^ f.fb + u))).rat = sgn n * u * 2 ^ (f.qmin + g) := by
      rw [withSign_eq, value_code_rat ok n hb, f.mag_grid hu hg]; ring
    rw [hout]
    refine ⟨_, n, g * 2 ^ f.fb + u, hwide, hsign, withSign_eq f n _, ?_⟩
    simp only [hmax, habs, hb', hval, false_or, not_false_iff, false_implies, true_implies, ← hexact, ← htiny, true_and, hb,
      hhas hb]
    cases inexact <;> cases tiny <;> decide

/-- One rounding into a format, with its flags: `fpround` of a finite value that is not zero is `Rounded` (R31 to R33). -/
theorem fpround_rounded {f : Fmt} (ok : f.Ok) (mode : RMode) (n : Bool) {m : Nat} (hm : m ≠ 0) (e : Int) {r : Bool} {y : ℝ}
    (hy : Near m r y) (hr : r = false ∨ f.fb < m.log2) (e4nan : Bool := false) :
    Rounded f mode ((sgn n : ℝ) * y * 2 ^ e) (fpround f mode (.fin n m e r) e4nan).1 (fpround f mode (.fin n m e r) e4nan).2
      e4nan := by
  have heq := fpround_fin f mode n hm e r e4nan
  have hy0 := hy.pos hm
  set q : ℤ := (m.log2 : Int) + e - f.fb with hq
  obtain ⟨g, hg, hg0⟩ : ∃ g : ℕ, max q f.qmin = f.qmin + g ∧ (g = 0 ∨ q = f.qmin + g) :=
    ⟨(max q f.qmin - f.qmin).toNat, by omega, by omega⟩
  -- the exact number in the units of both roundings
  have hw := isCut_at hy hr (e := e) (q := q) le_rfl
  have hc := isCut_at hy hr (e := e) (q := max q f.qmin) (le_max_left _ _)
  have hprec : ((2 ^ f.fb : ℕ) : ℝ) ≤ y * 2 ^ (e - q) ∧ y * 2 ^ (e - q) < ((2 ^ (f.fb + 1) : ℕ) : ℝ) := by
    rw [show e - q = f.fb - m.log2 by omega]; exact_mod_cast hy.precision hm f.fb
  simp only [hg, show (f.qmin + (g : ℤ) - f.qmin).toNat = g by omega] at heq hc
  -- below the normal numbers the format's unit is the coarser one
  have hnorm : q = f.qmin + g ∧ cut m (e - (f.qmin + g)) r = cut m (e - q) r ∨
      q < f.qmin ∧ g = 0 ∧ y * 2 ^ (e - (f.qmin + g)) < ((2 ^ f.fb : ℕ) : ℝ) := by
    rcases lt_or_ge q f.qmin with hlt | hge
    · obtain rfl : g = 0 := by omega
      refine .inr ⟨hlt, rfl, ?_⟩
      calc y * 2 ^ (e - (f.qmin + (0 : ℕ))) = y * 2 ^ (e - q) * 2 ^ (q - f.qmin) := by
            rw [mul_assoc, ← zpow_add₀ (by norm_num)]; congr 2; push_cast; ring
        _ < ((2 ^ (f.fb + 1) : ℕ) : ℝ) * 2 ^ (-1 : ℤ) := by
            apply mul_lt_mul hprec.2 (zpow_le_zpow_right₀ (by norm_num) (by omega)) (by positivity) (by positivity)
        _ = ((2 ^ f.fb : ℕ) : ℝ) := by rw [pow_succ]; push_cast; ring
    · have : q = f.qmin + g := by omega
      exact .inl ⟨this, by rw [this]⟩
  generalize cut m (e - q) r = w at heq hw hnorm
  generalize cut m (e - (f.qmin + g)) r = c at heq hc hnorm
  obtain ⟨hwl, hwu⟩ := hw.nat_bounds hprec.1 hprec.2
  have hkb := roundUnits_bounds mode n w.1 w.2.1 w.2.2
  have hub := roundUnits_bounds mode n c.1 c.2.1 c.2.2
  have hx (p : ℤ) : (sgn n : ℝ) * y * 2 ^ e = sgn n * (y * 2 ^ (e - p)) * 2 ^ p := by
    rw [zpow_sub₀ (by norm_num)]; field_simp
  have hwide := rounding_of_isCut hw (num := f.wide) (mode := mode) (n := n) (q := q)
    (fun even he => Fmt.wide_units ok even n q (by omega) (by omega) he) (Fmt.wide_gap q hwl)
  have htiny := tiny_iff f q (k := roundUnits mode n w.1 w.2.1 w.2.2) (by omega)
  set k := roundUnits mode n w.1 w.2.1 w.2.2 with hk
  set u := roundUnits mode n c.1 c.2.1 c.2.2 with hu
  replace hnorm : q = f.qmin + g ∧ c.1 = w.1 ∧ k = u ∨ q < f.qmin ∧ g = 0 ∧ c.1 < 2 ^ f.fb := by
    rcases hnorm with ⟨e1, rfl⟩ | ⟨e1, e2, e3⟩
    · exact .inl ⟨e1, rfl, rfl⟩
    · exact .inr ⟨e1, e2, (hc.nat_bounds (a := 0) (by push_cast; positivity) e3).2⟩
  have hcu : c.1 < 2 ^ (f.fb + 1) ∧ (g = 0 ∨ 2 ^ f.fb ≤ c.1) := by
    rcases hnorm with ⟨-, e1, -⟩ | ⟨-, e1, e2⟩
    · rw [e1]; exact ⟨hwu, .inr hwl⟩
    · exact ⟨by rw [pow_succ]; omega, .inl e1⟩
  have hbig : f.mag f.maxCode < (k : ℚ) * 2 ^ q ↔ f.maxCode < g * 2 ^ f.fb + u := by
    rcases hnorm with ⟨e1, e2, e3⟩ | ⟨e1, e2, e3⟩
    · rw [e3, e1, ← f.mag_grid (by omega) (hcu.2.imp_right (by omega)), f.mag_lt_iff]
    · have h1 : (k : ℚ) * 2 ^ q ≤ f.mag f.maxCode :=
        calc (k : ℚ) * 2 ^ q ≤ ((2 ^ (f.fb + 1) : ℕ) : ℚ) * 2 ^ (f.qmin - 1) := by
              gcongr
              · omega
              · norm_num
              · omega
          _ = ((2 ^ f.fb : ℕ) : ℚ) * 2 ^ f.qmin := by rw [zpow_sub_one₀ (by norm_num), pow_succ]; push_cast; ring
          _ = f.mag (2 ^ f.fb) := by
              have := f.mag_grid (g := 0) (u := 2 ^ f.fb) (Nat.pow_le_pow_right (by norm_num) (by omega)) (.inl rfl)
              simpa using this.symm
          _ ≤ f.mag f.maxCode := by rw [← not_lt, f.mag_lt_iff]; have := ok.normal; omega
      have h2 := ok.normal
      constructor
      · intro h; exact absurd h (not_lt.2 h1)
      · intro h; rw [e2] at h; omega
  have hsign : n = true ↔ (sgn n : ℝ) * y * 2 ^ e < 0 := by
    have hp : 0 < y * 2 ^ e := by positivity
    rw [mul_assoc]
    cases n <;> simp [hp.le, hp]
  have hexact : (c.2.1 || c.2.2) = true ↔ ((sgn n * u * 2 ^ (f.qmin + g) : ℚ) : ℝ) ≠ (sgn n : ℝ) * y * 2 ^ e := by
    rw [hx (f.qmin + g), ← not_iff_not, not_not, Bool.not_eq_true, ← hc.round_eq_iff mode n]
    push_cast
    rw [mul_left_inj' (by positivity), mul_right_inj' (by cases n <;> norm_num)]
  rw [heq]
  refine rounded_of_units ok hsign (hx q ▸ hwide) (by omega) (hcu.2.imp_right (by omega)) hbig (fun h => hx (f.qmin + g) ▸ ?_)
    hexact htiny
  exact rounding_of_isCut hc (fun even he => Fmt.has_units ok even n (by omega) (hcu.2.imp_right (by omega)) h he)
    (Fmt.has_gap ok hcu.2)

/-! ### Exact values (R29 to R31) -/

/-- The value is a NaN, an infinity or an exact number, with no rest below its last place. -/
def Val.plain : Val → Bool
  | .fin _ _ _ r => !r
  | _ => true

/-- The value is finite. -/
def Val.isFin : Val → Bool
  | .fin _ _ _ _ => true
  | _ => false

@[simp] theorem Val.plain_flip (v : Val) : v.flip.plain = v.plain := by cases v <;> rfl
@[simp] theorem Val.isSnan_flip (v : Val) : v.flip.isSnan = v.isSnan := by cases v <;> rfl
@[simp] theorem Val.plain_ofInt (i e : Int) : (Val.ofInt i e).plain = true := rfl
@[simp] theorem Val.plain_scale (v : Val) (k : Int) : (v.scale k).plain = v.plain := by cases v <;> rfl

@[simp] theorem plain_value (f : Fmt) (b : Nat) : (value f b).plain = true := by
  unfold value
  split <;> (dsimp only; repeat' split) <;> rfl

theorem Val.rat_scale (v : Val) (k : Int) : (v.scale k).rat = v.rat * 2 ^ k := by
  cases v with
  | fin n m e r => simp only [Val.scale, Val.rat_fin]; rw [zpow_add₀ (by norm_num)]; ring
  | _ => simp [Val.scale, Val.rat]

theorem Val.rat_ofInt (i e : Int) : (Val.ofInt i e).rat = i * 2 ^ e := by
  simp only [Val.ofInt, Val.rat_fin]
  congr 1
  rcases lt_or_ge i 0 with h | h
  · have : ((i.natAbs : ℤ) : ℚ) = ((-i : ℤ) : ℚ) := by congr 1; omega
    rw [Int.cast_natCast] at this
    simp [h, this]
  · have : ((i.natAbs : ℤ) : ℚ) = ((i : ℤ) : ℚ) := by congr 1; omega
    rw [Int.cast_natCast] at this
    simp [not_lt.2 h, this]

/-- A finite value in units 2^e at or below its own. -/
theorem Val.units_rat (n : Bool) (m : Nat) {x e : Int} (r : Bool) (h : e ≤ x) :
    (((Val.fin n m x r).units e : ℤ) : ℚ) * 2 ^ e = (Val.fin n m x r).rat := by
  obtain ⟨j, rfl⟩ := Int.le.dest h
  simp only [Val.units, Val.rat_fin, add_sub_cancel_left, Int.toNat_natCast]
  rw [zpow_add₀ (by norm_num), zpow_natCast]
  cases n <;> simp <;> ring

theorem Val.rat_eq_zero (n : Bool) (m : Nat) (e : Int) (r : Bool) : (Val.fin n m e r).rat = 0 ↔ m = 0 := by
  rw [Val.rat_fin]; cases n <;> simp [zpow_ne_zero]

theorem Val.isZero_iff {v : Val} (hp : v.plain = true) (hf : v.isFin = true) : v.isZero = true ↔ v.rat = 0 := by
  cases v with
  | fin n m e r =>
    obtain rfl : r = false := by simpa [Val.plain] using hp
    simp [Val.isZero, Val.rat_eq_zero]
  | _ => simp [Val.isFin] at hf

/-! ### Sums (R30, R31) -/

/-- The finite value a is the exact sum of the values xs; as a zero it has the sign that IEEE 754 gives such a sum. -/
structure SumOf (m : RMode) (xs : List Val) (a : Val) : Prop where
  fin : a.isFin = true
  plain : a.plain = true
  sum : a.rat = (xs.map Val.rat).sum
  zero : a.rat = 0 → a.neg = (xs.all Val.neg || (xs.any Val.neg && m == .rdn))
  neg : a.neg = true → xs.any Val.neg = true
  pos : a.neg = false → xs.all Val.neg = false

theorem SumOf.single (m : RMode) {a : Val} (hp : a.plain = true) (hf : a.isFin = true) : SumOf m [a] a :=
  ⟨hf, hp, by simp, fun _ => by cases h : a.neg <;> simp [h], by simp, by simp⟩

/-- The sign of a number that is not zero is the sign of the value. -/
theorem Val.neg_of_rat {v : Val} (hf : v.isFin = true) : (v.rat < 0 → v.neg = true) ∧ (0 < v.rat → v.neg = false) := by
  cases v with
  | fin n m e r =>
    have : (0 : ℚ) ≤ m * 2 ^ e := by positivity
    rw [Val.rat_fin, mul_assoc, Val.neg]
    cases n <;> simp [this]
  | _ => simp [Val.isFin] at hf

/-- Two finite values added: what the sum is, and its sign. -/
theorem Val.add_fin (m : RMode) {a b : Val} (ha : a.isFin = true) (hb : b.isFin = true) :
    (a.add m b).isFin = true ∧ (a.add m b).plain = true ∧ (a.add m b).rat = a.rat + b.rat ∧
      (a.rat + b.rat = 0 → (a.add m b).neg = if a.neg = b.neg then a.neg else m == .rdn) ∧
      ((a.add m b).neg = a.neg ∨ (a.add m b).neg = b.neg) := by
  have sa := Val.neg_of_rat ha
  have sb := Val.neg_of_rat hb
  cases a with
  | fin na ma ea ra =>
    cases b with
    | fin nb mb eb rb =>
      have hw : (0 : ℚ) < 2 ^ min ea eb := by positivity
      have hsum := congrArg₂ (· + ·) (Val.units_rat na ma ra (min_le_left ea eb)) (Val.units_rat nb mb rb (min_le_right ea eb))
      simp only [← add_mul, ← Int.cast_add] at hsum
      have hadd : (Val.fin na ma ea ra).add m (Val.fin nb mb eb rb) =
        if (Val.fin na ma ea ra).units (min ea eb) + (Val.fin nb mb eb rb).units (min ea eb) = 0
        then .zero (if na = nb then na else m == .rdn)
        else .ofInt ((Val.fin na ma ea ra).units (min ea eb) + (Val.fin nb mb eb rb).units (min ea eb)) (min ea eb) := rfl
      rw [hadd, ← hsum]
      generalize (Val.fin na ma ea ra).units (min ea eb) + (Val.fin nb mb eb rb).units (min ea eb) = k at hsum
      split
      · rename_i h0
        refine ⟨rfl, rfl, by simp [h0, Val.zero, Val.rat_fin], fun _ => rfl, ?_⟩
        cases na <;> cases nb <;> cases m <;> simp [Val.zero, Val.neg]
      · rename_i h0
        refine ⟨rfl, rfl, Val.rat_ofInt _ _, fun h => absurd h (by simp [h0, hw.ne']), ?_⟩
        have hneg : (Val.ofInt k (min ea eb)).neg = decide (k < 0) := rfl
        rw [hneg]
        rcases lt_or_ge k 0 with hk | hk
        · have : (k : ℚ) * 2 ^ min ea eb < 0 := mul_neg_of_neg_of_pos (by exact_mod_cast hk) hw
          rcases lt_or_ge (Val.fin na ma ea ra).rat 0 with h | h
          · exact .inl (by simp [hk, sa.1 h])
          · exact .inr (by simp [hk, sb.1 (by linarith)])
        · have : 0 < (k : ℚ) * 2 ^ min ea eb := mul_pos (by exact_mod_cast lt_of_le_of_ne hk (Ne.symm h0)) hw
          rcases lt_or_ge 0 (Val.fin na ma ea ra).rat with h | h
          · exact .inl (by simp [not_lt.2 hk, sa.2 h])
          · exact .inr (by simp [not_lt.2 hk, sb.2 (by linarith)])
    | _ => simp [Val.isFin] at hb
  | _ => simp [Val.isFin] at ha

theorem SumOf.add {m : RMode} {xs : List Val} {a b : Val} (h : SumOf m xs a) (hb : b.isFin = true) :
    SumOf m (xs ++ [b]) (a.add m b) := by
  obtain ⟨f, p, sum, zero, sign⟩ := Val.add_fin m h.fin hb
  refine ⟨f, p, by simp [sum, h.sum], fun h0 => ?_, fun hn => ?_, fun hn => ?_⟩
  · rw [sum] at h0
    have hz := h.zero
    have hs := h.neg
    have hp := h.pos
    have opposite : a.neg = b.neg → a.rat = 0 := by
      intro e
      have sa := Val.neg_of_rat h.fin
      have sb := Val.neg_of_rat hb
      rw [← e] at sb
      rcases lt_trichotomy a.rat 0 with hl | h0 | hl
      · simp [sa.1 hl] at sb; linarith
      · exact h0
      · simp [sa.2 hl] at sb; linarith
    rw [zero h0]
    simp only [List.all_append, List.any_append, List.all_cons, List.any_cons, List.all_nil, List.any_nil]
    generalize xs.all Val.neg = al at *
    generalize xs.any Val.neg = an at *
    generalize (m == .rdn) = r at *
    cases ha : a.neg <;> cases hb : b.neg <;> simp_all
  · rw [hn] at sign
    rcases sign with e | e
    · simp [h.neg e.symm]
    · simp [← e]
  · rw [hn] at sign
    rcases sign with e | e
    · simp [h.pos e.symm]
    · simp [← e]

/-- Finite values added up one after the other. -/
theorem SumOf.foldl {m : RMode} {ys : List Val} (hy : ∀ y ∈ ys, y.isFin = true) {xs : List Val} {a : Val} (h : SumOf m xs a) :
    SumOf m (xs ++ ys) (ys.foldl (Val.add m) a) := by
  induction ys generalizing xs a with
  | nil => simpa using h
  | cons y ys ih =>
    have := ih (fun z hz => hy z (by simp [hz])) (h.add (hy y (by simp)))
    simpa using this

/-- An infinity added to values without a NaN or the opposite infinity. -/
theorem foldl_add_inf {m : RMode} {n : Bool} {ys : List Val} {y : Val} (hn : ∀ z ∈ y :: ys, z.isNan = false)
    (ho : Val.inf (!n) ∉ y :: ys) (hi : Val.inf n ∈ y :: ys) : ys.foldl (Val.add m) y = .inf n := by
  induction ys generalizing y with
  | nil => simpa [eq_comm] using hi
  | cons z ys ih =>
    have hyn := hn y (by simp)
    have hzn := hn z (by simp)
    simp only [List.mem_cons, not_or] at ho hi
    have hadd : (y.add m z).isNan = false ∧ (y.add m z = .inf n ↔ y = .inf n ∨ z = .inf n) ∧ y.add m z ≠ .inf (!n) := by
      have hy := ho.1
      have hz := ho.2.1
      cases y with
      | nan _ => simp [Val.isNan] at hyn
      | inf a =>
        cases z with
        | nan _ => simp [Val.isNan] at hzn
        | inf b => cases a <;> cases b <;> cases n <;> simp_all [Val.add, Val.isNan]
        | fin => cases a <;> cases n <;> simp_all [Val.add, Val.isNan]
      | fin na ma ea ra =>
        cases z with
        | nan _ => simp [Val.isNan] at hzn
        | inf b => cases b <;> cases n <;> simp_all [Val.add, Val.isNan]
        | fin nb mb eb rb =>
          have hf := (Val.add_fin m (a := .fin na ma ea ra) (b := .fin nb mb eb rb) rfl rfl).1
          generalize (Val.fin na ma ea ra).add m (.fin nb mb eb rb) = s at hf
          cases s <;> simp_all [Val.isFin, Val.isNan]
    refine ih ?_ ?_ ?_
    · intro w hw
      rcases List.mem_cons.1 hw with rfl | hw
      · exact hadd.1
      · exact hn w (by simp [hw])
    · simp only [List.mem_cons, not_or]
      exact ⟨fun e => hadd.2.2 e.symm, ho.2.2⟩
    · rw [List.mem_cons, eq_comm, hadd.2.1]
      simpa [eq_comm, or_assoc] using hi

/-! ### Products (R31) -/

/-- The product of zero and an infinity. -/
def zeroInf (p : Val × Val) : Bool := (p.1.isInf && p.2.isZero) || (p.1.isZero && p.2.isInf)

theorem Val.isNan_mul (a b : Val) : (a.mul b).isNan = (a.isNan || b.isNan || zeroInf (a, b)) := by
  cases a with
  | nan => rfl
  | inf x =>
    cases b with
    | fin n m e r => by_cases h : (Val.fin n m e r).isZero <;> simp [Val.mul, h, zeroInf, Val.isNan, Val.isInf]
    | _ => rfl
  | fin n m e r =>
    cases b with
    | inf x => by_cases h : (Val.fin n m e r).isZero <;> simp [Val.mul, h, zeroInf, Val.isNan, Val.isInf]
    | nan => rfl
    | fin => simp [Val.mul, zeroInf, Val.isNan, Val.isInf]

/-- A product is infinite of a sign. -/
def infProd (n : Bool) (p : Val × Val) : Bool :=
  (p.1.isInf || p.2.isInf) && !p.1.isNan && !p.2.isNan && !p.1.isZero && !p.2.isZero && (p.1.neg != p.2.neg) == n

theorem Val.mul_eq_inf (a b : Val) (n : Bool) : (Val.inf n == a.mul b) = infProd n (a, b) := by
  have inf_beq (x : Bool) : (Val.inf n == Val.inf x) = (x == n) := by cases n <;> cases x <;> rfl
  cases a with
  | nan => simp [Val.mul, infProd, Val.isNan]
  | inf x =>
    cases b with
    | fin k m e r => by_cases h : (Val.fin k m e r).isZero <;> simp [Val.mul, h, infProd, Val.isNan, Val.isInf, inf_beq]; rfl
    | nan => simp [Val.mul, infProd, Val.isNan]
    | inf y => simp [Val.mul, infProd, Val.isNan, Val.isInf, inf_beq, Val.isZero, Val.neg]
  | fin k m e r =>
    cases b with
    | inf x => by_cases h : (Val.fin k m e r).isZero <;> simp [Val.mul, h, infProd, Val.isNan, Val.isInf, inf_beq]; rfl
    | nan => simp [Val.mul, infProd, Val.isNan]
    | fin => simp [Val.mul, infProd, Val.isInf]

theorem Val.mul_fin {a b : Val} (ha : a.isFin = true) (hb : b.isFin = true) :
    (a.mul b).isFin = true ∧ (a.mul b).plain = true ∧ (a.mul b).rat = a.rat * b.rat ∧ (a.mul b).neg = (a.neg != b.neg) := by
  cases a with
  | fin na ma ea ra =>
    cases b with
    | fin nb mb eb rb =>
      refine ⟨rfl, rfl, ?_, rfl⟩
      simp only [Val.mul, Val.rat_fin, sgn_ne]
      rw [zpow_add₀ (by norm_num)]; push_cast; ring
    | _ => simp [Val.isFin] at hb
  | _ => simp [Val.isFin] at ha

/-! ### Results rounded once (R30, R31, R33) -/

theorem finishF_nan (f : Fmt) (m : RMode) (b : Bool) (fl : FFlags) : finishF f m (.nan b, fl) = (f.nan, fl) := by
  simp [finishF, fpround]

theorem finishF_inf {f : Fmt} {i : Nat} (hi : f.inf = some i) (m : RMode) (n : Bool) (fl : FFlags) :
    finishF f m (.inf n, fl) = (if n then i + 2 ^ f.magBits else i, fl) := by
  simp [finishF, fpround, hi, withSign_eq]

theorem finishF_zero (f : Fmt) (m : RMode) (n : Bool) (e : Int) (fl : FFlags) :
    finishF f m (.fin n 0 e false, fl) = (if n then 2 ^ f.magBits else 0, fl) := by
  simp [finishF, fpround, withSign_eq]

theorem fpround_rat {f : Fmt} (ok : f.Ok) (m : RMode) {v : Val} (hf : v.isFin = true) (hp : v.plain = true) (h0 : v.rat ≠ 0)
    (e4nan : Bool := false) : Rounded f m v.rat (fpround f m v e4nan).1 (fpround f m v e4nan).2 e4nan := by
  cases v with
  | fin n k e r =>
    obtain rfl : r = false := by simpa [Val.plain] using hp
    have hk : k ≠ 0 := fun h => h0 ((Val.rat_eq_zero n k e false).2 h)
    have := fpround_rounded ok m n hk e (r := false) (y := k) (by simp [Near]) (.inl rfl) e4nan
    convert this using 1
    simp [Val.rat_fin]
  | _ => simp [Val.isFin] at hf

/-- A finite exact value rounded once. -/
theorem finishF_fin {f : Fmt} (ok : f.Ok) (m : RMode) {v : Val} (hf : v.isFin = true) (hp : v.plain = true) :
    if v.rat = 0 then finishF f m (v, 0) = (if v.neg then 2 ^ f.magBits else 0, 0)
    else Rounded f m v.rat (finishF f m (v, 0)).1 (finishF f m (v, 0)).2 := by
  split
  · rename_i h0
    cases v with
    | fin n k e r =>
      obtain rfl : r = false := by simpa [Val.plain] using hp
      obtain rfl := (Val.rat_eq_zero n k e false).1 h0
      exact finishF_zero f m n e 0
    | _ => simp [Val.isFin] at hf
  · rename_i h0
    simpa [finishF] using fpround_rat ok m hf hp h0

theorem Val.isFin_of {v : Val} (h1 : v.isNan = false) (h2 : ∀ n, v ≠ .inf n) : v.isFin = true := by
  cases v <;> simp_all [Val.isNan, Val.isFin]

theorem Val.isFin_mul (a b : Val) : (a.mul b).isFin = (a.isFin && b.isFin) := by
  cases a with
  | nan => rfl
  | inf x =>
    cases b with
    | fin k m e r => by_cases h : (Val.fin k m e r).isZero <;> simp [Val.mul, h, Val.isFin]
    | _ => rfl
  | fin k m e r =>
    cases b with
    | inf x => by_cases h : (Val.fin k m e r).isZero <;> simp [Val.mul, h, Val.isFin]
    | _ => rfl

theorem Val.isNan_of_isSnan {v : Val} (h : v.isSnan = true) : v.isNan = true := by
  cases v <;> simp_all [Val.isSnan, Val.isNan]

theorem any_isSnan_false {xs : List Val} (h : xs.any (·.isNan) = false) : xs.any (·.isSnan) = false := by
  simp only [List.any_eq_false] at h ⊢
  exact fun x hx hs => h x hx (Val.isNan_of_isSnan hs)

theorem zeroInf_iff (p : Val × Val) : (!p.1.isNan && !p.2.isNan && (p.1.mul p.2).isNan) = zeroInf p := by
  rw [Val.isNan_mul]
  obtain ⟨a, b⟩ := p
  cases a <;> cases b <;> simp [Val.isNan, zeroInf, Val.isInf, Val.isZero]

/-- The products and terms of an exact sum. -/
def addends (ps : List (Val × Val)) (cs : List Val) : List Val := (ps.map fun p => p.1.mul p.2) ++ cs

/-- The operands of an exact sum. -/
def operands (ps : List (Val × Val)) (cs : List Val) : List Val := ps.map (·.1) ++ ps.map (·.2) ++ cs

theorem any_isNan_addends (ps : List (Val × Val)) (cs : List Val) :
    (addends ps cs).any (·.isNan) = ((operands ps cs).any (·.isNan) || ps.any zeroInf) := by
  rw [Bool.eq_iff_iff]
  simp only [addends, operands, List.any_append, List.any_map, Bool.or_eq_true, List.any_eq_true, Function.comp, Val.isNan_mul]
  constructor
  · rintro (⟨p, hp, (h | h) | h⟩ | h)
    · exact .inl (.inl (.inl ⟨p, hp, h⟩))
    · exact .inl (.inl (.inr ⟨p, hp, h⟩))
    · exact .inr ⟨p, hp, h⟩
    · exact .inl (.inr h)
  · rintro (((⟨p, hp, h⟩ | ⟨p, hp, h⟩) | h) | ⟨p, hp, h⟩)
    · exact .inl ⟨p, hp, .inl (.inl h)⟩
    · exact .inl ⟨p, hp, .inl (.inr h)⟩
    · exact .inr h
    · exact .inl ⟨p, hp, .inr h⟩

theorem contains_inf_addends (ps : List (Val × Val)) (cs : List Val) (n : Bool) :
    (addends ps cs).contains (.inf n) = (cs.contains (.inf n) || ps.any (infProd n)) := by
  rw [addends, List.contains_append, Bool.or_comm, List.contains_eq_any_beq (l := ps.map _), List.any_map]
  congr 2
  funext p
  exact Val.mul_eq_inf p.1 p.2 n

/-- The sum is undefined: opposite infinities, or a zero times an infinity. -/
def undefinedSum (ps : List (Val × Val)) (cs : List Val) : Bool :=
  ((addends ps cs).contains (.inf true) && (addends ps cs).contains (.inf false)) || ps.any zeroInf

/-- The result of an exact sum, told by its addends. -/
theorem floatRes_iff (f : Fmt) (m : RMode) (ps : List (Val × Val)) (cs : List Val) (code : Nat) (fl : FFlags) :
    FloatRes f m ps cs code fl ↔
      if (operands ps cs).any (·.isNan) || undefinedSum ps cs then
        code = f.nan ∧ fl = if (operands ps cs).any (·.isSnan) || undefinedSum ps cs then 16 else 0
      else if (addends ps cs).contains (.inf false) then infCode f false code ∧ fl = 0
      else if (addends ps cs).contains (.inf true) then infCode f true code ∧ fl = 0
      else
        let x := (ps.map fun p => p.1.rat * p.2.rat).sum + (cs.map Val.rat).sum
        let signs := ps.map (fun p => p.1.neg != p.2.neg) ++ cs.map Val.neg
        if x = 0 then code = (if signs.all id || (signs.any id && m == .rdn) then 2 ^ f.magBits else 0) ∧ fl = 0
        else Rounded f m x code fl := by
  unfold undefinedSum
  simp only [contains_inf_addends]
  rfl

/-- What `fdot` answers, told the same way (R31). -/
theorem fdot_eq (m : RMode) {ps : List (Val × Val)} {cs : List Val} {y : Val} {ys : List Val} (h : addends ps cs = y :: ys) :
    fdot m ps cs =
      if (operands ps cs).any (·.isNan) || undefinedSum ps cs then
        (.nan false, if (operands ps cs).any (·.isSnan) || undefinedSum ps cs then 16 else 0)
      else (ys.foldl (Val.add m) y, 0) := by
  have hbad : (ps.any fun p => !p.1.isNan && !p.2.isNan && (p.1.mul p.2).isNan) = ps.any zeroInf := by simp only [zeroInf_iff]
  have hnan := any_isNan_addends ps cs
  have hsn : (operands ps cs).any (·.isNan) = false → (operands ps cs).any (·.isSnan) = false := any_isSnan_false
  have hops : snanFlag (ps.map (·.1) ++ ps.map (·.2) ++ cs) = if (operands ps cs).any (·.isSnan) then 16 else 0 := rfl
  have hxs : (ps.map fun p => p.1.mul p.2) ++ cs = addends ps cs := rfl
  have hu : undefinedSum ps cs =
    (((addends ps cs).contains (.inf true) && (addends ps cs).contains (.inf false)) || ps.any zeroInf) := rfl
  simp only [fdot, hbad, hops, hxs, hnan, hu]
  generalize (operands ps cs).any (·.isNan) = A at *
  generalize (operands ps cs).any (·.isSnan) = S at *
  generalize ps.any zeroInf = Z at *
  generalize (addends ps cs).contains (Val.inf true) = T at *
  generalize (addends ps cs).contains (Val.inf false) = F at *
  rw [h]
  cases A <;> cases Z <;> cases T <;> cases F <;> cases S <;> simp_all

/-- The number and the sign of a finite sum of products and terms. -/
theorem sumOf_addends {m : RMode} {ps : List (Val × Val)} {cs : List Val} {y : Val} {ys : List Val} (h : addends ps cs = y :: ys)
    (hy : y.plain = true) (hfin : ∀ z ∈ addends ps cs, z.isFin = true) :
    let a := ys.foldl (Val.add m) y
    let signs := ps.map (fun p => p.1.neg != p.2.neg) ++ cs.map Val.neg
    a.isFin = true ∧ a.plain = true ∧ a.rat = (ps.map fun p => p.1.rat * p.2.rat).sum + (cs.map Val.rat).sum ∧
      (a.rat = 0 → a.neg = (signs.all id || (signs.any id && m == .rdn))) := by
  intro a signs
  have hs : SumOf m (y :: ys) a := (SumOf.single m hy (hfin y (by simp [h]))).foldl fun z hz => hfin z (by simp [h, hz])
  rw [← h] at hs
  have hops : ∀ p ∈ ps, p.1.isFin = true ∧ p.2.isFin = true := fun p hp => by
    have := hfin (p.1.mul p.2) (by simp only [addends, List.mem_append, List.mem_map]; exact .inl ⟨p, hp, rfl⟩)
    simpa [Val.isFin_mul] using this
  have hneg : (addends ps cs).map Val.neg = signs := by
    simp only [addends, List.map_append, List.map_map, signs]
    congr 1
    exact List.map_congr_left fun p hp => (Val.mul_fin (hops p hp).1 (hops p hp).2).2.2.2
  have hrat : (addends ps cs).map Val.rat = (ps.map fun p => p.1.rat * p.2.rat) ++ cs.map Val.rat := by
    simp only [addends, List.map_append, List.map_map]
    congr 1
    exact List.map_congr_left fun p hp => (Val.mul_fin (hops p hp).1 (hops p hp).2).2.2.1
  refine ⟨hs.fin, hs.plain, by rw [hs.sum, hrat, List.sum_append], fun h0 => ?_⟩
  rw [hs.zero h0, ← hneg]
  simp [List.all_map, List.any_map]

/-- The exact sum of products and terms, rounded once, is the result that the rules describe (R30, R31, R38, R162). -/
theorem fdot_floatRes {f : Fmt} (ok : f.Ok) {i : Nat} (hi : f.inf = some i) (m : RMode) {ps : List (Val × Val)} {cs : List Val}
    (hc : ∀ x ∈ cs, x.plain = true) (hne : ps ≠ [] ∨ cs ≠ []) :
    FloatRes f m ps cs (finishF f m (fdot m ps cs)).1 (finishF f m (fdot m ps cs)).2 := by
  obtain ⟨y, ys, h⟩ : ∃ y ys, addends ps cs = y :: ys := by
    rcases hxs : addends ps cs with _ | ⟨y, ys⟩
    · simp [addends] at hxs; simp [hxs] at hne
    · exact ⟨y, ys, rfl⟩
  rw [floatRes_iff, fdot_eq m h]
  split
  · rw [finishF_nan]; exact ⟨rfl, rfl⟩
  · rename_i hdef
    simp only [Bool.not_eq_true, Bool.or_eq_false_iff, undefinedSum, Bool.and_eq_false_iff] at hdef
    obtain ⟨hn, ho, hz⟩ := hdef
    have hnan : ∀ z ∈ y :: ys, z.isNan = false := by
      have := any_isNan_addends ps cs
      rw [hn, hz, h] at this
      simpa using this
    rw [h] at ho
    split
    · rename_i hF
      rw [h] at hF
      have hT : (y :: ys).contains (Val.inf true) = false := by rcases ho with e | e <;> simp_all
      have := foldl_add_inf (m := m) (n := false) hnan (by simpa using hT) (by simpa using hF)
      rw [this, finishF_inf hi]
      exact ⟨⟨i, hi, rfl⟩, rfl⟩
    · rename_i hF
      rw [h] at hF
      split
      · rename_i hT
        rw [h] at hT
        have := foldl_add_inf (m := m) (n := true) hnan (by simpa using hF) (by simpa using hT)
        rw [this, finishF_inf hi]
        exact ⟨⟨i, hi, rfl⟩, rfl⟩
      · rename_i hT
        have hfin : ∀ z ∈ addends ps cs, z.isFin = true := fun z hz => by
          rw [h] at hz hT
          refine Val.isFin_of (hnan z hz) fun n e => ?_
          subst e
          cases n <;> simp_all
        have hy : y.plain = true := by
          have hmem : y ∈ addends ps cs := by simp [h]
          simp only [addends, List.mem_append, List.mem_map] at hmem
          rcases hmem with ⟨p, hp, rfl⟩ | hmem
          · have := hfin (p.1.mul p.2) (by simp [h])
            rw [Val.isFin_mul, Bool.and_eq_true] at this
            exact (Val.mul_fin this.1 this.2).2.1
          · exact hc y hmem
        obtain ⟨f1, p1, r1, z1⟩ := sumOf_addends (m := m) h hy hfin
        have := finishF_fin ok m f1 p1
        rw [r1] at this z1
        dsimp only
        split
        · rename_i h0
          rw [if_pos h0] at this
          rw [this, z1 h0]
          exact ⟨rfl, rfl⟩
        · rename_i h0
          rw [if_neg h0] at this
          exact this

/-! ### Comparisons, minimum and maximum (R155) -/

theorem Val.units_lt_iff {a b : Val} (ha : a.isFin = true) (hb : b.isFin = true) :
    (a.units (min a.exp b.exp) < b.units (min a.exp b.exp) ↔ a.rat < b.rat) ∧
      (a.units (min a.exp b.exp) = b.units (min a.exp b.exp) ↔ a.rat = b.rat) := by
  cases a with
  | fin na ma ea ra =>
    cases b with
    | fin nb mb eb rb =>
      have hw : (0 : ℚ) < 2 ^ min ea eb := by positivity
      rw [← Val.units_rat na ma ra (min_le_left ea eb), ← Val.units_rat nb mb rb (min_le_right ea eb)]
      simp only [Val.exp]
      rw [mul_lt_mul_iff_left₀ hw, mul_left_inj' hw.ne', Int.cast_lt, Int.cast_inj]
      exact ⟨Iff.rfl, Iff.rfl⟩
    | _ => simp [Val.isFin] at hb
  | _ => simp [Val.isFin] at ha

theorem Val.lt_eq_below (a b : Val) : a.lt b = a.below b := by
  cases a with
  | fin na ma ea ra =>
    cases b with
    | fin nb mb eb rb =>
      simp only [Val.lt, Val.below]
      exact decide_eq_decide.2 (Val.units_lt_iff (a := .fin na ma ea ra) (b := .fin nb mb eb rb) rfl rfl).1
    | _ => rfl
  | _ => cases b <;> rfl

theorem Val.eq_eq_same (a b : Val) : a.eq b = a.same b := by
  cases a with
  | fin na ma ea ra =>
    cases b with
    | fin nb mb eb rb =>
      simp only [Val.eq, Val.same]
      rw [Bool.eq_iff_iff, beq_iff_eq, beq_iff_eq]
      exact (Val.units_lt_iff (a := .fin na ma ea ra) (b := .fin nb mb eb rb) rfl rfl).2
    | _ => rfl
  | _ => cases b <;> rfl

theorem fminmaxBits_res (f : Fmt) (mx : Bool) (a b : Nat) :
    MinMaxRes f mx a b (fminmaxBits f mx a b) (snanFlag [value f a, value f b]) := by
  refine ⟨by simp [snanFlag], ?_⟩
  simp only [fminmaxBits, Val.lt_eq_below, Val.eq_eq_same]
  cases (value f a).isNan <;> cases (value f b).isNan <;> simp

/-! ### Conversion to whole numbers (R34) -/

theorem whole_gap (i : Nat) (z : ℚ) (hz : whole false z) : |z| ≤ i * 2 ^ (0 : ℤ) ∨ ((i : ℚ) + 1) * 2 ^ (0 : ℤ) ≤ |z| := by
  obtain ⟨j, rfl, -⟩ := hz
  simp only [zpow_zero, mul_one]
  rw [← Int.cast_abs, ← Int.natCast_natAbs]
  norm_cast
  omega

/-- A finite exact value rounded to a whole number. -/
theorem toInteger_rounding (mode : RMode) {v : Val} (hf : v.isFin = true) (hp : v.plain = true) :
    Rounding mode whole v.rat (toInteger mode v).1 ∧ ((toInteger mode v).2 = true ↔ ((toInteger mode v).1 : ℚ) ≠ v.rat) := by
  cases v with
  | fin n m e r =>
    obtain rfl : r = false := by simpa [Val.plain] using hp
    have hc := cut_isCut (m := m) (r := false) (y := m) (by simp [Near]) (s := e) (.inl rfl)
    have hrat : (((Val.fin n m e false).rat : ℚ) : ℝ) = (sgn n : ℝ) * (m * 2 ^ e) * 2 ^ (0 : ℤ) := by
      rw [Val.rat_fin]; push_cast; ring
    have hdef : (toInteger mode (.fin n m e false)).1 =
        let u := roundUnits mode n (cut m e false).1 (cut m e false).2.1 (cut m e false).2.2
        if n then -(u : ℤ) else u := rfl
    have hint : (((toInteger mode (.fin n m e false)).1 : ℤ) : ℚ) =
        sgn n * (roundUnits mode n (cut m e false).1 (cut m e false).2.1 (cut m e false).2.2 : ℕ) * 2 ^ (0 : ℤ) := by
      rw [hdef]; cases n <;> simp
    constructor
    · rw [hrat, hint]
      refine rounding_of_isCut hc (fun even he => ?_) (whole_gap _)
      rw [← hint]
      refine ⟨_, rfl, fun h => ?_⟩
      have := he h
      rw [hdef]
      cases n <;> simp only [if_true, if_false, Bool.false_eq_true] <;> omega
    · have h2 : (toInteger mode (.fin n m e false)).2 = ((cut m e false).2.1 || (cut m e false).2.2) := rfl
      rw [h2, ← not_iff_not, not_not, Bool.not_eq_true, ← hc.round_eq_iff mode n, ← Rat.cast_inj (α := ℝ), hrat, hint]
      push_cast
      simp only [zpow_zero, mul_one]
      rw [mul_right_inj' (by cases n <;> norm_num)]
  | _ => simp [Val.isFin] at hf

theorem cvtInt_res (lo hi : Int) (mode : RMode) {v : Val} (hp : v.plain = true) :
    IntRes lo hi mode v (cvtInt lo hi mode v).1 (cvtInt lo hi mode v).2 := by
  cases v with
  | nan s => exact ⟨rfl, rfl⟩
  | inf n => exact ⟨rfl, rfl⟩
  | fin n m e r =>
    obtain ⟨hr, hx⟩ := toInteger_rounding mode (v := .fin n m e r) rfl hp
    refine ⟨_, hr, ?_⟩
    simp only [cvtInt]
    generalize toInteger mode (.fin n m e r) = i at *
    split
    · exact .inl ⟨‹_›, rfl, rfl⟩
    · split
      · exact .inr (.inl ⟨‹_›, rfl, rfl⟩)
      · refine .inr (.inr ⟨by omega, by omega, rfl, ?_⟩)
        cases h2 : i.2 <;> simp_all

/-! ### Numbers that a format holds (R29, R32) -/

/-- A number of the set is rounded to itself. -/
theorem rounding_exact {m : RMode} {num : Bool → ℚ → Prop} {x : ℝ} {y z : ℚ} (h : Rounding m num x y) (hz : num false z)
    (e : x = z) : y = z := by
  subst e
  obtain ⟨-, h⟩ := h
  cases m with
  | rne =>
    rcases h z hz with h | h | ⟨h, -⟩
    · simp at h; linarith [abs_nonneg ((z : ℝ) - y)]
    · exact h.symm
    · simp at h; exact_mod_cast (sub_eq_zero.1 h).symm
  | rtz =>
    obtain ⟨h1, h2, h3⟩ := h
    have h1 : |y| ≤ |z| := by exact_mod_cast h1
    have h2 : 0 ≤ z * y := by exact_mod_cast h2
    have := le_antisymm h1 (h3 z hz le_rfl)
    rcases abs_eq_abs.1 this with e | e
    · exact e
    · rw [e] at h2 ⊢; nlinarith [sq_nonneg z, pow_eq_zero_iff (two_ne_zero) (a := z)]
  | rup => exact le_antisymm (h.2 z hz le_rfl) (by exact_mod_cast h.1)
  | rdn => exact le_antisymm (by exact_mod_cast h.1) (h.2 z hz le_rfl)

/-- A number of at most fb + 1 bits, not zero, is one of the format's precision. -/
theorem Fmt.wide_of_lt (f : Fmt) (n : Bool) {K : Nat} (h0 : K ≠ 0) (hK : K < 2 ^ (f.fb + 1)) (q : ℤ) :
    f.wide false (sgn n * K * 2 ^ q) := by
  have hl : K.log2 ≤ f.fb := by
    have := (Nat.log2_lt h0).2 hK; omega
  obtain ⟨j, hj⟩ := Nat.exists_eq_add_of_le hl
  refine ⟨K * 2 ^ j, q - j, ?_, ?_, ?_, by simp⟩
  · rw [hj, pow_add]; gcongr; exact Nat.log2_self_le h0
  · rw [hj, show K.log2 + j + 1 = (K.log2 + 1) + j by ring, pow_add]; gcongr; exact Nat.lt_log2_self
  · rw [abs_sgn_mul, zpow_sub₀ (by norm_num), zpow_natCast]; push_cast; field_simp

/-- A number that the format holds is rounded to its own code, with no flag. -/
theorem rounded_exact {f : Fmt} (ok : f.Ok) {m : RMode} {x : ℝ} {code : Nat} {fl : FFlags} {e4nan : Bool}
    (h : Rounded f m x code fl e4nan) {n : Bool} {c : Nat} (hc : c ≤ f.maxCode) (hx : x = ((sgn n * f.mag c : ℚ) : ℝ))
    (h0 : f.mag c ≠ 0) : code = withSign f n c ∧ fl = 0 := by
  obtain ⟨u, n', c', hwide, hsign, hcode, -, hhas, hb0, hb1, hb2, hb3, hb4⟩ := h
  have hpos : 0 < f.mag c := lt_of_le_of_ne (f.mag_nonneg c) h0.symm
  have hn : n' = n := by
    have : n = true ↔ x < 0 := by
      rw [hx]; push_cast
      cases n <;> simp [hpos.le, hpos]
    rw [Bool.eq_iff_iff, hsign, this]
  subst hn
  have hu : u = sgn n' * f.mag c := by
    refine rounding_exact hwide ?_ hx
    have := f.wide_of_lt n' (K := f.sig c) (fun e => h0 (by simp [Fmt.mag, e])) (f.sig_lt c) (f.qmin + f.grade c)
    rwa [mul_assoc] at this
  have hbig : ¬(value f f.maxCode).rat < |u| := by
    rw [value_rat_mag ok le_rfl, hu, abs_mul, abs_sgn, one_mul, abs_of_pos hpos, f.mag_lt_iff]; omega
  obtain ⟨hc', hr⟩ := hhas hbig
  rw [hcode, value_code_rat ok n' hc'] at hr hb0 hb1
  have hy : sgn n' * f.mag c' = sgn n' * f.mag c := by
    refine rounding_exact hr ⟨c, hc, ?_, by simp⟩ hx
    rw [value_rat_mag ok hc, abs_mul, abs_sgn, one_mul, abs_of_pos hpos]
  have hcc : c' = c := by
    have : f.mag c' = f.mag c := mul_left_cancel₀ (by cases n' <;> norm_num) hy
    rcases lt_trichotomy c' c with h | h | h
    · exact absurd (f.mag_lt_iff.2 h) (by simp [this])
    · exact h
    · exact absurd (f.mag_lt_iff.2 h) (by simp [this])
  refine ⟨by rw [hcode, withSign_eq, hcc], ?_⟩
  simp only [hbig, hy, ← hx, ne_eq, not_true, or_false, and_false, iff_false, Bool.not_eq_true] at hb0 hb1 hb2
  have (b : BitVec 5) (h0 : b.getLsbD 0 = false) (h1 : b.getLsbD 1 = false) (h2 : b.getLsbD 2 = false)
      (h3 : b.getLsbD 3 = false) (h4 : b.getLsbD 4 = false) : b = 0 := by
    apply BitVec.eq_of_getLsbD_eq
    intro i hi
    interval_cases i <;> simp_all
  exact this fl hb0 hb1 hb2 hb3 hb4

theorem fpround_exact {f : Fmt} (ok : f.Ok) (m : RMode) {v : Val} (hf : v.isFin = true) (hp : v.plain = true) {n : Bool} {c : Nat}
    (hc : c ≤ f.maxCode) (hv : v.rat = sgn n * f.mag c) (h0 : f.mag c ≠ 0) : fpround f m v = (withSign f n c, 0) := by
  have hne : v.rat ≠ 0 := by rw [hv]; cases n <;> simpa using h0
  obtain ⟨h1, h2⟩ := rounded_exact ok (fpround_rat ok m hf hp hne) hc (by rw [hv]) h0
  exact Prod.ext h1 h2

/-- An encoding's sign and magnitude. -/
theorem code_split (f : Fmt) {b : Nat} (hb : b < 2 ^ (f.magBits + 1)) :
    ∃ (n : Bool) (c : Nat), c < 2 ^ f.magBits ∧ b = if n then c + 2 ^ f.magBits else c := by
  rw [pow_succ] at hb
  rcases lt_or_ge b (2 ^ f.magBits) with h | h
  · exact ⟨false, b, h, rfl⟩
  · exact ⟨true, b - 2 ^ f.magBits, by omega, by simp; omega⟩

/-- The codes above the largest finite one are those of infinity and the NaNs. -/
theorem value_above_max {f : Fmt} (ok : f.Ok) {i : Nat} (hi : f.inf = some i) (n : Bool) {c : Nat} (hc : c < 2 ^ f.magBits)
    (h : f.maxCode < c) : (c = i ∧ value f (if n then c + 2 ^ f.magBits else c) = .inf n) ∨
      (value f (if n then c + 2 ^ f.magBits else c)).isNan = true := by
  have hmag : (if n then c + 2 ^ f.magBits else c) % 2 ^ f.magBits = c := by
    cases n <;> simp [Nat.mod_eq_of_lt hc]
  have hn : ((if n then c + 2 ^ f.magBits else c) / 2 ^ f.magBits % 2 == 1) = n := by
    cases n
    · simp [Nat.div_eq_of_lt hc]
    · simp [Nat.add_div_right _ (Nat.two_pow_pos f.magBits), Nat.div_eq_of_lt hc]
  have := (ok.inf i hi).1
  unfold value
  simp only [hmag, hn, hi]
  split
  · exact .inl ⟨‹_›, rfl⟩
  · exact .inr (by rw [if_pos (by omega)]; rfl)

/-- What an encoding that is no NaN stands for is rounded to the encoding itself. -/
theorem finishF_value {f : Fmt} (ok : f.Ok) {i : Nat} (hi : f.inf = some i) (m : RMode) {b : Nat} (hb : b < 2 ^ (f.magBits + 1))
    (hn : (value f b).isNan = false) : finishF f m (value f b, 0) = (b, 0) := by
  obtain ⟨n, c, hc, rfl⟩ := code_split f hb
  rcases lt_or_ge f.maxCode c with h | h
  · rcases value_above_max ok hi n hc h with ⟨rfl, e⟩ | e
    · rw [e, finishF_inf hi]
    · rw [e] at hn; cases hn
  · have hv := value_of_code ok n h
    by_cases h0 : f.mag c = 0
    · have hs : f.sig c = 0 := by simpa [Fmt.mag, zpow_ne_zero] using h0
      have hc0 : c = 0 := by
        have hg := f.grade_sig c
        have := Nat.two_pow_pos f.fb
        rcases f.grade_or c with e | e
        · rw [e, hs] at hg; omega
        · omega
      rw [hv, hs, finishF_zero, hc0]
      simp
    · simp [finishF, fpround_exact ok m (v := value f (if n then c + 2 ^ f.magBits else c)) (by rw [hv]; rfl) (by simp) h
        (value_code_rat ok n h) h0, withSign_eq]

/-! ### Quotients and roots (R39, R156) -/

theorem near_div (a : Nat) {b : Nat} (hb : b ≠ 0) : Near (a / b) (a % b != 0) ((a : ℝ) / b) := by
  have hb' : (0 : ℝ) < b := by exact_mod_cast Nat.pos_of_ne_zero hb
  have h := Nat.div_add_mod a b
  have hR : (a : ℝ) = b * (a / b : ℕ) + (a % b : ℕ) := by exact_mod_cast h.symm
  have hlt : ((a % b : ℕ) : ℝ) < b := by exact_mod_cast Nat.mod_lt a (Nat.pos_of_ne_zero hb)
  unfold Near
  split
  · rename_i hr
    have : (0 : ℝ) < (a % b : ℕ) := by exact_mod_cast Nat.pos_of_ne_zero (by simpa using hr)
    rw [lt_div_iff₀ hb', div_lt_iff₀ hb']
    constructor <;> nlinarith
  · rename_i hr
    have : a % b = 0 := by simpa using hr
    rw [div_eq_iff hb'.ne', hR, this]; push_cast; ring

theorem le_log2 {a k : Nat} (h : 2 ^ k ≤ a) : k ≤ a.log2 :=
  (Nat.le_log2 (by have := Nat.two_pow_pos k; omega)).2 h

/-- The quotient that `divFin` keeps has 63 bits or more beside its rest. -/
theorem divFin_bits {ma mb : Nat} (ha : ma ≠ 0) (hb : mb ≠ 0) : 2 ^ 63 ≤ ma * 2 ^ (64 + mb.log2) / mb := by
  rw [Nat.le_div_iff_mul_le (Nat.pos_of_ne_zero hb)]
  have h1 : mb ≤ 2 ^ (mb.log2 + 1) := Nat.lt_log2_self.le
  calc 2 ^ 63 * mb ≤ 2 ^ 63 * 2 ^ (mb.log2 + 1) := by gcongr
    _ = 2 ^ (64 + mb.log2) := by rw [← pow_add]; congr 1; omega
    _ ≤ ma * 2 ^ (64 + mb.log2) := Nat.le_mul_of_pos_left _ (Nat.pos_of_ne_zero ha)

theorem divFin_rounded {f : Fmt} (ok : f.Ok) (hfb : f.fb < 63) (m : RMode) {a b : Val} (ha : a.isFin = true) (hpa : a.plain = true)
    (ha0 : a.rat ≠ 0) (hb : b.isFin = true) (hpb : b.plain = true) (hb0 : b.rat ≠ 0) :
    Rounded f m ((a.rat / b.rat : ℚ) : ℝ) (finishF f m (a.divFin b, 0)).1 (finishF f m (a.divFin b, 0)).2 := by
  cases a with
  | fin na ma ea ra =>
    cases b with
    | fin nb mb eb rb =>
      have ha0' : ma ≠ 0 := fun h => ha0 ((Val.rat_eq_zero _ _ _ _).2 h)
      have hb0' : mb ≠ 0 := fun h => hb0 ((Val.rat_eq_zero _ _ _ _).2 h)
      have hbits := divFin_bits ha0' hb0'
      have h := fpround_rounded ok m (na != nb) (by omega) (ea - eb - ((64 + mb.log2 : ℕ) : ℤ))
        (near_div (ma * 2 ^ (64 + mb.log2)) hb0') (.inr (lt_of_lt_of_le hfb (le_log2 hbits)))
      have hx : (((Val.fin na ma ea ra).rat / (Val.fin nb mb eb rb).rat : ℚ) : ℝ) = ((sgn (na != nb) : ℚ) : ℝ) *
          (((ma * 2 ^ (64 + mb.log2) : ℕ) : ℝ) / mb) * 2 ^ (ea - eb - ((64 + mb.log2 : ℕ) : ℤ)) := by
        simp only [Val.rat_fin, sgn_ne]
        rw [zpow_sub₀ (by norm_num), zpow_sub₀ (by norm_num), zpow_natCast]
        push_cast
        cases nb <;> simp <;> field_simp
      rw [hx]
      simpa [finishF, Val.divFin] using h
    | _ => simp [Val.isFin] at hb
  | _ => simp [Val.isFin] at ha

/-- The square root bit by bit is the integer square root. -/
theorem isqrt_go (n k acc : Nat) (h1 : acc ^ 2 ≤ n) (h2 : n < (acc + 2 ^ k) ^ 2) : isqrt.go n k acc = n.sqrt := by
  induction k generalizing acc with
  | zero =>
    rw [isqrt.go]
    exact Nat.eq_sqrt'.2 ⟨h1, by simpa using h2⟩
  | succ k ih =>
    unfold isqrt.go
    dsimp only
    split
    · rename_i h
      exact ih _ (by rw [sq]; exact h) (by rw [pow_succ] at h2; rwa [add_assoc, ← mul_two])
    · rename_i h
      exact ih _ h1 (by rw [sq]; omega)

theorem isqrt_eq (n : Nat) : isqrt n = n.sqrt := by
  refine isqrt_go n _ 0 (by simp) ?_
  calc n < 2 ^ (n.log2 + 1) := Nat.lt_log2_self
    _ ≤ 2 ^ ((n.log2 / 2 + 1) * 2) := Nat.pow_le_pow_right (by norm_num) (by omega)
    _ = (0 + 2 ^ (n.log2 / 2 + 1)) ^ 2 := by rw [zero_add, pow_mul]

theorem near_sqrt (n : Nat) : Near n.sqrt (n.sqrt * n.sqrt != n) (Real.sqrt n) := by
  unfold Near
  split
  · rename_i h
    refine ⟨lt_of_le_of_ne Real.nat_sqrt_le_real_sqrt fun e => ?_, Real.real_sqrt_lt_nat_sqrt_succ⟩
    have h2 : ((n.sqrt : ℕ) : ℝ) ^ 2 = n := by rw [e, Real.sq_sqrt (Nat.cast_nonneg n)]
    rw [sq] at h2
    exact (by simpa using h : ¬n.sqrt * n.sqrt = n) (by exact_mod_cast h2)
  · rename_i h
    have h2 : n.sqrt * n.sqrt = n := by simpa using h
    have h3 : (n : ℝ) = (n.sqrt : ℝ) ^ 2 := by rw [sq]; exact_mod_cast h2.symm
    rw [h3, Real.sqrt_sq (Nat.cast_nonneg _)]

/-- The integer square root of the quotient N / m, with the rests of both, is near to the root of the quotient. -/
theorem near_sqrt_div (N : Nat) {m : Nat} (hm : m ≠ 0) :
    Near (N / m).sqrt ((N / m).sqrt * (N / m).sqrt != N / m || N % m != 0) (Real.sqrt ((N : ℝ) / m)) := by
  have hd := near_div N hm
  have hs := near_sqrt (N / m)
  have hle : Real.sqrt (N / m : ℕ) ≤ Real.sqrt ((N : ℝ) / m) := Real.sqrt_le_sqrt hd.bounds.1
  have hup : Real.sqrt ((N : ℝ) / m) < (N / m).sqrt + 1 := by
    rw [Real.sqrt_lt' (by positivity)]
    have h1 : N / m + 1 ≤ ((N / m).sqrt + 1) ^ 2 := Nat.lt_succ_sqrt' (N / m)
    have h2 : ((N / m : ℕ) : ℝ) + 1 ≤ ((N / m).sqrt + 1) ^ 2 := by exact_mod_cast h1
    linarith [hd.bounds.2]
  have hrest : Real.sqrt ((N : ℝ) / m) = (N / m).sqrt ↔
      ((N / m).sqrt * (N / m).sqrt != N / m || N % m != 0) = false := by
    rw [Bool.or_eq_false_iff, ← hs.eq_iff, ← hd.eq_iff]
    constructor
    · intro e
      have h1 : Real.sqrt (N / m : ℕ) = (N / m).sqrt := le_antisymm (e ▸ hle) hs.bounds.1
      exact ⟨h1, (Real.sqrt_inj (by positivity) (by positivity)).1 (e.trans h1.symm)⟩
    · rintro ⟨h1, h2⟩; rw [h2, h1]
  unfold Near
  split
  · rename_i h
    exact ⟨lt_of_le_of_ne (hs.bounds.1.trans hle) fun e => by simp [hrest.1 e.symm] at h, hup⟩
  · rename_i h
    exact hrest.2 (by simpa using h)

/-- A number with an even exponent, beside its root. -/
theorem sqrt_mul_zpow (a : ℝ) {e : ℤ} (h : e % 2 = 0) : Real.sqrt (a * 2 ^ e) = Real.sqrt a * 2 ^ (e / 2) := by
  obtain ⟨k, rfl⟩ : ∃ k, e = k * 2 := ⟨e / 2, by omega⟩
  rw [Int.mul_ediv_cancel _ (by norm_num), zpow_mul, Real.sqrt_mul' _ (by positivity)]
  congr 1
  exact Real.sqrt_sq (by positivity)

/-- Significand and exponent of a number, the exponent made even. -/
theorem even_exponent (m : Nat) (e : ℤ) :
    let p := if e % 2 = 0 then (m, e) else (2 * m, e - 1)
    p.2 % 2 = 0 ∧ m ≤ p.1 ∧ (p.1 : ℝ) * 2 ^ p.2 = m * 2 ^ e := by
  intro p
  by_cases h : e % 2 = 0
  · simp [p, h]
  · refine ⟨by simp [p, h]; omega, by simp [p, h]; omega, ?_⟩
    simp only [p, h, if_false]
    rw [zpow_sub_one₀ (by norm_num)]; push_cast; ring

theorem sqrtFin_rounded {f : Fmt} (ok : f.Ok) (hfb : f.fb < 63) (mode : RMode) {m : Nat} (hm : m ≠ 0) (e : Int) :
    Rounded f mode (Real.sqrt (m * 2 ^ e)) (finishF f mode (sqrtFin m e, 0)).1 (finishF f mode (sqrtFin m e, 0)).2 := by
  obtain ⟨heven, hge, hval⟩ := even_exponent (m * 2 ^ 128) (e - 128)
  have heq : sqrtFin m e =
      let p := if (e - 128) % 2 = 0 then (m * 2 ^ 128, e - 128) else (2 * (m * 2 ^ 128), e - 128 - 1)
      .fin false p.1.sqrt (p.2 / 2) (p.1.sqrt * p.1.sqrt != p.1) := by
    simp only [sqrtFin, isqrt_eq]
  rw [heq]
  generalize (if (e - 128) % 2 = 0 then (m * 2 ^ 128, e - 128) else (2 * (m * 2 ^ 128), e - 128 - 1)) = p at *
  have hbits : 2 ^ 63 ≤ p.1.sqrt := by
    rw [Nat.le_sqrt']
    have : 2 ^ 128 ≤ m * 2 ^ 128 := Nat.le_mul_of_pos_left _ (Nat.pos_of_ne_zero hm)
    omega
  have h := fpround_rounded ok mode false (by omega) (p.2 / 2) (near_sqrt p.1) (.inr (lt_of_lt_of_le hfb (le_log2 hbits)))
  have hx : Real.sqrt (m * 2 ^ e) = ((sgn false : ℚ) : ℝ) * Real.sqrt p.1 * 2 ^ (p.2 / 2) := by
    rw [sgn_false, Rat.cast_one, one_mul, ← sqrt_mul_zpow _ heven, hval]
    congr 1
    rw [zpow_sub₀ (by norm_num)]; push_cast
    norm_num
    ring
  rw [hx]
  simpa [finishF] using h

theorem rsqrtFin_rounded {f : Fmt} (ok : f.Ok) (hfb : f.fb < 63) (mode : RMode) {m : Nat} (hm : m ≠ 0) (e : Int) :
    Rounded f mode (1 / Real.sqrt (m * 2 ^ e)) (finishF f mode (rsqrtFin m e, 0)).1 (finishF f mode (rsqrtFin m e, 0)).2 := by
  obtain ⟨heven, hge, hval⟩ := even_exponent m e
  have heq : rsqrtFin m e =
      let p := if e % 2 = 0 then (m, e) else (2 * m, e - 1)
      let k := p.1.log2 + 70
      .fin false (2 ^ (2 * k) / p.1).sqrt (-(p.2 / 2) - k)
        ((2 ^ (2 * k) / p.1).sqrt * (2 ^ (2 * k) / p.1).sqrt != 2 ^ (2 * k) / p.1 || 2 ^ (2 * k) % p.1 != 0) := by
    simp only [rsqrtFin, isqrt_eq]
  rw [heq]
  generalize (if e % 2 = 0 then (m, e) else (2 * m, e - 1)) = p at *
  dsimp only
  have hp : p.1 ≠ 0 := by omega
  generalize hk : p.1.log2 + 70 = k
  have hbits : 2 ^ 63 ≤ (2 ^ (2 * k) / p.1).sqrt := by
    rw [Nat.le_sqrt', Nat.le_div_iff_mul_le (Nat.pos_of_ne_zero hp)]
    calc (2 ^ 63) ^ 2 * p.1 ≤ (2 ^ 63) ^ 2 * 2 ^ (p.1.log2 + 1) := by gcongr; exact Nat.lt_log2_self.le
      _ = 2 ^ (p.1.log2 + 127) := by rw [← pow_mul, ← pow_add]; congr 1; omega
      _ ≤ 2 ^ (2 * k) := Nat.pow_le_pow_right (by norm_num) (by omega)
  have h := fpround_rounded ok mode false (by omega) (-(p.2 / 2) - k) (near_sqrt_div (2 ^ (2 * k)) hp)
    (.inr (lt_of_lt_of_le hfb (le_log2 hbits)))
  have hx : 1 / Real.sqrt (m * 2 ^ e) =
      ((sgn false : ℚ) : ℝ) * Real.sqrt (((2 ^ (2 * k) : ℕ) : ℝ) / p.1) * 2 ^ (-(p.2 / 2) - (k : ℤ)) := by
    have hroot : Real.sqrt (((2 ^ (2 * k) : ℕ) : ℝ) / p.1) = 2 ^ k / Real.sqrt p.1 := by
      rw [Real.sqrt_div (by positivity)]
      congr 1
      push_cast
      rw [mul_comm 2 k, pow_mul]
      exact Real.sqrt_sq (by positivity)
    have hs : Real.sqrt p.1 ≠ 0 := (Real.sqrt_pos.2 (by exact_mod_cast Nat.pos_of_ne_zero hp)).ne'
    rw [← hval, sqrt_mul_zpow _ heven, hroot, sgn_false, Rat.cast_one, one_mul, zpow_sub₀ (by norm_num), zpow_neg, zpow_natCast]
    field_simp
  rw [hx]
  simpa [finishF] using h

/-! ### The FP32 functions (R39, R156) -/

/-- A NaN's result and flags. -/
@[simp] theorem finishF_nan32 (m : RMode) (b : Bool) (fl : FFlags) : finishF .fp32 m (.nan b, fl) = (0x7FC00000, fl) :=
  finishF_nan _ _ _ _

@[simp] theorem finishF_inf32 (m : RMode) (n : Bool) (fl : FFlags) :
    finishF .fp32 m (.inf n, fl) = (if n then 0xFF800000 else 0x7F800000, fl) := by
  cases n <;> exact finishF_inf (f := .fp32) rfl m _ fl

@[simp] theorem finishF_zero32 (m : RMode) (n : Bool) (e : Int) (fl : FFlags) :
    finishF .fp32 m (.fin n 0 e false, fl) = (if n then 0x80000000 else 0, fl) := by
  cases n <;> exact finishF_zero .fp32 m _ e fl

theorem infCode_fp32 (n : Bool) : infCode .fp32 n (if n then 0xFF800000 else 0x7F800000) :=
  ⟨0x7F800000, rfl, by cases n <;> rfl⟩

/-- A value is a NaN, an infinity, a zero or another finite number. -/
theorem Val.plain_cases {v : Val} (hp : v.plain = true) (P : Prop) (nan : ∀ s, v = .nan s → P) (inf : ∀ n, v = .inf n → P)
    (zero : ∀ n e, v = .fin n 0 e false → P) (num : ∀ n m e, m ≠ 0 → v = .fin n m e false → P) : P := by
  cases v with
  | nan s => exact nan s rfl
  | inf n => exact inf n rfl
  | fin n m e r =>
    obtain rfl : r = false := by simpa [Val.plain] using hp
    by_cases hm : m = 0
    · subst hm; exact zero n e rfl
    · exact num n m e hm rfl

theorem divVal_res (m : RMode) {x y : Val} (hx : x.plain = true) (hy : y.plain = true) :
    DivRes m x y (finishF .fp32 m (divVal x y)).1 (finishF .fp32 m (divVal x y)).2 := by
  unfold DivRes divVal
  dsimp only
  by_cases hnan : x.isNan || y.isNan
  · rw [if_pos hnan, if_pos hnan, finishF_nan32]; exact ⟨rfl, rfl⟩
  rw [if_neg hnan, if_neg hnan]
  by_cases hund : (x.isZero && y.isZero) || (x.isInf && y.isInf)
  · rw [if_pos hund, if_pos hund, finishF_nan32]; exact ⟨rfl, rfl⟩
  rw [if_neg hund, if_neg hund]
  by_cases hxi : x.isInf
  · rw [if_pos hxi, if_pos (by simp [hxi]), finishF_inf32]; exact ⟨infCode_fp32 _, by simp [hxi]⟩
  rw [if_neg hxi]
  by_cases hyi : y.isInf
  · have hyz : y.isZero = false := by cases y <;> simp_all [Val.isInf, Val.isZero]
    rw [if_pos hyi, if_neg (by simp [hxi, hyz]), if_pos (by simp [hyi]), Val.zero, finishF_zero32]; exact ⟨rfl, rfl⟩
  rw [if_neg hyi]
  by_cases hyz : y.isZero
  · rw [if_pos hyz, if_pos (by simp [hyz]), finishF_inf32]; exact ⟨infCode_fp32 _, by simp [hxi]⟩
  rw [if_neg hyz, if_neg (by simp [hxi, hyz])]
  by_cases hxz : x.isZero
  · rw [if_pos hxz, if_pos (by simp [hxz]), Val.zero, finishF_zero32]; exact ⟨rfl, rfl⟩
  rw [if_neg hxz, if_neg (by simp [hyi, hxz])]
  simp only [Bool.or_eq_true, not_or, Bool.not_eq_true] at hnan
  have fx : x.isFin = true := Val.isFin_of hnan.1 fun n e => hxi (by rw [e]; rfl)
  have fy : y.isFin = true := Val.isFin_of hnan.2 fun n e => hyi (by rw [e]; rfl)
  exact divFin_rounded .fp32 (by decide) m fx hx (fun h => hxz ((Val.isZero_iff hx fx).2 h)) fy hy
    fun h => hyz ((Val.isZero_iff hy fy).2 h)

theorem sqrtVal_res (m : RMode) {x : Val} (hx : x.plain = true) :
    SqrtRes m x (finishF .fp32 m (sqrtVal x)).1 (finishF .fp32 m (sqrtVal x)).2 := by
  apply Val.plain_cases hx
  · rintro s rfl; rw [sqrtVal, finishF_nan32]; exact ⟨rfl, rfl⟩
  · rintro n rfl; cases n <;> simp [SqrtRes, sqrtVal, Val.isNan, Val.isZero, Val.neg, Val.isInf]
  · rintro n e rfl; cases n <;> simp [SqrtRes, sqrtVal, Val.isNan, Val.isZero, Val.neg]
  · rintro n k e hk rfl
    cases n with
    | true => simp [SqrtRes, sqrtVal, Val.isNan, Val.isZero, Val.neg, hk]
    | false =>
      simp only [SqrtRes, sqrtVal, Val.isNan, Val.isZero, Val.neg, Val.isInf, hk, Val.rat_fin, sgn_false, one_mul, if_false,
        Bool.false_eq_true, Bool.and_true, Bool.not_false, beq_iff_eq]
      push_cast
      exact sqrtFin_rounded .fp32 (by decide) m hk e

theorem rsqrtVal_res (m : RMode) {x : Val} (hx : x.plain = true) :
    RsqrtRes m x (finishF .fp32 m (rsqrtVal x)).1 (finishF .fp32 m (rsqrtVal x)).2 := by
  apply Val.plain_cases hx
  · rintro s rfl; rw [rsqrtVal, finishF_nan32]; exact ⟨rfl, rfl⟩
  · rintro n rfl
    cases n <;> simp [RsqrtRes, rsqrtVal, Val.isNan, Val.isZero, Val.neg, Val.isInf, Val.zero]
  · rintro n e rfl
    simpa [RsqrtRes, rsqrtVal, Val.isNan, Val.isZero, Val.neg] using infCode_fp32 n
  · rintro n k e hk rfl
    cases n with
    | true => simp [RsqrtRes, rsqrtVal, Val.isNan, Val.isZero, Val.neg, hk]
    | false =>
      simp only [RsqrtRes, rsqrtVal, Val.isNan, Val.isZero, Val.neg, Val.isInf, hk, Val.rat_fin, sgn_false, one_mul, if_false,
        Bool.false_eq_true, Bool.and_true, Bool.not_false, beq_iff_eq]
      push_cast
      exact rsqrtFin_rounded .fp32 (by decide) m hk e

theorem rcpVal_res (m : RMode) {x : Val} (hx : x.plain = true) :
    RcpRes m x (finishF .fp32 m (rcpVal x)).1 (finishF .fp32 m (rcpVal x)).2 := by
  apply Val.plain_cases hx
  · rintro s rfl; rw [rcpVal, finishF_nan32]; exact ⟨rfl, rfl⟩
  · rintro n rfl; cases n <;> simp [RcpRes, rcpVal, Val.isNan, Val.isZero, Val.neg, Val.isInf, Val.zero]
  · rintro n e rfl
    simpa [RcpRes, rcpVal, Val.isNan, Val.isZero, Val.neg] using infCode_fp32 n
  · rintro n k e hk rfl
    have h := divFin_rounded .fp32 (by decide) m (a := .fin false 1 0 false) (b := .fin n k e false) rfl rfl
      (by simp [Val.rat_fin]) rfl rfl (fun h => hk ((Val.rat_eq_zero _ _ _ _).1 h))
    simp only [RcpRes, rcpVal, Val.isNan, Val.isZero, Val.isInf, hk, if_false, Bool.false_eq_true, Bool.and_true, Bool.not_false,
      beq_iff_eq]
    rwa [show (Val.fin false 1 0 false).rat = 1 by simp [Val.rat_fin]] at h

theorem Fmt.fp32_qmin : Fmt.fp32.qmin = -149 := by decide
theorem Fmt.fp32_fb : Fmt.fp32.fb = 23 := rfl
theorem Fmt.fp32_maxCode : Fmt.fp32.maxCode = 0x7F7FFFFF := rfl

/-- A power of 2 above every FP32 number overflows, whatever its exponent. -/
theorem fpround_pow_large (m : RMode) {e : Int} (he : 200 ≤ e) :
    fpround .fp32 m (.fin false 1 e false) = (withSign .fp32 false (overCode .fp32 m false false), 0b101) := by
  have h := fpround_fin .fp32 m false one_ne_zero e false false
  have hl : Nat.log2 1 = 0 := by decide
  simp only [hl, Fmt.fp32_qmin, Fmt.fp32_fb, Fmt.fp32_maxCode, Nat.cast_zero, Nat.cast_ofNat, zero_add] at h
  rw [h, if_pos]
  omega

/-- A power of 2 far below every FP32 number rounds as any other does. -/
theorem fpround_pow_small (m : RMode) {e : Int} (he : e ≤ -200) :
    fpround .fp32 m (.fin false 1 e false) = (roundUnits m false 0 false true, 0b11) := by
  have h := fpround_fin .fp32 m false one_ne_zero e false false
  have hl : Nat.log2 1 = 0 := by decide
  have hmax : max (e - 23) (-149) = -149 := by omega
  have hc : cut 1 (e - -149) false = (0, false, true) := by
    unfold cut
    rw [if_neg (by omega)]
    simp only [hl]
    rw [if_pos (by omega)]
    rfl
  have hw : cut 1 (e - (e - 23)) false = (2 ^ 23, false, false) := by rw [show e - (e - 23) = 23 by omega]; rfl
  have hu := roundUnits_bounds m false 0 false true
  have hk : roundUnits m false (2 ^ 23) false false = 2 ^ 23 := by cases m <;> rfl
  have hpow : (2 : ℕ) ^ 23 < 2 ^ ((-149 - (e - 23)).toNat + 23) := Nat.pow_lt_pow_right (by norm_num) (by omega)
  simp only [hl, Fmt.fp32_qmin, Fmt.fp32_fb, Fmt.fp32_maxCode, Nat.cast_zero, Nat.cast_ofNat, zero_add, hmax, hc, hw, hk] at h
  rw [h, if_neg (by omega)]
  simp [withSign]
  omega

theorem fpround_pow_clamp (m : RMode) (n : Int) :
    fpround .fp32 m (.fin false 1 (min (max n (-100000)) 100000) false) = fpround .fp32 m (.fin false 1 n false) := by
  rcases le_or_gt n (-100000) with h | h
  · rw [fpround_pow_small m (by omega), fpround_pow_small m (by omega)]
  · rcases le_or_gt n 100000 with h' | h'
    · congr 2; omega
    · rw [fpround_pow_large m (by omega), fpround_pow_large m (by omega)]

/-- A finite exact value that is a whole number is seen as one. -/
theorem integral_of_rat {v : Val} (hf : v.isFin = true) (hp : v.plain = true) {n : ℤ} (h : v.rat = n) : integral? v = some n := by
  cases v with
  | fin s m e r =>
    obtain ⟨hr, hx⟩ := toInteger_rounding .rtz hf hp
    have hn : (toInteger .rtz (.fin s m e r)).1 = n := by
      have := rounding_exact hr ⟨n, rfl, by simp⟩ (by rw [h])
      exact_mod_cast this
    have hdiv : 0 ≤ e ∨ m % 2 ^ (-e).toNat = 0 := by
      rcases le_or_gt 0 e with he | he
      · exact .inl he
      · right
        obtain ⟨k, hk⟩ : ∃ k : ℕ, e = -(k : ℤ) := ⟨(-e).toNat, by omega⟩
        subst hk
        have h2 : (m : ℤ) = (if s then -n else n) * 2 ^ k := by
          rw [Val.rat_fin, zpow_neg, zpow_natCast, ← div_eq_mul_inv, div_eq_iff (by positivity)] at h
          have : ((m : ℤ) : ℚ) = (((if s then -n else n) * 2 ^ k : ℤ) : ℚ) := by
            push_cast
            cases s <;> simp at h ⊢ <;> linarith
          exact_mod_cast this
        have h3 : ((2 ^ k : ℕ) : ℤ) ∣ m := ⟨_, by rw [h2]; push_cast; ring⟩
        simpa using Nat.mod_eq_zero_of_dvd (Int.natCast_dvd_natCast.1 h3)
    simp only [integral?, if_pos hdiv, hn]
  | _ => simp [Val.isFin] at hf

theorem exp2Fn_res (m : RMode) {x : Val} (hx : x.plain = true) :
    Exp2Res m x (finishF .fp32 m (exp2Fn x)).1 (finishF .fp32 m (exp2Fn x)).2 := by
  cases x with
  | nan s => simp only [exp2Fn, exp2Val, finishF_nan32]; exact ⟨rfl, rfl⟩
  | inf n => cases n <;> simp [Exp2Res, exp2Fn, exp2Val, Val.isNan, Val.isInf, Val.neg, Val.isSnan, Val.zero]
  | fin s k e r =>
    simp only [Exp2Res, Val.isNan, Val.isInf, Bool.false_eq_true, if_false]
    intro n hn
    have h := fpround_rounded .fp32 m false one_ne_zero n (r := false) (y := 1) (by simp [Near]) (.inl rfl)
    have he : exp2Fn (.fin s k e r) = (.fin false 1 (min (max n (-100000)) 100000) false, 0) := by
      simp [exp2Fn, exp2Val, integral_of_rat rfl hx hn, Val.isSnan]
    simpa [he, finishF, fpround_pow_clamp] using h

/-- A whole number that is not zero and has no more bits than FP32's precision is rounded to its own code. -/
theorem fpround_int_exact (m : RMode) {n : ℤ} (h0 : n ≠ 0) (hn : n.natAbs < 2 ^ 24) :
    ∃ c ≤ Fmt.fp32.maxCode, Fmt.fp32.mag c = n.natAbs ∧
      fpround .fp32 m (.ofInt n) = (withSign .fp32 (n < 0) c, 0) := by
  have hK0 : n.natAbs ≠ 0 := by omega
  have hl : n.natAbs.log2 ≤ 23 := by have := (Nat.log2_lt hK0).2 hn; omega
  obtain ⟨j, hj⟩ := Nat.exists_eq_add_of_le hl
  have hlow : 2 ^ 23 ≤ n.natAbs * 2 ^ j := by rw [hj, pow_add]; gcongr; exact Nat.log2_self_le hK0
  have hhigh : n.natAbs * 2 ^ j < 2 ^ 24 := by
    rw [show 24 = (n.natAbs.log2 + 1) + j by omega, pow_add]; gcongr; exact Nat.lt_log2_self
  have hmag := Fmt.mag_grid .fp32 (g := 149 - j) (u := n.natAbs * 2 ^ j) hhigh.le (.inr hlow)
  have hval : Fmt.fp32.mag ((149 - j) * 2 ^ 23 + n.natAbs * 2 ^ j) = n.natAbs := by
    rw [Fmt.fp32_fb] at hmag
    rw [hmag, Fmt.fp32_qmin, show (-149 + ((149 - j : ℕ) : ℤ)) = -(j : ℤ) by omega, zpow_neg, zpow_natCast]
    push_cast
    field_simp
  have hc : (149 - j) * 2 ^ 23 + n.natAbs * 2 ^ j ≤ Fmt.fp32.maxCode := by rw [Fmt.fp32_maxCode]; omega
  refine ⟨_, hc, hval, fpround_exact .fp32 m rfl rfl hc ?_ (by rw [hval]; exact_mod_cast hK0)⟩
  rw [hval, Val.rat_ofInt, zpow_zero, mul_one, Nat.cast_natAbs]
  rcases lt_or_ge n 0 with h | h
  · simp [h, abs_of_neg h]
  · simp [not_lt.2 h, abs_of_nonneg h]

/-- The significand and the exponent of a finite encoding lie within the format. -/
theorem value_bounds (f : Fmt) {b : Nat} {n r : Bool} {m : Nat} {e : Int} (h : value f b = .fin n m e r) :
    m < 2 ^ (f.fb + 1) ∧ f.qmin ≤ e ∧ e ≤ f.qmin + 2 ^ f.eb := by
  have hfr := Nat.mod_lt (b % 2 ^ f.magBits) (Nat.two_pow_pos f.fb)
  have hef : b % 2 ^ f.magBits / 2 ^ f.fb < 2 ^ f.eb := by
    rw [Nat.div_lt_iff_lt_mul (Nat.two_pow_pos _), ← pow_add]
    exact Nat.mod_lt _ (Nat.two_pow_pos _)
  have hef' : ((b % 2 ^ f.magBits / 2 ^ f.fb : ℕ) : ℤ) < 2 ^ f.eb := by exact_mod_cast hef
  have hpow : 2 ^ (f.fb + 1) = 2 * 2 ^ f.fb := by rw [pow_succ, mul_comm]
  have parts {n' : Bool} (h' : (if b % 2 ^ f.magBits / 2 ^ f.fb = 0 then Val.fin n' (b % 2 ^ f.magBits % 2 ^ f.fb) f.qmin false
      else .fin n' (b % 2 ^ f.magBits % 2 ^ f.fb + 2 ^ f.fb) (f.qmin + (b % 2 ^ f.magBits / 2 ^ f.fb - 1 : Nat)) false) =
        .fin n m e r) : m < 2 ^ (f.fb + 1) ∧ f.qmin ≤ e ∧ e ≤ f.qmin + 2 ^ f.eb := by
    generalize b % 2 ^ f.magBits / 2 ^ f.fb = ef at *
    split at h' <;> injection h' with _ hm he <;> subst hm he <;> refine ⟨by omega, by omega, ?_⟩
    · have : (0 : ℤ) ≤ 2 ^ f.eb := by positivity
      omega
    · omega
  unfold value at h
  dsimp only at h
  split at h
  · split at h
    · cases h
    · split at h
      · cases h
      · exact parts h
  · split at h
    · cases h
    · exact parts h

theorem log2_of_pow {m : Nat} {e n : ℤ} (h : (m : ℚ) * 2 ^ e = 2 ^ n) : m = 2 ^ m.log2 ∧ (m.log2 : ℤ) + e = n := by
  have hm : (m : ℚ) = 2 ^ (n - e) := by rw [zpow_sub₀ (by norm_num), ← h]; field_simp
  have hm0 : m ≠ 0 := by rintro rfl; rw [Nat.cast_zero, eq_comm] at hm; exact (zpow_ne_zero _ (by norm_num)) hm
  have hne : 0 ≤ n - e := by
    by_contra hneg
    have h1 : (2 : ℚ) ^ (n - e) < 1 := zpow_lt_one_of_neg₀ (by norm_num) (by omega)
    have h2 : (1 : ℚ) ≤ m := by exact_mod_cast Nat.pos_of_ne_zero hm0
    linarith
  obtain ⟨k, hk⟩ := Int.eq_ofNat_of_zero_le hne
  rw [hk, zpow_natCast] at hm
  have hmk : m = 2 ^ k := by exact_mod_cast hm
  rw [hmk, Nat.log2_two_pow]
  exact ⟨rfl, by omega⟩

theorem log2Val_res (m : RMode) (b : Nat) :
    Log2Res (value .fp32 b) (finishF .fp32 m (log2Val (value .fp32 b))).1 (finishF .fp32 m (log2Val (value .fp32 b))).2 := by
  have hp := plain_value .fp32 b
  generalize hv : value .fp32 b = x at hp
  apply Val.plain_cases hp
  · rintro s rfl; rw [log2Val, finishF_nan32]; exact ⟨rfl, rfl⟩
  · rintro n rfl; cases n <;> simp [Log2Res, log2Val, Val.isNan, Val.isZero, Val.neg, Val.isInf]
  · rintro n e rfl
    simpa [Log2Res, log2Val, Val.isNan, Val.isZero, Val.neg] using infCode_fp32 true
  · rintro n k e hk rfl
    cases n with
    | true => simp [Log2Res, log2Val, Val.isNan, Val.isZero, Val.neg, hk]
    | false =>
      simp only [Log2Res, Val.isNan, Val.isZero, Val.neg, Val.isInf, hk, if_false, Bool.false_eq_true, Bool.and_true,
        Bool.not_false, beq_iff_eq]
      intro n hn
      rw [Val.rat_fin, sgn_false, one_mul] at hn
      obtain ⟨hpow, he⟩ := log2_of_pow hn
      have hval : log2Val (.fin false k e false) = (.ofInt n, 0) := by
        simp only [log2Val, if_neg hk, if_pos hpow, he, Bool.false_eq_true, if_false]
      rw [hval]
      obtain ⟨hk24, he1, he2⟩ := value_bounds .fp32 hv
      have heb : (2 : ℤ) ^ Fmt.fp32.eb = 256 := by decide
      rw [Fmt.fp32_qmin] at he1 he2
      rw [heb] at he2
      by_cases h0 : n = 0
      · subst h0
        have hz : finishF .fp32 m (.ofInt 0, 0) = (0, 0) := finishF_zero32 m false 0 0
        rw [hz]
        exact ⟨⟨false, 0, -149, rfl⟩, by simp [show value .fp32 0 = .fin false 0 (-149) false from rfl, Val.rat_fin], rfl, fun _ => rfl⟩
      · have hl : k.log2 ≤ 23 := by have := (Nat.log2_lt hk).2 hk24; rw [Fmt.fp32_fb] at this; omega
        obtain ⟨c, hc, hmag, hfp⟩ := fpround_int_exact m h0 (by norm_num; omega)
        have hfin : finishF .fp32 m (.ofInt n, 0) = (withSign .fp32 (n < 0) c, 0) := by simp [finishF, hfp]
        rw [hfin, withSign_eq]
        refine ⟨⟨_, _, _, value_of_code .fp32 _ hc⟩, ?_, rfl, fun h => absurd h h0⟩
        rw [value_code_rat .fp32 _ hc, hmag, Nat.cast_natAbs]
        rcases lt_or_ge n 0 with h | h
        · simp [h, abs_of_neg h]
        · simp [not_lt.2 h, abs_of_nonneg h]

/-! ### Sine and cosine (R39) -/

theorem sinPi_whole (n : ℤ) (b : Bool) : sinPi (n * 2 ^ 150) b = .zero b := by
  have hr : (n * 2 ^ 150 % ((2 * 2 ^ 150 : ℕ) : ℤ)).toNat = (n % 2).toNat * 2 ^ 150 := by norm_num; omega
  unfold sinPi
  simp only [hr]
  rcases Int.emod_two_eq_zero_or_one n with h | h <;> rw [h] <;> norm_num

theorem sinPi_half (n : ℤ) (b : Bool) : sinPi (n * 2 ^ 150 + 2 ^ 149) b = .fin (n % 2 == 1) 1 0 false := by
  have hr : ((n * 2 ^ 150 + 2 ^ 149) % ((2 * 2 ^ 150 : ℕ) : ℤ)).toNat = (n % 2).toNat * 2 ^ 150 + 2 ^ 149 := by norm_num; omega
  unfold sinPi
  simp only [hr]
  rcases Int.emod_two_eq_zero_or_one n with h | h <;> rw [h] <;> norm_num

/-- A finite FP32 number in units of 2^-150. -/
theorem units_of_value {b : Nat} {s r : Bool} {k : Nat} {e : Int} (hv : value .fp32 b = .fin s k e r) :
    (((Val.fin s k e r).units (-150) : ℤ) : ℚ) = (Val.fin s k e r).rat * 2 ^ 150 := by
  have he : (-150 : ℤ) ≤ e := by
    have := (value_bounds .fp32 hv).2.1
    rw [Fmt.fp32_qmin] at this
    omega
  rw [← Val.units_rat s k r he, mul_assoc, ← zpow_natCast, ← zpow_add₀ (by norm_num)]
  norm_num

theorem units_whole {b : Nat} {s r : Bool} {k : Nat} {e : Int} (hv : value .fp32 b = .fin s k e r) {n : ℤ}
    (h : (Val.fin s k e r).rat = n) : (Val.fin s k e r).units (-150) = n * 2 ^ 150 := by
  have := units_of_value hv
  rw [h] at this
  exact_mod_cast this

theorem units_half {b : Nat} {s r : Bool} {k : Nat} {e : Int} (hv : value .fp32 b = .fin s k e r) {n : ℤ}
    (h : (Val.fin s k e r).rat = n + 1 / 2) : (Val.fin s k e r).units (-150) = n * 2 ^ 150 + 2 ^ 149 := by
  have := units_of_value hv
  rw [h, show ((n : ℚ) + 1 / 2) * 2 ^ 150 = ((n * 2 ^ 150 + 2 ^ 149 : ℤ) : ℚ) by push_cast; ring] at this
  exact_mod_cast this

theorem finishF_one32 (m : RMode) (n : Bool) : finishF .fp32 m (.fin n 1 0 false, 0) = (if n then 0xBF800000 else 0x3F800000, 0) := by
  cases m <;> cases n <;> decide

theorem sinVal_res (m : RMode) (b : Nat) :
    SinRes (value .fp32 b) (finishF .fp32 m (sinVal (value .fp32 b))).1 (finishF .fp32 m (sinVal (value .fp32 b))).2 := by
  cases hv : value .fp32 b with
  | nan s => rw [sinVal, finishF_nan32]; exact ⟨rfl, rfl⟩
  | inf n => rw [sinVal, finishF_nan32]; exact ⟨rfl, rfl⟩
  | fin s k e r =>
    simp only [SinRes, Val.isNan, Val.isInf, Bool.false_eq_true, if_false, sinVal, Val.neg]
    intro n
    constructor
    · intro h
      rw [units_whole hv h, sinPi_whole, Val.zero, finishF_zero32]
      exact ⟨rfl, rfl⟩
    · intro h
      rw [units_half hv h, sinPi_half, finishF_one32]
      rcases Int.emod_two_eq_zero_or_one n with e | e <;> simp [e]

theorem cosVal_res (m : RMode) (b : Nat) :
    CosRes (value .fp32 b) (finishF .fp32 m (cosVal (value .fp32 b))).1 (finishF .fp32 m (cosVal (value .fp32 b))).2 := by
  cases hv : value .fp32 b with
  | nan s => rw [cosVal, finishF_nan32]; exact ⟨rfl, rfl⟩
  | inf n => rw [cosVal, finishF_nan32]; exact ⟨rfl, rfl⟩
  | fin s k e r =>
    simp only [CosRes, Val.isNan, Val.isInf, Bool.false_eq_true, if_false, cosVal]
    intro n
    constructor
    · intro h
      rw [units_whole hv h, sinPi_half, finishF_one32]
      rcases Int.emod_two_eq_zero_or_one n with e | e <;> simp [e]
    · intro h
      rw [units_half hv h, show n * 2 ^ 150 + 2 ^ 149 + 2 ^ 149 = (n + 1) * 2 ^ 150 by ring, sinPi_whole, Val.zero, finishF_zero32]
      exact ⟨rfl, rfl⟩

/-! ### Lanes and mask bits of the registers (R146, R148) -/

theorem getLane_bit (r : VReg) (j : Nat) {b : Nat} (hb : b < 32) : (getLane r j).getLsbD b = r.getLsbD (32 * j + b) := by
  rw [getLane, BitVec.getLsbD_setWidth, BitVec.getLsbD_ushiftRight]
  simp [hb]

theorem setLane_bit (r : VReg) (l : Nat) (w : Word32) {i : Nat} (hi : i < 1024) :
    (setLane r l w).getLsbD i = if 32 * l ≤ i ∧ i < 32 * l + 32 then w.getLsbD (i - 32 * l) else r.getLsbD i := by
  have hm : (((BitVec.allOnes 32).setWidth 1024 : VReg) <<< (32 * l)).getLsbD i = decide (32 * l ≤ i ∧ i < 32 * l + 32) := by
    rw [BitVec.getLsbD_shiftLeft, BitVec.getLsbD_setWidth, BitVec.getLsbD_allOnes, Bool.eq_iff_iff]
    simp [hi]; omega
  have hw : ((w.setWidth 1024 : VReg) <<< (32 * l)).getLsbD i = (decide (32 * l ≤ i ∧ i < 32 * l + 32) && w.getLsbD (i - 32 * l)) := by
    rw [BitVec.getLsbD_shiftLeft, BitVec.getLsbD_setWidth]
    by_cases h : 32 * l ≤ i
    · by_cases h2 : i < 32 * l + 32
      · simp [hi, h, h2, show i - 32 * l < 1024 by omega]
      · simp [h, h2, BitVec.getLsbD_of_ge w (i - 32 * l) (by omega)]
    · simp [h]
  rw [setLane, BitVec.getLsbD_or, BitVec.getLsbD_and, BitVec.getLsbD_not, hm, hw]
  by_cases h : 32 * l ≤ i ∧ i < 32 * l + 32 <;> simp [h, hi]

theorem getLane_setLane (r : VReg) {l j : Nat} (hj : j < 32) (w : Word32) :
    getLane (setLane r l w) j = if j = l then w else getLane r j := by
  apply BitVec.eq_of_getLsbD_eq
  intro b hb
  rw [getLane_bit _ _ hb, setLane_bit _ _ _ (by omega)]
  by_cases h : j = l
  · subst h; rw [if_pos (by omega), if_pos rfl, Nat.add_sub_cancel_left]
  · rw [if_neg (by omega), if_neg h, getLane_bit _ _ hb]

/-- Reading a lane after a lane is written. -/
theorem Arch.lane_setLane (a : Arch) (r r' : VNum) {l l' : Nat} (hl' : l' < 64) (w : Word32) :
    (a.setLane r l w).lane r' l' = if r' = r ∧ l' = l then w else a.lane r' l' := by
  have upper (h : ¬l < 32) (h' : ¬l' < 32) : l' - 32 = l - 32 ↔ l' = l := by omega
  unfold Arch.setLane Arch.lane
  by_cases hr : r' = r
  · subst hr
    by_cases h : l < 32 <;> by_cases h' : l' < 32
    · simp [h, h', getLane_setLane _ h']
    · simp [h, h', show l' ≠ l by omega]
    · simp [h, h', show l' ≠ l by omega]
    · simp [h, h', getLane_setLane _ (show l' - 32 < 32 by omega), upper h h']
  · have hne : r.val ≠ r'.val := fun e => hr (Fin.ext e.symm)
    have hset (vs : Vector VReg 32) (v : VReg) : (vs.set r v)[r'] = vs[r'] := Vector.getElem_set_ne _ _ hne
    by_cases h : l < 32 <;> simp only [h, if_true, if_false, hset, hr, false_and]

/-- What writing a lane leaves alone. -/
theorem Arch.setLane_rest (a : Arch) (r : VNum) (l : Nat) (w : Word32) :
    (a.setLane r l w).x = a.x ∧ (a.setLane r l w).pw = a.pw ∧ (a.setLane r l w).k = a.k ∧ (a.setLane r l w).csr = a.csr ∧
      (a.setLane r l w).pc = a.pc := by
  unfold Arch.setLane; split <;> exact ⟨rfl, rfl, rfl, rfl, rfl⟩

/-- The lanes `act` of a register written with the words w. -/
def Arch.setLanes (a : Arch) (vd : VNum) (act : List Nat) (w : Nat → Word32) : Arch :=
  act.foldl (fun a l => a.setLane vd l (w l)) a

theorem Arch.setLanes_rest (a : Arch) (vd : VNum) (act : List Nat) (w : Nat → Word32) :
    (a.setLanes vd act w).x = a.x ∧ (a.setLanes vd act w).pw = a.pw ∧ (a.setLanes vd act w).k = a.k ∧
      (a.setLanes vd act w).csr = a.csr ∧ (a.setLanes vd act w).pc = a.pc := by
  induction act generalizing a with
  | nil => exact ⟨rfl, rfl, rfl, rfl, rfl⟩
  | cons l ls ih =>
    obtain ⟨h1, h2, h3, h4, h5⟩ := ih (a.setLane vd l (w l))
    obtain ⟨g1, g2, g3, g4, g5⟩ := a.setLane_rest vd l (w l)
    exact ⟨h1.trans g1, h2.trans g2, h3.trans g3, h4.trans g4, h5.trans g5⟩

theorem Arch.lane_setLanes (a : Arch) (vd r : VNum) {act : List Nat} (w : Nat → Word32) (hact : ∀ l ∈ act, l < 64) {l : Nat}
    (hl : l < 64) : (a.setLanes vd act w).lane r l = if r = vd ∧ l ∈ act then w l else a.lane r l := by
  induction act generalizing a with
  | nil => simp [Arch.setLanes]
  | cons j ls ih =>
    have h := ih (a.setLane vd j (w j)) (fun i hi => hact i (by simp [hi]))
    rw [Arch.setLanes, List.foldl_cons, ← Arch.setLanes, h, Arch.lane_setLane _ _ _ hl]
    by_cases hr : r = vd <;> by_cases hj : l = j <;> by_cases hm : l ∈ ls <;> simp [hr, hj, hm]

/-- A mask with the bits l of `act` set to b l. -/
def setBits (k : Word) (act : List Nat) (b : Nat → Bool) : Word :=
  act.foldl (fun w l => if b l then w ||| BitVec.ofNat 64 (2 ^ l) else w &&& ~~~BitVec.ofNat 64 (2 ^ l)) k

theorem getLsbD_setBits (k : Word) {act : List Nat} (b : Nat → Bool) {j : Nat} (hj : j < 64) :
    (setBits k act b).getLsbD j = if j ∈ act then b j else k.getLsbD j := by
  induction act generalizing k with
  | nil => simp [setBits]
  | cons i ls ih =>
    have hbit : (BitVec.ofNat 64 (2 ^ i)).getLsbD j = decide (i = j) := by
      rw [BitVec.getLsbD_ofNat, Nat.testBit_two_pow]; simp [hj]
    have hone : (if b i then k ||| BitVec.ofNat 64 (2 ^ i) else k &&& ~~~BitVec.ofNat 64 (2 ^ i)).getLsbD j =
        if i = j then b i else k.getLsbD j := by
      by_cases he : i = j
      · cases hb : b i <;> simp only [if_true, if_false, Bool.false_eq_true, BitVec.getLsbD_or, BitVec.getLsbD_and,
          BitVec.getLsbD_not, hbit] <;> simp [he, hj]
      · cases hb : b i <;> simp only [if_true, if_false, Bool.false_eq_true, BitVec.getLsbD_or, BitVec.getLsbD_and,
          BitVec.getLsbD_not, hbit] <;> simp [he, hj]
    rw [setBits, List.foldl_cons, ← setBits, ih, hone]
    by_cases hm : j ∈ ls
    · simp [hm]
    · by_cases he : i = j
      · simp [hm, he]
      · simp [hm, he, Ne.symm he]

/-! ### Active lanes (R147) -/

theorem activeLanes_lt {a : Arch} {v : Word} {ty : VType} {lo hi l : Nat} (h : l ∈ activeLanes a v ty lo hi) : l < hi := by
  have := List.mem_of_mem_drop (List.mem_filter.1 h).1
  simpa using this

/-! ### A strip on registers executes (R60, R150, R153) -/

/-- The next strip p of the thread t in slot k of the subject's core works on registers. -/
structure State.StripAt (s : State) (k : SlotN) (t : Thread) (p : Strip) : Prop where
  slot : s.subject.slot = k
  thr : s.slot s.subject.core k = .thread t
  next : s.nextStrip s.subject.core k = some p
  els : p.els = []

/-- What the strip p of the thread t works on. -/
def State.stripCtx (s : State) (c : Nat) (t : Thread) (p : Strip) : VCtx :=
  ⟨t.a, p.vctl, p.odd, p.last, p.scalar, p.scalar2, t.paired, (s.partOf c).any fun q => q.mode.e4nan⟩

/-- The thread once its strip has written the result r. -/
def Thread.stripped (t : Thread) (p : Strip) (r : VRes) (now : Nat) : Thread :=
  { t.modArchFrom p.no fun a => a.applyRes r with
    vq := markDone (fun p => { p with done := some now, flags := r.flags, lanes := r.lanes }) t.vq
    vimg := t.vimg || r.vs != []
    dirty := t.dirty || r.vs != [] }

theorem exec_stripExecute_eq (s : State) : exec .stripExecute s = execStripExecute s := rfl

@[simp] theorem Thread.stripped_a (t : Thread) (p : Strip) (r : VRes) (now : Nat) : (t.stripped p r now).a = t.a.applyRes r := rfl
@[simp] theorem Thread.stripped_vq (t : Thread) (p : Strip) (r : VRes) (now : Nat) :
    (t.stripped p r now).vq = markDone (fun p => { p with done := some now, flags := r.flags, lanes := r.lanes }) t.vq := rfl

/-- A strip on registers writes what `stripRes` computes to its thread, and nothing else changes. -/
theorem exec_stripExecute {s : State} {k : SlotN} {t : Thread} {p : Strip} (h : s.StripAt k t p) (hst : isVstore p.instr = false) :
    exec .stripExecute s = .next (s.setThr s.subject.core k
      (t.stripped p (stripRes p.instr (s.stripCtx s.subject.core t p)) (s.core s.subject.core).cycle)) := by
  obtain ⟨hk, ht, hn, he⟩ := h
  have hhome : s.home s.subject.core s.subject.slot = k := by rw [hk]; simp [State.home, ht]
  have hthr := State.thr_of_slot ht
  have hrun : s.runStrip s.subject.core k = s.setThr s.subject.core k
      (t.stripped p (stripRes p.instr (s.stripCtx s.subject.core t p)) (s.core s.subject.core).cycle) := by
    simp only [State.runStrip, hn, Strip.isStore, hst, he, hthr, State.modThr, Thread.stripped, State.stripCtx, if_false,
      Bool.false_eq_true, ne_eq, not_true_eq_false]
    cases s.partOf s.subject.core <;> rfl
  rw [exec_stripExecute_eq, execStripExecute]
  simp only [onThread, hhome, ht, Slot.thread?, hrun]

/-- A strip that gives each lane l of `act` the word w l and raises the flags fl l (R31, R147, R153). -/
theorem stripRuns_of_res {s : State} {k : SlotN} {t : Thread} {p : Strip} (h : s.StripAt k t p) (hst : isVstore p.instr = false)
    {vd : VNum} {act : List Nat} {R : Nat → Word32 → FFlags → Prop} {at_ : Nat → Nat} (w : Nat → Word32) (fl : Nat → FFlags)
    (hvd : (stripRes p.instr (s.stripCtx s.subject.core t p)).vd = vd)
    (hvs : (stripRes p.instr (s.stripCtx s.subject.core t p)).vs = act.map fun l => (l, w l))
    (hks : (stripRes p.instr (s.stripCtx s.subject.core t p)).ks = [])
    (hfs : (stripRes p.instr (s.stripCtx s.subject.core t p)).flags = act.foldl (fun f l => f ||| fl l) 0)
    (hls : (stripRes p.instr (s.stripCtx s.subject.core t p)).lanes =
      (List.range 5).map fun b => (act.find? fun l => (fl l).getLsbD b).map at_)
    (hlt : ∀ l ∈ act, l < 64) (hR : ∀ l ∈ act, R l (w l) (fl l)) :
    s.StripRuns s.subject.core k t vd act R at_ := by
  generalize hr : stripRes p.instr (s.stripCtx s.subject.core t p) = r at *
  have ha : t.a.applyRes r = t.a.setLanes vd act w := by
    simp only [Arch.applyRes, hks, hvs, hvd, List.foldl_nil, List.foldl_map]; rfl
  refine ⟨_, _, fl, exec_stripExecute h hst, State.slot_setThr _ _ _ _, rfl, ?_⟩
  rw [hr]
  rw [Thread.stripped_a, Thread.stripped_vq, ha, hfs, hls]
  obtain ⟨hx, hpw, hk, hcsr, hpc⟩ := t.a.setLanes_rest vd act w
  refine ⟨fun l hl => ?_, fun r' l hl hne => ?_, hx, hpw, hk, hcsr, hpc, rfl⟩
  · rw [Arch.lane_setLanes _ _ _ _ hlt (hlt l hl), if_pos ⟨rfl, hl⟩]; exact hR l hl
  · rw [Arch.lane_setLanes _ _ _ _ hlt hl, if_neg (by rintro ⟨e, hm⟩; exact hne.elim (· e) (· hm))]

theorem State.StripRuns.mono {s : State} {c : Nat} {k : SlotN} {t : Thread} {vd : VNum} {act : List Nat} {at_ : Nat → Nat}
    {R R' : Nat → Word32 → FFlags → Prop} (h : s.StripRuns c k t vd act R at_)
    (hR : ∀ l ∈ act, ∀ w fl, R l w fl → R' l w fl) : s.StripRuns c k t vd act R' at_ := by
  obtain ⟨s', u, fl, h1, h2, h3, h4, h5⟩ := h
  exact ⟨s', u, fl, h1, h2, h3, fun l hl => hR l hl _ _ (h4 l hl), h5⟩

/-- The flags and first lanes of a result that names its lanes one by one. -/
theorem VRes.flags_of_map {r : VRes} {act : List Nat} {at_ : Nat → Nat} {fl : Nat → FFlags}
    (h : r.fs = act.map fun l => (at_ l, fl l)) : r.flags = act.foldl (fun f l => f ||| fl l) 0 := by
  rw [VRes.flags, h, List.foldl_map]

theorem VRes.lanes_of_map {r : VRes} {act : List Nat} {at_ : Nat → Nat} {fl : Nat → FFlags}
    (h : r.fs = act.map fun l => (at_ l, fl l)) :
    r.lanes = (List.range 5).map fun b => (act.find? fun l => (fl l).getLsbD b).map at_ := by
  unfold VRes.lanes
  rw [h]
  congr 1
  funext b
  rw [List.find?_map, Option.map_map]
  rfl

/-- A strip whose result lists words and flags lane by lane. -/
theorem stripRuns_of_lanes {s : State} {k : SlotN} {t : Thread} {p : Strip} (h : s.StripAt k t p) (hst : isVstore p.instr = false)
    {vd : VNum} {act : List Nat} {R : Nat → Word32 → FFlags → Prop} {at_ : Nat → Nat} (w : Nat → Word32) (fl : Nat → FFlags)
    (hres : stripRes p.instr (s.stripCtx s.subject.core t p) =
      { vd := vd, vs := act.map fun l => (l, w l), fs := act.map fun l => (at_ l, fl l) })
    (hlt : ∀ l ∈ act, l < 64) (hR : ∀ l ∈ act, R l (w l) (fl l)) :
    s.StripRuns s.subject.core k t vd act R at_ :=
  stripRuns_of_res h hst w fl (by rw [hres]) (by rw [hres]) (by rw [hres]) (VRes.flags_of_map (by rw [hres]))
    (VRes.lanes_of_map (by rw [hres])) hlt hR

/-- A strip of a compare gives each lane l of `act` the mask bit b l and raises the flags fl l (R155). -/
theorem stripCompares_of_bits {s : State} {k : SlotN} {t : Thread} {p : Strip} (h : s.StripAt k t p)
    (hst : isVstore p.instr = false) {kd : KReg} {act : List Nat} {R : Nat → Bool → FFlags → Prop} (b : Nat → Bool)
    (fl : Nat → FFlags)
    (hres : stripRes p.instr (s.stripCtx s.subject.core t p) =
      { ks := [(kd, setBits t.a.k[kd] act b)], fs := act.map fun l => (l, fl l) })
    (hlt : ∀ l ∈ act, l < 64) (hR : ∀ l ∈ act, R l (b l) (fl l)) : s.StripCompares s.subject.core k t kd act R := by
  refine ⟨_, _, fl, exec_stripExecute h hst, State.slot_setThr _ _ _ _, rfl, ?_⟩
  rw [Thread.stripped_a, Thread.stripped_vq, VRes.flags_of_map (congrArg VRes.fs hres),
    VRes.lanes_of_map (at_ := id) (congrArg VRes.fs hres), hres]
  have happ : t.a.applyRes { ks := [(kd, setBits t.a.k[kd] act b)], fs := act.map fun l => (l, fl l) } =
    t.a.setK kd (setBits t.a.k[kd] act b) := rfl
  have hbit (r : KReg) (l : Nat) (hl : l < 64) :
      (t.a.setK kd (setBits t.a.k[kd] act b)).kbit r l = if r = kd ∧ l ∈ act then b l else t.a.kbit r l := by
    unfold Arch.kbit Arch.setK
    by_cases hr : r = kd
    · subst hr
      have : (t.a.k.set r (setBits t.a.k[r] act b))[r] = setBits t.a.k[r] act b := Vector.getElem_set_self _
      simp only [this, getLsbD_setBits _ _ hl, true_and]
    · have hne : kd.val ≠ r.val := fun e => hr (Fin.ext e.symm)
      have : (t.a.k.set kd (setBits t.a.k[kd] act b))[r] = t.a.k[r] := Vector.getElem_set_ne _ _ hne
      simp only [this, hr, false_and, if_false]
  rw [happ]
  refine ⟨fun l hl => ?_, fun r l hl hne => ?_, rfl, rfl, rfl, rfl, rfl, rfl, ?_⟩
  · rw [hbit kd l (hlt l hl), if_pos ⟨rfl, hl⟩]; exact hR l hl
  · rw [hbit r l hl, if_neg (by rintro ⟨e, hm⟩; exact hne.elim (· e) (· hm))]
  · simp only [Option.map_id_fun, id]

/-! ### Floating types (R29, R146) -/

/-- The type ty holds a number of the format f in each of its lanes. -/
structure FloatType (ty : VType) (f : Fmt) : Prop where
  ok : f.Ok
  fmt : fmtOf ty = some f
  infinity : ∃ i, f.inf = some i
  bits : 8 * laneBytes ty = f.magBits + 1
  quiet : (value f f.nan).isSnan = false
  place : ∀ v < 2 ^ (8 * laneBytes ty), (placeLane ty v).toNat = v

theorem placeLane_f32 {v : Nat} (h : v < 2 ^ 32) : (placeLane .f32 v).toNat = v := by
  show (BitVec.ofNat 32 v).toNat = v
  rw [BitVec.toNat_ofNat, Nat.mod_eq_of_lt h]

theorem placeLane_half {v : Nat} (h : v < 2 ^ 16) :
    (placeLane .bf16 v).toNat = v ∧ (placeLane .f16 v).toNat = v := by
  simp [placeLane]; omega

theorem floatType_of {ty : VType} {f : Fmt} (h : ty ∈ [VType.f32, .bf16, .f16]) (hf : fmtOf ty = some f) : FloatType ty f := by
  have hf' := hf
  simp only [List.mem_cons, List.not_mem_nil, or_false] at h
  rcases h with rfl | rfl | rfl <;> (injection hf with hf; subst hf)
  · exact ⟨.fp32, hf', ⟨_, rfl⟩, rfl, rfl, fun v h => placeLane_f32 h⟩
  · exact ⟨.bf16, hf', ⟨_, rfl⟩, rfl, rfl, fun v h => (placeLane_half h).1⟩
  · exact ⟨.fp16, hf', ⟨_, rfl⟩, rfl, rfl, fun v h => (placeLane_half h).2⟩

theorem overCode_lt {f : Fmt} (ok : f.Ok) (mode : RMode) (n e4nan : Bool) : overCode f mode n e4nan < 2 ^ f.magBits := by
  have hmax := ok.max
  have hnan := ok.nanLt
  unfold overCode
  cases hi : f.inf with
  | none => dsimp only; split <;> assumption
  | some i =>
    have := (ok.inf i hi).2
    cases mode <;> cases n <;> simpa

theorem withSign_lt {f : Fmt} {code : Nat} (h : code < 2 ^ f.magBits) (n : Bool) : withSign f n code < 2 ^ (f.magBits + 1) := by
  rw [withSign_eq, pow_succ]; split <;> omega

/-- A rounded code is an encoding of the format. -/
theorem fpround_lt {f : Fmt} (ok : f.Ok) (mode : RMode) (v : Val) (e4nan : Bool := false) :
    (fpround f mode v e4nan).1 < 2 ^ (f.magBits + 1) := by
  have h0 := Nat.two_pow_pos f.magBits
  cases v with
  | nan s => simpa [fpround, pow_succ] using lt_of_lt_of_le ok.nanLt (by omega)
  | inf n =>
    unfold fpround
    cases hi : f.inf with
    | none => exact withSign_lt (overCode_lt ok _ _ _) n
    | some i => exact withSign_lt (ok.inf i hi).2 n
  | fin n m e r =>
    unfold fpround
    dsimp only
    split
    · exact withSign_lt h0 n
    · split
      · exact withSign_lt (overCode_lt ok _ _ _) n
      · exact withSign_lt (lt_of_le_of_lt (by omega) ok.max) n

theorem finishF_lt {f : Fmt} (ok : f.Ok) (mode : RMode) (r : Val × FFlags) : (finishF f mode r).1 < 2 ^ (f.magBits + 1) :=
  fpround_lt ok mode r.1

/-! ### Elementwise results (R155) -/

theorem elementwise_float {ty : VType} {f : Fmt} (hf : fmtOf ty = some f) (x : VCtx) (vd a b : VNum)
    (ff : Fmt → RMode → Nat → Nat → Nat → Nat × FFlags) (fi : Int → Int → Int → Int) :
    let o (l : Nat) := ff f x.rm (elemBits ty (x.a.lane a l)) (elemBits ty (x.a.lane b l)) (elemBits ty (x.a.lane vd l))
    elementwise x ty vd a b ff fi =
      { vd := vd, vs := (x.act ty).map fun l => (l, placeLane ty (o l).1), fs := (x.act ty).map fun l => (l, (o l).2) } := by
  simp only [elementwise, hf, List.map_map]
  rfl

/-- A strip of an elementwise floating instruction: the result of each active lane is that of its operands. -/
theorem stripRuns_elementwise {s : State} {k : SlotN} {t : Thread} {p : Strip} (h : s.StripAt k t p)
    (hst : isVstore p.instr = false) {ty : VType} {f : Fmt} (hf : FloatType ty f) {vd a b : VNum}
    {ff : Fmt → RMode → Nat → Nat → Nat → Nat × FFlags} {fi : Int → Int → Int → Int} {R : Nat → Nat → FFlags → Prop}
    (hres : stripRes p.instr (s.stripCtx s.subject.core t p) = elementwise (s.stripCtx s.subject.core t p) ty vd a b ff fi)
    (hR : ∀ l, let o := ff f (rmOf p.vctl) (elemBits ty (t.a.lane a l)) (elemBits ty (t.a.lane b l)) (elemBits ty (t.a.lane vd l))
      o.1 < 2 ^ (f.magBits + 1) ∧ R l o.1 o.2) :
    s.StripRuns s.subject.core k t vd ((s.stripCtx s.subject.core t p).act ty)
      fun l w fl => w.toNat < 2 ^ (8 * laneBytes ty) ∧ R l w.toNat fl := by
  refine stripRuns_of_lanes h hst _ _ (hres.trans (elementwise_float hf.fmt _ vd a b ff fi)) (fun l hl => ?_) fun l _ => ?_
  · have := activeLanes_lt hl
    simp only [VCtx.lo] at this
    split at this <;> omega
  · obtain ⟨hlt, hr⟩ := hR l
    rw [← hf.bits] at hlt
    have hplace := hf.place _ hlt
    exact ⟨hplace.symm ▸ hlt, hplace.symm ▸ hr⟩

/-- A strip of an arithmetic instruction: exact sums of products and terms of its lanes, rounded once (R155). -/
theorem stripRuns_arith {s : State} {k : SlotN} {t : Thread} {p : Strip} (h : s.StripAt k t p)
    (hst : isVstore p.instr = false) {ty : VType} {f : Fmt} (hf : FloatType ty f) {vd a b : VNum}
    {e : Val → Val → Val → List (Val × Val) × List Val} {fi : Int → Int → Int → Int}
    (hres : stripRes p.instr (s.stripCtx s.subject.core t p) = arith (s.stripCtx s.subject.core t p) ty vd a b e fi)
    (he : ∀ x y z, x.plain = true → y.plain = true → z.plain = true →
      (∀ w ∈ (e x y z).2, w.plain = true) ∧ ((e x y z).1 ≠ [] ∨ (e x y z).2 ≠ [])) :
    s.StripRuns s.subject.core k t vd ((s.stripCtx s.subject.core t p).act ty) fun l w fl =>
      w.toNat < 2 ^ (8 * laneBytes ty) ∧
        let v (r : VNum) : Val := value f (elemBits ty (t.a.lane r l))
        FloatRes f (rmOf p.vctl) (e (v a) (v b) (v vd)).1 (e (v a) (v b) (v vd)).2 w.toNat fl := by
  obtain ⟨i, hi⟩ := hf.infinity
  refine stripRuns_elementwise h hst hf hres (R := fun l code fl => FloatRes f (rmOf p.vctl) _ _ code fl)
    fun l => ⟨finishF_lt hf.ok _ _, ?_⟩
  obtain ⟨h1, h2⟩ := he _ _ _ (plain_value f (elemBits ty (t.a.lane a l))) (plain_value f (elemBits ty (t.a.lane b l)))
    (plain_value f (elemBits ty (t.a.lane vd l)))
  exact fdot_floatRes hf.ok hi _ h1 h2

theorem elemBits_lt (ty : VType) (w : Word32) : elemBits ty w < 2 ^ (8 * laneBytes ty) := Nat.mod_lt _ (Nat.two_pow_pos _)

theorem fminmaxBits_lt {f : Fmt} (ok : f.Ok) (mx : Bool) {a b : Nat} (ha : a < 2 ^ (f.magBits + 1)) (hb : b < 2 ^ (f.magBits + 1)) :
    fminmaxBits f mx a b < 2 ^ (f.magBits + 1) := by
  have := ok.nanLt
  unfold fminmaxBits
  rw [pow_succ] at *
  dsimp only
  repeat' split
  all_goals omega

theorem stripRuns_minmax {s : State} {k : SlotN} {t : Thread} {p : Strip} (h : s.StripAt k t p)
    (hst : isVstore p.instr = false) {ty : VType} {f : Fmt} (hf : FloatType ty f) {vd a b : VNum} {mx : Bool}
    (hres : stripRes p.instr (s.stripCtx s.subject.core t p) = minmax (s.stripCtx s.subject.core t p) ty mx vd a b) :
    s.StripRuns s.subject.core k t vd ((s.stripCtx s.subject.core t p).act ty) fun l w fl =>
      w.toNat < 2 ^ (8 * laneBytes ty) ∧
        MinMaxRes f mx (elemBits ty (t.a.lane a l)) (elemBits ty (t.a.lane b l)) w.toNat fl := by
  refine stripRuns_elementwise h hst hf hres (R := fun l code fl => MinMaxRes f mx _ _ code fl)
    fun l => ⟨fminmaxBits_lt hf.ok mx ?_ ?_, fminmaxBits_res f mx _ _⟩
  all_goals rw [← hf.bits]; exact elemBits_lt _ _

/-- The sign bit flipped, or cleared (R155). -/
def signedCode (f : Fmt) (neg : Bool) (x : Nat) : Nat :=
  if neg then (if x < 2 ^ f.magBits then x + 2 ^ f.magBits else x - 2 ^ f.magBits) else x % 2 ^ f.magBits

theorem stripRuns_sign {s : State} {k : SlotN} {t : Thread} {p : Strip} (h : s.StripAt k t p)
    (hst : isVstore p.instr = false) {ty : VType} {f : Fmt} (hf : FloatType ty f) {vd a : VNum} {neg : Bool}
    (hres : stripRes p.instr (s.stripCtx s.subject.core t p) = signOp (s.stripCtx s.subject.core t p) ty neg vd a) :
    s.StripRuns s.subject.core k t vd ((s.stripCtx s.subject.core t p).act ty) fun l w fl =>
      w.toNat < 2 ^ (8 * laneBytes ty) ∧
        let x := elemBits ty (t.a.lane a l)
        if (value f x).isNan then w.toNat = f.nan ∧ fl = snanFlag [value f x] else w.toNat = signedCode f neg x ∧ fl = 0 := by
  refine stripRuns_elementwise h hst hf hres (R := fun l code fl => if (value f (elemBits ty (t.a.lane a l))).isNan
    then code = f.nan ∧ fl = snanFlag [value f (elemBits ty (t.a.lane a l))]
    else code = signedCode f neg (elemBits ty (t.a.lane a l)) ∧ fl = 0) fun l => ?_
  have hx := elemBits_lt ty (t.a.lane a l)
  rw [hf.bits, pow_succ] at hx
  generalize elemBits ty (t.a.lane a l) = x at *
  dsimp only
  split
  · exact ⟨lt_of_lt_of_le hf.ok.nanLt (by rw [pow_succ]; omega), rfl, rfl⟩
  · have hmod : x % 2 ^ f.magBits = if x < 2 ^ f.magBits then x else x - 2 ^ f.magBits := by
      split
      · exact Nat.mod_eq_of_lt ‹_›
      · rw [Nat.mod_eq_sub_mod (by omega), Nat.mod_eq_of_lt (by omega)]
    refine ⟨withSign_lt (Nat.mod_lt _ (Nat.two_pow_pos _)) _, ?_, rfl⟩
    rw [withSign_eq, signedCode, hmod]
    cases neg <;> by_cases hlt : x < 2 ^ f.magBits <;> simp [hlt]
    omega

theorem elemBits_f32 (w : Word32) : elemBits .f32 w = w.toNat := Nat.mod_eq_of_lt w.isLt

/-- A strip of an FP32 function (R156). -/
theorem stripRuns_function {s : State} {k : SlotN} {t : Thread} {p : Strip} (h : s.StripAt k t p)
    (hst : isVstore p.instr = false) {vd a b : VNum} {g : Val → Val → Val × FFlags} {R : Val → Val → Nat → FFlags → Prop}
    (hres : stripRes p.instr (s.stripCtx s.subject.core t p) = function (s.stripCtx s.subject.core t p) vd a b g)
    (hR : ∀ x y, R (value .fp32 x) (value .fp32 y) (finishF .fp32 (rmOf p.vctl) (g (value .fp32 x) (value .fp32 y))).1
      (finishF .fp32 (rmOf p.vctl) (g (value .fp32 x) (value .fp32 y))).2) :
    s.StripRuns s.subject.core k t vd ((s.stripCtx s.subject.core t p).act .f32) fun l w fl =>
      R (value .fp32 (t.a.lane a l).toNat) (value .fp32 (t.a.lane b l).toNat) w.toNat fl := by
  have hf : FloatType .f32 .fp32 := floatType_of (by simp) rfl
  have := stripRuns_elementwise h hst hf hres
    (R := fun l => R (value .fp32 (t.a.lane a l).toNat) (value .fp32 (t.a.lane b l).toNat))
    fun l => ⟨finishF_lt .fp32 _ _, by rw [elemBits_f32, elemBits_f32]; exact hR _ _⟩
  exact this.mono fun _ _ _ _ h => h.2

/-- A strip of an FP32 function of one operand. -/
theorem stripRuns_unary {s : State} {k : SlotN} {t : Thread} {p : Strip} (h : s.StripAt k t p)
    (hst : isVstore p.instr = false) {vd a : VNum} (g : Val → Val × FFlags) {R : Val → Nat → FFlags → Prop}
    (hres : stripRes p.instr (s.stripCtx s.subject.core t p) = function (s.stripCtx s.subject.core t p) vd a a fun v _ => g v)
    (hR : ∀ x, R (value .fp32 x) (finishF .fp32 (rmOf p.vctl) (g (value .fp32 x))).1
      (finishF .fp32 (rmOf p.vctl) (g (value .fp32 x))).2) :
    s.StripRuns s.subject.core k t vd ((s.stripCtx s.subject.core t p).act .f32) fun l w fl =>
      R (value .fp32 (t.a.lane a l).toNat) w.toNat fl :=
  stripRuns_function (R := fun x _ => R x) h hst hres fun x _ => hR x

theorem compare_float {ty : VType} {f : Fmt} (hf : fmtOf ty = some f) (x : VCtx) (kd : KReg) (a b : VNum) (any : Bool)
    (ff : Val → Val → Bool) (fi : Int → Int → Bool) :
    let u (r : VNum) (l : Nat) : Val := value f (elemBits ty (x.a.lane r l))
    compare x ty kd a b any ff fi =
      { ks := [(kd, setBits x.a.k[kd] (x.act ty) fun l => ff (u a l) (u b l))],
        fs := (x.act ty).map fun l => (l, if any && ((u a l).isNan || (u b l).isNan) then 16 else snanFlag [u a l, u b l]) } := by
  simp only [compare, hf, List.map_map, List.foldl_map, setBits]
  rfl

theorem VCtx.act_lt {x : VCtx} {ty : VType} {l : Nat} (h : l ∈ x.act ty) : l < 64 := by
  have := activeLanes_lt h
  simp only [VCtx.lo] at this
  split at this <;> omega

/-- A strip of a compare (R155). -/
theorem stripCompares_compare {s : State} {k : SlotN} {t : Thread} {p : Strip} (h : s.StripAt k t p)
    (hst : isVstore p.instr = false) {ty : VType} {f : Fmt} (hf : fmtOf ty = some f) {kd : KReg} {a b : VNum} {any : Bool}
    {ff g : Val → Val → Bool} {fi : Int → Int → Bool} (hg : ∀ x y, ff x y = g x y)
    (hres : stripRes p.instr (s.stripCtx s.subject.core t p) = compare (s.stripCtx s.subject.core t p) ty kd a b any ff fi) :
    let u (r : VNum) (l : Nat) : Val := value f (elemBits ty (t.a.lane r l))
    s.StripCompares s.subject.core k t kd ((s.stripCtx s.subject.core t p).act ty) fun l c fl =>
      c = g (u a l) (u b l) ∧ fl = if any && ((u a l).isNan || (u b l).isNan) then 16 else snanFlag [u a l, u b l] := by
  intro u
  exact stripCompares_of_bits h hst _ _ (hres.trans (compare_float hf _ kd a b any ff fi)) (fun l hl => VCtx.act_lt hl)
    fun l _ => ⟨hg _ _, rfl⟩

/-! ### Conversions (R34, R163) -/

/-- A value rounded into a format, its flags those of the conversion. -/
theorem finishF_floatRes {f : Fmt} (ok : f.Ok) {i : Nat} (hi : f.inf = some i) (m : RMode) {v : Val} (hp : v.plain = true) :
    FloatRes f m [] [v] (finishF f m (v, snanFlag [v])).1 (finishF f m (v, snanFlag [v])).2 := by
  have h := fdot_floatRes ok hi m (ps := []) (cs := [v]) (by simpa using hp) (by simp)
  have he : finishF f m (fdot m [] [v]) = finishF f m (v, snanFlag [v]) := by
    cases v with
    | nan s => cases s <;> simp [fdot, finishF_nan, Val.isNan]
    | inf n => cases n <;> simp [fdot, Val.isNan]
    | fin n m e r => simp [fdot, Val.isNan]
  rwa [he] at h

theorem elemInt_eq_laneInt (ty : VType) (w : Word32) : elemInt ty w = laneInt ty w := by
  cases ty <;> simp [elemInt, laneInt]

theorem placeInt_eq_wrapInt (ty : VType) (h : ty ∈ [VType.i32, .i8, .u8]) (i : Int) : placeInt ty i = wrapInt ty i := by
  simp only [List.mem_cons, List.not_mem_nil, or_false] at h
  rcases h with rfl | rfl | rfl
  · show BitVec.ofNat 32 (BitVec.ofInt 32 i).toNat = BitVec.ofInt 32 i
    simp only [BitVec.ofNat_toNat, BitVec.setWidth_eq]
  · have : BitVec.ofNat 8 (BitVec.ofInt 32 i).toNat = BitVec.ofInt 8 i := by
      apply BitVec.eq_of_toNat_eq
      simp only [BitVec.toNat_ofNat, BitVec.toNat_ofInt]
      omega
    simp only [placeInt, placeLane, wrapInt, this]
  · apply BitVec.eq_of_toNat_eq
    simp only [placeInt, placeLane, wrapInt, BitVec.toNat_ofNat, BitVec.toNat_ofInt, BitVec.toNat_setWidth]
    omega

/-- The exact value that a lane of a type holds (R29, R34). -/
def laneVal (ty : VType) (w : Word32) : Val :=
  match fmtOf ty with
  | some g => value g (elemBits ty w)
  | none => .ofInt (laneInt ty w)

theorem plain_laneVal (ty : VType) (w : Word32) : (laneVal ty w).plain = true := by
  unfold laneVal; split
  · exact plain_value _ _
  · rfl

/-- A lane converted to a floating type is its value rounded once. -/
theorem cvtLane_float {ty : VType} {f : Fmt} (hf : FloatType ty f) (m : RMode) (src : VType) (w : Word32) :
    cvtLane m src ty w = (placeLane ty (finishF f m (laneVal src w, snanFlag [laneVal src w])).1,
      (finishF f m (laneVal src w, snanFlag [laneVal src w])).2) := by
  obtain ⟨i, hi⟩ := hf.infinity
  cases hs : fmtOf src with
  | some g =>
    simp only [cvtLane, hs, hf.fmt, laneVal]
    split
    · rename_i hc
      obtain ⟨rfl, hn⟩ := hc
      obtain rfl : g = f := by rw [hf.fmt] at hs; injection hs with e; exact e.symm
      have hn : (value g (elemBits src w)).isNan = false := by simpa using hn
      have hsn : snanFlag [value g (elemBits src w)] = 0 := by
        have := any_isSnan_false (xs := [value g (elemBits src w)]) (by simpa using hn)
        simp [snanFlag, this]
      rw [hsn, finishF_value hf.ok hi m (by rw [← hf.bits]; exact elemBits_lt _ _) hn]
    · rfl
  | none =>
    simp [cvtLane, hs, hf.fmt, laneVal, finishF, snanFlag, Val.isSnan, Val.ofInt, elemInt_eq_laneInt]

theorem stripRuns_cvt_float {s : State} {k : SlotN} {t : Thread} {p : Strip} (h : s.StripAt k t p) {ty : VType} {f : Fmt}
    (hf : FloatType ty f) {vd a : VNum} (hi : p.instr = .vcvt ty vd a) :
    s.StripRuns s.subject.core k t vd ((s.stripCtx s.subject.core t p).act ty) fun l w fl =>
      w.toNat < 2 ^ (8 * laneBytes ty) ∧ FloatRes f (rmOf p.vctl) [] [laneVal (dtypeOf p.vctl) (t.a.lane a l)] w.toNat fl := by
  obtain ⟨i, hinf⟩ := hf.infinity
  refine stripRuns_of_lanes h (by rw [hi]; rfl)
    (fun l => (cvtLane (rmOf p.vctl) (dtypeOf p.vctl) ty (t.a.lane a l)).1)
    (fun l => (cvtLane (rmOf p.vctl) (dtypeOf p.vctl) ty (t.a.lane a l)).2)
    (by rw [hi]; simp only [stripRes, cvtRes, List.map_map]; rfl) (fun l hl => VCtx.act_lt hl) fun l _ => ?_
  rw [cvtLane_float hf]
  dsimp only
  have hlt := finishF_lt hf.ok (rmOf p.vctl)
    (laneVal (dtypeOf p.vctl) (t.a.lane a l), snanFlag [laneVal (dtypeOf p.vctl) (t.a.lane a l)])
  rw [← hf.bits] at hlt
  rw [hf.place _ hlt]
  exact ⟨hlt, finishF_floatRes hf.ok hinf _ (plain_laneVal _ _)⟩

/-- A lane converted to an integer type. -/
theorem cvtLane_int {ty : VType} (hty : ty ∈ [VType.i32, .i8, .u8]) (m : RMode) (src : VType) (w : Word32) :
    ∃ i, (cvtLane m src ty w).1 = wrapInt ty i ∧ match fmtOf src with
      | some g => IntRes (intRange ty).1 (intRange ty).2 m (value g (elemBits src w)) i (cvtLane m src ty w).2
      | none => i = max (intRange ty).1 (min (intRange ty).2 (laneInt src w)) ∧ (cvtLane m src ty w).2 = 0 := by
  have hd : fmtOf ty = none := by
    simp only [List.mem_cons, List.not_mem_nil, or_false] at hty
    rcases hty with rfl | rfl | rfl <;> rfl
  cases hs : fmtOf src with
  | some g =>
    simp only [cvtLane, hs, hd]
    exact ⟨_, placeInt_eq_wrapInt ty hty _, cvtInt_res _ _ m (plain_value g _)⟩
  | none =>
    simp only [cvtLane, hs, hd, elemInt_eq_laneInt]
    exact ⟨_, placeInt_eq_wrapInt ty hty _, rfl, trivial⟩

theorem stripRuns_cvt_int {s : State} {k : SlotN} {t : Thread} {p : Strip} (h : s.StripAt k t p) {ty : VType}
    (hty : ty ∈ [VType.i32, .i8, .u8]) {vd a : VNum} (hi : p.instr = .vcvt ty vd a) :
    s.StripRuns s.subject.core k t vd ((s.stripCtx s.subject.core t p).act ty) fun l w fl =>
      ∃ i, w = wrapInt ty i ∧ match fmtOf (dtypeOf p.vctl) with
        | some g => IntRes (intRange ty).1 (intRange ty).2 (rmOf p.vctl)
            (value g (elemBits (dtypeOf p.vctl) (t.a.lane a l))) i fl
        | none => i = max (intRange ty).1 (min (intRange ty).2 (laneInt (dtypeOf p.vctl) (t.a.lane a l))) ∧ fl = 0 := by
  refine stripRuns_of_lanes h (by rw [hi]; rfl)
    (fun l => (cvtLane (rmOf p.vctl) (dtypeOf p.vctl) ty (t.a.lane a l)).1)
    (fun l => (cvtLane (rmOf p.vctl) (dtypeOf p.vctl) ty (t.a.lane a l)).2)
    (by rw [hi]; simp only [stripRes, cvtRes, List.map_map]; rfl) (fun l hl => VCtx.act_lt hl) fun l _ => ?_
  exact cvtLane_int hty _ _ _

/-! ### Reductions (R162) -/

/-- The lanes that a reduction takes: those of the whole instruction, with its last strip. -/
def VCtx.reduced (x : VCtx) (ty : VType) : List Nat := if x.last then x.actAll ty else []

theorem VCtx.reduced_cases (x : VCtx) (ty : VType) :
    ((!x.last || x.actAll ty = []) = true ∧ x.reduced ty = []) ∨
      ((!x.last || x.actAll ty = []) = false ∧ x.reduced ty = x.actAll ty ∧ x.actAll ty ≠ []) := by
  unfold VCtx.reduced
  cases x.last <;> by_cases h : x.actAll ty = [] <;> simp [h]

theorem redAdd_float {ty : VType} {f : Fmt} (hf : FloatType ty f) (hc : ty ≠ .c32) (x : VCtx) (vd a : VNum) :
    let u (r : VNum) (l : Nat) : Val := value f (elemBits ty (x.a.lane r l))
    let o := finishF f x.rm (fdot x.rm [] (u vd 0 :: (x.reduced ty).map (u a)))
    let act := if x.reduced ty = [] then [] else [0]
    redAdd x ty vd a = { vd := vd, vs := act.map fun l => (l, placeLane ty o.1), fs := act.map fun l => (l, o.2) } := by
  rcases x.reduced_cases ty with ⟨h1, h2⟩ | ⟨h1, h2, h3⟩
  · simp only [redAdd, h1, h2, if_true, List.map_nil]
  · simp only [redAdd, h1, if_false, Bool.false_eq_true]
    simp only [h2, h3, hc, if_false, redSum, hf.fmt, List.map_cons, List.map_nil, VCtx.rm]

/-- A strip of VREDADD (R162). -/
theorem stripRuns_redAdd {s : State} {k : SlotN} {t : Thread} {p : Strip} (h : s.StripAt k t p) {ty : VType} {f : Fmt}
    (hf : FloatType ty f) (hc : ty ≠ .c32) {vd a : VNum} (hi : p.instr = .vredadd ty vd a) :
    let all := (s.stripCtx s.subject.core t p).reduced ty
    let u (r : VNum) (l : Nat) : Val := value f (elemBits ty (t.a.lane r l))
    s.StripRuns s.subject.core k t vd (if all = [] then [] else [0]) fun _ w fl =>
      w.toNat < 2 ^ (8 * laneBytes ty) ∧ FloatRes f (rmOf p.vctl) [] (u vd 0 :: all.map (u a)) w.toNat fl := by
  intro all u
  obtain ⟨i, hinf⟩ := hf.infinity
  have hlt := finishF_lt hf.ok (rmOf p.vctl) (fdot (rmOf p.vctl) [] (u vd 0 :: all.map (u a)))
  rw [← hf.bits] at hlt
  refine stripRuns_of_lanes h (by rw [hi]; rfl) _ _
    ((show stripRes p.instr _ = redAdd _ ty vd a by rw [hi]; rfl).trans (redAdd_float hf hc (s.stripCtx s.subject.core t p) vd a))
    (fun l hl => ?_) fun l _ => ?_
  · split at hl <;> simp_all
  · refine ⟨(hf.place _ hlt).symm ▸ hlt, (hf.place _ hlt).symm ▸ fdot_floatRes hf.ok hinf _ ?_ (by simp)⟩
    simp only [List.mem_cons, List.mem_map]
    rintro z (rfl | ⟨l, -, rfl⟩) <;> exact plain_value _ _

theorem snanFlag_cons (x : Val) (xs : List Val) : snanFlag (x :: xs) = snanFlag [x] ||| snanFlag xs := by
  unfold snanFlag
  cases h : x.isSnan <;> cases h' : xs.any (·.isSnan) <;> simp [h, h']

theorem snanFlag_quiet {x : Val} (h : x.isSnan = false) (xs : List Val) : snanFlag (x :: xs) = snanFlag xs := by
  simp [snanFlag, h]

/-- Minimum and maximum deliver no signalling NaN. -/
theorem fminmaxBits_quiet {ty : VType} {f : Fmt} (hf : FloatType ty f) (mx : Bool) (a b : Nat) :
    (value f (fminmaxBits f mx a b)).isSnan = false := by
  have quiet {v : Val} (h : ¬v.isNan = true) : v.isSnan = false := by cases v <;> simp_all [Val.isNan, Val.isSnan]
  unfold fminmaxBits
  dsimp only
  split
  · split
    · exact hf.quiet
    · exact quiet ‹_›
  · split
    · exact quiet ‹_›
    · split <;> exact quiet ‹_›

/-- A fold of minimum or maximum takes one more lane: the code and the flags so far. -/
def minmaxStep (f : Fmt) (mx : Bool) (y : Nat → Nat) (r : Nat × FFlags) (l : Nat) : Nat × FFlags :=
  (fminmaxBits f mx r.1 (y l), r.2 ||| snanFlag [value f r.1, value f (y l)])

/-- The flags of a fold of minimum or maximum are those of its operands. -/
theorem foldl_minmax_flags {ty : VType} {f : Fmt} (hf : FloatType ty f) (mx : Bool) (y : Nat → Nat) (ls : List Nat) (b : Nat)
    (g : FFlags) (hb : (value f b).isSnan = false) :
    (ls.foldl (minmaxStep f mx y) (b, g)).2 =
      g ||| snanFlag (ls.map fun l => value f (y l)) := by
  induction ls generalizing b g with
  | nil => simp [snanFlag]
  | cons l ls ih =>
    rw [List.foldl_cons, minmaxStep, ih _ _ (fminmaxBits_quiet hf mx _ _), snanFlag_quiet hb, List.map_cons, snanFlag_cons _ (ls.map _),
      BitVec.or_assoc]

theorem foldl_minmax_all {ty : VType} {f : Fmt} (hf : FloatType ty f) (mx : Bool) (y : Nat → Nat) {ls : List Nat} (h : ls ≠ [])
    (b : Nat) :
    (ls.foldl (minmaxStep f mx y) (b, 0)).2 =
      snanFlag (value f b :: ls.map fun l => value f (y l)) := by
  obtain ⟨l, ls, rfl⟩ := List.exists_cons_of_ne_nil h
  rw [List.foldl_cons, minmaxStep, foldl_minmax_flags hf mx y ls _ _ (fminmaxBits_quiet hf mx _ _), List.map_cons, snanFlag_cons (value f b) [_],
    snanFlag_cons (value f b) (_ :: _), snanFlag_cons (value f (y l)) (ls.map _)]
  simp only [show ∀ z : FFlags, 0 ||| z = z from fun _ => BitVec.zero_or, BitVec.or_assoc]

theorem foldl_minmax_code (f : Fmt) (mx : Bool) (y : Nat → Nat) (ls : List Nat) (b : Nat) (g : FFlags) :
    (ls.foldl (minmaxStep f mx y) (b, g)).1 =
      ls.foldl (fun b l => fminmaxBits f mx b (y l)) b := by
  induction ls generalizing b g with
  | nil => rfl
  | cons l ls ih => rw [List.foldl_cons, List.foldl_cons, minmaxStep, ih]

/-- The codes that a fold of minimum or maximum goes through. -/
def foldCodes (f : Fmt) (mx : Bool) (y : Nat → Nat) (ls : List Nat) (b n : Nat) : Nat :=
  (ls.take n).foldl (fun b l => fminmaxBits f mx b (y l)) b

theorem foldCodes_succ (f : Fmt) (mx : Bool) (y : Nat → Nat) (ls : List Nat) (b : Nat) {n : Nat} (h : n < ls.length) :
    foldCodes f mx y ls b (n + 1) = fminmaxBits f mx (foldCodes f mx y ls b n) (y (ls.getD n 0)) := by
  rw [foldCodes, foldCodes, List.take_add_one, List.getElem?_eq_getElem h, List.getD_eq_getElem _ _ h]
  simp only [Option.toList, List.foldl_append, List.foldl_cons, List.foldl_nil]

theorem foldl_minmax_lt {f : Fmt} (ok : f.Ok) (mx : Bool) (y : Nat → Nat) (hy : ∀ l, y l < 2 ^ (f.magBits + 1)) (ls : List Nat)
    {b : Nat} (hb : b < 2 ^ (f.magBits + 1)) : ls.foldl (fun b l => fminmaxBits f mx b (y l)) b < 2 ^ (f.magBits + 1) := by
  induction ls generalizing b with
  | nil => exact hb
  | cons l ls ih => exact ih (fminmaxBits_lt ok mx hb (hy l))

theorem redFold_float {ty : VType} {f : Fmt} (hf : FloatType ty f) (mx : Bool) (x : VCtx) (vd a : VNum) :
    let y (l : Nat) := elemBits ty (x.a.lane a l)
    let b := elemBits ty (x.a.lane vd 0)
    let act := if x.reduced ty = [] then [] else [0]
    redFold x ty mx vd a = {
      vd := vd
      vs := act.map fun l => (l, placeLane ty ((x.reduced ty).foldl (fun b l => fminmaxBits f mx b (y l)) b))
      fs := act.map fun l => (l, snanFlag (value f b :: (x.reduced ty).map fun l => value f (y l))) } := by
  intro y b act
  rcases x.reduced_cases ty with ⟨h1, h2⟩ | ⟨h1, h2, h3⟩
  · simp only [redFold, h1, h2, if_true, List.map_nil, act]
  · have hcode := foldl_minmax_code f mx y (x.actAll ty) b 0
    have hflags := foldl_minmax_all hf mx y h3 b
    simp only [redFold, h1, if_false, Bool.false_eq_true, hf.fmt, act, h2]
    simp only [h3, if_false, List.map_cons, List.map_nil, ← hcode, ← hflags]
    rfl

/-- A strip of VREDMAX or VREDMIN (R162). -/
theorem stripRuns_redFold {s : State} {k : SlotN} {t : Thread} {p : Strip} (h : s.StripAt k t p) {ty : VType} {f : Fmt}
    (hf : FloatType ty f) {mx : Bool} {vd a : VNum} (hst : isVstore p.instr = false)
    (hres : stripRes p.instr (s.stripCtx s.subject.core t p) = redFold (s.stripCtx s.subject.core t p) ty mx vd a) :
    let all := (s.stripCtx s.subject.core t p).reduced ty
    let y (r : VNum) (l : Nat) := elemBits ty (t.a.lane r l)
    s.StripRuns s.subject.core k t vd (if all = [] then [] else [0]) fun _ w fl => w.toNat < 2 ^ (8 * laneBytes ty) ∧
      fl = snanFlag (value f (y vd 0) :: all.map fun l => value f (y a l)) ∧
      ∃ r : Nat → Nat, r 0 = y vd 0 ∧ w.toNat = r all.length ∧
        ∀ n < all.length, ∃ g, MinMaxRes f mx (r n) (y a (all.getD n 0)) (r (n + 1)) g := by
  intro all y
  have hy (r : VNum) (l : Nat) : y r l < 2 ^ (f.magBits + 1) := by rw [← hf.bits]; exact elemBits_lt _ _
  have hlt := foldl_minmax_lt hf.ok mx (y a) (hy a) all (hy vd 0)
  rw [← hf.bits] at hlt
  refine stripRuns_of_lanes h hst _ _ (hres.trans (redFold_float hf mx (s.stripCtx s.subject.core t p) vd a))
    (fun l hl => ?_) fun l _ => ?_
  · split at hl <;> simp_all
  · have hplace := hf.place _ hlt
    refine ⟨hplace.symm ▸ hlt, rfl, foldCodes f mx (y a) all (y vd 0), rfl, ?_, fun n hn => ?_⟩
    · exact hplace.trans (by rw [foldCodes, List.take_length])
    · rw [foldCodes_succ _ _ _ _ _ hn]; exact ⟨_, fminmaxBits_res f mx _ _⟩

/-! ### Complex elements (R38, R147, R158) -/

theorem drop_range_pairs (odd : Bool) : (List.range ((if odd then 32 else 0) + 32)).drop (if odd then 32 else 0) =
    (List.range 16).flatMap fun i => [(if odd then 32 else 0) + 2 * i, (if odd then 32 else 0) + 2 * i + 1] := by
  cases odd <;> decide

/-- Pairs of which both lanes are kept or neither. -/
theorem filter_pairs (g : Nat → Bool) (lo : Nat) (hlo : lo % 2 = 0) (hg : ∀ l, g l = g (l / 2 * 2)) (is : List Nat) :
    (is.flatMap fun i => [lo + 2 * i, lo + 2 * i + 1]).filter g =
      ((is.flatMap fun i => [lo + 2 * i, lo + 2 * i + 1]).filter g |>.filter fun l => l % 2 == 0).flatMap fun l => [l, l + 1] := by
  induction is with
  | nil => rfl
  | cons i is ih =>
    have h0 : (lo + 2 * i) % 2 = 0 := by omega
    have h1 : (lo + 2 * i + 1) % 2 = 1 := by omega
    have hpair : g (lo + 2 * i + 1) = g (lo + 2 * i) := by rw [hg, show (lo + 2 * i + 1) / 2 * 2 = lo + 2 * i by omega]
    rw [List.flatMap_cons, List.filter_append, List.filter_append, List.flatMap_append, ← ih]
    congr 1
    cases h : g (lo + 2 * i) <;> simp [h, hpair, h0, h1]

/-- The active lanes of complex elements come in pairs (R147). -/
theorem act_pairs (x : VCtx) : x.act .c32 = ((x.act .c32).filter fun l => l % 2 == 0).flatMap fun l => [l, l + 1] := by
  have h := filter_pairs (fun l => laneActive x.a x.vctl (l / 2 * 2) && laneActive x.a x.vctl (l / 2 * 2 + 1)) x.lo
    (by unfold VCtx.lo; split <;> rfl) (fun l => by simp only [show l / 2 * 2 / 2 * 2 = l / 2 * 2 by omega]) (List.range 16)
  have hd : (List.range (x.lo + 32)).drop x.lo = (List.range 16).flatMap fun i => [x.lo + 2 * i, x.lo + 2 * i + 1] :=
    drop_range_pairs x.odd
  rw [← hd] at h
  exact h

/-- The operands of the complex element to which lane l belongs (R38). -/
def elemArgs (a : Arch) (vd vs1 vs2 : VNum) (l : Nat) : CArgs :=
  let g (r : VNum) (i : Nat) : Val := value .fp32 (a.lane r (l / 2 * 2 + i)).toNat
  ⟨g vs1 0, g vs1 1, g vs2 0, g vs2 1, g vd 0, g vd 1⟩

/-- A complex result component by component: the real part in even lanes, the imaginary one in odd lanes. -/
theorem complex_lanes (x : VCtx) (vd vs1 vs2 : VNum) (f : RMode → CArgs → (Val × FFlags) × (Val × FFlags)) :
    let o (l : Nat) := finishF .fp32 x.rm
      (if l % 2 = 0 then (f x.rm (elemArgs x.a vd vs1 vs2 l)).1 else (f x.rm (elemArgs x.a vd vs1 vs2 l)).2)
    complex x vd vs1 vs2 f = {
      vd := vd
      vs := (x.act .c32).map fun l => (l, BitVec.ofNat 32 (o l).1)
      fs := (x.act .c32).map fun l => (l, (o l).2) } := by
  intro o
  have hrs : (((x.act .c32).filter fun l => l % 2 == 0).flatMap fun l =>
      let g (r : VNum) (i : Nat) : Val := value .fp32 (x.a.lane r (l + i)).toNat
      let (re, im) := f x.rm ⟨g vs1 0, g vs1 1, g vs2 0, g vs2 1, g vd 0, g vd 1⟩
      let (b0, f0) := finishF .fp32 x.rm re
      let (b1, f1) := finishF .fp32 x.rm im
      [(l, BitVec.ofNat 32 b0, f0), (l + 1, BitVec.ofNat 32 b1, f1)]) =
      (x.act .c32).map fun l => (l, (BitVec.ofNat 32 (o l).1 : Word32), (o l).2) := by
    conv_rhs => rw [act_pairs]
    rw [List.map_flatMap]
    refine List.flatMap_congr fun l hl => ?_
    have hl0 : l % 2 = 0 := by simpa using (List.mem_filter.1 hl).2
    have hl1 : (l + 1) % 2 ≠ 0 := by omega
    simp only [List.map_cons, List.map_nil, o, hl0, hl1, if_true, if_false, elemArgs, show l / 2 * 2 = l by omega,
      show (l + 1) / 2 * 2 = l by omega]
  unfold complex
  dsimp only at hrs ⊢
  rw [hrs, List.map_map, List.map_map]
  rfl

/-- A strip of a complex instruction (R38, R158). -/
theorem stripRuns_complex {s : State} {k : SlotN} {t : Thread} {p : Strip} (h : s.StripAt k t p)
    (hst : isVstore p.instr = false) {vd vs1 vs2 : VNum} {f : RMode → CArgs → (Val × FFlags) × (Val × FFlags)}
    {R0 R1 : Nat → Nat → FFlags → Prop}
    (hres : stripRes p.instr (s.stripCtx s.subject.core t p) = complex (s.stripCtx s.subject.core t p) vd vs1 vs2 f)
    (hR : ∀ l, let r := f (rmOf p.vctl) (elemArgs t.a vd vs1 vs2 l)
      R0 l (finishF .fp32 (rmOf p.vctl) r.1).1 (finishF .fp32 (rmOf p.vctl) r.1).2 ∧
        R1 l (finishF .fp32 (rmOf p.vctl) r.2).1 (finishF .fp32 (rmOf p.vctl) r.2).2) :
    s.StripRuns s.subject.core k t vd ((s.stripCtx s.subject.core t p).act .c32)
      fun l w fl => if l % 2 = 0 then R0 l w.toNat fl else R1 l w.toNat fl := by
  refine stripRuns_of_lanes h hst _ _ (hres.trans (complex_lanes _ vd vs1 vs2 f)) (fun l hl => VCtx.act_lt hl) fun l _ => ?_
  obtain ⟨h0, h1⟩ := hR l
  have hword (r : Val × FFlags) : (BitVec.ofNat 32 (finishF .fp32 (rmOf p.vctl) r).1).toNat = (finishF .fp32 (rmOf p.vctl) r).1 := by
    rw [BitVec.toNat_ofNat]; exact Nat.mod_eq_of_lt (finishF_lt .fp32 _ _)
  by_cases hl : l % 2 = 0 <;> simp only [hl, if_true, if_false]
  · exact (hword _).symm ▸ h0
  · exact (hword _).symm ▸ h1

/-- A complex sum whose operands may be NaN in any component (R38). -/
theorem cNan_res {m : RMode} {xs : List Val} {r : (Val × FFlags) × (Val × FFlags)} {R0 R1 : Nat → FFlags → Prop}
    (h : R0 (finishF .fp32 m r.1).1 (finishF .fp32 m r.1).2 ∧ R1 (finishF .fp32 m r.2).1 (finishF .fp32 m r.2).2) :
    let o := cNan xs r
    let nan (R : Nat → FFlags → Prop) (code : Nat) (fl : FFlags) : Prop :=
      if xs.any (·.isNan) then code = 0x7FC00000 ∧ fl = snanFlag xs else R code fl
    nan R0 (finishF .fp32 m o.1).1 (finishF .fp32 m o.1).2 ∧ nan R1 (finishF .fp32 m o.2).1 (finishF .fp32 m o.2).2 := by
  dsimp only [cNan]
  cases xs.any (·.isNan)
  · exact h
  · simp

/-- The reduction of complex elements: the real parts into lane 0, the imaginary ones into lane 1 (R162). -/
theorem redAdd_complex (x : VCtx) (vd a : VNum) :
    let u (r : VNum) (l : Nat) : Val := value .fp32 (x.a.lane r l).toNat
    let o (l : Nat) := finishF .fp32 x.rm (fdot x.rm [] (u vd l :: ((x.reduced .c32).filter fun j => j % 2 == l).map (u a)))
    let act := if x.reduced .c32 = [] then [] else [0, 1]
    redAdd x .c32 vd a = {
      vd := vd
      vs := act.map fun l => (l, BitVec.ofNat 32 (o l).1)
      fs := act.map fun l => (0, (o l).2) } := by
  have helem (w : Word32) : elemBits .c32 w = w.toNat := Nat.mod_eq_of_lt w.isLt
  intro u o act
  rcases x.reduced_cases .c32 with ⟨h1, h2⟩ | ⟨h1, h2, h3⟩
  · simp only [redAdd, h1, h2, if_true, List.map_nil, act]
  · simp only [redAdd, h1, if_false, Bool.false_eq_true, act]
    simp only [h2, h3, if_false, if_true, redSum, fmtOf, List.map_cons, List.map_nil, VCtx.rm, helem, placeLane, o, u]

theorem stripRuns_redAdd_complex {s : State} {k : SlotN} {t : Thread} {p : Strip} (h : s.StripAt k t p) {vd a : VNum}
    (hi : p.instr = .vredadd .c32 vd a) :
    let all := (s.stripCtx s.subject.core t p).reduced .c32
    let u (r : VNum) (l : Nat) : Val := value .fp32 (t.a.lane r l).toNat
    s.StripRuns s.subject.core k t vd (if all = [] then [] else [0, 1]) (fun l w fl =>
      FloatRes .fp32 (rmOf p.vctl) [] (u vd l :: (all.filter fun j => j % 2 == l).map (u a)) w.toNat fl) (at_ := fun _ => 0) := by
  intro all u
  refine stripRuns_of_lanes h (by rw [hi]; rfl) _ _
    ((show stripRes p.instr _ = redAdd _ .c32 vd a by rw [hi]; rfl).trans (redAdd_complex (s.stripCtx s.subject.core t p) vd a))
    (fun l hl => ?_) fun l _ => ?_
  · split at hl
    · simp at hl
    · simp at hl; omega
  · have hlt := finishF_lt .fp32 (rmOf p.vctl) (fdot (rmOf p.vctl) [] (u vd l :: (all.filter fun j => j % 2 == l).map (u a)))
    have hword : (BitVec.ofNat 32 _).toNat = _ := (BitVec.toNat_ofNat _ _).trans (Nat.mod_eq_of_lt hlt)
    refine hword.symm ▸ fdot_floatRes .fp32 rfl _ ?_ (by simp)
    simp only [List.mem_cons, List.mem_map]
    rintro z (rfl | ⟨l, -, rfl⟩) <;> exact plain_value _ _

/-! ### Packed elements (R35, R36) -/

theorem packBits_lt (w : Nat) (xs : List Nat) : packBits w xs < 2 ^ (w * xs.length) := by
  induction xs with
  | nil => simp [packBits]
  | cons x xs ih =>
    have hx := Nat.mod_lt x (Nat.two_pow_pos w)
    have hp : packBits w (x :: xs) = x % 2 ^ w + packBits w xs * 2 ^ w := rfl
    rw [hp, List.length_cons, Nat.mul_succ, pow_add]
    calc x % 2 ^ w + packBits w xs * 2 ^ w < (packBits w xs + 1) * 2 ^ w := by rw [Nat.add_mul]; omega
      _ ≤ 2 ^ (w * xs.length) * 2 ^ w := Nat.mul_le_mul_right _ ih

theorem packBits_get (w : Nat) (xs : List Nat) {j : Nat} (hj : j < xs.length) :
    packBits w xs / 2 ^ (w * j) % 2 ^ w = xs[j] % 2 ^ w := by
  induction xs generalizing j with
  | nil => simp at hj
  | cons x xs ih =>
    have hx := Nat.mod_lt x (Nat.two_pow_pos w)
    have hp : packBits w (x :: xs) = x % 2 ^ w + packBits w xs * 2 ^ w := rfl
    cases j with
    | zero => simp [hp]
    | succ j =>
      rw [hp, Nat.mul_succ, Nat.add_comm (w * j), pow_add, ← Nat.div_div_eq_div_mul, Nat.add_mul_div_right _ _ (Nat.two_pow_pos w),
        Nat.div_eq_of_lt hx, Nat.zero_add]
      exact ih (by simpa using hj)

/-- The bits below 2^k of a number whose upper part is a multiple of 2^k. -/
theorem low_bits (a b : Nat) {i w k : Nat} (h : i + w ≤ k) : (a + b * 2 ^ k) / 2 ^ i % 2 ^ w = a / 2 ^ i % 2 ^ w := by
  obtain ⟨r, rfl⟩ := Nat.exists_eq_add_of_le h
  rw [show b * 2 ^ (i + w + r) = (b * 2 ^ r * 2 ^ w) * 2 ^ i by ring, Nat.add_mul_div_right _ _ (Nat.two_pow_pos i),
    Nat.add_mul_mod_self_right]

/-- The bits from 2^k on of a number whose lower part is less than 2^k. -/
theorem high_bits {a : Nat} (b i : Nat) {k : Nat} (h : a < 2 ^ k) : (a + b * 2 ^ k) / 2 ^ (k + i) = b / 2 ^ i := by
  rw [pow_add, ← Nat.div_div_eq_div_mul, Nat.add_mul_div_right _ _ (Nat.two_pow_pos k), Nat.div_eq_of_lt h, Nat.zero_add]

theorem getLane_toNat (r : VReg) (l : Nat) : (getLane r l).toNat = r.toNat / 2 ^ (32 * l) % 2 ^ 32 := by
  rw [getLane, BitVec.toNat_setWidth, BitVec.toNat_ushiftRight, Nat.shiftRight_eq_div_pow]

theorem toNat_ofNat_of_lt {n k : Nat} (h : n < 2 ^ k) (hk : k ≤ 1024) : (BitVec.ofNat 1024 n).toNat = n := by
  rw [BitVec.toNat_ofNat, Nat.mod_eq_of_lt (lt_of_lt_of_le h (Nat.pow_le_pow_right (by norm_num) hk))]

/-! ### The largest exponent of a block (R35, R37) -/

theorem Val.ilog2_bounds {v : Val} (hf : v.isFin = true) (hp : v.plain = true) (h0 : v.rat ≠ 0) :
    (2 : ℚ) ^ v.ilog2 ≤ |v.rat| ∧ |v.rat| < 2 ^ (v.ilog2 + 1) := by
  cases v with
  | fin n m e r =>
    have hm : m ≠ 0 := fun h => h0 ((Val.rat_eq_zero _ _ _ _).2 h)
    have h1 : ((2 ^ m.log2 : ℕ) : ℚ) ≤ m := by exact_mod_cast Nat.log2_self_le hm
    have h2 : (m : ℚ) < ((2 ^ (m.log2 + 1) : ℕ) : ℚ) := by exact_mod_cast Nat.lt_log2_self
    push_cast at h1 h2
    rw [Val.rat_fin, abs_sgn_mul, Val.ilog2, add_right_comm, zpow_add₀ (by norm_num), zpow_add₀ (by norm_num) ((m.log2 : ℤ) + 1)]
    have hz : (2 : ℚ) ^ ((m.log2 : ℤ) + 1) = 2 ^ (m.log2 + 1) := by exact_mod_cast zpow_natCast (2 : ℚ) (m.log2 + 1)
    rw [zpow_natCast, hz]
    exact ⟨by gcongr, by gcongr⟩
  | _ => simp [Val.isFin] at hf

theorem zpow_lt_succ {a b : ℤ} {x : ℚ} (h1 : (2 : ℚ) ^ a ≤ x) (h2 : x < 2 ^ (b + 1)) : a ≤ b :=
  Int.lt_add_one_iff.1 ((zpow_lt_zpow_iff_right₀ (by norm_num : (1 : ℚ) < 2)).1 (lt_of_le_of_lt h1 h2))

/-- How `maxLog` takes one more value. -/
def maxStep (m : Option Int) (v : Val) : Option Int :=
  match m with
  | none => some v.ilog2
  | some e => some (max e v.ilog2)

theorem maxLog_eq (xs : List Val) : maxLog xs = (xs.filter fun v => !v.isZero).foldl maxStep none := rfl

theorem foldl_maxStep (ys : List Val) (m : Int) :
    ∃ e, ys.foldl maxStep (some m) = some e ∧ m ≤ e ∧ (∀ v ∈ ys, v.ilog2 ≤ e) ∧ (e = m ∨ ∃ v ∈ ys, e = v.ilog2) := by
  induction ys generalizing m with
  | nil => exact ⟨m, rfl, le_rfl, by simp, .inl rfl⟩
  | cons y ys ih =>
    obtain ⟨e, h1, h2, h3, h4⟩ := ih (max m y.ilog2)
    refine ⟨e, h1, le_trans (le_max_left _ _) h2, ?_, ?_⟩
    · intro v hv
      rcases List.mem_cons.1 hv with rfl | hv
      · exact le_trans (le_max_right _ _) h2
      · exact h3 v hv
    · rcases h4 with h4 | ⟨v, hv, h4⟩
      · rcases max_choice m y.ilog2 with h | h
        · exact .inl (h4.trans h)
        · exact .inr ⟨y, by simp, h4.trans h⟩
      · exact .inr ⟨v, by simp [hv], h4⟩

theorem maxLog_of_zero {xs : List Val} (hx : ∀ x ∈ xs, x.isFin = true ∧ x.plain = true) (h : ∀ x ∈ xs, x.rat = 0) :
    maxLog xs = none := by
  have : xs.filter (fun v => !v.isZero) = [] := by
    rw [List.filter_eq_nil_iff]
    intro x hm
    simp [(Val.isZero_iff (hx x hm).2 (hx x hm).1).2 (h x hm)]
  rw [maxLog_eq, this]; rfl

theorem maxLog_of_top {xs : List Val} (hx : ∀ x ∈ xs, x.isFin = true ∧ x.plain = true) {e : ℤ}
    (h1 : ∃ x ∈ xs, (2 : ℚ) ^ e ≤ |x.rat|) (h2 : ∀ x ∈ xs, |x.rat| < 2 ^ (e + 1)) : maxLog xs = some e := by
  have mem (v : Val) : v ∈ xs.filter (fun v => !v.isZero) ↔ v ∈ xs ∧ v.rat ≠ 0 := by
    rw [List.mem_filter, and_congr_right_iff]
    intro hm
    rw [Bool.not_eq_true', ← Bool.not_eq_true, Val.isZero_iff (hx v hm).2 (hx v hm).1]
  obtain ⟨x, hxm, hxe⟩ := h1
  have hx0 : x.rat ≠ 0 := fun h => by rw [h, abs_zero] at hxe; exact absurd hxe (not_le.2 (by positivity))
  have hmem := (mem x).2 ⟨hxm, hx0⟩
  have hlog := Val.ilog2_bounds (hx x hxm).1 (hx x hxm).2 hx0
  rcases hl : xs.filter (fun v => !v.isZero) with _ | ⟨y, ys⟩
  · rw [hl] at hmem; cases hmem
  · obtain ⟨r, hr, hle, hall, hone⟩ := foldl_maxStep ys y.ilog2
    rw [maxLog_eq, hl, List.foldl_cons, maxStep, hr]
    rw [hl] at hmem mem
    have hxr : x.ilog2 ≤ r := by
      rcases List.mem_cons.1 hmem with rfl | hm
      · exact hle
      · exact hall x hm
    obtain ⟨v, hv, rfl⟩ : ∃ v ∈ y :: ys, r = v.ilog2 := by
      rcases hone with h | ⟨v, hv, h⟩
      · exact ⟨y, by simp, h⟩
      · exact ⟨v, by simp [hv], h⟩
    obtain ⟨hvm, hv0⟩ := (mem v).1 hv
    have hvlog := Val.ilog2_bounds (hx v hvm).1 (hx v hvm).2 hv0
    have a1 := zpow_lt_succ hvlog.1 (h2 v hvm)
    have a2 := zpow_lt_succ hxe hlog.2
    congr 1
    omega

/-! ### Elements rounded into a narrow format (R32, R33) -/

theorem fpround_narrow {f : Fmt} (ok : f.Ok) (e4nan : Bool) {v : Val} (hp : v.plain = true) :
    Narrow f e4nan v (fpround f .rne v e4nan).1 := by
  cases v with
  | nan s => rfl
  | inf n =>
    simp only [Narrow, fpround]
    cases hi : f.inf with
    | some i => rfl
    | none => simp only [withSign, overCode, hi]
  | fin n m e r =>
    simp only [Narrow]
    split
    · rename_i h0
      obtain rfl : r = false := by simpa [Val.plain] using hp
      obtain rfl := (Val.rat_eq_zero n m e false).1 h0
      cases n <;> simp [fpround, withSign_eq, Val.neg]
    · exact ⟨_, fpround_rat ok .rne rfl hp ‹_› e4nan⟩

/-! ### Whole registers packed and unpacked (R164) -/

/-- The register of an even or odd half that a whole-register operation reads. -/
def Arch.halfReg (a : Arch) (r : VNum) (odd : Bool) : VReg := if odd then a.vOdd[r] else a.v[r]

theorem wholeReg_lanes (x : VCtx) (vd vs1 : VNum) (g : VReg → VReg) : wholeReg x vd vs1 g =
    { vd := vd, vs := (if x.last then List.range (if x.paired then 64 else 32) else []).map fun l =>
        (l, getLane (g (x.a.halfReg vs1 (decide (32 ≤ l)))) (l % 32)) } := by
  have half (odd : Bool) : ((List.range 32).map fun l => ((if odd then 32 else 0) + l,
      getLane (g (if odd then x.a.vOdd[vs1] else x.a.v[vs1])) l)) =
      ((List.range 32).map fun l => (if odd then 32 else 0) + l).map fun l =>
        (l, getLane (g (x.a.halfReg vs1 (decide (32 ≤ l)))) (l % 32)) := by
    rw [List.map_map]
    refine List.map_congr_left fun l hl => ?_
    have hl := List.mem_range.1 hl
    cases odd
    · simp [Arch.halfReg, Nat.mod_eq_of_lt hl, Nat.not_le.2 hl]
    · simp [Arch.halfReg, Nat.mod_eq_of_lt hl]
  have h0 := half false
  have h1 := half true
  simp only [Bool.false_eq_true, if_false, if_true] at h0 h1
  unfold wholeReg
  cases x.last with
  | false => rfl
  | true =>
    simp only [h0, h1, Bool.not_true, Bool.false_eq_true, if_false, if_true]
    congr 1
    cases x.paired with
    | false => simp
    | true =>
      have hr : List.range 64 = List.range 32 ++ (List.range 32).map (32 + ·) := by decide
      rw [if_pos rfl, if_pos rfl, ← List.map_append, hr]
      simp

theorem stripRuns_wholeReg {s : State} {k : SlotN} {t : Thread} {p : Strip} (h : s.StripAt k t p) (hst : isVstore p.instr = false)
    {vd vs1 : VNum} {g : VReg → VReg}
    (hres : stripRes p.instr (s.stripCtx s.subject.core t p) = wholeReg (s.stripCtx s.subject.core t p) vd vs1 g) :
    s.StripRuns s.subject.core k t vd (if p.last then List.range (if t.paired then 64 else 32) else []) fun l w fl =>
      w = getLane (g (t.a.halfReg vs1 (decide (32 ≤ l)))) (l % 32) ∧ fl = 0 := by
  rw [wholeReg_lanes] at hres
  refine stripRuns_of_res h hst (fun l => getLane (g (t.a.halfReg vs1 (decide (32 ≤ l)))) (l % 32)) (fun _ => 0)
    (by rw [hres]) (by rw [hres]; rfl) (by rw [hres]) ?_ ?_ ?_ fun l _ => ⟨rfl, rfl⟩
  · rw [hres]
    have zero (ls : List Nat) : ls.foldl (fun (f : FFlags) _ => f ||| 0) 0 = 0 := by
      induction ls with
      | nil => rfl
      | cons l ls ih => exact ih
    exact (zero _).symm
  · rw [hres]
    have none (ls : List Nat) : ls.find? (fun _ => false) = none := List.find?_eq_none.2 (by simp)
    simp [VRes.lanes, none]
  · intro l hl
    split at hl
    · exact lt_of_lt_of_le (List.mem_range.1 hl) (by split <;> omega)
    · cases hl

/-! ### The values of a register as a list (R35 to R37) -/

/-- The FP32 value in a lane of a register. -/
def laneFp (r : VReg) (j : Nat) : Val := value .fp32 (getLane r j).toNat

@[simp] theorem plain_laneFp (r : VReg) (j : Nat) : (laneFp r j).plain = true := plain_value _ _

/-- The list holds the values at the places from lo to hi. -/
def Holds (xs : List Val) (x : Nat → Val) (lo hi : Nat) : Prop := ∀ v, v ∈ xs ↔ ∃ j, lo ≤ j ∧ j < hi ∧ x j = v

theorem holds_all (x : Nat → Val) : Holds ((List.range 32).map x) x 0 32 := by intro v; simp

theorem holds_sub (x : Nat → Val) {i : Nat} (hi : i < 4) :
    Holds ((((List.range 32).map x).drop (8 * i)).take 8) x (8 * i) (8 * i + 8) := by
  have hr : ((List.range 32).drop (8 * i)).take 8 = List.range' (8 * i) 8 := by
    have : ∀ i < 4, ((List.range 32).drop (8 * i)).take 8 = List.range' (8 * i) 8 := by decide
    exact this i hi
  intro v
  rw [← List.map_drop, ← List.map_take, hr]
  simp [List.mem_range'_1, and_assoc]

theorem Holds.maxLog_zero {xs : List Val} {x : Nat → Val} {lo hi : Nat} (h : Holds xs x lo hi)
    (hf : ∀ j, lo ≤ j → j < hi → (x j).isFin = true ∧ (x j).plain = true) (h0 : ∀ j, lo ≤ j → j < hi → (x j).rat = 0) :
    maxLog xs = none := by
  refine maxLog_of_zero (fun v hv => ?_) fun v hv => ?_ <;> obtain ⟨j, h1, h2, rfl⟩ := (h v).1 hv
  · exact hf j h1 h2
  · exact h0 j h1 h2

theorem Holds.maxLog_top {xs : List Val} {x : Nat → Val} {lo hi : Nat} (h : Holds xs x lo hi)
    (hf : ∀ j, lo ≤ j → j < hi → (x j).isFin = true ∧ (x j).plain = true) {e : ℤ}
    (ht : (∃ j, lo ≤ j ∧ j < hi ∧ (2 : ℚ) ^ e ≤ |(x j).rat|) ∧ ∀ j, lo ≤ j → j < hi → |(x j).rat| < (2 : ℚ) ^ (e + 1)) :
    maxLog xs = some e := by
  obtain ⟨⟨j, h1, h2, h3⟩, h4⟩ := ht
  refine maxLog_of_top (fun v hv => ?_) ⟨x j, (h _).2 ⟨j, h1, h2, rfl⟩, h3⟩ fun v hv => ?_ <;> obtain ⟨j, h1, h2, rfl⟩ := (h v).1 hv
  · exact hf j h1 h2
  · exact h4 j h1 h2

/-- A block with no NaN and no infinity is finite. -/
theorem isFin_of_not_bad {x : Nat → Val} {n : Nat} (h : ¬∃ j < n, (x j).isNan = true ∨ (x j).isInf = true) {j : Nat} (hj : j < n) :
    (x j).isFin = true := by
  have := fun hb => h ⟨j, hj, hb⟩
  cases hv : x j <;> simp [hv, Val.isNan, Val.isInf, Val.isFin] at this ⊢

/-! ### FP8 and MX blocks packed (R35) -/

theorem packBits_range_lt (w : Nat) (g : Nat → Nat) : packBits w ((List.range 32).map g) < 2 ^ (32 * w) := by
  have := packBits_lt w ((List.range 32).map g)
  rwa [List.length_map, List.length_range, Nat.mul_comm] at this

theorem packBits_range_get (w : Nat) (g : Nat → Nat) {j : Nat} (hj : j < 32) :
    packBits w ((List.range 32).map g) / 2 ^ (w * j) % 2 ^ w = g j % 2 ^ w := by
  rw [packBits_get w _ (by simpa using hj)]
  simp

theorem packFmt_ok {fc : Nat} (h : fc ≤ 6) :
    (packFmt fc).1.Ok ∧ (packFmt fc).1.magBits + 1 = (packFmt fc).2.2 ∧ (packFmt fc).2.2 ≤ 8 ∧ mxFmt fc = packFmt fc := by
  interval_cases fc
  · exact ⟨.e4m3, rfl, by decide, rfl⟩
  · exact ⟨.e5m2, rfl, by decide, rfl⟩
  · exact ⟨.e4m3, rfl, by decide, rfl⟩
  · exact ⟨.e5m2, rfl, by decide, rfl⟩
  · exact ⟨.e2m3, rfl, by decide, rfl⟩
  · exact ⟨.e3m2, rfl, by decide, rfl⟩
  · exact ⟨.e2m1, rfl, by decide, rfl⟩

theorem packReg_eq (fc : Nat) (e4nan : Bool) (r : VReg) : packReg fc e4nan r =
    let xs := (List.range 32).map (laneFp r)
    if fc ≤ 1 then BitVec.ofNat 1024 (packBits 8 (xs.map fun v => (fpround (mxFmt fc).1 .rne v e4nan).1))
    else if fc ≤ 6 then
      BitVec.ofNat 1024 (packBits (mxFmt fc).2.2 (mxPack (mxFmt fc).1 (mxFmt fc).2.1 e4nan xs).2 +
        (mxPack (mxFmt fc).1 (mxFmt fc).2.1 e4nan xs).1 * 2 ^ 1016)
    else BitVec.ofNat 1024 (txPack (txBits fc) xs) := rfl

theorem packs_fp8 {fc : Nat} (h : fc ≤ 1) (e4nan : Bool) (r : VReg) : Packs fc e4nan r (packReg fc e4nan r) := by
  obtain ⟨ok, hw, -, hm⟩ := packFmt_ok (h.trans (by omega))
  have hw8 : (packFmt fc).2.2 = 8 := by interval_cases fc <;> rfl
  let g (j : Nat) : Nat := (fpround (packFmt fc).1 .rne (laneFp r j) e4nan).1
  have hlt := packBits_range_lt 8 g
  have hn : (packReg fc e4nan r).toNat = packBits 8 ((List.range 32).map g) := by
    rw [packReg_eq, hm, if_pos h, List.map_map]
    exact toNat_ofNat_of_lt hlt (by norm_num)
  simp only [Packs, if_pos h, hn, hw8, Nat.zero_add]
  refine ⟨hlt, fun j hj => ?_⟩
  rw [packBits_range_get 8 g hj, Nat.mod_eq_of_lt (by rw [← hw8, ← hw]; exact fpround_lt ok _ _ _)]
  exact fpround_narrow ok e4nan (plain_laneFp r j)

theorem add_mul_two_pow_lt {a b k j : Nat} (ha : a < 2 ^ k) (hb : b < 2 ^ j) : a + b * 2 ^ k < 2 ^ (j + k) := by
  calc a + b * 2 ^ k < (b + 1) * 2 ^ k := by rw [Nat.add_mul]; omega
    _ ≤ 2 ^ j * 2 ^ k := Nat.mul_le_mul_right _ hb
    _ = 2 ^ (j + k) := (pow_add _ _ _).symm

/-- The fields of an MX block. -/
theorem mx_fields {w sc : Nat} (hw : w ≤ 8) (hsc : sc < 256) (g : Nat → Nat) :
    (BitVec.ofNat 1024 (packBits w ((List.range 32).map g) + sc * 2 ^ 1016)).toNat =
      packBits w ((List.range 32).map g) + sc * 2 ^ 1016 ∧
    (packBits w ((List.range 32).map g) + sc * 2 ^ 1016) / 2 ^ 1016 = sc ∧
    (packBits w ((List.range 32).map g) + sc * 2 ^ 1016) % 2 ^ 1016 = packBits w ((List.range 32).map g) ∧
    ∀ j < 32, (packBits w ((List.range 32).map g) + sc * 2 ^ 1016) / 2 ^ (w * j) % 2 ^ w = g j % 2 ^ w := by
  have hlt : packBits w ((List.range 32).map g) < 2 ^ 1016 :=
    lt_of_lt_of_le (packBits_range_lt w g) (pow_le_pow_right₀ one_le_two (by omega))
  refine ⟨toNat_ofNat_of_lt (add_mul_two_pow_lt (j := 8) hlt hsc) (by decide), ?_, ?_, fun j hj => ?_⟩
  · rw [← Nat.add_zero 1016, high_bits sc 0 hlt, pow_zero, Nat.div_one]
  · rw [Nat.add_mul_mod_self_right, Nat.mod_eq_of_lt hlt]
  · have : w * j + w ≤ 1016 := by
      calc w * j + w = w * (j + 1) := rfl
        _ ≤ 8 * 32 := Nat.mul_le_mul hw hj
        _ ≤ 1016 := by norm_num
    rw [low_bits _ _ this, packBits_range_get w g hj]

/-- What `mxPack` gives for the values of a block: scale and elements by the cases of R35. -/
theorem mxPack_cases {f : Fmt} (ok : f.Ok) (emax : Int) (e4nan : Bool) {x : Nat → Val} (hx : ∀ j, (x j).plain = true) :
    let bad := ∃ j < 32, (x j).isNan = true ∨ (x j).isInf = true
    let zero : Prop := ∀ j, 0 ≤ j → j < 32 → (x j).rat = 0
    let top (e : ℤ) : Prop := (∃ j, 0 ≤ j ∧ j < 32 ∧ (2 : ℚ) ^ e ≤ |(x j).rat|) ∧
      ∀ j, 0 ≤ j → j < 32 → |(x j).rat| < (2 : ℚ) ^ (e + 1)
    ∃ (sc : Nat) (g : Nat → Nat), mxPack f emax e4nan ((List.range 32).map x) = (sc, (List.range 32).map g) ∧ sc < 256 ∧
      (∀ j, g j < 2 ^ (f.magBits + 1)) ∧ (bad → sc = 255 ∧ ∀ j < 32, g j = 0) ∧ (¬bad → zero → sc = 127 ∧ ∀ j < 32, g j = 0) ∧
      (¬bad → ∀ e, top e → Int.ofNat sc = max 0 (min 254 (e - emax + 127)) ∧
        ∀ j < 32, Narrow f e4nan ((x j).scale (127 - Int.ofNat sc)) (g j)) := by
  intro bad zero top
  have hpos := Nat.two_pow_pos (f.magBits + 1)
  have hbad : (((List.range 32).map x).any fun v => v.isNan || v.isInf) = true ↔ bad := by simp [bad]
  by_cases hb : bad
  · exact ⟨255, fun _ => 0, by rw [mxPack, if_pos (hbad.2 hb), List.map_map]; rfl, by norm_num, fun _ => hpos,
      fun _ => ⟨rfl, fun _ _ => rfl⟩, fun h => absurd hb h, fun h => absurd hb h⟩
  have hfin (j : Nat) (_ : 0 ≤ j) (hj : j < 32) : (x j).isFin = true ∧ (x j).plain = true := ⟨isFin_of_not_bad hb hj, hx j⟩
  rcases hm : maxLog ((List.range 32).map x) with _ | e
  · refine ⟨127, fun _ => 0, by rw [mxPack, if_neg (mt hbad.1 hb), hm, List.map_map]; rfl, by norm_num, fun _ => hpos,
      fun h => absurd h hb, fun _ _ => ⟨rfl, fun _ _ => rfl⟩, fun _ e ht => ?_⟩
    have := (holds_all x).maxLog_top hfin ht
    rw [hm] at this; cases this
  · refine ⟨(max 0 (min 254 (e - emax + 127))).toNat,
      fun j => (fpround f .rne ((x j).scale (127 - max 0 (min 254 (e - emax + 127)))) e4nan).1,
      by rw [mxPack, if_neg (mt hbad.1 hb), hm, List.map_map]; rfl, by omega, fun j => fpround_lt ok _ _ _,
      fun h => absurd h hb, fun _ h0 => ?_, fun _ e' ht => ?_⟩
    · have := (holds_all x).maxLog_zero hfin h0
      rw [hm] at this; cases this
    · have := (holds_all x).maxLog_top hfin ht
      obtain rfl : e = e' := by rw [hm] at this; exact Option.some.inj this
      have hsc : Int.ofNat (max 0 (min 254 (e - emax + 127))).toNat = max 0 (min 254 (e - emax + 127)) :=
        Int.toNat_of_nonneg (le_max_left _ _)
      rw [hsc]
      exact ⟨rfl, fun j _ => fpround_narrow ok e4nan (by simp [hx j])⟩

theorem packs_mx {fc : Nat} (h1 : ¬fc ≤ 1) (h : fc ≤ 6) (e4nan : Bool) (r : VReg) : Packs fc e4nan r (packReg fc e4nan r) := by
  obtain ⟨ok, hw, hw8, hm⟩ := packFmt_ok h
  obtain ⟨sc, g, hp, hsc, hg, hbad, hzero, htop⟩ := mxPack_cases ok (packFmt fc).2.1 e4nan (plain_laneFp r)
  obtain ⟨hn, hhi, hlo, hel⟩ := mx_fields hw8 hsc g
  have hr : (packReg fc e4nan r).toNat = packBits (packFmt fc).2.2 ((List.range 32).map g) + sc * 2 ^ 1016 := by
    rw [← hn, packReg_eq, hm, if_neg h1, if_pos h, hp]
  have hel' (j : Nat) (hj : j < 32) := (hel j hj).trans (Nat.mod_eq_of_lt (hw ▸ hg j))
  simp only [Packs, if_neg h1, if_pos h, hr, hhi, hlo, Nat.zero_add]
  refine ⟨packBits_range_lt _ g, fun hb => ?_, fun hb h0 => ?_, fun hb e ht => ?_⟩
  · obtain ⟨hs, hz⟩ := hbad hb
    exact ⟨hs, fun j hj => (hel' j hj).trans (hz j hj)⟩
  · obtain ⟨hs, hz⟩ := hzero hb h0
    exact ⟨hs, fun j hj => (hel' j hj).trans (hz j hj)⟩
  · obtain ⟨hs, hz⟩ := htop hb e ht
    exact ⟨hs, fun j hj => by rw [hel' j hj]; exact hz j hj⟩

/-! ### TX blocks packed (R36, R37) -/

/-- The number of a TX block with exponent byte e, sub-block shifts σ and elements g. -/
def txBlock (w e : Nat) (σ g : Nat → Nat) : Nat :=
  e + packBits 2 [σ 0, σ 1, σ 2, σ 3] * 2 ^ 8 + packBits w ((List.range 32).map g) * 2 ^ 16

theorem tx_head_lt {e : Nat} (he : e < 256) (σ : Nat → Nat) : e + packBits 2 [σ 0, σ 1, σ 2, σ 3] * 2 ^ 8 < 2 ^ 16 :=
  add_mul_two_pow_lt (k := 8) (j := 8) he (packBits_lt 2 _)

theorem txBlock_lt (w : Nat) {e : Nat} (he : e < 256) (σ g : Nat → Nat) : txBlock w e σ g < 2 ^ (16 + 32 * w) := by
  rw [Nat.add_comm]; exact add_mul_two_pow_lt (tx_head_lt he σ) (packBits_range_lt w g)

theorem txBlock_exponent (w : Nat) {e : Nat} (he : e < 256) (σ g : Nat → Nat) : txBlock w e σ g % 256 = e := by
  unfold txBlock; omega

theorem txBlock_shift (w : Nat) {e : Nat} (he : e < 256) (σ g : Nat → Nat) {i : Nat} (hi : i < 4) :
    txBlock w e σ g / 2 ^ (8 + 2 * i) % 4 = σ i % 4 := by
  rw [txBlock, show (4 : Nat) = 2 ^ 2 from rfl, low_bits _ _ (by omega), high_bits _ _ he, packBits_get 2 _ (by simpa using hi)]
  congr 1
  interval_cases i <;> rfl

theorem txBlock_element (w : Nat) {e : Nat} (he : e < 256) (σ g : Nat → Nat) {j : Nat} (hj : j < 32) :
    txBlock w e σ g / 2 ^ (16 + w * j) % 2 ^ w = g j % 2 ^ w := by
  rw [txBlock, high_bits _ _ (tx_head_lt he σ), packBits_range_get w g hj]

/-- The shift of the sub-block i in a block of exponent byte ee (R37). -/
def txShift (xs : List Val) (ee : Int) (i : Nat) : Nat :=
  match maxLog ((xs.drop (8 * i)).take 8) with
  | none => 3
  | some b => (max 0 (min 3 (ee - 127 - b))).toNat

/-- An element of a TX block in units 2^k, saturated (R36, R37). -/
def txElement (w : Nat) (k : Int) (v : Val) : Nat :=
  (BitVec.ofInt w (max (-(2 ^ (w - 1) - 1)) (min (2 ^ (w - 1) - 1) (toInteger .rne (v.scale (-k))).1))).toNat

theorem txShift_lt (xs : List Val) (ee : Int) (i : Nat) : txShift xs ee i < 4 := by
  unfold txShift; split <;> omega

theorem txElement_rounding {w : Nat} (hw : 2 ≤ w) (k : Int) {v : Val} (hf : v.isFin = true) (hp : v.plain = true) :
    ∃ q : ℤ, Rounding .rne whole ((v.rat / 2 ^ k : ℚ) : ℝ) (q : ℚ) ∧
      (BitVec.ofNat w (txElement w k v % 2 ^ w)).toInt = max (-(2 ^ (w - 1) - 1)) (min (2 ^ (w - 1) - 1) q) := by
  refine ⟨(toInteger .rne (v.scale (-k))).1, ?_, ?_⟩
  · have h := (toInteger_rounding .rne (v := v.scale (-k)) (by cases v <;> simp_all [Val.scale, Val.isFin]) (by simpa using hp)).1
    rwa [Val.rat_scale, zpow_neg, ← div_eq_mul_inv] at h
  · have hpos : (0 : ℤ) < 2 ^ (w - 1) := by positivity
    rw [txElement, Nat.mod_eq_of_lt (BitVec.isLt _), BitVec.ofNat_toNat, BitVec.setWidth_eq,
      BitVec.toInt_ofInt_eq_self (by omega) (by omega) (by omega)]

theorem mapIdx_map_range {α β : Type} (n : Nat) (x : Nat → α) (g : Nat → α → β) :
    ((List.range n).map x).mapIdx g = (List.range n).map fun j => g j (x j) := by
  apply List.ext_getElem <;> simp

theorem txPack_some {w : Nat} {x : Nat → Val} (hb : ¬(((List.range 32).map x).any fun v => v.isNan || v.isInf) = true) {e ee : Int}
    (hm : maxLog ((List.range 32).map x) = some e) (hee : max 0 (min 254 (e + 127)) = ee) :
    txPack w ((List.range 32).map x) = txBlock w ee.toNat (txShift ((List.range 32).map x) ee) fun j =>
      txElement w (ee - 127 - Int.ofNat (txShift ((List.range 32).map x) ee (j / 8)) - (Int.ofNat w - 2)) (x j) := by
  subst hee
  rw [txPack, if_neg hb, hm, txBlock, ← mapIdx_map_range 32 x fun j v => txElement w
    (max 0 (min 254 (e + 127)) - 127 - Int.ofNat (txShift ((List.range 32).map x) (max 0 (min 254 (e + 127))) (j / 8)) -
      (Int.ofNat w - 2)) v]
  rfl

theorem packFmt_tx {fc : Nat} (h : ¬fc ≤ 6) : (packFmt fc).2.2 = txBits fc := by
  obtain ⟨d, rfl⟩ : ∃ d, fc = d + 7 := ⟨fc - 7, by omega⟩
  rcases d with _ | _ | d <;> rfl

theorem txBits_bounds (fc : Nat) : 2 ≤ txBits fc ∧ txBits fc ≤ 8 := by
  unfold txBits; split <;> decide

theorem packs_tx {fc : Nat} (h : ¬fc ≤ 6) (e4nan : Bool) (r : VReg) : Packs fc e4nan r (packReg fc e4nan r) := by
  have h1 : ¬fc ≤ 1 := by omega
  obtain ⟨hw2, hw8⟩ := txBits_bounds fc
  have hr : packReg fc e4nan r = BitVec.ofNat 1024 (txPack (txBits fc) ((List.range 32).map (laneFp r))) := by
    rw [packReg_eq, if_neg h1, if_neg h]
  have small {n : Nat} (hn : n < 2 ^ (16 + 32 * txBits fc)) : (BitVec.ofNat 1024 n).toNat = n := toNat_ofNat_of_lt hn (by omega)
  have hany : (((List.range 32).map (laneFp r)).any fun v => v.isNan || v.isInf) = true ↔
    ∃ j < 32, (laneFp r j).isNan = true ∨ (laneFp r j).isInf = true := by simp
  have hpow : (255 : Nat) < 2 ^ (16 + 32 * txBits fc) :=
    lt_of_lt_of_le (by norm_num) (pow_le_pow_right₀ one_le_two (Nat.le_add_right 16 _))
  simp only [Packs, if_neg h1, if_neg h]
  rw [packFmt_tx h]
  by_cases hb : ∃ j < 32, (laneFp r j).isNan = true ∨ (laneFp r j).isInf = true
  · have hn : (packReg fc e4nan r).toNat = 255 := by rw [hr, txPack, if_pos (hany.2 hb), small hpow]
    rw [hn]
    exact ⟨hpow, fun _ => rfl, fun hn => absurd hb hn, fun hn => absurd hb hn⟩
  have hfin (j : Nat) (hj : j < 32) : (laneFp r j).isFin = true ∧ (laneFp r j).plain = true := ⟨isFin_of_not_bad hb hj, by simp⟩
  rcases hm : maxLog ((List.range 32).map (laneFp r)) with _ | e
  · have hn : (packReg fc e4nan r).toNat = 0 := by
      rw [hr, txPack, if_neg (mt hany.1 hb), hm]; exact small (lt_trans (by norm_num) hpow)
    rw [hn]
    refine ⟨lt_trans (by norm_num) hpow, fun h => absurd h hb, fun _ _ => rfl, fun _ e ht => ?_⟩
    have := (holds_all _).maxLog_top (fun j _ => hfin j) ht
    rw [hm] at this; cases this
  · obtain ⟨ee, hee⟩ : ∃ ee, max 0 (min 254 (e + 127)) = ee := ⟨_, rfl⟩
    have he : ee.toNat < 256 := by omega
    have hlt := txBlock_lt (txBits fc) he (txShift ((List.range 32).map (laneFp r)) ee)
    have hn := hr.trans (congrArg _ (txPack_some (mt hany.1 hb) hm hee))
    rw [hn, small (hlt _)]
    refine ⟨hlt _, fun h => absurd h hb, fun _ h0 => ?_, fun _ e' ht => ?_⟩
    · have := (holds_all _).maxLog_zero (fun j _ => hfin j) h0
      rw [hm] at this; cases this
    have htop := (holds_all _).maxLog_top (fun j _ => hfin j) ht
    obtain rfl : e = e' := by rw [hm] at htop; exact Option.some.inj htop
    have hex : Int.ofNat ee.toNat = ee := Int.toNat_of_nonneg (by omega)
    rw [txBlock_exponent _ he, hex]
    refine ⟨hee.symm, fun i hi => ?_, fun j hj => ?_⟩
    · rw [txBlock_shift _ he _ _ hi, Nat.mod_eq_of_lt (txShift_lt _ _ _)]
      have hsub := holds_sub (laneFp r) hi
      have hfin' (j : Nat) (_ : 8 * i ≤ j) (hj : j < 8 * i + 8) := hfin j (by omega)
      refine ⟨fun h0 => ?_, fun b hb' => ?_⟩
      · rw [txShift, hsub.maxLog_zero hfin' h0]; rfl
      · rw [txShift, hsub.maxLog_top hfin' hb']
        exact Int.toNat_of_nonneg (le_max_left _ _)
    · rw [txBlock_shift _ he _ _ (by omega), Nat.mod_eq_of_lt (txShift_lt _ _ _), txBlock_element _ he _ _ hj]
      exact txElement_rounding hw2 _ (hfin j hj).1 (hfin j hj).2

/-- VPACK's register holds the packed values, whatever the format (R35 to R37, R164). -/
theorem packs_packReg (fc : Nat) (e4nan : Bool) (r : VReg) : Packs fc e4nan r (packReg fc e4nan r) := by
  by_cases h1 : fc ≤ 1
  · exact packs_fp8 h1 e4nan r
  by_cases h : fc ≤ 6
  · exact packs_mx h1 h e4nan r
  · exact packs_tx h e4nan r

/-! ### Registers unpacked (R35, R36, R164) -/

/-- The value of element j of a register in the format fc. -/
def unpackVal (fc : Nat) (r : VReg) (j : Nat) : Val :=
  if fc ≤ 1 then value (mxFmt fc).1 (unpackBit 8 r.toNat j)
  else if fc ≤ 6 then mxValue (mxFmt fc).1 (r.toNat / 2 ^ 1016) (unpackBit (mxFmt fc).2.2 r.toNat j)
  else txValue (txBits fc) r.toNat j

theorem unpackReg_eq (fc : Nat) (r : VReg) :
    unpackReg fc r = BitVec.ofNat 1024 (packBits 32 ((List.range 32).map fun j => round32 (unpackVal fc r j))) := rfl

theorem getLane_unpackReg (fc : Nat) (r : VReg) {j : Nat} (hj : j < 32) :
    (getLane (unpackReg fc r) j).toNat = round32 (unpackVal fc r j) := by
  rw [getLane_toNat, unpackReg_eq, toNat_ofNat_of_lt (packBits_range_lt 32 _) (by norm_num), packBits_range_get 32 _ hj]
  exact Nat.mod_eq_of_lt (fpround_lt .fp32 _ _)

theorem plain_mxValue (f : Fmt) (sc code : Nat) : (mxValue f sc code).plain = true := by
  unfold mxValue
  split
  · rfl
  · rw [Val.plain_scale, plain_value]

theorem plain_txValue (w n j : Nat) : (txValue w n j).plain = true := by
  unfold txValue
  dsimp only
  split <;> rfl

theorem plain_unpackVal (fc : Nat) (r : VReg) (j : Nat) : (unpackVal fc r j).plain = true := by
  unfold unpackVal
  split
  · exact plain_value _ _
  split
  · exact plain_mxValue _ _ _
  · exact plain_txValue _ _ _

/-- The elements as the statement writes them. -/
theorem unpackVal_eq (fc : Nat) (r : VReg) {j : Nat} (hj : j < 32) : unpackVal fc r j =
    if fc ≤ 1 then value (packFmt fc).1 (r.toNat / 2 ^ (0 + (packFmt fc).2.2 * j) % 2 ^ (packFmt fc).2.2)
    else if fc ≤ 6 then
      if r.toNat / 2 ^ 1016 = 255 then .nan false
      else (value (packFmt fc).1 (r.toNat / 2 ^ (0 + (packFmt fc).2.2 * j) % 2 ^ (packFmt fc).2.2)).scale
        (Int.ofNat (r.toNat / 2 ^ 1016) - 127)
    else if r.toNat % 256 = 255 then .nan false
    else .ofInt (BitVec.ofNat (packFmt fc).2.2 (r.toNat / 2 ^ (16 + (packFmt fc).2.2 * j) % 2 ^ (packFmt fc).2.2)).toInt
      (Int.ofNat (r.toNat % 256) - 127 - Int.ofNat (r.toNat / 2 ^ (8 + 2 * (j / 8)) % 4) - (Int.ofNat (packFmt fc).2.2 - 2)) := by
  unfold unpackVal
  by_cases h1 : fc ≤ 1
  · have hw : (packFmt fc).2.2 = 8 := by interval_cases fc <;> rfl
    rw [if_pos h1, if_pos h1, (packFmt_ok (h1.trans (by omega))).2.2.2, hw, Nat.zero_add]; rfl
  by_cases h : fc ≤ 6
  · rw [if_neg h1, if_neg h1, if_pos h, if_pos h, (packFmt_ok h).2.2.2, Nat.zero_add]; rfl
  · have hs : unpackBit 2 (r.toNat / 256 % 256) (j / 8) = r.toNat / 2 ^ (8 + 2 * (j / 8)) % 4 := by
      have := low_bits (r.toNat / 2 ^ 8 % 2 ^ 8) (r.toNat / 2 ^ 8 / 2 ^ 8) (i := 2 * (j / 8)) (w := 2) (k := 8) (by omega)
      rw [Nat.mod_add_div' (r.toNat / 2 ^ 8)] at this
      rw [pow_add, ← Nat.div_div_eq_div_mul]
      exact this.symm
    rw [if_neg h1, if_neg h1, if_neg h, if_neg h, packFmt_tx h, ← hs, pow_add, ← Nat.div_div_eq_div_mul]; rfl

/-- VUNPK's register holds the values unpacked, whatever the format. -/
theorem unpacks_unpackReg (fc : Nat) (r : VReg) : Unpacks fc r (unpackReg fc r) := by
  intro j hj
  rw [getLane_unpackReg fc r hj]
  have h := finishF_floatRes .fp32 rfl .rne (plain_unpackVal fc r j)
  rw [unpackVal_eq fc r hj] at h ⊢
  exact ⟨_, h⟩

/-- A strip of VPACK or VUNPK: each half's register is as R says, from its source (R164). -/
theorem stripRuns_packed {s : State} {k : SlotN} {t : Thread} {p : Strip} (h : s.StripAt k t p) (hst : isVstore p.instr = false)
    {vd vs1 : VNum} {g : VReg → VReg} {R : VReg → VReg → Prop} (hg : ∀ r, R r (g r))
    (hres : stripRes p.instr (s.stripCtx s.subject.core t p) = wholeReg (s.stripCtx s.subject.core t p) vd vs1 g) :
    ∃ d : Bool → VReg, (∀ odd, R (t.a.halfReg vs1 odd) (d odd)) ∧
      s.StripRuns s.subject.core k t vd (if p.last then List.range (if t.paired then 64 else 32) else []) fun l w fl =>
        w = getLane (d (decide (32 ≤ l))) (l % 32) ∧ fl = 0 :=
  ⟨fun odd => g (t.a.halfReg vs1 odd), fun _ => hg _, stripRuns_wholeReg h hst hres⟩

/-! ### The obligation -/

/-- Settles O2: a strip writes what `stripRes` computes and changes nothing else; each clause is then the lemma that says what
the value computed for a lane is: the exact result rounded once, or its special case. -/
theorem floatingVectorResults : Obligations.FloatingVectorResults := by
  unfold Obligations.FloatingVectorResults
  intro s k t p ty vd vs1 vs2 kd fc hk ht hn he
  have h : s.StripAt k t p := ⟨hk, ht, hn, he⟩
  -- what the strip computes, and that it is not a store, once its instruction is known
  have res {i : Instr} (hi : p.instr = i) : stripRes p.instr (s.stripCtx s.subject.core t p) =
    stripRes i (s.stripCtx s.subject.core t p) := by rw [hi]
  have reg {i : Instr} (hi : p.instr = i) (hs : isVstore i = false) : isVstore p.instr = false := hi ▸ hs
  intro c lo act all m bits nv
  refine ⟨fun f hty hfmt => ?floats, fun hty hi hc => ?integers, ?fp32, ?blocks⟩
  case floats =>
    have hf := floatType_of hty hfmt
    have hc : ty ≠ .c32 := by rintro rfl; simp at hty
    intro v lanes sums signs compares reduces folds
    refine ⟨fun hi => ?vadd, fun hi => ?vsub, fun hi => ?vmul, fun hi => ?vfma, fun hi => ?vfms, fun hi => ?vmin, fun hi => ?vmax,
      fun hi => ?vabs, fun hi => ?vneg, fun hi => ?vceq, fun hi => ?vclt, fun hi => ?vcle, fun hi => ?vredadd, fun hi => ?vredmax,
      fun hi => ?vredmin, fun hi _ => ?vcvt⟩
    case vadd => exact stripRuns_arith (e := fun a b _ => ([], [a, b])) h (reg hi rfl) hf (res hi) (by simp +contextual)
    case vsub => exact stripRuns_arith (e := fun a b _ => ([], [a, b.flip])) h (reg hi rfl) hf (res hi) (by simp +contextual)
    case vmul => exact stripRuns_arith (e := fun a b _ => ([(a, b)], [])) h (reg hi rfl) hf (res hi) (by simp)
    case vfma => exact stripRuns_arith (e := fun a b d => ([(a, b)], [d])) h (reg hi rfl) hf (res hi) (by simp)
    case vfms => exact stripRuns_arith (e := fun a b d => ([(a, b)], [d.flip])) h (reg hi rfl) hf (res hi) (by simp)
    case vmin | vmax => exact stripRuns_minmax h (reg hi rfl) hf (res hi)
    case vabs => exact stripRuns_sign (neg := false) h (reg hi rfl) hf (res hi)
    case vneg => exact stripRuns_sign (neg := true) h (reg hi rfl) hf (res hi)
    case vceq => exact stripCompares_compare h (reg hi rfl) hfmt Val.eq_eq_same (res hi)
    case vclt => exact stripCompares_compare (fi := fun a b => decide (a < b)) h (reg hi rfl) hfmt Val.lt_eq_below (res hi)
    case vcle =>
      exact stripCompares_compare (ff := fun x y => x.lt y || x.eq y) (g := fun x y => x.below y || x.same y)
        (fi := fun a b => decide (a ≤ b)) h (reg hi rfl) hfmt (fun x y => by rw [Val.lt_eq_below, Val.eq_eq_same]) (res hi)
    case vredadd => exact stripRuns_redAdd h hf hc hi
    case vredmax | vredmin => exact stripRuns_redFold h hf (reg hi rfl) (res hi)
    case vcvt => exact stripRuns_cvt_float h hf hi
  case integers =>
    have h := stripRuns_cvt_int h hty hi
    simp only [List.mem_cons, List.not_mem_nil, or_false] at hty
    rcases hty with rfl | rfl | rfl <;> exact h
  case fp32 =>
    intro v re im parts unlessNan two sum real imag
    have hre (r : VNum) (l : Nat) : (re r l).plain = true := plain_value _ _
    have him (r : VNum) (l : Nat) : (im r l).plain = true := plain_value _ _
    refine ⟨fun hi => ?vcadd, fun hi => ?vcsub, fun hi => ?vcmul, fun hi => ?vcfma, fun hi => ?vcconj, fun hi => ?vcmag2,
      fun hi => ?vcexpj, stripRuns_redAdd_complex h, fun hi => ?vdiv, fun hi => ?vsqrt, fun hi => ?vrsqrt, fun hi => ?vrcp,
      fun hi => ?vexp2, fun hi => ?vlog2, fun hi => ?vsin, fun hi => ?vcos⟩
    case vcadd =>
      exact stripRuns_complex (f := fun m y => (fdot m [] [y.ar, y.br], fdot m [] [y.ai, y.bi])) h (reg hi rfl)
        (res hi) fun l => ⟨fdot_floatRes .fp32 rfl m (by simp [hre]) (by simp), fdot_floatRes .fp32 rfl m (by simp [him]) (by simp)⟩
    case vcsub =>
      exact stripRuns_complex (f := fun m y => (fdot m [] [y.ar, y.br.flip], fdot m [] [y.ai, y.bi.flip])) h
        (reg hi rfl) (res hi) fun l =>
          ⟨fdot_floatRes .fp32 rfl m (by simp [hre]) (by simp), fdot_floatRes .fp32 rfl m (by simp [him]) (by simp)⟩
    case vcmul =>
      exact stripRuns_complex (f := fun m y => cmul m y [] []) h (reg hi rfl) (res hi) fun l =>
        cNan_res (R0 := sum real (fun _ => []) l) (R1 := sum imag (fun _ => []) l)
          ⟨fdot_floatRes .fp32 rfl m (by simp) (by simp [real]), fdot_floatRes .fp32 rfl m (by simp) (by simp [imag])⟩
    case vcfma =>
      exact stripRuns_complex (f := fun m y => cmul m y [y.cr] [y.ci]) h (reg hi rfl) (res hi) fun l =>
        cNan_res (R0 := sum real (fun l => [re vd l]) l) (R1 := sum imag (fun l => [im vd l]) l)
          ⟨fdot_floatRes .fp32 rfl m (by simp [hre]) (by simp), fdot_floatRes .fp32 rfl m (by simp [him]) (by simp)⟩
    case vcconj =>
      refine stripRuns_complex (f := fun _ y => ((y.ar, snanFlag [y.ar]), (y.ai.flip, snanFlag [y.ai]))) h (reg hi rfl) (res hi)
        fun l => ⟨finishF_floatRes .fp32 rfl m (hre vs1 l), ?_⟩
      have hfl : snanFlag [im vs1 l] = snanFlag [(im vs1 l).flip] := by simp [snanFlag]
      exact hfl ▸ finishF_floatRes .fp32 rfl m ((Val.plain_flip _).trans (him vs1 l))
    case vcmag2 =>
      exact stripRuns_complex
        (f := fun m y => cNan [y.ar, y.ai] (fdot m [(y.ar, y.ar), (y.ai, y.ai)] [], (.zero false, 0))) h (reg hi rfl) (res hi) fun l =>
          cNan_res (R0 := sum (fun l => [(re vs1 l, re vs1 l), (im vs1 l, im vs1 l)]) (fun _ => []) l)
            (R1 := fun code fl => code = 0 ∧ fl = 0) ⟨fdot_floatRes .fp32 rfl m (by simp) (by simp), by simp [Val.zero]⟩
    case vcexpj =>
      exact stripRuns_complex (f := fun _ y => (cosVal y.ar, sinVal y.ar)) h (reg hi rfl) (res hi) fun l =>
        ⟨cosVal_res m _, sinVal_res m _⟩
    case vdiv => exact stripRuns_function h (reg hi rfl) (res hi) fun _ _ => divVal_res m (plain_value _ _) (plain_value _ _)
    case vsqrt => exact stripRuns_unary h (reg hi rfl) sqrtVal (res hi) fun _ => sqrtVal_res m (plain_value _ _)
    case vrsqrt => exact stripRuns_unary h (reg hi rfl) rsqrtVal (res hi) fun _ => rsqrtVal_res m (plain_value _ _)
    case vrcp => exact stripRuns_unary h (reg hi rfl) rcpVal (res hi) fun _ => rcpVal_res m (plain_value _ _)
    case vexp2 => exact stripRuns_unary h (reg hi rfl) exp2Fn (res hi) fun _ => exp2Fn_res m (plain_value _ _)
    case vlog2 => exact stripRuns_unary h (reg hi rfl) log2Val (res hi) fun _ => log2Val_res m _
    case vsin => exact stripRuns_unary h (reg hi rfl) sinVal (res hi) fun _ => sinVal_res m _
    case vcos => exact stripRuns_unary h (reg hi rfl) cosVal (res hi) fun _ => cosVal_res m _
  case blocks =>
    exact ⟨fun hi => stripRuns_packed (R := Packs fc.val _) h (reg hi rfl) (packs_packReg fc.val _) (res hi),
      fun hi => stripRuns_packed (R := Unpacks fc.val) h (reg hi rfl) (unpacks_unpackReg fc.val) (res hi)⟩

end Sys2Proof.Machine
end

section
/-! What translating and fetching leave alone (R190 to R198): they change caches, line counts and the A and D bits of tables,
never a context, a queue or a partition. -/

namespace Sys2Proof.Machine

/-- From s to s' only caches, line counts, event counts and memory may have changed. -/
structure State.CachesOnly (s s' : State) : Prop where
  ctx : ∀ c, (s'.core c).c = (s.core c).c
  part : ∀ c, (s'.core c).part = (s.core c).part
  cycle : ∀ c, (s'.core c).cycle = (s.core c).cycle
  cq : ∀ n, (s'.cluster n).cq = (s.cluster n).cq
  parts : s'.parts = s.parts
  curWord : s'.curWord = s.curWord
  posted : s'.posted = s.posted

namespace State.CachesOnly

theorem refl (s : State) : s.CachesOnly s := ⟨fun _ => rfl, fun _ => rfl, fun _ => rfl, fun _ => rfl, rfl, rfl, rfl⟩

theorem trans {s s1 s2 : State} (h : s.CachesOnly s1) (h' : s1.CachesOnly s2) : s.CachesOnly s2 :=
  ⟨fun c => (h'.ctx c).trans (h.ctx c), fun c => (h'.part c).trans (h.part c), fun c => (h'.cycle c).trans (h.cycle c),
    fun n => (h'.cq n).trans (h.cq n), h'.parts.trans h.parts, h'.curWord.trans h.curWord, h'.posted.trans h.posted⟩

theorem foldl {α : Type} {f : State → α → State} (h : ∀ (s : State) (a : α), s.CachesOnly (f s a)) (l : List α) (s : State) :
    s.CachesOnly (l.foldl f s) := by
  induction l generalizing s with
  | nil => exact refl s
  | cons a l ih => exact (h s a).trans (ih _)

theorem modCore (s : State) (c : Nat) {f : Core → Core}
    (h : ∀ x, (f x).c = x.c ∧ (f x).part = x.part ∧ (f x).cycle = x.cycle) : s.CachesOnly (s.modCore c f) := by
  refine ⟨fun d => ?_, fun d => ?_, fun d => ?_, fun _ => rfl, rfl, rfl, rfl⟩ <;>
  · by_cases hd : d = c
    · subst hd; simp [h]
    · rw [State.core_modCore_ne _ _ hd]

theorem cluster_modCluster_cq (s : State) (n m : Nat) {f : Cluster → Cluster} (h : ∀ x, (f x).cq = x.cq) :
    ((s.modCluster n f).cluster m).cq = (s.cluster m).cq := by
  by_cases hd : m = n
  · subst hd; simp [State.modCluster, State.cluster, Table.getD_set_same, h]
  · simp [State.modCluster, State.cluster, Table.getD_set_ne _ _ _ hd]

theorem modCluster (s : State) (n : Nat) {f : Cluster → Cluster} (h : ∀ x, (f x).cq = x.cq) :
    s.CachesOnly (s.modCluster n f) :=
  ⟨fun _ => rfl, fun _ => rfl, fun _ => rfl, fun m => cluster_modCluster_cq s n m h, rfl, rfl, rfl⟩

theorem modDie (s : State) (d : Nat) (f : Die → Die) : s.CachesOnly (s.modDie d f) :=
  ⟨fun _ => rfl, fun _ => rfl, fun _ => rfl, fun _ => rfl, rfl, rfl, rfl⟩

theorem poke (s : State) (key : Nat) (bs : List Byte) : s.CachesOnly (s.poke key bs) :=
  ⟨fun _ => rfl, fun _ => rfl, fun _ => rfl, fun _ => rfl, rfl, rfl, rfl⟩

/-- Taking a free value (R188, R194). -/
theorem freeN (s : State) (n : Nat) : s.CachesOnly { s with freeN := n } :=
  ⟨fun _ => rfl, fun _ => rfl, fun _ => rfl, fun _ => rfl, rfl, rfl, rfl⟩

theorem slot {s s' : State} (h : s.CachesOnly s') (c : Nat) (k : SlotN) : s'.slot c k = s.slot c k := by
  simp only [State.slot, h.ctx]

theorem thr {s s' : State} (h : s.CachesOnly s') (c : Nat) (k : SlotN) : s'.thr c k = s.thr c k := by
  simp only [State.thr, h.slot]

theorem queue {s s' : State} (h : s.CachesOnly s') (q : QRef) : s'.queue q = s.queue q := by
  cases q <;> simp only [State.queue, h.ctx, h.cq]

end State.CachesOnly

theorem cachesOnly_noteLine (s : State) (cl line : Nat) : s.CachesOnly (s.noteLine cl line) := by
  unfold State.noteLine
  dsimp only
  split
  · exact .refl s
  split
  · exact .refl s
  split
  · exact .refl s
  · exact .modDie _ _ _

theorem cachesOnly_fillMicro (s : State) (c : Nat) (micro : Bool) (e : TlbEntry) : s.CachesOnly (s.fillMicro c micro e) := by
  unfold State.fillMicro
  split
  · exact .modCore s c fun _ => ⟨rfl, rfl, rfl⟩
  · exact .refl s

theorem cachesOnly_noteWalk (s : State) (cl : Nat) (t : Trans) : s.CachesOnly (s.noteWalk cl t) :=
  .foldl (fun s a => cachesOnly_noteLine s cl (a / 64)) _ s

theorem cachesOnly_orPte (s : State) (a v : Nat) : s.CachesOnly (s.orPte a v) := .poke _ _ _

theorem cachesOnly_touch (s : State) (t : Trans) (store : Bool) : s.CachesOnly (s.touch t store) := by
  have sets (s : State) (p : Prop) [Decidable p] (a v : Nat) : s.CachesOnly (if p then s else s.orPte a v) := by
    split
    · exact .refl s
    · exact cachesOnly_orPte s a v
  have hs := State.CachesOnly.foldl (fun s a => sets s ((s.num a 8).testBit 5 = true) a 0x20) t.touched s
  exact (hs.trans (sets _ _ _ _)).trans (sets _ _ _ _)

theorem cachesOnly_translate (s : State) (p : Part) (c : Nat) (micro : Bool) (va : Nat) (need : Need) :
    s.CachesOnly (s.translate p c micro va need).1 := by
  unfold State.translate
  extract_lets n cl fresh use walked same serves inCluster
  clear_value fresh same serves
  have huse (s : State) (e : TlbEntry) : s.CachesOnly (use s e).1 := by
    simp only [use]
    split
    · exact .refl s
    split <;> exact .refl s
  have hwalked (s : State) : s.CachesOnly (walked s).1 := by
    simp only [walked]
    split
    · exact .refl s
    · split
      · exact cachesOnly_noteWalk _ _ _
      · refine (cachesOnly_noteWalk s cl _).trans (.trans (.modCluster _ cl ?_)
          (.trans (cachesOnly_fillMicro _ _ _ _) (.trans (cachesOnly_touch _ _ _) (huse _ _))))
        exact fun _ => rfl
  have hcluster (s : State) : s.CachesOnly (inCluster s).1 := by
    simp only [inCluster]
    split
    · exact hwalked s
    split
    · exact (cachesOnly_fillMicro _ _ _ _).trans (huse _ _)
    split
    · exact (State.CachesOnly.freeN _ _).trans ((cachesOnly_fillMicro _ _ _ _).trans (huse _ _))
    · exact (State.CachesOnly.freeN _ _).trans (hwalked _)
  split
  · exact hcluster s
  split
  · exact huse s _
  split
  · exact (State.CachesOnly.freeN _ _).trans (huse _ _)
  · exact (State.CachesOnly.freeN _ _).trans (hcluster _)

theorem cachesOnly_resolve (s : State) (c a : Nat) (need : Need) (micro : Bool) :
    s.CachesOnly (s.resolve c a need micro).1 := by
  unfold State.resolve
  dsimp only
  split
  case h_7 va _ =>
    split
    · exact .refl s
    · next p _ =>
      have h := cachesOnly_translate s p c micro va need
      split <;> rename_i heq <;> rw [heq] at h
      · exact h
      split
      · exact h
      split
      · exact h
      split <;> exact h
  all_goals exact .refl s

theorem cachesOnly_sampled (s : State) (part c pa n : Nat) : s.CachesOnly (s.sampled part c pa n).1 := by
  unfold State.sampled
  extract_lets cl line cut now good refill
  have hrefill (s : State) : s.CachesOnly (refill s).1 := by
    simp only [refill]
    have hc : s.CachesOnly (s.modCore c fun x => x.countEv 10) := .modCore s c fun _ => ⟨rfl, rfl, rfl⟩
    split
    · refine hc.trans (.trans (.modCluster _ cl ?_) (cachesOnly_noteLine _ _ _))
      exact fun _ => rfl
    · exact hc
  split
  · exact hrefill s
  · dsimp only
    split
    · exact .refl s
    split
    · exact .freeN _ _
    · exact (State.CachesOnly.freeN _ _).trans (hrefill _)

theorem cachesOnly_sampleAt (s : State) (c a n : Nat) (need : Need) (micro : Bool) :
    s.CachesOnly (s.sampleAt c a n need micro).1 := by
  unfold State.sampleAt
  split
  · exact .refl s
  · next p _ =>
    split
    · exact .refl s
    · have h := cachesOnly_resolve s c a need micro
      split <;> rename_i heq <;> rw [heq] at h
      · exact h
      · have h' := cachesOnly_sampled (s.resolve c a need micro).1 p.cfg.part c (by assumption : Target).key n
        rw [heq] at h'
        split <;> rename_i heq' <;> rw [heq'] at h' <;> exact h.trans h'

theorem cachesOnly_fetchWord (s : State) (c a : Nat) : s.CachesOnly (s.fetchWord c a).1 := by
  unfold State.fetchWord
  split
  · exact .refl s
  · have h := cachesOnly_sampleAt s c a 4 .fetch true
    split <;> rename_i heq <;> rw [heq] at h <;> exact h

theorem cachesOnly_bodyEnd (s : State) (c n a : Nat) : s.CachesOnly (s.bodyEnd c n a).1 := by
  induction n generalizing s a with
  | zero => exact .refl s
  | succ n ih =>
    unfold State.bodyEnd
    have h := cachesOnly_fetchWord s c a
    split <;> rename_i heq <;> rw [heq] at h
    · exact h
    · exact h.trans (ih _ _)

end Sys2Proof.Machine
end

section
/-! The proof of O14: which slots may issue an instruction (R52 to R54, R118). -/

namespace Sys2Proof.Machine

/-- An instruction that its slot may not issue is illegal before anything else of it is looked at (R117). -/
theorem run_illegal {s : State} {c : Nat} {k : SlotN} {t : Thread} {f : Form} (h : s.At c k t) (hw : f.who.allows k = false)
    (ht : t.trapReady = true) (body : Body) (len : Nat) :
    run f body s len = .next (s.takeTrap c k { cause := 2, val := s.curWord.setWidth 64 }) := by
  obtain ⟨rfl, rfl, hs⟩ := h
  simp [run, hs, Slot.thread?, runAt, issue, hw, illegal, trap_ready hs ht]

/-- Settles O14: only the instructions of one kind of slot have a `who` that a slot can fail, and each of them runs with it. -/
theorem slotPrivilege : Obligations.SlotPrivilege := by
  unfold Obligations.SlotPrivilege
  intro i s c k t h hw ht
  cases i
  case spawn | mspawn | migr | retire | pairon | pairoff | cpyiss | trpop | xrdt | xwrt | xresume | xkill | tcswap | ptserve
      | csrrw | csrrs | csrrc | csrrwi | csrrsi | csrrci =>
    exact run_illegal h hw ht _ _
  all_goals exact absurd hw (by simp [whoOf, Who.allows])

end Sys2Proof.Machine
end

section
/-! The proof of O56: a step answers a next state (log entry 80; R48). -/

namespace Sys2Proof.Machine

/-- The outcome is a next state. -/
def Answers (o : Out) : Prop := ∃ t, o = .next t

theorem answers_next (s : State) : Answers (.next s) := ⟨s, rfl⟩

theorem Answers.thenDo {o : Out} (h : Answers o) (f : State → State) : Answers (thenDo o f) := by
  obtain ⟨t, rfl⟩ := h
  exact answers_next _

/-! ### What an instruction or a device step answers -/

theorem onThread_answers (s : State) (f : Nat → SlotN → Thread → State) : Answers (onThread s f) := by
  unfold onThread
  dsimp only
  split <;> exact answers_next _

theorem mgmtOp_answers (s : State) (mine : Nat → Word → Word → Bool) (f : State → Part → Word → Word → State × Nat) :
    Answers (mgmtOp s mine f) := by
  unfold mgmtOp
  split
  · exact answers_next _
  split
  · exact answers_next _
  split
  · exact answers_next _
  split <;> exact answers_next _

/-- Steps of the matrix engine, the banks, Tongs and the traversal unit: every case of their conditions answers a next state. -/
theorem exec_engine_answers (s : State) {i : Instr}
    (h : i ∈ [.mbldExecute, .mzeroExecute, .mstoreExecute, .saddBankUpdate, .crucibleRowError, .taskDelivery, .taskSteal,
      .tasksExhausted, .tongsSpillFault, .heldSeedEntry, .childRayStart, .rayCandidate, .stackRestart, .rayEnd, .rayFault]) :
    Answers (exec i s) := by
  simp only [List.mem_cons, List.not_mem_nil, or_false] at h
  rcases h with rfl | rfl | rfl | rfl | rfl | rfl | rfl | rfl | rfl | rfl | rfl | rfl | rfl | rfl | rfl
  all_goals
    delta exec
    simp only [execMbldExecute, execMzeroExecute, execMstoreExecute, execSaddBankUpdate, execCrucibleRowError, execTaskDelivery,
      execTaskSteal, execTasksExhausted, execTongsSpillFault, execHeldSeedEntry, execChildRayStart, execRayCandidate,
      execStackRestart, execRayEnd, execRayFault]
    repeat' split
  all_goals exact answers_next _

/-- Steps of the waits of threads, the detector, Prefect, launches, packets and slots: every case of their conditions answers a next state. -/
theorem exec_thread_answers (s : State) {i : Instr}
    (h : i ∈ [.replyArrival, .timingErrorReplay, .replayRateReport, .waitLimitExpiry, .barrierTimeout, .gangTimeout, .deferredTrap,
      .deadlockPass, .prefectSample, .launchEntryRead, .launchPlacement, .priorityPromotion, .launchCompletion,
      .migrantParkSwap, .slotRemoval, .slotReturn]) :
    Answers (exec i s) := by
  simp only [List.mem_cons, List.not_mem_nil, or_false] at h
  rcases h with rfl | rfl | rfl | rfl | rfl | rfl | rfl | rfl | rfl | rfl | rfl | rfl | rfl | rfl | rfl | rfl
  all_goals
    delta exec
    simp only [execReplyArrival, execTimingErrorReplay, execReplayRateReport, execWaitLimitExpiry, execBarrierTimeout, execGangTimeout,
      execDeferredTrap, execDeadlockPass, execPrefectSample, execLaunchEntryRead, execLaunchPlacement, execPriorityPromotion,
      execLaunchCompletion, execMigrantParkSwap, execSlotRemoval, execSlotReturn]
    repeat' split
  all_goals exact answers_next _

/-- Steps of chunks, posted operations, messages, copies and barrier signals: every case of their conditions answers a next state. -/
theorem exec_commit_answers (s : State) {i : Instr}
    (h : i ∈ [.chunkLimitClose, .chunkCommit, .commitTokenGrant, .postedOpArrival, .postedAck, .queuePushPerform, .messageDepart,
      .messageArrival, .copyJobStart, .copyJobComplete, .barrierArrivalSignal, .barrierReleaseSignal]) :
    Answers (exec i s) := by
  simp only [List.mem_cons, List.not_mem_nil, or_false] at h
  rcases h with rfl | rfl | rfl | rfl | rfl | rfl | rfl | rfl | rfl | rfl | rfl | rfl
  all_goals
    delta exec
    simp only [execChunkLimitClose, execChunkCommit, execCommitTokenGrant, execPostedOpArrival, execPostedAck, execQueuePushPerform,
      execMessageDepart, execMessageArrival, execCopyJobStart, execCopyJobComplete, execBarrierArrivalSignal,
      execBarrierReleaseSignal]
    repeat' split
  all_goals exact answers_next _

/-- Steps of walks, invalidations, migrating lines, shared lines, scrubbing and budgets: every case of their conditions answers a next state. -/
theorem exec_memory_answers (s : State) {i : Instr}
    (h : i ∈ [.pageWalk, .stage2Repair, .stage2Refusal, .tlbInvalidateRange, .tlbInvalidateAll, .tlbInvalidateNonglobal,
      .rootRereadInvalidate, .lineMigration, .samplerInvalidate, .shOwnershipRequest, .shInvalidationReceive,
      .shInvalidationApply, .pageConsolidation, .patrolScrub, .budgetPeriod]) :
    Answers (exec i s) := by
  simp only [List.mem_cons, List.not_mem_nil, or_false] at h
  rcases h with rfl | rfl | rfl | rfl | rfl | rfl | rfl | rfl | rfl | rfl | rfl | rfl | rfl | rfl | rfl
  all_goals
    delta exec
    simp only [execPageWalk, execStage2Repair, execStage2Refusal, execTlbInvalidateRange, execTlbInvalidateAll,
      execTlbInvalidateNonglobal, execRootRereadInvalidate, execLineMigration, execSamplerInvalidate, execShOwnershipRequest,
      execShInvalidationReceive, execShInvalidationApply, execPageConsolidation, execPatrolScrub, execBudgetPeriod]
    repeat' split
  all_goals exact answers_next _

/-- Steps of requests of a partition, the host, the ports, links, domains, partitions and their switches: every case of their conditions answers a next state. -/
theorem exec_outside_answers (s : State) {i : Instr}
    (h : i ∈ [.modeTableRequest, .portControlRequest, .ueMessageReceive, .ueDeliveryFailure, .hostWrite, .hostRead, .cxlMemAccess,
      .linkPortFailure, .moduleLoss, .domainFormation, .moduleReset, .timeSynchronisation, .linkRetransmission,
      .partitionCreate, .timeSliceExpiry, .partitionSwitch]) :
    Answers (exec i s) := by
  simp only [List.mem_cons, List.not_mem_nil, or_false] at h
  rcases h with rfl | rfl | rfl | rfl | rfl | rfl | rfl | rfl | rfl | rfl | rfl | rfl | rfl | rfl | rfl | rfl
  all_goals
    delta exec
    simp only [execModeTableRequest, execPortControlRequest, execUeMessageReceive, execUeDeliveryFailure, execHostWrite, execHostRead,
      execCxlMemAccess, execLinkPortFailure, execModuleLoss, execDomainFormation, execModuleReset, execTimeSynchronisation,
      execLinkRetransmission, execPartitionCreate, execTimeSliceExpiry, execPartitionSwitch]
    repeat' split
  all_goals exact answers_next _

/-- Steps of power, idle rows, budgeted activities, held records and stall maps, Anvil and debug: every case of their conditions answers a next state. -/
theorem exec_power_answers (s : State) {i : Instr}
    (h : i ∈ [.powerCapExceeded, .efficiencyDividerStep, .rowPowerOff, .rowPowerOn, .idleRowVoltageDrop, .inFieldTest, .ballast,
      .stallMapCapture, .stampHoldRelease, .traceHeldRecordDrain, .keyExchange, .debugUnlock, .debugStop, .debugResume,
      .debugSingleStep, .debugStepToIdle, .debugGangStop, .debugStateRead, .debugCounterAccess, .debugSessionExpiry]) :
    Answers (exec i s) := by
  simp only [List.mem_cons, List.not_mem_nil, or_false] at h
  rcases h with rfl | rfl | rfl | rfl | rfl | rfl | rfl | rfl | rfl | rfl | rfl | rfl | rfl | rfl | rfl | rfl | rfl | rfl | rfl | rfl
  all_goals
    delta exec
    simp only [execPowerCapExceeded, execEfficiencyDividerStep, execRowPowerOff, execRowPowerOn, execIdleRowVoltageDrop, execInFieldTest,
      execBallast, execStallMapCapture, execStampHoldRelease, execTraceHeldRecordDrain, execKeyExchange, execDebugUnlock,
      execDebugStop, execDebugResume, execDebugSingleStep, execDebugStepToIdle, execDebugGangStop, execDebugStateRead,
      execDebugCounterAccess, execDebugSessionExpiry]
    repeat' split
  all_goals exact answers_next _

/-- Every instruction and every step of the device answers a next state: an instruction of a thread by `run_next`, a step by the
lemma of its unit, and one without conditions by its meaning. -/
theorem exec_answers (i : Instr) (s : State) : Answers (exec i s) := by
  cases i
  case csrWrite | vstatCsrWrite | repeatCsrWrite | dldetCsrWrite | stripExecute | stripComplete =>
    delta exec
    simp only [execCsrWrite, execVstatCsrWrite, execRepeatCsrWrite, execDldetCsrWrite, execStripExecute, execStripComplete]
    exact onThread_answers s _
  case mgmtSlot0Resume | mgmtSlot0Kill | debugSessionOpen | debugSessionClose | debugSessionStep | eventCounterSelect =>
    delta exec
    simp only [execMgmtSlot0Resume, execMgmtSlot0Kill, execDebugSessionOpen, execDebugSessionClose, execDebugSessionStep,
      execEventCounterSelect]
    exact mgmtOp_answers s _ _
  case mbldExecute | mzeroExecute | mstoreExecute | saddBankUpdate | crucibleRowError | taskDelivery | taskSteal | tasksExhausted
      | tongsSpillFault | heldSeedEntry | childRayStart | rayCandidate | stackRestart | rayEnd | rayFault =>
    exact exec_engine_answers s (by simp)
  case replyArrival | timingErrorReplay | replayRateReport | waitLimitExpiry | barrierTimeout | gangTimeout | deferredTrap |
      deadlockPass | prefectSample | launchEntryRead | launchPlacement | priorityPromotion | launchCompletion | migrantParkSwap
      | slotRemoval | slotReturn =>
    exact exec_thread_answers s (by simp)
  case chunkLimitClose | chunkCommit | commitTokenGrant | postedOpArrival | postedAck | queuePushPerform | messageDepart |
      messageArrival | copyJobStart | copyJobComplete | barrierArrivalSignal | barrierReleaseSignal =>
    exact exec_commit_answers s (by simp)
  case pageWalk | stage2Repair | stage2Refusal | tlbInvalidateRange | tlbInvalidateAll | tlbInvalidateNonglobal |
      rootRereadInvalidate | lineMigration | samplerInvalidate | shOwnershipRequest | shInvalidationReceive |
      shInvalidationApply | pageConsolidation | patrolScrub | budgetPeriod =>
    exact exec_memory_answers s (by simp)
  case modeTableRequest | portControlRequest | ueMessageReceive | ueDeliveryFailure | hostWrite | hostRead | cxlMemAccess |
      linkPortFailure | moduleLoss | domainFormation | moduleReset | timeSynchronisation | linkRetransmission | partitionCreate
      | timeSliceExpiry | partitionSwitch =>
    exact exec_outside_answers s (by simp)
  case powerCapExceeded | efficiencyDividerStep | rowPowerOff | rowPowerOn | idleRowVoltageDrop | inFieldTest | ballast |
      stallMapCapture | stampHoldRelease | traceHeldRecordDrain | keyExchange | debugUnlock | debugStop | debugResume |
      debugSingleStep | debugStepToIdle | debugGangStop | debugStateRead | debugCounterAccess | debugSessionExpiry =>
    exact exec_power_answers s (by simp)
  case mgangExecute | mmaExecute | mmaOperandError | frontierRefill | migrantArrival | packetAcceptance | spillRefill |
      migratedLineEviction | launchQueueReset | partitionReset | thermalLimit | thermalRecovery | getVersion | getCapabilities |
      negotiateAlgorithms | getDigests | getCertificate | challenge | getMeasurements | finish | endSession | debugTraceControl =>
    exact answers_next _
  all_goals exact run_next _ _ s _

/-! ### What a choice answers -/

theorem Answers.soloHeld {o : Out} (h : Answers o) (s : State) (c : Nat) (k : SlotN) : Answers (s.soloHeld c k o) := by
  unfold State.soloHeld
  split
  · exact h
  split
  · exact answers_next _
  · exact h

theorem perform_answers (s : State) (i : Instr) (u : Subject) : Answers (perform s i u) := exec_answers i _

theorem issueAt_answers (s : State) (c : Nat) (k : SlotN) : Answers (issueAt s c k) := by
  unfold issueAt
  split
  · exact answers_next _
  · exact ((exec_answers _ _).soloHeld _ c k).thenDo _

theorem goOnAt_answers (s : State) (c : Nat) (k : SlotN) : Answers (goOnAt s c k) := by
  unfold goOnAt
  split
  · exact answers_next _
  · exact ((exec_answers _ _).soloHeld _ c k).thenDo _

theorem turn_answers (s : State) (c : Nat) (k : SlotN) : Answers (turn s c k) := by
  unfold turn
  dsimp only
  split
  · exact answers_next _
  split
  · exact answers_next _
  split
  · exact answers_next _
  · exact issueAt_answers _ c k

theorem stripCycle_answers (s : State) (c : Nat) (k : SlotN) : Answers (stripCycle s c k) := exec_answers .stripExecute _

theorem goAhead_answers (s : State) : Answers (goAhead s) := by
  unfold goAhead
  split
  · exact turn_answers s _ _
  split
  · exact stripCycle_answers s _ _
  · exact answers_next _

/-- Whatever is chosen, or cannot be made now, answers a next state. -/
theorem choice_answers (s : State) (m : Choice) : Answers (s.choice m) := by
  cases m with
  | turn c =>
    simp only [State.choice]
    split
    · exact turn_answers s c _
    · exact goAhead_answers s
  | strip c =>
    simp only [State.choice]
    split
    · exact stripCycle_answers s c _
    · exact goAhead_answers s
  | event i u =>
    simp only [State.choice]
    split
    · exact perform_answers s i u
    · exact goAhead_answers s
  | input =>
    simp only [State.choice]
    split
    · split
      · exact goAhead_answers _
      split
      · exact goAhead_answers s
      split
      · exact goAhead_answers s
      · exact exec_answers _ _
    · exact goAhead_answers s
  | strike key =>
    simp only [State.choice]
    split
    · split
      · exact answers_next _
      · exact goAhead_answers s
    · exact answers_next _
  | tick => exact goAhead_answers s
  | strikeLine | strikeHint | strikeTlb | strikeMicro | setWays | setBudget | flit | stall => exact answers_next _

/-- Settles O56: with every core one of the module's, what is due, an instruction that goes on and what is chosen all answer. -/
theorem stepTotal : Obligations.StepTotal := by
  unfold Obligations.StepTotal
  intro s
  cases hc : s.coresOk
  · exact .inr ⟨rfl, by simp [step, hc]⟩
  · refine .inl ?_
    show Answers (step s)
    unfold step
    rw [hc]
    split
    · contradiction
    split
    · exact (perform_answers s _ _).thenDo _
    split
    · exact (goOnAt_answers s _ _).thenDo _
    · exact (choice_answers _ _).thenDo _

end Sys2Proof.Machine
end

section
/-! The proof of O55: a step runs the instruction decoded at the pc (R48, R49, R102, R110). -/

namespace Sys2Proof.Machine

theorem wordOfBytes_bytes (w : Nat) (h : w < 2 ^ 32) :
    wordOfBytes (BitVec.ofNat 8 w) (BitVec.ofNat 8 (w / 2 ^ 8)) (BitVec.ofNat 8 (w / 2 ^ 16)) (BitVec.ofNat 8 (w / 2 ^ 24)) = w := by
  simp only [wordOfBytes, BitVec.toNat_ofNat]
  omega

/-- What the byte decoder makes of a word and its literal is what the word decoder makes of them (R102, R110). -/
theorem decodeWord_of_decode {w l : Word32} {i : Instr} {rest : List Byte} (hl : takesLiteral w.toNat = false → l = 0)
    (h : decode (bytesOfWord w.toNat ++ (if takesLiteral w.toNat then bytesOfWord l.toNat else []) ++ rest) = .ok (i, rest)) :
    decodeWord w.toNat l.toNat = .ok i := by
  have hw := wordOfBytes_bytes w.toNat w.isLt
  have hll := wordOfBytes_bytes l.toNat l.isLt
  cases ht : takesLiteral w.toNat
  · simp only [ht, bytesOfWord, List.cons_append, List.nil_append, decode, hw, Bool.false_eq_true, if_false] at h
    rw [hl ht]
    cases hd : decodeWord w.toNat 0 <;> simp [hd, Except.map] at h ⊢
    exact h
  · simp only [ht, bytesOfWord, List.cons_append, List.nil_append, decode, hw, hll, if_true] at h
    cases hd : decodeWord w.toNat l.toNat <;> simp [hd, Except.map] at h ⊢
    exact h

/-- Decoding a fetched word: its literal is fetched behind it, if it takes one (R102, R110). -/
theorem decodeAt_ok {s s' : State} {c : Nat} {k : SlotN} {w l : Word32} {i : Instr}
    (hl : if takesLiteral w.toNat then
        ({ s with curWord := w } : State).fetchWord c (((s.thr c k).a.pc.toNat + 4) % 2 ^ 64) = (s', .ok l)
      else s' = { s with curWord := w } ∧ l = 0)
    (hd : ∀ rest, decode (bytesOfWord w.toNat ++ (if takesLiteral w.toNat then bytesOfWord l.toNat else []) ++ rest) = .ok (i, rest)) :
    decodeAt s c k w = .ok s' i := by
  have hw : decodeWord w.toNat l.toNat = .ok i := decodeWord_of_decode (fun ht => by simp [ht] at hl; exact hl.2) (hd [])
  unfold decodeAt
  cases ht : takesLiteral w.toNat
  · simp only [ht, Bool.false_eq_true, if_false] at hl ⊢
    obtain ⟨rfl, rfl⟩ := hl
    rw [hw]
  · simp only [ht, if_true] at hl ⊢
    rw [hl]
    simp only [hw]

/-- A repeat whose end stands needs no fetch of its body (R415). -/
theorem endFirst_ok {s : State} {c : Nat} {k : SlotN} {t : Thread} (hs : s.thr c k = t)
    (h : t.a.endPend = false ∨ t.a.csr.count = 0) : endFirst s c k = .ok s () := by
  unfold endFirst
  rw [hs, if_pos]
  rcases h with h | h <;> simp [h]

theorem slot_chargeCore (s : State) (c d : Nat) (k : SlotN) : (s.chargeCore c).slot d k = s.slot d k := by
  have hcharge (p : Option Nat) (d : Nat) : (s.charge p).core d = s.core d := by
    unfold State.charge
    split
    · simp only [State.modPart]
      split <;> rfl
    · rfl
  by_cases hd : d = c
  · subst hd; simp [State.slot, State.chargeCore, hcharge]
  · simp [State.slot, State.chargeCore, State.core_modCore_ne _ _ hd, hcharge]

theorem slot_beginTurn (s : State) (c : Nat) (k j : SlotN) : (s.beginTurn c k).slot c j = s.slot c j := by
  rw [State.beginTurn, slot_chargeCore]
  simp [State.slot]
  rfl

/-- A runnable thread with nothing deferred and room in its chunk issues in its turn (R49, R242, R372). -/
theorem turn_issues {s : State} {c : Nat} {k : SlotN} {t : Thread} (hs : s.slot c k = .thread t) (hd : t.deferred = [])
    (hl : t.atLimit = false) : turn s c k = issueAt (s.beginTurn c k) c k := by
  simp [turn, State.thr_of_slot hs, Thread.deferReady, hd, hl]

/-- With no solo chunk open an instruction is not held (R245). -/
theorem soloHeld_none {s : State} {c : Nat} {k : SlotN} (o : Out) (h : s.soloLines = none) : s.soloHeld c k o = o := by
  simp [State.soloHeld, h]

/-- A step that nothing due comes before gives the slot chosen its turn (R48). -/
theorem step_turn {s s1 : State} {c : Nat} {k : SlotN} (hc : s.coresOk = true) (hd : s.due = none) (ha : s.againLeft = none)
    (hm : s.nextMove = (.turn c, s1)) (hk : s1.canIssue c = some k) : step s = thenDo (turn s1 c k) s.see := by
  simp only [step, hc, Bool.not_true, Bool.false_eq_true, if_false, hd, ha, hm, State.choice, hk]

/-- A step that nothing due comes before goes on with the instruction of a thread whose wait has ended (R49). -/
theorem step_again {s : State} {c : Nat} {k : SlotN} (hc : s.coresOk = true) (hd : s.due = none)
    (ha : s.againLeft = some (c, k)) : step s = thenDo (goOnAt s c k) s.see := by
  simp only [step, hc, Bool.not_true, Bool.false_eq_true, if_false, hd, ha]

/-- Settles O55: the step is the turn of the slot chosen, or the rest of an instruction whose wait has ended; either decodes
the word at the pc and performs what it decodes to. -/
theorem stepRunsDecodedInstruction : Obligations.StepRunsDecodedInstruction := by
  unfold Obligations.StepRunsDecodedInstruction
  refine ⟨?turn, ?again⟩
  case turn =>
    intro s s1 s2 s3 c k t w l i hc hdue ha hm hk hs hdef hlim hend hf hlit hdec
    refine ⟨?_, soloHeld_none _⟩
    have hb : (s1.beginTurn c k).thr c k = t := State.thr_of_slot ((slot_beginTurn s1 c k k).trans hs)
    have h2 : s2.thr c k = t := by
      have h := (cachesOnly_fetchWord (s1.beginTurn c k) c t.a.pc.toNat).thr c k
      rw [hf, hb] at h
      exact h
    rw [← h2] at hlit
    have hi : fetchInstr (s1.beginTurn c k) c k = .ok s3 i := by
      unfold fetchInstr
      rw [endFirst_ok hb hend, Got.bind_ok, hb, hf]
      exact decodeAt_ok hlit hdec
    rw [step_turn hc hdue ha hm hk, turn_issues hs hdef hlim, issueAt, hi]
  case again =>
    intro s s3 c k t l i hc hdue ha hs hend hlit hdec
    refine ⟨?_, soloHeld_none _⟩
    have ht : ({ s with cur := (c, k) } : State).thr c k = t := State.thr_of_slot hs
    have hi : decodeAt { s with cur := (c, k) } c k (({ s with cur := (c, k) } : State).thr c k).word = .ok s3 i := by
      rw [ht]
      exact decodeAt_ok (by rw [ht]; exact hlit) hdec
    rw [step_again hc hdue ha, goOnAt, endFirst_ok ht hend, Got.bind_ok, hi]

end Sys2Proof.Machine
end

section
/-! The proof of O36: vector instructions on registers enter their strips (R60, R150, R153). -/

namespace Sys2Proof.Machine

/-- A ready instruction is also ready in a form that names fewer registers. -/
theorem State.Ready.fewer {s : State} {c : Nat} {k : SlotN} {t : Thread} {f g : Form} (h : s.Ready c k t f)
    (hg : g.guard = f.guard) (hw : g.who = f.who) (hc : g.custom3 = f.custom3) (hr : g.src ++ g.dst ⊆ f.src ++ f.dst) :
    s.Ready c k t g := by
  obtain ⟨hat, hwho, hguard, hcust, hmap, hstrike⟩ := h
  exact ⟨hat, hw ▸ hwho, hg ▸ hguard, hc ▸ hcust, fun r hx => hmap r (hr hx), hstrike⟩

/-- A strip as it is issued: `vctl`, pc and chunk of its thread, and two scalar operands (R60, R150). -/
def Thread.strip (t : Thread) (now : Nat) (word : Word32) (i : Instr) (x y : Word) (odd last : Bool) : Strip :=
  { instr := i, odd := odd, vctl := t.a.csr.vctl, scalar := x, scalar2 := y, pc := t.a.pc, word := word, issued := now,
    no := t.chunkNo, away := false, done := none, flags := 0, lanes := List.replicate 5 none, last := last, els := [],
    logged := false, alone := false }

/-- The thread with the strips of an instruction on registers entered: two for a pair whose VL is above 32 (R60). -/
def Thread.withStrips (t : Thread) (now : Nat) (word : Word32) (i : Instr) (x y : Word) : Thread :=
  { t with vq := t.vq ++
      if t.paired && 32 < t.a.csr.vl then [t.strip now word i x y false false, t.strip now word i x y true true]
      else [t.strip now word i x y false true] }

theorem enqueue_registers {s : State} {c : Nat} {k : SlotN} {t : Thread} (h : s.slot c k = .thread t) (i : Instr) (x y : Word) :
    s.enqueue c k i x y [] false false = s.setThr c k (t.withStrips (s.core c).cycle s.curWord i x y) := by
  have h2 : (t.stripsFor == 2) = (t.paired && decide (32 < t.a.csr.vl)) := by
    unfold Thread.stripsFor; split <;> simp_all
  simp only [State.enqueue, State.modThr, State.thr_of_slot h, h2]
  rfl

/-- Room in the vector queue is no wait (R150). -/
theorem stripRoomWait_room {s : State} {c : Nat} {k : SlotN} {t : Thread} (h : s.slot c k = .thread t)
    (hr : t.pendingStrips + t.stripsFor ≤ 8) : stripRoomWait s c k = .ok s () := by
  simp [stripRoomWait, State.thr_of_slot h, hr, waitFor_true]

/-- What issuing a vector instruction on registers does: its strips enter the queue, and it completes, or parks under VFPEN
if it is floating (R150, R153). -/
def State.vecIssued (s : State) (c : Nat) (k : SlotN) (t : Thread) (i : Instr) (fp : Bool) (x y : Word) : State :=
  let u := t.withStrips (s.core c).cycle s.curWord i x y
  if fp && (s.core c).vfpen != 0 then
    s.setThr c k (u.parkedOn (s.core c).cycle s.curWord (.vec 0 (List.replicate 5 none)))
  else s.done c k u

/-- A thread that is written and then parks. -/
theorem State.park_setThr (s : State) (c : Nat) (k : SlotN) (t : Thread) (w : Wait) :
    (s.setThr c k t).park c k w = s.setThr c k (t.parkedOn (s.core c).cycle s.curWord w) := by
  rw [State.park, State.modThr_setThr, State.core_setThr]; rfl

/-- A thread written as completed stands as it is. -/
theorem orAgain_setThr_finish (s s2 : State) (c : Nat) (k : SlotN) (t : Thread) (next : Option Word) (len : Nat) :
    s.orAgain c k (s2.setThr c k (t.finish next len)) = s2.setThr c k (t.finish next len) :=
  orAgain_of (by simp [Thread.finish])

/-- The common body of the vector instructions on registers. -/
theorem run_vecBody {s : State} {c : Nat} {k : SlotN} {t : Thread} {f : Form} (h : s.Ready c k t f) (i : Instr) (fp : Bool)
    (x y : Word) {body : Body} (hb : body s c k =
      if fp ∧ (s.core c).vfpen ≠ 0 then .stop ((s.enqueue c k i x y [] false false).park c k (.vec 0 (List.replicate 5 none)))
      else .ok (s.enqueue c k i x y [] false false) {}) :
    run f body s = .next (s.vecIssued c k t i fp x y) := by
  rw [run_ready h, hb, enqueue_registers h.1.2.2, State.park_setThr]
  by_cases hp : fp ∧ (s.core c).vfpen ≠ 0
  · have hp' : (fp && (s.core c).vfpen != 0) = true := by simpa using hp
    simp only [if_pos hp, State.vecIssued, hp', if_true]
  · have hp' : (fp && (s.core c).vfpen != 0) = false := by simpa using hp
    simp only [if_neg hp, State.vecIssued, hp', complete_nil, State.modThr_setThr, orAgain_setThr_finish, State.done,
      Bool.false_eq_true, if_false]

/-- A vector instruction on registers with room in its queue. -/
theorem vecRun_ready {s : State} {c : Nat} {k : SlotN} {t : Thread} {src : List XReg} (h : s.Ready c k t { src := src })
    (hr : t.pendingStrips + t.stripsFor ≤ 8) (i : Instr) (fp : Bool) (x y : Thread → Word) :
    vecRun i fp s src x y = .next (s.vecIssued c k t i fp (x t) (y t)) := by
  refine run_vecBody h i fp (x t) (y t) ?_
  simp only [stripRoomWait_room h.1.2.2 hr, Got.bind_ok, State.thr_of_slot h.1.2.2]

/-- VCVT from or to any type but c32, with room in its queue. -/
theorem execVcvt_ready {s : State} {c : Nat} {k : SlotN} {t : Thread} (h : s.Ready c k t {})
    (hr : t.pendingStrips + t.stripsFor ≤ 8) (ty : VType) (vd vs1 : VNum) (hc : dtypeOf t.a.csr.vctl ≠ .c32) :
    execVcvt ty vd vs1 s =
      .next (s.vecIssued c k t (.vcvt ty vd vs1) (isFp ty || isFp (dtypeOf t.a.csr.vctl)) 0 0) := by
  refine run_vecBody h _ _ 0 0 ?_
  simp only [State.thr_of_slot h.1.2.2, if_neg hc, stripRoomWait_room h.1.2.2 hr, Got.bind_ok]

/-- VCVT with DTYPE c32 is illegal (R163). -/
theorem execVcvt_c32 {s : State} {c : Nat} {k : SlotN} {t : Thread} (h : s.Ready c k t {}) (ht : t.trapReady = true)
    (ty : VType) (vd vs1 : VNum) (hc : dtypeOf t.a.csr.vctl = .c32) :
    execVcvt ty vd vs1 s = .next (s.takeTrap c k { cause := 2, val := s.curWord.setWidth 64 }) := by
  unfold execVcvt
  rw [run_ready h]
  simp only [State.thr_of_slot h.1.2.2, if_pos hc, illegal, trap_ready h.1.2.2 ht]

/-- Settles O36: every vector instruction on registers is `vecRun` with its own scalar operands, and VCVT shares its body. -/
theorem vectorIssue : Obligations.VectorIssue := by
  unfold Obligations.VectorIssue
  intro s c k t ty vd vs1 vs2 kd ka kb rs1 rs2 fc h hr now strip issues fp x y
  have hn : s.Ready c k t {} := h.fewer rfl rfl rfl (by simp)
  have h1 : s.Ready c k t { src := [rs1] } := h.fewer rfl rfl rfl (by simp)
  have h2 : s.Ready c k t { src := [rs2] } := h.fewer rfl rfl rfl (by simp)
  have hx : t.xv rs1 = x := Thread.xv_of (h.2.2.2.2.1 rs1 (by simp))
  have hy : t.xv rs2 = y := Thread.xv_of (h.2.2.2.2.1 rs2 (by simp))
  have plain (i : Instr) (b : Bool) : vecRun i b s = .next (s.vecIssued c k t i b 0 0) := vecRun_ready hn hr i b _ _
  have bcast : exec (.vbcast ty vd rs1) s = .next (s.vecIssued c k t (.vbcast ty vd rs1) false (t.xv rs1) 0) :=
    vecRun_ready h1 hr _ _ (fun u => u.xv rs1) fun _ => 0
  have ins : exec (.vins ty vd rs1 rs2) s = .next (s.vecIssued c k t (.vins ty vd rs1 rs2) false (t.xv rs1) (t.xv rs2)) :=
    vecRun_ready h hr _ _ (fun u => u.xv rs1) fun u => u.xv rs2
  have slide : exec (.vslide ty vd vs1 rs2) s = .next (s.vecIssued c k t (.vslide ty vd vs1 rs2) false (t.xv rs2) 0) :=
    vecRun_ready h2 hr _ _ (fun u => u.xv rs2) fun _ => 0
  rw [hx] at bcast ins
  rw [hy] at ins slide
  refine ⟨?typed, ?floating, ?bits, bcast, ins, slide, fun hc => execVcvt_ready hn hr ty vd vs1 hc,
    fun hc ht => execVcvt_c32 hn ht ty vd vs1 hc⟩
  case typed | floating | bits => and_intros <;> exact plain _ _

end Sys2Proof.Machine
end

section
/-! Threads that the model starts, the detector's set and Prefect's receiver (R72, R264 to R266): parts of O51. -/

namespace Sys2Proof.Machine

/-! ### Registers and threads of a launch -/

theorem Arch.xr_setX_same (a : Arch) {r : XReg} (v : Word) (h : r ≠ 0) : (a.setX r v).xr r = v := by
  simp [Arch.xr, Arch.setX, h]

theorem Arch.xr_setX_ne (a : Arch) {r q : XReg} (v : Word) (h : q ≠ r) : (a.setX r v).xr q = a.xr q := by
  have hv : q.val ≠ r.val := fun e => h (Fin.ext e)
  unfold Arch.setX
  split
  · rfl
  · simp [Arch.xr, hv.symm]

theorem Arch.xr_reset (r : XReg) : Arch.reset.xr r = 0 := by
  simp [Arch.xr, Arch.reset]

/-- The registers that a launch gives each of its threads (R72). -/
def Launch.regs (l : Launch) (c : Nat) (k : SlotN) : Arch :=
  (((Arch.reset.setX 10 (l.d.getD 2 0)).setX 11 (l.id.setWidth 64)).setX 12 (BitVec.ofNat 64 (l.indexOf c k))).setX 13
    (BitVec.ofNat 64 l.threadCount)

theorem Launch.thread_xr (l : Launch) (d c : Nat) (k : SlotN) (r : XReg) : (l.thread d c k).a.xr r = (l.regs c k).xr r := rfl

theorem Launch.regs_10 (l : Launch) (c : Nat) (k : SlotN) : (l.regs c k).xr 10 = l.d.getD 2 0 := by
  unfold Launch.regs
  rw [Arch.xr_setX_ne, Arch.xr_setX_ne, Arch.xr_setX_ne, Arch.xr_setX_same] <;> decide

theorem Launch.regs_11 (l : Launch) (c : Nat) (k : SlotN) : (l.regs c k).xr 11 = l.id.setWidth 64 := by
  unfold Launch.regs
  rw [Arch.xr_setX_ne, Arch.xr_setX_ne, Arch.xr_setX_same] <;> decide

theorem Launch.regs_12 (l : Launch) (c : Nat) (k : SlotN) : (l.regs c k).xr 12 = BitVec.ofNat 64 (l.indexOf c k) := by
  unfold Launch.regs
  rw [Arch.xr_setX_ne, Arch.xr_setX_same] <;> decide

theorem Launch.regs_13 (l : Launch) (c : Nat) (k : SlotN) : (l.regs c k).xr 13 = BitVec.ofNat 64 l.threadCount := by
  unfold Launch.regs
  rw [Arch.xr_setX_same]
  decide

theorem Launch.regs_other (l : Launch) (c : Nat) (k : SlotN) {r : XReg} (h : r.val < 10 ∨ 14 ≤ r.val) : (l.regs c k).xr r = 0 := by
  have ne {q : XReg} (hq : 10 ≤ q.val ∧ q.val < 14) : r ≠ q := by rintro rfl; omega
  unfold Launch.regs
  rw [Arch.xr_setX_ne _ _ (ne (by decide)), Arch.xr_setX_ne _ _ (ne (by decide)), Arch.xr_setX_ne _ _ (ne (by decide)),
    Arch.xr_setX_ne _ _ (ne (by decide)), Arch.xr_reset]

/-! ### Binding the slots of a launch -/

theorem State.slot_modCore (s : State) (c d : Nat) (k : SlotN) {f : Core → Core} (h : ∀ x, (f x).c = x.c) :
    (s.modCore c f).slot d k = s.slot d k := by
  by_cases hd : d = c
  · subst hd; simp [State.slot, h]
  · simp [State.slot, State.core_modCore_ne _ _ hd]

theorem slot_bindIn_same (s : State) (c : Nat) (k : SlotN) (t : Thread) :
    (s.bindIn c k t).slot c k = .thread { t with serial := s.nextSerial c, resumedAt := (s.core c).cycle } := by
  unfold State.bindIn
  rw [State.slot_modCore _ _ _ _ (by intro; rfl), State.slot_setThr]

theorem slot_bindIn_ne (s : State) (c : Nat) {k j : SlotN} (t : Thread) (h : j ≠ k) : (s.bindIn c k t).slot c j = s.slot c j := by
  unfold State.bindIn
  rw [State.slot_modCore _ _ _ _ (by intro; rfl), State.slot_setThr_ne _ _ _ h]

theorem cycle_bindIn (s : State) (c : Nat) (k : SlotN) (t : Thread) : ((s.bindIn c k t).core c).cycle = (s.core c).cycle := by
  simp [State.bindIn]

/-- Binding threads in slots that differ: each slot holds its thread, and the others what they held. -/
theorem slot_bindAll (c : Nat) (f : SlotN → Thread) (ks : List SlotN) (hn : ks.Nodup) (s : State) (k : SlotN) :
    let s' := ks.foldl (fun s k => s.bindIn c k (f k)) s
    (k ∈ ks → ∃ n, s'.slot c k = .thread { f k with serial := n, resumedAt := (s.core c).cycle }) ∧
    (k ∉ ks → s'.slot c k = s.slot c k) := by
  induction ks generalizing s with
  | nil => simp
  | cons j js ih =>
    obtain ⟨hj, hn⟩ := List.nodup_cons.mp hn
    obtain ⟨hin, hout⟩ := ih hn (s.bindIn c j (f j))
    rw [cycle_bindIn] at hin
    refine ⟨fun hk => ?_, fun hk => ?_⟩
    · by_cases hkj : k = j
      · subst hkj
        exact ⟨s.nextSerial c, (hout hj).trans (slot_bindIn_same s c k (f k))⟩
      · exact hin ((List.mem_cons.mp hk).resolve_left hkj)
    · rw [List.mem_cons, not_or] at hk
      exact (hout hk.2).trans (slot_bindIn_ne s c (f j) hk.1)

theorem Launch.slots_nodup (l : Launch) : l.slots.Nodup := (List.nodup_finRange 8).filter _

/-! ### The detector's set -/

/-- The parties of a blocked thread all stand in a set (R264). -/
def PartiesIn (f : Node_ → Option (Word × Nat × List (Option TRef))) (ds : List Node_) (n : Node_) : Prop :=
  ∃ v b ps, f n = some (v, b, ps) ∧ ∀ p ∈ ps, ∃ r, p = some r ∧ ∃ m ∈ ds, m.ref = r

theorem PartiesIn.mono {f : Node_ → Option (Word × Nat × List (Option TRef))} {ds es : List Node_} {n : Node_}
    (h : PartiesIn f ds n) (hs : ∀ m ∈ ds, m ∈ es) : PartiesIn f es n := by
  obtain ⟨v, b, ps, hf, hp⟩ := h
  refine ⟨v, b, ps, hf, fun p hm => ?_⟩
  obtain ⟨r, hr, m, hmd, hmr⟩ := hp p hm
  exact ⟨r, hr, m, hs m hmd, hmr⟩

/-- Those of a set whose parties all stand in it. -/
def keepOf (f : Node_ → Option (Word × Nat × List (Option TRef))) (ds : List Node_) : List Node_ :=
  ds.filter fun n => match f n with
    | some (_, _, ps) => ps.all fun p => match p with
      | some r => ds.any fun m => m.ref == r
      | none => false
    | none => false

theorem mem_keepOf (f : Node_ → Option (Word × Nat × List (Option TRef))) (ds : List Node_) (n : Node_) :
    n ∈ keepOf f ds ↔ n ∈ ds ∧ PartiesIn f ds n := by
  unfold keepOf PartiesIn
  rw [List.mem_filter]
  refine and_congr_right fun _ => ?_
  cases hf : f n with
  | none => simp
  | some e =>
    obtain ⟨v, b, ps⟩ := e
    simp only [List.all_eq_true, Option.some.injEq, Prod.mk.injEq]
    constructor
    · refine fun h => ⟨v, b, ps, ⟨rfl, rfl, rfl⟩, fun p hp => ?_⟩
      cases p with
      | none => exact absurd (h _ hp) (by simp)
      | some r => exact ⟨r, rfl, by simpa using h _ hp⟩
    · rintro ⟨_, _, _, ⟨rfl, rfl, rfl⟩, h⟩ p hp
      obtain ⟨r, rfl, m, hm, hr⟩ := h p hp
      simpa using ⟨m, hm, hr⟩

theorem deadSet_succ (f : Node_ → Option (Word × Nat × List (Option TRef))) (n : Nat) (ds : List Node_) :
    deadSet f (n + 1) ds = if keepOf f ds = ds then ds else deadSet f n (keepOf f ds) := rfl

theorem keepOf_sublist (f : Node_ → Option (Word × Nat × List (Option TRef))) (ds : List Node_) : (keepOf f ds).Sublist ds :=
  List.filter_sublist

/-- With fuel for every member the detector stops at a set of the given one, closed under its parties, which holds every such
set (R264). -/
theorem deadSet_greatest (f : Node_ → Option (Word × Nat × List (Option TRef))) (n : Nat) (ds : List Node_) (h : ds.length < n) :
    (∀ m ∈ deadSet f n ds, m ∈ ds) ∧ (∀ m ∈ deadSet f n ds, PartiesIn f (deadSet f n ds) m) ∧
    ∀ D, (∀ m ∈ D, m ∈ ds) → (∀ m ∈ D, PartiesIn f D m) → ∀ m ∈ D, m ∈ deadSet f n ds := by
  induction n generalizing ds with
  | zero => omega
  | succ n ih =>
    rw [deadSet_succ]
    split
    · next he =>
      exact ⟨fun _ hm => hm, fun m hm => ((mem_keepOf f ds m).mp (he.symm ▸ hm)).2, fun D hD _ => hD⟩
    · next he =>
      have hlt : (keepOf f ds).length < ds.length :=
        lt_of_le_of_ne (keepOf_sublist f ds).length_le fun e => he ((keepOf_sublist f ds).eq_of_length e)
      obtain ⟨hin, hcl, hmax⟩ := ih (keepOf f ds) (by omega)
      refine ⟨fun m hm => (keepOf_sublist f ds).subset (hin m hm), hcl, fun D hD hc => hmax D (fun m hm => ?_) hc⟩
      exact (mem_keepOf f ds m).mpr ⟨hD m hm, (hc m hm).mono hD⟩

/-! ### Prefect -/

/-- What a fold over stages has found: the stage furthest above its threshold, the first of equals (R265). -/
def IsReceiver (ss : List Stage) : Option Stage → Prop
  | some t => t ∈ ss ∧ t.high < t.depth ∧ ∀ x ∈ ss, x.depth - x.high ≤ t.depth - t.high
  | none => ∀ x ∈ ss, x.depth ≤ x.high

theorem receiver_append (ss : List Stage) (g : Stage) : receiver (ss ++ [g]) =
    if g.depth ≤ g.high then receiver ss else match receiver ss with
      | some x => if x.depth - x.high < g.depth - g.high then some g else some x
      | none => some g := by
  unfold receiver
  rw [List.foldl_append]
  rfl

theorem isReceiver (ss : List Stage) : IsReceiver ss (receiver ss) := by
  induction ss using List.reverseRecOn with
  | nil => simp [receiver, IsReceiver]
  | append_singleton ss g ih =>
    rw [receiver_append]
    cases h : receiver ss with
    | none =>
      rw [h] at ih
      simp only [IsReceiver] at ih
      split
      · simp only [IsReceiver, List.mem_append, List.mem_singleton]
        rintro x (hx | rfl)
        · exact ih x hx
        · assumption
      · simp only [IsReceiver, List.mem_append, List.mem_singleton]
        refine ⟨.inr trivial, by omega, ?_⟩
        rintro x (hx | rfl)
        · have := ih x hx; omega
        · exact le_rfl
    | some t =>
      rw [h] at ih
      obtain ⟨hm, hlt, hmax⟩ := ih
      split
      · refine ⟨List.mem_append_left _ hm, hlt, fun x hx => ?_⟩
        rcases List.mem_append.mp hx with hx | hx
        · exact hmax x hx
        · rw [List.mem_singleton] at hx; subst hx; omega
      · dsimp only
        split
        · refine ⟨by simp, by omega, fun x hx => ?_⟩
          rcases List.mem_append.mp hx with hx | hx
          · have := hmax x hx; omega
          · rw [List.mem_singleton] at hx; subst hx; exact le_rfl
        · refine ⟨List.mem_append_left _ hm, hlt, fun x hx => ?_⟩
          rcases List.mem_append.mp hx with hx | hx
          · exact hmax x hx
          · rw [List.mem_singleton] at hx; subst hx; omega

/-- A thread that Prefect rebinds starts at the stage's pc, with its role and number (R266). -/
theorem rebind_starts {s s' : State} {c : Nat} {k : SlotN} {g t : Stage} {u : Thread} (h : s.rebind c k g t = some s')
    (hu : s'.slot c k = .thread u) : u.role = 8 + t.s ∧ u.a.pc = t.pc ∧ u.a.xr 10 = BitVec.ofNat 64 t.s := by
  unfold State.rebind at h
  extract_lets s1 out pairs s2 at h
  rw [Option.map_eq_some_iff] at h
  obtain ⟨s3, -, rfl⟩ := h
  rw [State.slot_modThr, Slot.thread.injEq] at hu
  subst hu
  exact ⟨rfl, rfl, Arch.xr_setX_same _ _ (by decide)⟩

end Sys2Proof.Machine
end

section
/-! Numbers in memory, and the completion record of a launch (R5, R73): parts of O51. -/

namespace Sys2Proof.Machine

/-! ### Numbers in memory -/

theorem length_leBytes (n v : Nat) : (leBytes n v).length = n := by
  induction n generalizing v with
  | zero => rfl
  | succ n ih => simp [leBytes, ih]

theorem leNat_leBytes (n v : Nat) : leNat (leBytes n v) = v % 256 ^ n := by
  induction n generalizing v with
  | zero => simp [leBytes, leNat, Nat.mod_one]
  | succ n ih =>
    rw [leBytes, leNat, ih, BitVec.toNat_ofNat, show 256 ^ (n + 1) = 256 * 256 ^ n from pow_succ' 256 n, Nat.mod_mul]

/-- Bytes read within a write are those written. -/
theorem Memory.readBytes_writeBytes (m : Memory) (a j n : Nat) (bs : List Byte) (h : j + n ≤ bs.length) :
    (m.writeBytes a bs).readBytes (a + j) n = (bs.drop j).take n := by
  induction n generalizing j with
  | zero => simp [readBytes]
  | succ n ih =>
    have hj : j < bs.length := by omega
    rw [readBytes, read_writeBytes_in m a j bs hj, add_assoc, ih (j + 1) (by omega), List.drop_eq_getElem_cons hj,
      List.take_succ_cons, List.getD_eq_getElem _ _ hj]

/-- A number read back at its place within a write of numbers. -/
theorem State.num_poke_mid (s : State) (key n v : Nat) (xs ys : List Byte) :
    (s.poke key (xs ++ leBytes n v ++ ys)).num (key + xs.length) n = v % 256 ^ n := by
  have h : (xs ++ leBytes n v ++ ys).drop xs.length = leBytes n v ++ ys := by simp
  show leNat ((s.mem.writeBytes key _).readBytes _ n) = _
  rw [Memory.readBytes_writeBytes _ _ _ _ _ (by simp [length_leBytes]), h, List.take_left' (length_leBytes n v), leNat_leBytes]

/-! ### The completion record -/

/-- The record of an ended launch: its stamp, its status and its id (R73). -/
def endRecord (stamp : Word) (status : Nat) (id : BitVec 32) : List Byte :=
  leBytes 8 stamp.toNat ++ leBytes 4 status ++ leBytes 4 id.toNat

theorem length_endRecord (v : Word) (st : Nat) (id : BitVec 32) : (endRecord v st id).length = 16 := by
  simp [endRecord, length_leBytes]

theorem num_endRecord_stamp (s : State) (key : Nat) (v : Word) (st : Nat) (id : BitVec 32) :
    (s.poke key (endRecord v st id)).num key 8 = v.toNat := by
  have h := s.num_poke_mid key 8 v.toNat [] (leBytes 4 st ++ leBytes 4 id.toNat)
  rwa [List.nil_append, ← List.append_assoc, Nat.mod_eq_of_lt (show v.toNat < 256 ^ 8 from v.isLt)] at h

theorem num_endRecord_status (s : State) (key : Nat) (v : Word) (st : Nat) (id : BitVec 32) :
    (s.poke key (endRecord v st id)).num (key + 8) 4 = st % 2 ^ 32 := by
  have h := s.num_poke_mid key 4 st (leBytes 8 v.toNat) (leBytes 4 id.toNat)
  rwa [length_leBytes] at h

theorem num_endRecord_id (s : State) (key : Nat) (v : Word) (st : Nat) (id : BitVec 32) :
    (s.poke key (endRecord v st id)).num (key + 12) 4 = id.toNat := by
  have h := s.num_poke_mid key 4 id.toNat (leBytes 8 v.toNat ++ leBytes 4 st) []
  rwa [List.append_nil, List.length_append, length_leBytes, length_leBytes, Nat.mod_eq_of_lt (show id.toNat < 256 ^ 4 from id.isLt)] at h

/-- A launch with a place for its record, whose stamp may be drawn and whose place is reached, writes it there (R73). -/
theorem writeEnd_writes {s s1 : State} {p : Part} {l : Launch} {key : Nat} (st : Nat) (h0 : l.f 12 0 64 ≠ 0)
    (h16 : l.f 12 0 64 % 16 = 0) (hm : s.mayStamp (l.endDie * 512) 7 = true)
    (hk : s.engineKey (p.lowCore l.endDie) (l.f 12 0 64) .store = (s1, .ok key)) :
    let d := (s1.source (l.endDie * 512) 7).draw s1.rot
    let s2 := (s1.setSource (l.endDie * 512) 7 d.2).poke key (endRecord d.1 st l.id)
    s.writeEnd p l st = (if key < 2 ^ 60 then s2.record [key / 64] else s2, true) := by
  simp only [State.writeEnd, h0, h16, hm, hk, endRecord, ne_eq, not_true, or_self, if_false, Bool.not_true, Bool.false_eq_true]

end Sys2Proof.Machine
end

section
/-! The launches of a partition through the steps of its dispatcher (R71 to R75, R407): parts of O51. -/

namespace Sys2Proof.Machine

/-! ### Partitions -/

theorem State.part?_modPart {s : State} {n : Nat} {p : Part} (f : Part → Part) (h : s.part? n = some p) :
    (s.modPart n f).part? n = some (f p) := by
  unfold State.modPart
  rw [h]
  exact Table.get?_set_same _ _ _

theorem State.part?_modPart_ne (s : State) {n m : Nat} (f : Part → Part) (h : m ≠ n) : (s.modPart n f).part? m = s.part? m := by
  unfold State.modPart
  split
  · exact Table.get?_set_ne _ _ h
  · rfl

/-- Every partition has the launches it had. -/
def LaunchesKept (s s' : State) : Prop := ∀ n, (s'.part? n).map (·.launches) = (s.part? n).map (·.launches)

namespace LaunchesKept

theorem of_parts {s s' : State} (h : s'.parts = s.parts) : LaunchesKept s s' := fun n => by rw [State.part?, h]; rfl

theorem refl (s : State) : LaunchesKept s s := fun _ => rfl

theorem trans {s s1 s2 : State} (h : LaunchesKept s s1) (h' : LaunchesKept s1 s2) : LaunchesKept s s2 :=
  fun n => (h' n).trans (h n)

theorem modPart (s : State) (n : Nat) {f : Part → Part} (h : ∀ p, (f p).launches = p.launches) : LaunchesKept s (s.modPart n f) := by
  intro m
  by_cases hm : m = n
  · subst hm
    cases hp : s.part? m with
    | none => simp [State.modPart, hp]
    | some p => simp [State.part?_modPart f hp, h]
  · rw [State.part?_modPart_ne s f hm]

/-- The partition that keeps its launches. -/
theorem part {s s' : State} (h : LaunchesKept s s') {n : Nat} {p : Part} (hp : s.part? n = some p) :
    ∃ p', s'.part? n = some p' ∧ p'.launches = p.launches := by
  have := h n
  rw [hp, Option.map_some, Option.map_eq_some_iff] at this
  exact this

end LaunchesKept

/-! ### What leaves the partitions alone -/

theorem record_parts (s : State) (ls : List Nat) : (s.record ls).parts = s.parts := by
  unfold State.record
  split <;> rfl

theorem setSource_parts (s : State) (c unit : Nat) (x : StampSrc) : (s.setSource c unit x).parts = s.parts := by
  unfold State.setSource
  split <;> rfl

/-- A fold of steps that leave the partitions alone. -/
theorem foldl_parts {α : Type} {f : State → α → State} (h : ∀ s a, (f s a).parts = s.parts) (l : List α) (s : State) :
    (l.foldl f s).parts = s.parts := by
  induction l generalizing s with
  | nil => rfl
  | cons a l ih => rw [List.foldl_cons, ih, h]

theorem takeLine_parts (s : State) (line : Nat) (b : Bool) : (s.takeLine line b).parts = s.parts :=
  foldl_parts (f := fun s (e : Nat × List Byte) => s.poke (e.1 * 64) e.2) (fun _ _ => rfl) _ s

theorem obtain_parts (s : State) (lines : List Nat) : (s.obtain lines).parts = s.parts := by
  refine foldl_parts (fun s l => ?_) _ s
  split
  · exact takeLine_parts s _ _
  · rfl

theorem shCopy_parts (s : State) (line m : Nat) : (s.shCopy line m).parts = s.parts := by
  unfold State.shCopy
  split
  · rfl
  split <;> rfl

theorem engineShares_parts (s : State) (t : Target) (n : Nat) (need : Need) : (s.engineShares t n need).1.parts = s.parts := by
  unfold State.engineShares
  split
  · dsimp only
    split
    · rfl
    split
    · exact obtain_parts s _
    · exact foldl_parts (fun s l => shCopy_parts s l _) _ s
  · rfl

theorem engineKey_parts (s : State) (c a : Nat) (need : Need) : (s.engineKey c a need).1.parts = s.parts := by
  unfold State.engineKey
  have h := (cachesOnly_resolve s c a need false).parts
  split
  case h_1 s1 t heq =>
    rw [heq] at h
    have h2 := engineShares_parts s1 t 1 need
    split <;> rename_i heq2 <;> rw [heq2] at h2
    · exact h2.trans h
    · dsimp only
      split
      · exact (cachesOnly_noteLine _ _ _).parts.trans (h2.trans h)
      · exact h2.trans h
  case h_7 s1 p ipa heq =>
    rw [heq] at h
    dsimp only
    split <;> exact h
  all_goals next heq => rw [heq] at h; exact h

theorem readEntry_parts (s : State) (c : Nat) (q : LaunchQueue) (i : Nat) : (s.readEntry c q i).1.parts = s.parts := by
  unfold State.readEntry
  have h := engineKey_parts s c ((q.base + 128 * (i % q.count)) % 2 ^ 64) .load
  split <;> rename_i heq <;> rw [heq] at h
  · split <;> exact h
  · exact h

theorem ipaWrite_parts {s s' : State} {p : Part} {ipa : Nat} {bs : List Byte} (h : s.ipaWrite p ipa bs = some s') :
    s'.parts = s.parts := by
  unfold State.ipaWrite at h
  rw [Option.map_eq_some_iff] at h
  obtain ⟨a, -, rfl⟩ := h
  dsimp only
  rw [record_parts]
  show (if s.ipaShared p ipa then _ else _ : State).parts = _
  split
  · exact obtain_parts s _
  · rfl

theorem ipaWriteAll_parts {s s' : State} {p : Part} {ipa n : Nat} {bs : List Byte} (h : s.ipaWriteAll p ipa bs n = some s') :
    s'.parts = s.parts := by
  induction n generalizing s ipa bs with
  | zero => rw [State.ipaWriteAll, Option.some.injEq] at h; rw [h]
  | succ n ih =>
    rw [State.ipaWriteAll] at h
    split at h
    · rw [Option.some.injEq] at h; rw [h]
    · rw [Option.bind_eq_some_iff] at h
      obtain ⟨s1, h1, h2⟩ := h
      exact (ih h2).trans (ipaWrite_parts h1)

theorem setCtl_parts (s : State) (p : Part) (off v : Nat) : (s.setCtl p off v).parts = s.parts := by
  unfold State.setCtl
  cases h : s.ipaWrite p (p.cfg.ctlPage + off) (leBytes 8 v) with
  | none => rfl
  | some s1 => exact ipaWrite_parts h

theorem ringWrite_parts {s s' : State} {p : Part} {off : Nat} {bs : List Byte} (h : s.ringWrite p off bs = some s') :
    s'.parts = s.parts := by
  unfold State.ringWrite at h
  split at h
  · contradiction
  split at h
  · contradiction
  dsimp only at h
  rw [Option.map_eq_some_iff] at h
  obtain ⟨s2, h2, rfl⟩ := h
  rw [Option.bind_eq_some_iff] at h2
  obtain ⟨s1, h1, h2⟩ := h2
  exact (setCtl_parts _ _ _ _).trans ((ipaWriteAll_parts h2).trans (ipaWriteAll_parts h1))

/-! ### What keeps the launches -/

theorem launchesKept_charge (s : State) (p : Option Nat) : LaunchesKept s (s.charge p) := by
  unfold State.charge
  split
  · exact (LaunchesKept.of_parts (s' := { s with freeN := s.freeN + 1 }) rfl).trans (.modPart _ _ fun _ => rfl)
  · exact .of_parts rfl

theorem launchesKept_putTrace {s s' : State} {n : Nat} {rs : List TraceRec} (h : s.putTrace n rs = some s') :
    LaunchesKept s s' := by
  unfold State.putTrace at h
  split at h
  · contradiction
  rw [Option.map_eq_some_iff] at h
  obtain ⟨s1, h1, rfl⟩ := h
  refine (LaunchesKept.of_parts (ringWrite_parts h1)).trans (.trans ?_ (.modPart _ _ fun _ => rfl))
  exact (LaunchesKept.of_parts (s' := s1.spend 3) rfl).trans (launchesKept_charge _ _)

theorem launchesKept_putNext {s s' : State} {c n : Nat} {r : TraceRec} (h : s.putNext c n r = some s') : LaunchesKept s s' := by
  unfold State.putNext at h
  split at h
  · split at h
    · contradiction
    dsimp only at h
    rw [Option.map_eq_some_iff] at h
    obtain ⟨s2, h2, rfl⟩ := h
    refine (LaunchesKept.of_parts ?_).trans ((launchesKept_putTrace h2).trans (.of_parts rfl))
    exact setSource_parts _ _ _ _
  · exact launchesKept_putTrace h

theorem traceReport_parts (s : State) (c n : Nat) : (s.traceReport c n).parts = s.parts := by
  unfold State.traceReport
  split <;> rfl

theorem launchesKept_trace (s : State) (c n : Nat) (r : TraceRec) : LaunchesKept s (s.trace c n r) := by
  unfold State.trace
  split
  · exact .refl s
  have hold : LaunchesKept s ((s.traceReport c n).modCore c fun x =>
      if x.traceHeld.length < 64 then { x with traceHeld := x.traceHeld ++ [(n, r)] }
      else { x with traceDropped := addLine x.traceDropped n }) := .of_parts (traceReport_parts s c n)
  dsimp only
  split
  · exact hold
  · cases h : s.putNext c n r with
    | none => exact hold
    | some s1 => exact launchesKept_putNext h

theorem launchesKept_traceEvent (s : State) (c n unit : Nat) (r : TraceRec) : LaunchesKept s (s.traceEvent c n unit r) := by
  unfold State.traceEvent
  split
  · exact .refl s
  split
  · exact .trans (.of_parts (setSource_parts s c unit _)) (launchesKept_trace _ c n _)
  · exact .of_parts rfl

theorem launchesKept_traceLaunch (s : State) (n d kind : Nat) (data : Option Word) :
    LaunchesKept s (s.traceLaunch n d kind data) := by
  unfold State.traceLaunch
  split
  · exact .refl s
  · cases data <;>
    · refine .trans (.of_parts ?_) (launchesKept_traceEvent _ _ _ _ _)
      rfl

theorem launchesKept_advance (s : State) (n : Nat) : LaunchesKept s (s.advance n) := by
  unfold State.advance
  split
  · exact .refl s
  split
  · exact .refl s
  · refine LaunchesKept.trans (.of_parts ?_) (.modPart _ _ fun _ => rfl)
    split
    · rfl
    · exact setCtl_parts _ _ _ _

/-! ### The end of a launch -/

/-- The partition holds these launches, and none at an index of its queue that has ended. -/
def HoldsBut (n o : Nat) (ls : List Launch) (s : State) : Prop :=
  ∃ p, s.part? n = some p ∧ o ∈ p.endedIdx ∧ (∀ y ∈ p.launches, y.order ≠ o) ∧ ∀ y ∈ ls, y ∈ p.launches

theorem mem_addLaunch (p : Part) (l y : Launch) :
    y ∈ (p.addLaunch l).launches ↔ y = l ∨ y ∈ p.launches ∧ y.order ≠ l.order := by
  simp only [Part.addLaunch, List.mem_append, List.mem_filter, List.mem_singleton, decide_eq_true_eq]
  constructor
  · rintro ((⟨hy, h⟩ | rfl) | ⟨hy, h⟩)
    · exact .inr ⟨hy, h.ne⟩
    · exact .inl rfl
    · exact .inr ⟨hy, h.ne'⟩
  · rintro (rfl | ⟨hy, h⟩)
    · exact .inl (.inr rfl)
    · rcases lt_or_gt_of_ne h with h | h
      · exact .inl (.inl ⟨hy, h⟩)
      · exact .inr ⟨hy, h⟩

/-- A launch entered at an index that no launch has and that has not ended. -/
theorem HoldsBut.addLaunch {n o : Nat} {ls : List Launch} {s : State} {p : Part} {l : Launch} (h : HoldsBut n o ls s)
    (hp : s.part? n = some p) (hl : (p.launchAt l.order).isSome = false) (he : p.endedIdx.contains l.order = false) :
    HoldsBut n o ls (s.modPart n fun p => p.addLaunch l) := by
  obtain ⟨p', hp', ho, hne, hin⟩ := h
  obtain rfl : p = p' := Option.some.inj (hp.symm.trans hp')
  have hnone : ∀ y ∈ p.launches, y.order ≠ l.order := by
    simpa [Part.launchAt, List.find?_eq_none] using hl
  refine ⟨_, State.part?_modPart _ hp, ho, fun y hy => ?_, fun y hy => ?_⟩
  · rcases (mem_addLaunch p l y).mp hy with rfl | ⟨hy, -⟩
    · rintro rfl
      simp [ho] at he
    · exact hne y hy
  · exact (mem_addLaunch p l y).mpr (.inr ⟨hin y hy, hnone y (hin y hy)⟩)

theorem HoldsBut.of_parts {n o : Nat} {ls : List Launch} {s s' : State} (h : HoldsBut n o ls s) (hp : s'.parts = s.parts) :
    HoldsBut n o ls s' := by
  unfold HoldsBut State.part? at h ⊢
  rwa [hp]

theorem HoldsBut.foldl {α : Type} {n o : Nat} {ls : List Launch} {f : State → α → State}
    (hf : ∀ s a, HoldsBut n o ls s → HoldsBut n o ls (f s a)) (l : List α) {s : State} (h : HoldsBut n o ls s) :
    HoldsBut n o ls (l.foldl f s) := by
  induction l generalizing s with
  | nil => exact h
  | cons a l ih => exact ih (hf s a h)

/-- Entries that end unread are entered where no launch stands (R75). -/
theorem HoldsBut.failUnread {n o : Nat} {ls : List Launch} {s : State} (h : HoldsBut n o ls s) (id : BitVec 32) :
    HoldsBut n o ls (s.failUnread n id) := by
  unfold State.failUnread
  split
  · exact h
  split
  · exact h
  refine HoldsBut.foldl (fun s i h => ?_) _ h
  split
  next p hp =>
    split
    · exact h
    next hfree =>
      rw [Bool.or_eq_true, not_or, Bool.not_eq_true, Bool.not_eq_true] at hfree
      have hr := readEntry_parts s (p.lowCore 0) (by assumption : LaunchQueue) i
      split <;> rename_i heq <;> rw [heq] at hr
      · dsimp only
        split
        · exact (h.of_parts hr).addLaunch (by rw [State.part?, hr]; exact hp) hfree.1 hfree.2
        · exact h.of_parts hr
      · exact h.of_parts hr
  · exact h

theorem resolve_order (x : Launch) (id : BitVec 32) (st clock : Nat) : (x.resolve id st clock).order = x.order := by
  unfold Launch.resolve Launch.await
  split
  · rfl
  split
  · split <;> rfl
  · rfl

theorem resolve_id (x : Launch) (id : BitVec 32) (st clock : Nat) : (x.resolve id st clock).id = x.id := by
  unfold Launch.resolve Launch.await
  split
  · rfl
  split
  · split <;> rfl
  · rfl

/-- A launch that has ended, or does not wait for the one that ends, is left alone (R75). -/
theorem resolve_other {x : Launch} {id : BitVec 32} (st clock : Nat) (h : x.ending.isSome = true ∨ id ∉ x.preds) :
    x.resolve id st clock = x := by
  unfold Launch.resolve
  rw [if_pos]
  simpa using h

/-- A launch that waits for one that is done waits for it no longer (R75). -/
theorem resolve_done {x : Launch} {id : BitVec 32} (clock : Nat) (he : x.ending = none) (h : id ∈ x.preds) :
    (x.resolve id 0 clock).preds = x.preds.erase id ∧ (x.resolve id 0 clock).ending = none := by
  unfold Launch.resolve Launch.await
  rw [if_neg (by simp [he, h]), if_pos rfl]
  split <;> exact ⟨rfl, he⟩

/-- A launch that waits for one that failed ends with PREDFAIL (R75). -/
theorem resolve_failed {x : Launch} {id : BitVec 32} {st : Nat} (clock : Nat) (he : x.ending = none) (h : id ∈ x.preds) (hst : st ≠ 0) :
    (x.resolve id st clock).ending = some 3 := by
  unfold Launch.resolve
  rw [if_neg (by simp [he, h]), if_neg hst]

/-- A partition after a launch of it has ended: the launch leaves the list, and its regions and the others are resolved (R73,
R75). -/
def Part.ended (p : Part) (l : Launch) (status clock : Nat) : Part :=
  { p with
    launches := (p.launches.filter fun x => x.order != l.order).map fun x => x.resolve l.id status clock
    regions := p.regions.map fun r => match r.drawn with
      | some (id, _) => if id = l.id ∧ l.placed.contains r.die then { r with drawn := none } else r
      | none => r
    endedIdx := p.endedIdx ++ [l.order] }

theorem endLaunch_written {s s1 : State} {n st : Nat} {p : Part} {l : Launch} (hp : s.part? n = some p)
    (hw : s.writeEnd p l st = (s1, true)) :
    let s2 := s1.modPart n fun p => p.ended l st s.clock
    let s3 := if st = 0 ∨ p.resetting.isSome then s2 else s2.failUnread n l.id
    (s.endLaunch n l st).1 = (s3.traceLaunch n l.endDie 4 (some (BitVec.ofNat 64 st))).advance n := by
  simp only [State.endLaunch, hp, hw]
  rfl

theorem mem_ended (p : Part) (l y : Launch) (st clock : Nat) :
    y ∈ (p.ended l st clock).launches ↔ ∃ x ∈ p.launches, x.order ≠ l.order ∧ x.resolve l.id st clock = y := by
  simp [Part.ended, and_assoc]

/-- A launch whose record is written leaves the list; the others are resolved by its status (R73, R75). -/
theorem endLaunch_launches {s s1 : State} {n st : Nat} {p : Part} {l : Launch} (hp : s.part? n = some p)
    (hw : s.writeEnd p l st = (s1, true)) (hk : (s1.part? n).map (·.launches) = some p.launches) :
    ∃ p', (s.endLaunch n l st).1.part? n = some p' ∧ (∀ y ∈ p'.launches, y.order ≠ l.order) ∧
      ∀ x ∈ p.launches, x.order ≠ l.order → x.resolve l.id st s.clock ∈ p'.launches := by
  obtain ⟨p1, hp1, hl1⟩ := Option.map_eq_some_iff.mp hk
  have h2 : HoldsBut n l.order (p1.ended l st s.clock).launches (s1.modPart n fun p => p.ended l st s.clock) := by
    refine ⟨_, State.part?_modPart _ hp1, by simp [Part.ended], fun y hy => ?_, fun y hy => hy⟩
    obtain ⟨x, -, ho, rfl⟩ := (mem_ended p1 l y st s.clock).mp hy
    rwa [resolve_order]
  have h3 : HoldsBut n l.order (p1.ended l st s.clock).launches (if st = 0 ∨ p.resetting.isSome then
      s1.modPart n fun p => p.ended l st s.clock else (s1.modPart n fun p => p.ended l st s.clock).failUnread n l.id) := by
    split
    · exact h2
    · exact h2.failUnread l.id
  obtain ⟨p3, hp3, -, hne, hin⟩ := h3
  obtain ⟨p', hp', hl'⟩ := ((launchesKept_traceLaunch _ n l.endDie 4 (some (BitVec.ofNat 64 st))).trans
    (launchesKept_advance _ n)).part hp3
  rw [endLaunch_written hp hw]
  exact ⟨p', hp', hl' ▸ hne, fun x hx ho => hl' ▸ hin _ ((mem_ended p1 l _ st s.clock).mpr ⟨x, hl1 ▸ hx, ho, rfl⟩)⟩

/-! ### The first reading of an entry -/

theorem launchAt_addLaunch (p : Part) (l : Launch) : (p.addLaunch l).launchAt l.order = some l := by
  have h : (p.launches.filter fun x => x.order < l.order).find? (fun x => x.order == l.order) = none := by
    rw [List.find?_eq_none]
    intro x hx
    have := (List.mem_filter.mp hx).2
    simp only [decide_eq_true_eq] at this
    simpa using this.ne
  simp [Part.launchAt, Part.addLaunch, List.find?_append, h]

/-- What an entry is when it is first read: invalid, too large, or queued (R71, R75). -/
def Launch.firstEnding (w : List Word) (i : Nat) (p : Part) : Option Nat :=
  if (Launch.fresh w i).valid p = false ∨ (∃ x ∈ p.launches, x.id = (Launch.fresh w i).id) then some 1
  else if (Launch.fresh w i).fits p = false then some 2 else none

theorem firstRead_enters {s : State} {p p1 : Part} (d i : Nat) (w : List Word) (hp : s.part? p.cfg.part = some p1) :
    ∃ p' l, (s.firstRead p d i w).part? p.cfg.part = some p' ∧ p'.launchAt i = some l ∧ l.d = w ∧
      l.id = (w.getD 0 0).setWidth 32 ∧ l.taken = [d] ∧ l.placed = [] ∧ l.ending = Launch.firstEnding w i p := by
  have hany : (p.launches.any fun x => x.id == (Launch.fresh w i).id) = true ↔ ∃ x ∈ p.launches, x.id = (Launch.fresh w i).id := by
    simp
  have enter (l : Launch) (hl : l.order = i) : ((s.modPart p.cfg.part fun p =>
      (p.addLaunch l).readOn d i).part? p.cfg.part) = some ((p1.addLaunch l).readOn d i) ∧
      ((p1.addLaunch l).readOn d i).launchAt i = some l :=
    ⟨State.part?_modPart _ hp, by subst hl; exact launchAt_addLaunch p1 l⟩
  unfold State.firstRead Launch.firstEnding
  simp only [hany, Bool.not_eq_true']
  split
  · exact ⟨_, _, (enter { Launch.fresh w i with ending := some 1, taken := [d] } rfl).1,
      (enter { Launch.fresh w i with ending := some 1, taken := [d] } rfl).2, rfl, rfl, rfl, rfl, rfl⟩
  split
  · exact ⟨_, _, (enter { Launch.fresh w i with ending := some 2, taken := [d] } rfl).1,
      (enter { Launch.fresh w i with ending := some 2, taken := [d] } rfl).2, rfl, rfl, rfl, rfl, rfl⟩
  · have hw (l : Launch) (hl : (l.order, l.d, l.id, l.placed, l.ending) = (i, w, (w.getD 0 0).setWidth 32, [], none)) :
        ((l.await s.clock).order, (l.await s.clock).d, (l.await s.clock).id, (l.await s.clock).placed, (l.await s.clock).ending) =
          (i, w, (w.getD 0 0).setWidth 32, [], none) := by
      unfold Launch.await
      split <;> exact hl
    have := hw { Launch.fresh w i with preds := (Launch.fresh w i).heldBy p } rfl
    simp only [Prod.mk.injEq] at this
    obtain ⟨ho, hd, hid, hpl, he⟩ := this
    have h := enter { ({ Launch.fresh w i with preds := (Launch.fresh w i).heldBy p } : Launch).await s.clock with taken := [d] } ho
    exact ⟨_, _, h.1, h.2, hd, hid, rfl, hpl, he⟩

end Sys2Proof.Machine
end

section
/-! The proof of O51: the steps of dispatchers, tiers, slots, the detector and Prefect (R59, R64 to R79, R256, R261, R264 to R266,
R414). -/

namespace Sys2Proof.Machine

theorem modPart_congr {s : State} {n : Nat} {p : Part} {f g : Part → Part} (hp : s.part? n = some p) (h : f p = g p) :
    s.modPart n f = s.modPart n g := by
  simp only [State.modPart, hp, h]

/-! ### Tiers -/

theorem State.core_poke (s : State) (key d : Nat) (bs : List Byte) : (s.poke key bs).core d = s.core d := rfl

theorem core_writeSpill (s : State) (c d : Nat) : (s.writeSpill c).core d = s.core d := by
  unfold State.writeSpill
  split
  · rfl
  · rw [State.core_poke, State.core_poke]

/-- The head of the spill ring enters the run queue, as the ring's bytes have it (R68, R261). -/
theorem refillTiers_ring {s : State} {c : Nat} {q : Packet} {qs : List Packet} (hr : (s.core c).c.spill.ring = q :: qs)
    (hl : s.spillLocked c none = false) (hq : (s.core c).c.runQ.length < 16) :
    let x := (s.core c).c
    let y := ((s.refillTiers c 1).core c).c
    y.runQ = x.runQ ++ [q.ofBytes (s.bytes (s.ringKey c x.spill.head) 96)] ∧ y.spill.ring = qs ∧
      y.spill.head = (x.spill.head + 1) % 64 := by
  simp only [State.refillTiers, hr, hl, hq, Bool.false_eq_true, if_false, if_true, core_writeSpill]
  simp [State.latch, CoreCtx.enter]

/-! ### The dispatcher's steps -/

/-- With every waiting launch fitting, none ends with NOSPACE (R71). -/
theorem none_without_space {p : Part} {d : Nat} (h : ∀ l ∈ p.waiting d, l.placed = [] → l.fits p = true) :
    ((p.waiting d).find? fun l => l.placed == [] && !l.fits p) = none := by
  rw [List.find?_eq_none]
  intro l hl
  by_cases hp : l.placed = []
  · simp [h l hl hp]
  · simp [hp]

section
variable {s : State} {p : Part} (hp : s.part? s.subject.part = some p)
include hp

/-- Nothing is read with no entry published, no row on the die, or the partition switched out (R74). -/
theorem launchEntryRead_idle {q : LaunchQueue} (hq : s.launchQueue p = some q)
    (h : q.producer ≤ p.nextRead q s.subject.die ∨ p.rowsOn s.subject.die = [] ∨ s.running p = false) :
    exec .launchEntryRead s = .next s := by
  have h' : q.producer ≤ p.nextRead q s.subject.die ∨ p.rowsOn s.subject.die = [] ∨ (!s.running p) = true ∨
      p.resetting.isSome = true := by
    rcases h with h | h | h
    · exact .inl h
    · exact .inr (.inl h)
    · exact .inr (.inr (.inl (by simp [h])))
  delta exec
  simp only [execLaunchEntryRead, hp, hq, if_pos h']

theorem launchEntryRead_resetting (h : p.resetting.isSome = true) : exec .launchEntryRead s = .next s := by
  delta exec
  simp only [execLaunchEntryRead, hp, h, or_true, if_true]
  split <;> rfl

theorem launchPlacement_resetting (h : p.resetting.isSome = true) : exec .launchPlacement s = .next s := by
  delta exec
  simp only [execLaunchPlacement, hp, h, or_true, if_true]

theorem launchPlacement_out (h : s.running p = false) : exec .launchPlacement s = .next s := by
  delta exec
  simp only [execLaunchPlacement, hp, h, Bool.not_false, true_or, if_true]

section
variable {q : LaunchQueue} (hq : s.launchQueue p = some q) (hi : p.nextRead q s.subject.die < q.producer)
  (hrows : p.rowsOn s.subject.die ≠ []) (hrun : s.running p = true) (hres : p.resetting = none)
  (hend : p.endedIdx.contains (p.nextRead q s.subject.die) = false)
include hq hi hrows hrun hres hend

/-- An entry that another die has read is taken by this one too (R74). -/
theorem launchEntryRead_taken {l : Launch} (hl : p.launchAt (p.nextRead q s.subject.die) = some l) :
    exec .launchEntryRead s = .next (s.modPart s.subject.part fun p =>
      (p.setLaunch { l with taken := l.taken ++ [s.subject.die] }).readOn s.subject.die (p.nextRead q s.subject.die)) := by
  delta exec
  simp only [execLaunchEntryRead, hp, hq, hrows, hrun, hres, hend, hl, Nat.not_le.mpr hi, Bool.not_true, Bool.false_eq_true,
    Option.isSome_none, or_self, if_false]
  exact congrArg _ (modPart_congr hp rfl)

/-- An entry that no die has read is read from the ring (R71, R74). -/
theorem launchEntryRead_first {s1 : State} {w : List Word} (hl : p.launchAt (p.nextRead q s.subject.die) = none)
    (hw : s.readEntry (p.lowCore s.subject.die) q (p.nextRead q s.subject.die) = (s1, some w)) :
    exec .launchEntryRead s = .next (s1.firstRead p s.subject.die (p.nextRead q s.subject.die) w) := by
  delta exec
  simp only [execLaunchEntryRead, hp, hq, hrows, hrun, hres, hend, hl, hw, Nat.not_le.mpr hi, Bool.not_true,
    Bool.false_eq_true, Option.isSome_none, or_self, if_false]

end

/-- A launch that ends, by a status decided before or since nothing of it is left (R71, R73). -/
theorem launchCompletion_ends {l : Launch} {st : Nat} (hl : p.launchAt s.subject.idx = some l)
    (h : l.ending = some st ∨ (l.ending = none ∧ s.launchOver p l = true ∧ st = 0)) :
    exec .launchCompletion s = .next (s.endLaunch s.subject.part l st).1 := by
  rcases h with h | ⟨h, ho, rfl⟩
  · delta exec
    simp only [execLaunchCompletion, hp, hl, h]
  · delta exec
    simp only [execLaunchCompletion, hp, hl, h, ho, if_true]

theorem launchCompletion_left {l : Launch} (hl : p.launchAt s.subject.idx = some l) (h : l.ending = none)
    (ho : s.launchOver p l = false) : exec .launchCompletion s = .next s := by
  delta exec
  simp only [execLaunchCompletion, hp, hl, h, ho, Bool.false_eq_true, if_false]

theorem priorityPromotion_due {l : Launch} (hl : p.launchAt s.subject.idx = some l)
    (h : l.promoteDue s.subject.die s.clock = true) :
    exec .priorityPromotion s = .next (s.modPart s.subject.part fun p => p.setLaunch
      { l with eff := l.eff.map fun e => if e.1 = s.subject.die then (s.subject.die, e.2.1 + 1, e.2.2 + msPeriods) else e }) := by
  delta exec
  simp only [execPriorityPromotion, hp, Option.bind_some, hl, h, Bool.not_true, Bool.false_eq_true, if_false]

theorem priorityPromotion_early {l : Launch} (hl : p.launchAt s.subject.idx = some l)
    (h : l.promoteDue s.subject.die s.clock = false) : exec .priorityPromotion s = .next s := by
  delta exec
  simp only [execPriorityPromotion, hp, Option.bind_some, hl, h, Bool.not_false, if_true]

section
variable (hrun : s.running p = true) (hres : p.resetting = none)
include hrun hres

/-- A waiting launch that no longer fits, and has started nowhere, ends with NOSPACE (R71). -/
theorem launchPlacement_noSpace {l : Launch}
    (hl : ((p.waiting s.subject.die).find? fun l => l.placed == [] && !l.fits p) = some l) :
    exec .launchPlacement s = .next (s.modPart s.subject.part fun p => p.setLaunch { l with ending := some 2 }) := by
  delta exec
  simp only [execLaunchPlacement, hp, hrun, hres, hl, Bool.not_true, Bool.false_eq_true, Option.isSome_none, or_self, if_false]

variable (hfit : ∀ l ∈ p.waiting s.subject.die, l.placed = [] → l.fits p = true)
include hfit

theorem launchPlacement_none (hn : s.nextPlaced p s.subject.die = none) : exec .launchPlacement s = .next s := by
  delta exec
  simp only [execLaunchPlacement, hp, hrun, hres, none_without_space hfit, hn, Bool.not_true, Bool.false_eq_true,
    Option.isSome_none, or_self, if_false]

variable {l : Launch} (hn : s.nextPlaced p s.subject.die = some l)
include hn

/-- The placement waits for Nolmon while a context's block cannot be written (R385). -/
theorem launchPlacement_stalled {c : Nat} {e : Part × Nat × Trap} (hs : s.stalledAt l s.subject.die = some (c, e)) :
    exec .launchPlacement s = .next (s.ipaReport c e.1 e.2) := by
  delta exec
  simp only [execLaunchPlacement, hp, hrun, hres, none_without_space hfit, hn, hs, Bool.not_true, Bool.false_eq_true,
    Option.isSome_none, or_self, if_false]

/-- The launch to be placed is checked and placed (R71, R75). -/
theorem launchPlacement_places (hs : s.stalledAt l s.subject.die = none) :
    exec .launchPlacement s = .next (s.checkAndPlace p s.subject.die l) := by
  delta exec
  simp only [execLaunchPlacement, hp, hrun, hres, none_without_space hfit, hn, hs, Bool.not_true, Bool.false_eq_true,
    Option.isSome_none, or_self, if_false]

end
end

/-- Placing a launch that stands on another die already (R72). -/
theorem checkAndPlace_placed {s : State} {p : Part} {l : Launch} (d : Nat) (h : l.placed ≠ []) :
    s.checkAndPlace p d l = s.placeLaunch p.cfg.part d l := by
  simp only [State.checkAndPlace, h, ne_eq, not_false_eq_true, if_true]

/-- A launch placed for the first time whose pair descriptor entry does not suit its seeds (R71, R304). -/
theorem checkAndPlace_pair {s : State} {p : Part} {l : Launch} (d : Nat) (h : l.placed = []) (hb : l.pairOk p = false) :
    s.checkAndPlace p d l = s.modPart p.cfg.part fun p => p.setLaunch { l with ending := some 1 } := by
  simp only [State.checkAndPlace, h, hb, ne_eq, not_true, if_false, Bool.not_false, if_true]

/-- What reading its seeds makes of a launch to be placed on a die of partition n (R304). -/
def State.seeded (s : State) (n d : Nat) (l : Launch) : SeedRead → State
  | .held => s
  | .bad => s.modPart n fun p => p.setLaunch { l with ending := some 1 }
  | .ok ts => s.placeLaunch n d { l with seeds := ts }

/-- A launch placed for the first time: its seeds are read (R304). -/
theorem checkAndPlace_seeds {s s1 : State} {p : Part} {l : Launch} {r : SeedRead} (d : Nat) (h : l.placed = [])
    (hb : l.pairOk p = true) (hr : s.readSeeds (p.lowCore d) l = (s1, r)) :
    s.checkAndPlace p d l = s1.seeded p.cfg.part d l r := by
  unfold State.checkAndPlace
  extract_lets n
  rw [if_neg (not_not_intro h), if_neg (by simp [hb]), hr]
  cases r <;> rfl

/-! ### Slots -/

theorem migrantParkSwap_early {s : State} (h : s.parkedLong s.subject.core s.subject.slot = false) :
    exec .migrantParkSwap s = .next s := by
  delta exec
  simp only [execMigrantParkSwap, h, Bool.not_false, if_true]

/-- A migrant that waited long is not swapped while its core's context area stalls (R193, R385). -/
theorem migrantParkSwap_stalled {s : State} {e : Part × Nat × Trap} (h : s.parkedLong s.subject.core s.subject.slot = true)
    (he : s.swapStall s.subject.core = some e) : exec .migrantParkSwap s = .next (s.ipaReport s.subject.core e.1 e.2) := by
  delta exec
  simp only [execMigrantParkSwap, h, he, Bool.not_true, Bool.false_eq_true, if_false]

/-- A migrant that waited long is swapped out, and a stand-in enters the run queue (R69). -/
theorem migrantParkSwap_swaps {s : State} (h : s.parkedLong s.subject.core s.subject.slot = true)
    (he : s.swapStall s.subject.core = none) : exec .migrantParkSwap s =
      .next (let p := s.standin s.subject.core s.subject.slot (s.thr s.subject.core s.subject.slot)
        (((s.swapOut s.subject.core s.subject.slot false true false).fillPacketFirst s.subject.core s.subject.slot).sendPacket
          s.subject.core p).deliverNext s.subject.core p) := by
  delta exec
  simp only [execMigrantParkSwap, h, he, Bool.not_true, Bool.false_eq_true, if_false]

theorem slotRemoval_no {s : State} (h : s.mayRemove s.subject.core s.subject.slot = false) : exec .slotRemoval s = .next s := by
  delta exec
  simp only [execSlotRemoval, h, Bool.not_false, if_true]

/-- Removing a slot without a thread marks it removed, and nothing else (R79). -/
theorem slotRemoval_empty {s : State} (h : s.mayRemove s.subject.core s.subject.slot = true)
    (ht : s.thread? s.subject.core s.subject.slot = none) : exec .slotRemoval s =
      .next (s.modCore s.subject.core fun x => { x with removed := x.removed ||| BitVec.ofNat 8 (2 ^ s.subject.slot.val) }) := by
  delta exec
  simp only [execSlotRemoval, h, ht, Bool.not_true, Bool.false_eq_true, if_false]

theorem slotReturn_no {s : State} (h : s.mayReturn s.subject.core s.subject.slot = false) : exec .slotReturn s = .next s := by
  delta exec
  simp only [execSlotReturn, h, Bool.not_false, if_true]

theorem slotReturn_yes {s : State} (h : s.mayReturn s.subject.core s.subject.slot = true) : exec .slotReturn s =
    .next ((s.modCore s.subject.core fun x => { x with
      removed := x.removed &&& ~~~(BitVec.ofNat 8 (2 ^ s.subject.slot.val)), lastReturn := x.cycle }).fill s.subject.core) := by
  delta exec
  simp only [execSlotReturn, h, Bool.not_true, Bool.false_eq_true, if_false]

/-! ### The detector and Prefect -/

theorem deadlockPass_idle {s : State} (h : s.passDue s.subject.die = false ∨ s.mayStamp 0 6 = false) :
    exec .deadlockPass s = .next s := by
  have h' : (s.passDue s.subject.die && s.mayStamp 0 6) = false := by
    rcases h with h | h <;> simp [h]
  delta exec
  simp only [execDeadlockPass, h', Bool.false_eq_true, if_false]

theorem deadlockPass_due {s : State} (h : s.passDue s.subject.die = true) (hm : s.mayStamp 0 6 = true) :
    exec .deadlockPass s = .next ((s.modDie s.subject.die fun x => { x with
      passDue := false, lastPass := if x.lastPass + 65536 ≤ s.clock then s.clock else x.lastPass }).deadlockPass s.subject.die) := by
  delta exec
  simp only [execDeadlockPass, h, hm, Bool.and_self, if_true]

theorem prefectSample_early {s : State} (h : s.clock < (s.die s.subject.die).lastSample + 4096) :
    exec .prefectSample s = .next s := by
  delta exec
  simp only [execPrefectSample, if_pos h]

theorem prefectSample_due {s : State} (h : (s.die s.subject.die).lastSample + 4096 ≤ s.clock) : exec .prefectSample s =
    .next (((List.range 64).map fun i => s.subject.die * 64 + i).foldl State.prefect
      (s.modDie s.subject.die fun x => { x with lastSample := s.clock })) := by
  delta exec
  simp only [execPrefectSample, if_neg (Nat.not_lt.mpr h)]

/-- What the end of a launch makes of one that stays in the list (R75). -/
theorem resolve_successor (x : Launch) (id : BitVec 32) (st clock : Nat) :
    let y := x.resolve id st clock
    y.order = x.order ∧ y.id = x.id ∧ (x.ending.isSome = true ∨ id ∉ x.preds → y = x) ∧
    (x.ending = none → id ∈ x.preds → (st = 0 → y.preds = x.preds.erase id ∧ y.ending = none) ∧ (st ≠ 0 → y.ending = some 3)) := by
  refine ⟨resolve_order x id st clock, resolve_id x id st clock, resolve_other st clock, fun he hi => ⟨?_, resolve_failed clock he hi⟩⟩
  rintro rfl
  exact resolve_done clock he hi

/-- Settles O51: what a launch's threads, its record and its successors are, the detector's greatest set, Prefect's receiver, and
each step by the branch its hypotheses choose. -/
theorem schedulingSteps : Obligations.SchedulingSteps := by
  unfold Obligations.SchedulingSteps
  refine ⟨?thread, ?bind, ?record, ?dead, ?receiver, ?rebind, ?refill, fun s => ⟨fun p hp => ?dispatcher, ?slots⟩⟩
  case thread =>
    intro l d c k t
    exact ⟨rfl, l.regs_10 c k, l.regs_11 c k, l.regs_12 c k, l.regs_13 c k, fun r => l.regs_other c k, rfl, rfl, rfl, rfl, rfl, rfl,
      rfl, rfl⟩
  case bind => exact fun s l d c => slot_bindAll c (fun k => l.thread d c k) l.slots l.slots_nodup s
  case record =>
    intro s s1 p l st key at_ h0 h16 hm hk
    refine ⟨_, writeEnd_writes st h0 h16 hm hk, num_endRecord_stamp _ key _ st l.id, num_endRecord_status _ key _ st l.id,
      num_endRecord_id _ key _ st l.id, fun q hq => ?_⟩
    rw [State.byte_poke_out _ _ _ _ (by rwa [length_endRecord])]
    rfl
  case dead =>
    intro f ns closed ds
    obtain ⟨hin, hcl, hmax⟩ := deadSet_greatest f (ns.length + 1) (ns.filter fun n => (f n).isSome)
      (Nat.lt_succ_of_le (List.length_filter_le _ _))
    refine ⟨fun n hn => (List.mem_filter.mp (hin n hn)).1, hcl, fun D hD hc => hmax D (fun n hn => ?_) hc⟩
    obtain ⟨v, b, ps, hf, -⟩ := hc n hn
    exact List.mem_filter.mpr ⟨hD n hn, by simp [hf]⟩
  case receiver =>
    intro ss
    have h := isReceiver ss
    exact ⟨fun t ht => by rwa [ht] at h, fun hn => by rwa [hn] at h⟩
  case rebind => exact fun s s' c k g t u => rebind_starts
  case refill => exact fun s c q qs hr hl hq => refillTiers_ring hr hl hq
  case dispatcher =>
    refine ⟨fun q => launchEntryRead_idle hp, fun h => ⟨launchEntryRead_resetting hp h, launchPlacement_resetting hp h⟩,
      fun q l hq hi hr hrun hres he hl => launchEntryRead_taken hp hq hi hr hrun hres he hl, ?first, ?ends,
      launchPlacement_out hp, ?place, fun l hrun hres hl => launchPlacement_noSpace hp hrun hres hl, fun l hl =>
        ⟨priorityPromotion_due hp hl, priorityPromotion_early hp hl, fun st h => launchCompletion_ends hp hl (.inl h),
          fun h ho => launchCompletion_ends hp hl (.inr ⟨h, ho, rfl⟩), launchCompletion_left hp hl⟩⟩
    case first =>
      intro q w s1 p1 hq hi hr hrun hres he hl hn hw hp1
      rw [← hn] at hp1
      obtain ⟨p', l, hp', hat, hd, hid, ht, hpl, hend⟩ := firstRead_enters s.subject.die (p.nextRead q s.subject.die) w hp1
      rw [hn] at hp'
      refine ⟨_, p', l, launchEntryRead_first hp hq hi hr hrun hres he hl hw, hp', hat, hd, hid, ht, hpl, ?_⟩
      rw [hid]
      exact hend
    case ends =>
      intro l st s1 hl h hw hk
      obtain ⟨p', hp', hne, hin⟩ := endLaunch_launches hp hw hk
      exact ⟨_, p', launchCompletion_ends hp hl h, hp', hne, fun x hx ho => ⟨_, hin x hx ho, resolve_successor x l.id st s.clock⟩⟩
    case place =>
      intro hrun hres hfit
      refine ⟨fun l e x hl he => launchPlacement_stalled hp hrun hres hfit hl he, fun l hl he hn => ?_,
        launchPlacement_none hp hrun hres hfit⟩
      rw [launchPlacement_places hp hrun hres hfit hl he]
      refine ⟨fun h => by rw [checkAndPlace_placed _ h, hn], fun h hb => by rw [checkAndPlace_pair _ h hb, hn], fun h hb s1 r hr => ?_⟩
      rw [checkAndPlace_seeds _ h hb hr, hn]
      exact ⟨fun ts ht => by rw [ht]; rfl, fun ht => by rw [ht]; rfl, fun ht => by rw [ht]; rfl⟩
  case slots =>
    exact ⟨⟨rfl, rfl⟩, rfl, migrantParkSwap_early, fun e => migrantParkSwap_stalled, migrantParkSwap_swaps, slotRemoval_no,
      fun h ht => ⟨_, slotRemoval_empty h ht, by simp, by simp⟩, slotReturn_no, slotReturn_yes, deadlockPass_idle, deadlockPass_due,
      prefectSample_early, prefectSample_due⟩

end Sys2Proof.Machine
end

section
/-! Writing back a core as it reads: what sends a push does the same before and after it (R262). A thread that is only written
back changes nothing that an instruction goes on to read. -/

namespace Sys2Proof.Machine

/-- Two entries of a table set in either order. -/
theorem Table.set_comm {α : Type} (t : Table α) {n m : Nat} (v w : α) (h : n ≠ m) :
    (Table.set t n v).set m w = (Table.set t m w).set n v := by
  induction t with
  | nil =>
    rcases Nat.lt_or_gt_of_ne h with h' | h' <;> simp [Table.set, h', Nat.lt_asymm h', h, h.symm]
  | cons e r ih =>
    obtain ⟨k, u⟩ := e
    rcases Nat.lt_trichotomy k n with hn | rfl | hn <;> rcases Nat.lt_trichotomy k m with hm | rfl | hm
    case inl.inl => simp [Table.set, hn, hm, ih]
    case inr.inl.inr.inl => exact absurd rfl h
    all_goals
      rcases Nat.lt_or_gt_of_ne h with h' | h' <;>
        simp [Table.set, *, Nat.lt_asymm, Nat.ne_of_lt, Nat.ne_of_gt] <;> omega

namespace State

/-- The state with a core listed as it reads. -/
def relist (s : State) (c : Nat) : State := s.setCore c (s.core c)

@[simp] theorem core_relist (s : State) (c d : Nat) : (s.relist c).core d = s.core d := by
  by_cases h : d = c
  · subst h; simp [relist]
  · rw [relist, core_setCore_ne _ _ h]

theorem setThr_same {s : State} {c : Nat} {k : SlotN} {t : Thread} (h : s.slot c k = .thread t) : s.setThr c k t = s.relist c := by
  have hk : (s.core c).c.slots.set k (.thread t) = (s.core c).c.slots := by
    rw [← h]
    exact Vector.set_getElem_self _
  simp only [setThr, setSlot, modCtx, modCore, relist]
  rw [show (s.core c).c.slots.set k (.thread t) k.isLt = (s.core c).c.slots from hk]

@[simp] theorem setThr_relist (s : State) (c : Nat) (k : SlotN) (t : Thread) : (s.relist c).setThr c k t = s.setThr c k t := by
  simp only [setThr, setSlot, modCtx, modCore, core_relist]
  simp only [relist, setCore_setCore]

theorem setCore_comm (s : State) {c d : Nat} (x y : Core) (h : c ≠ d) :
    (s.setCore c x).setCore d y = (s.setCore d y).setCore c x := by
  simp only [setCore, Table.set_comm _ _ _ h]

theorem modCore_comm (s : State) {c d : Nat} (f g : Core → Core) (h : c ≠ d) :
    (s.modCore c f).modCore d g = (s.modCore d g).modCore c f := by
  simp only [modCore, core_setCore_ne s _ h, core_setCore_ne s _ (Ne.symm h), setCore_comm s _ _ h]

theorem modCore_relist (s : State) (c d : Nat) (f : Core → Core) : (s.relist c).modCore d f = (s.modCore d f).relist c := by
  by_cases h : d = c
  · subst h
    simp only [modCore, relist, setCore_setCore, core_setCore]
  · simp only [modCore, relist, core_setCore_ne s _ h, core_setCore_ne s _ (Ne.symm h), setCore_comm s _ _ h]

/-! ### What reads the same -/

section
variable (s : State) (c : Nat)

@[simp] theorem slot_relist (d : Nat) (k : SlotN) : (s.relist c).slot d k = s.slot d k := by simp [slot]

@[simp] theorem thr_relist (d : Nat) (k : SlotN) : (s.relist c).thr d k = s.thr d k := by simp [thr]

@[simp] theorem queue_relist (q : QRef) : (s.relist c).queue q = s.queue q := by
  cases q with
  | lq d i => simp [queue]
  | cq cl i => rfl
  | mbx d i => rfl
  | inbox d => rfl

@[simp] theorem partOf_relist (d : Nat) : (s.relist c).partOf d = s.partOf d := by
  simp only [partOf, core_relist]
  rfl

@[simp] theorem share_relist (d : Nat) : (s.relist c).share d = s.share d := by simp only [share, partOf_relist]

@[simp] theorem clusterKey_relist (cl a : Nat) : (s.relist c).clusterKey cl a = s.clusterKey cl a := by
  simp only [clusterKey, place, partOf_relist]

@[simp] theorem heldArea_relist (cl off : Nat) : (s.relist c).heldArea cl off = s.heldArea cl off := by
  simp only [heldArea, clusterKey_relist]
  rfl

@[simp] theorem descKey_relist (q : QRef) : (s.relist c).descKey q = s.descKey q := by
  cases q <;> simp only [descKey, heldArea_relist, queue_relist]

@[simp] theorem entryKey_relist (q : QRef) (j : BitVec 16) : (s.relist c).entryKey q j = s.entryKey q j := by
  simp only [entryKey, clusterKey_relist, queue_relist]

@[simp] theorem ownerOf_relist (q : QRef) : (s.relist c).ownerOf q = s.ownerOf q := by cases q <;> rfl

@[simp] theorem queueOpen_relist (q : QRef) : (s.relist c).queueOpen q = s.queueOpen q := by cases q <;> rfl

@[simp] theorem queueLocked_relist (q : QRef) (push : Bool) (by_ : Option (Nat × SlotN)) :
    (s.relist c).queueLocked q push by_ = s.queueLocked q push by_ := by
  simp only [queueLocked, spanLock, spadOf, lockHolds, outLocked, queue_relist, descKey_relist, entryKey_relist, share_relist,
    core_relist]
  rfl

@[simp] theorem popWaits_relist (q : QRef) : (s.relist c).popWaits q = s.popWaits q := by
  simp only [popWaits, queueOpen_relist, queue_relist]

/-! ### What does the same -/

theorem setQueue_relist (q : QRef) (x : Queue) : (s.relist c).setQueue q x = (s.setQueue q x).relist c := by
  cases q with
  | lq d i => exact modCore_relist s c d fun k => { k with c := { k.c with lq := k.c.lq.set i x } }
  | cq cl i => rfl
  | mbx d i => rfl
  | inbox d => rfl

theorem poke_relist (key : Nat) (bs : List Byte) : (s.relist c).poke key bs = (s.poke key bs).relist c := rfl

theorem writeBack_relist (q : QRef) : (s.relist c).writeBack q = (s.writeBack q).relist c := by
  simp only [writeBack, descKey_relist, queue_relist]
  split
  · exact poke_relist s c _ _
  · rfl

/-- What `modRef` does beside the core: the thread in a context switched out (R387). -/
def modShadow (s : State) (r : TRef) (f : Thread → Thread) : State :=
  { s with shadow := s.shadow.map fun e => if e.2.1 = r.core then (e.1, e.2.1, e.2.2.modSerial f r.serial) else e }

theorem modRef_relist (r : TRef) (f : Thread → Thread) : (s.relist c).modRef r f = (s.modRef r f).relist c := by
  have h := modCore_relist s c r.core fun k => { k with
    c := k.c.modSerial f r.serial
    swapped := k.swapped.map fun w => if w.t.serial = r.serial then { w with t := f w.t } else w }
  exact congrArg (fun s : State => s.modShadow r f) h

theorem post_relist (r : TRef) (cls : Fin 3) (dest : Nat) (op : POp) (launch : BitVec 32) :
    (s.relist c).post r cls dest op launch = (s.post r cls dest op launch).relist c := by
  simp only [post, modRef_relist]
  rfl

theorem performPush_relist (q : QRef) (v : Word) : (s.relist c).performPush q v = (s.performPush q v).relist c := by
  simp only [performPush, queue_relist, queueOpen_relist, core_relist, ownerOf_relist, entryKey_relist, setQueue_relist,
    modRef_relist, writeBack_relist]
  split
  · rfl
  · cases q with
    | lq d i => rfl
    | cq cl i =>
      dsimp only
      split
      · rw [poke_relist, setQueue_relist, writeBack_relist]
      · rw [setQueue_relist, writeBack_relist]
    | mbx d i =>
      dsimp only
      split
      · rw [poke_relist, setQueue_relist, writeBack_relist]
      · rw [setQueue_relist, writeBack_relist]
    | inbox d =>
      dsimp only
      split
      · rw [poke_relist, setQueue_relist, writeBack_relist]
      · rw [setQueue_relist, writeBack_relist]

theorem sendPush_relist (w : TRef) (launch : BitVec 32) (q : QRef) (h v : Word) :
    (s.relist c).sendPush w launch q h v = (s.sendPush w launch q h v).relist c := by
  simp only [sendPush, queue_relist, ownerOf_relist, core_relist, queueOpen_relist, popWaits_relist, queueLocked_relist,
    performPush_relist, setQueue_relist, post_relist]
  split <;> rfl

/-- A thread written over, whatever a queue is in between. -/
theorem setThr_setQueue_setThr (k : SlotN) (q : QRef) (x : Queue) (t u : Thread) :
    ((s.setThr c k t).setQueue q x).setThr c k u = (s.setQueue q x).setThr c k u := by
  cases q with
  | lq d i =>
    by_cases h : d = c
    · subst h
      simp only [setQueue, setThr, setSlot, modCtx, modCore, core_setCore, setCore_setCore]
      congr 3
      exact Vector.ext fun j hj => by simp only [Vector.getElem_set]; split <;> rfl
    · exact (congrArg (fun s : State => s.setThr c k u) (modCore_comm s _ _ (Ne.symm h))).trans (setThr_setThr _ c k t u)
  | cq cl i =>
    exact congrArg (fun s : State => s.modCluster cl fun k => { k with cq := k.cq.set i x }) (setThr_setThr s c k t u)
  | mbx d i => exact setThr_setThr s c k t u
  | inbox d => exact setThr_setThr s c k t u

end

end State

end Sys2Proof.Machine
end

section
/-! What a base instruction does about its mapped registers before it executes (R57, R262, R417): parts of O28. -/

namespace Sys2Proof.Machine

/-! ### Forms -/

/-- The body of a Zicsr instruction that does not write a read-only CSR (R137). -/
def csrBody (rd : XReg) (n : Nat) (writes : Bool) (f : Thread → Word → Word) : Body := fun s c k =>
  if writes ∧ (n = 0x807 ∨ n = 0x808) then
    let old := s.readCsr c k n
    (repeatFor s c k ((s.thr c k).a.advance none 4).csr n (f (s.thr c k) old)).bind fun s r =>
      .ok s { ws := [.x rd old, .rep r.1 r.2.1 r.2.2] }
  else
    let old := s.readCsr c k n
    let a := (s.thr c k).a
    (if writes then writeCsr s c k n (f (s.thr c k) old) else .ok s ()).bind fun s _ =>
    if writes ∧ n = 0x802 then
      if a.mapped rd then .ok s { ws := [.push (a.mapHandle c rd) old] }
      else .ok (s.modThr c k fun t => { t with a := t.a.setX rd old }) {}
    else .ok s { ws := [.x rd old] }

theorem csrOp_run {csr : BitVec 12} {writes : Bool} (rd : XReg) (src : List XReg) (f : Thread → Word → Word) (s : State)
    (h : (writes && decide (0xC00 ≤ csr.toNat)) = false) : csrOp rd csr src writes f s =
      run { who := csrWho csr.toNat, src := src, dst := [rd] } (csrBody rd csr.toNat writes f) s := by
  simp only [csrOp, h, Bool.false_eq_true, if_false]
  rfl

theorem csrOp_bad {csr : BitVec 12} {writes : Bool} (rd : XReg) (src : List XReg) (f : Thread → Word → Word) (s : State)
    (h : (writes && decide (0xC00 ≤ csr.toNat)) = true) : csrOp rd csr src writes f s =
      run { who := csrWho csr.toNat } (fun s c k => illegal s c k) s := by
  simp only [csrOp, h, if_true]

/-- A base instruction runs in its form. -/
theorem run_of_baseForm {i : Instr} {f : Form} (h : baseForm i = some f) : ∃ body, ∀ s, exec i s = run f body s := by
  have csr {rd : XReg} {csr : BitVec 12} {src : List XReg} {writes : Bool} {g : Thread → Word → Word} {p : Prop} [Decidable p]
      (hp : p ↔ (writes && decide (0xC00 ≤ csr.toNat)) = true)
      (h : (if p then none else some ({ who := csrWho csr.toNat, src := src, dst := [rd] } : Form)) = some f) :
      ∃ body, ∀ s, csrOp rd csr src writes g s = run f body s := by
    split at h
    · contradiction
    · next hn =>
      cases h
      exact ⟨_, fun s => csrOp_run rd src g s (Bool.eq_false_iff.mpr (hp.not.mp hn))⟩
  cases i
  case csrrw rd n rs1 => exact csr (writes := true) (g := fun t _ => t.xv rs1) (by simp) h
  case csrrwi rd n u => exact csr (writes := true) (g := fun _ _ => BitVec.ofNat 64 u.val) (by simp) h
  case csrrs rd n rs1 => exact csr (writes := rs1 != 0) (g := fun t old => old ||| t.xv rs1) (by simp) h
  case csrrc rd n rs1 => exact csr (writes := rs1 != 0) (g := fun t old => old &&& ~~~(t.xv rs1)) (by simp) h
  case csrrsi rd n u => exact csr (writes := u != 0) (g := fun _ old => old ||| BitVec.ofNat 64 u.val) (by simp) h
  case csrrci rd n u => exact csr (writes := u != 0) (g := fun _ old => old &&& ~~~(BitVec.ofNat 64 u.val)) (by simp) h
  all_goals cases h <;> exact ⟨_, fun s => rfl⟩

/-- A base instruction takes no guard, needs no unit, and has one destination at most. -/
theorem baseForm_plain {i : Instr} {f : Form} (h : baseForm i = some f) :
    f.guard = 0 ∧ f.custom3 = false ∧ f.dst.length ≤ 1 := by
  have csr {p : Prop} [Decidable p] {g : Form} (hg : g.guard = 0 ∧ g.custom3 = false ∧ g.dst.length ≤ 1)
      (h : (if p then none else some g) = some f) : f.guard = 0 ∧ f.custom3 = false ∧ f.dst.length ≤ 1 := by
    split at h
    · contradiction
    · cases h
      exact hg
  cases i
  case csrrw | csrrwi | csrrs | csrrc | csrrsi | csrrci => exact csr ⟨rfl, rfl, le_rfl⟩ h
  all_goals cases h <;> exact ⟨rfl, rfl, by simp⟩

end Sys2Proof.Machine
end

section
/-! Issuing an instruction that names mapped registers: the checks, the commit, and the pops (R57, R117, R262, R417): parts of
O28. -/

namespace Sys2Proof.Machine

/-! ### The checks before the pops -/

theorem checkQueues_ok {s : State} {c : Nat} {k : SlotN} {t : Thread} {push : Bool} (hs : s.slot c k = .thread t) {rs : List XReg}
    (h : ∀ r ∈ rs, s.queueTrap c (t.a.mapHandle c r) push = none) : checkQueues s c k push rs = .ok s () := by
  induction rs with
  | nil => rfl
  | cons r rs ih =>
    simp only [checkQueues, State.thr_of_slot hs, h r List.mem_cons_self, ite_self]
    exact ih fun r' hr => h r' (List.mem_cons_of_mem _ hr)

theorem checkQueues_trap {s : State} {c : Nat} {k : SlotN} {t : Thread} {push : Bool} {r : XReg} {p : Trap}
    (hs : s.slot c k = .thread t) (h : s.queueTrap c (t.a.mapHandle c r) push = some p)
    (ho : push = true → t.owed ≠ some (t.a.mapHandle c r)) (rs : List XReg) : checkQueues s c k push (r :: rs) = trap s c k p := by
  have hk : (push && t.owed == some (t.a.mapHandle c r)) = false := by
    cases push
    · rfl
    · simpa using ho rfl
  simp only [checkQueues, State.thr_of_slot hs, hk, h, Bool.false_eq_true, if_false]

theorem sentAll_ok {s : State} {c : Nat} {k : SlotN} {t : Thread} (hs : s.slot c k = .thread t) {rs : List XReg}
    (h : ∀ r ∈ rs, ∀ q, qref c (t.a.mapHandle c r) = some q → s.ownerOf q = c → s.sentTo (t.ref c) c = false) :
    sentAll s c k rs = .ok s () := by
  induction rs with
  | nil => rfl
  | cons r rs ih =>
    have ih := ih fun r' hr => h r' (List.mem_cons_of_mem _ hr)
    have hr := h r List.mem_cons_self
    unfold sentAll
    rw [State.thr_of_slot hs]
    split
    next q hq =>
      by_cases ho : s.ownerOf q = c
      · simp only [sentFirst, ho, if_true, State.thr_of_slot hs, hr q hq ho, Bool.not_false, waitFor_true, Got.bind_ok, ih]
      · simp only [sentFirst, ho, if_false, Got.bind_ok, ih]
    next => exact ih

/-- With the checks passed and the chunk committed the pops follow (R57, R240, R248). -/
theorem mappedFirst_maps {s s1 : State} {c : Nat} {k : SlotN} {t u : Thread} {f : Form} (h : s.Maps c k t f s1 u)
    (hd : f.dst.length ≤ 1) : mappedFirst s c k f = popAll s1 c k (t.a.mappedOf f.src) := by
  obtain ⟨⟨-, -, hs⟩, -, hnames, hpops, hpushes, hcom, hroom, hsent⟩ := h
  have ha : u.a = t.a := hcom.a
  have hn : (f.dst.filter t.a.mapped).length ≤ 1 := le_trans (List.length_filter_le _ _) hd
  have room : (if t.a.mappedOf f.dst = [] then Got.ok s1 () else roomWait s1 c k 2 (f.dst.filter t.a.mapped).length) =
      .ok s1 () := by
    split
    · rfl
    next hne =>
      have h2 := (hroom hne).2
      have hb : u.psc 2 + (f.dst.filter t.a.mapped).length ≤ 0xFFFF := by show u.psc2 + _ ≤ _; omega
      simp only [roomWait, State.thr_of_slot hcom.slot, hb, decide_true, waitFor_true]
  unfold mappedFirst
  simp only [State.thr_of_slot hs]
  rw [if_neg hnames, checkQueues_ok hs hpops, Got.bind_ok, checkQueues_ok hs hpushes, Got.bind_ok, hcom.run, Got.bind_ok, room,
    Got.bind_ok, sentAll_ok hcom.slot (by rw [ha]; exact hsent), Got.bind_ok]

/-! ### Popping -/

theorem Thread.a_hold (t : Thread) (r : XReg) (v : Word) : (t.hold r v).a = t.a := rfl

/-- What stays of a thread while it pops: all but the values held (R417). -/
structure Thread.SameButHeld (t u : Thread) : Prop where
  a : u.a = t.a
  serial : u.serial = t.serial
  launch : u.launch = t.launch
  paired : u.paired = t.paired
  vq : u.vq = t.vq
  chunk : u.chunk = t.chunk
  closed : u.closed = t.closed
  owed : u.owed = t.owed

theorem Pops.same {c : Nat} {k : SlotN} {s s2 : State} {u w : Thread} {ps : List (XReg × Word)} (h : State.Pops c k s u ps s2 w) :
    u.SameButHeld w := by
  induction h with
  | none => exact ⟨rfl, rfl, rfl, rfl, rfl, rfl, rfl, rfl⟩
  | held _ _ _ ih => exact ih
  | popped _ _ _ _ _ _ _ ih =>
    obtain ⟨ha, hs, hl, hp, hv, hc, hc', ho⟩ := ih
    exact ⟨ha, hs, hl, hp, hv, hc, hc', ho⟩

theorem Pops.slot {c : Nat} {k : SlotN} {s s2 : State} {u w : Thread} {ps : List (XReg × Word)}
    (h : State.Pops c k s u ps s2 w) : s2.slot c k = .thread w := by
  induction h with
  | none here => exact here
  | held _ _ _ ih => exact ih
  | popped _ _ _ _ _ _ _ ih => exact ih

/-- A pop of a mapped source whose queue holds a value (R57, R262). -/
theorem popFor_takes {s s0 : State} {c : Nat} {k : SlotN} {u : Thread} {r : XReg} {q : QRef} {v : Word}
    (hs : s.slot c k = .thread u) (hq : qref c (u.a.mapHandle c r) = some q) (hl : s.queueLocked q false (some (c, k)) = none)
    (hp : s.takePop q = some (v, s0)) : popFor s c k r =
      if q.ownLocal c then .ok (s0.modThr c k fun t => t.hold r v) ()
      else .stop ((s0.modThr c k fun t => t.hold r v).park c k (.given ((s.core c).cycle + 1))) := by
  simp only [popFor, State.thr_of_slot hs, hq, popLock, hl, Got.bind_ok, hp]

/-- A pop of a mapped source whose queue is empty is held there (R57, R262). -/
theorem popFor_waits {s : State} {c : Nat} {k : SlotN} {u : Thread} {r : XReg} {q : QRef} (hs : s.slot c k = .thread u)
    (hq : qref c (u.a.mapHandle c r) = some q) (hl : s.queueLocked q false (some (c, k)) = none) (hp : s.takePop q = none) :
    popFor s c k r = .stop ((s.setQueue q { s.queue q with pops := (s.queue q).pops ++ [u.ref c] }).park c k
      (.pop (u.a.mapHandle c r) true r)) := by
  simp only [popFor, State.thr_of_slot hs, hq, popLock, hl, Got.bind_ok, hp]

/-- The pops performed go before the rest (R417). -/
theorem popAll_pops {c : Nat} {k : SlotN} {s s2 : State} {u w : Thread} {ps : List (XReg × Word)} (h : State.Pops c k s u ps s2 w)
    (hs : s.slot c k = .thread u) (rs : List XReg) : popAll s c k (ps.map (·.1) ++ rs) = popAll s2 c k rs := by
  induction h with
  | none => rfl
  | held holds _ _ ih =>
    rw [List.map_cons, List.cons_append, popAll, State.thr_of_slot hs, if_pos holds]
    exact ih hs
  | @popped s s0 _ u _ r v q _ free queue own unlocked pop here _ ih =>
    have hf : ¬(u.holds r = true) := by rw [free]; exact Bool.false_ne_true
    have hm : (s0.modThr c k fun t => t.hold r v) = s0.setThr c k (u.hold r v) := by rw [State.modThr, State.thr_of_slot here]
    rw [List.map_cons, List.cons_append, popAll, State.thr_of_slot hs, if_neg hf, popFor_takes hs queue unlocked pop, if_pos own,
      Got.bind_ok, hm]
    exact ih (by simp)

/-! ### The values that stand for the sources -/

/-- A value that the thread holds for the instruction at its pc stays while it pops (R417). -/
theorem Pops.keeps {c : Nat} {k : SlotN} {s s2 : State} {u w : Thread} {ps : List (XReg × Word)}
    (h : State.Pops c k s u ps s2 w) (hpc : u.heldPc = u.a.pc) {j : Fin 4} {v : Word} (hv : u.held[j] = some v) :
    w.held[j] = some v := by
  induction h with
  | none => exact hv
  | held _ _ _ ih => exact ih hpc hv
  | @popped _ _ _ u _ r x _ _ free _ _ _ _ _ _ ih =>
    refine ih rfl ?_
    have hr : (u.held[r.val % 4]).isSome = false := by simpa [Thread.holds, hpc] using free
    have hj : r.val % 4 ≠ j.val := by
      intro he
      simp only [he] at hr
      rw [show u.held[j.val] = some v from hv] at hr
      contradiction
    simp only [Thread.hold, hpc, if_true, Fin.getElem_fin]
    rw [Vector.getElem_set_ne _ _ hj]
    exact hv

/-- Every value popped, or held before, is held when the pops are done (R417). -/
theorem Pops.holds {c : Nat} {k : SlotN} {s s2 : State} {u w : Thread} {ps : List (XReg × Word)} (h : State.Pops c k s u ps s2 w) :
    ∀ p ∈ ps, w.held[p.1.val % 4] = some p.2 := by
  induction h with
  | none => simp
  | @held _ _ u _ r v _ holds val rest ih =>
    have hpc : u.heldPc = u.a.pc := by
      have := holds
      simp only [Thread.holds, Bool.and_eq_true, beq_iff_eq] at this
      exact this.1
    rintro p (_ | ⟨_, hp⟩)
    · exact Pops.keeps rest hpc (j := ⟨r.val % 4, Nat.mod_lt _ (by decide)⟩) val
    · exact ih p hp
  | @popped _ _ _ u _ r v _ _ _ _ _ _ _ _ rest ih =>
    rintro p (_ | ⟨_, hp⟩)
    · refine Pops.keeps rest rfl (j := ⟨r.val % 4, Nat.mod_lt _ (by decide)⟩) ?_
      exact Vector.getElem_set_self _
    · exact ih p hp

theorem Arch.mem_mappedOf (a : Arch) (rs : List XReg) (r : XReg) : r ∈ a.mappedOf rs ↔ r ∈ rs ∧ a.mapped r = true := by
  simp [Arch.mappedOf]

/-- A source register reads the value popped for it, or its own if it is not mapped (R57, R417). -/
theorem xv_of_pops {c : Nat} {k : SlotN} {s s2 : State} {u w : Thread} {ps : List (XReg × Word)} {rs : List XReg}
    (h : State.Pops c k s u ps s2 w) (hm : u.a.mappedOf rs = ps.map (·.1)) {r : XReg} (hr : r ∈ rs) :
    w.xv r = ((ps.find? fun p => p.1 == r).map (·.2)).getD (u.a.xr r) := by
  have ha : w.a = u.a := (Pops.same h).a
  have hmem : u.a.mapped r = true ↔ r ∈ ps.map (·.1) := by
    rw [← hm, Arch.mem_mappedOf]
    exact ⟨fun h => ⟨hr, h⟩, fun h => h.2⟩
  cases hf : ps.find? fun p => p.1 == r with
  | none =>
    have hn : u.a.mapped r = false := by
      rw [Bool.eq_false_iff, ne_eq, hmem]
      intro hr'
      obtain ⟨p, hp, rfl⟩ := List.mem_map.mp hr'
      simpa using List.find?_eq_none.mp hf p hp
    rw [Thread.xv_of (by rw [ha]; exact hn), ha]
    rfl
  | some p =>
    have hp : p ∈ ps := List.mem_of_find?_eq_some hf
    have he : p.1 = r := by simpa using List.find?_some hf
    have hmap : w.a.mapped r = true := by rw [ha, hmem]; exact List.mem_map.mpr ⟨p, hp, he⟩
    have h28 : (decide (28 ≤ r.val)) = true := by
      have := hmap
      simp only [Arch.mapped, Bool.and_eq_true] at this
      exact this.1
    have hh : w.held[r.val % 4] = some p.2 := by subst he; exact Pops.holds h p hp
    simp [Thread.xv, h28, hmap, hh]

/-! ### Issue -/

/-- An instruction without guard or unit that its slot may issue does first what it does about its mapped registers (R117). -/
theorem issue_plain {s : State} {c : Nat} {k : SlotN} {f : Form} (hw : f.who.allows k = true) (hg : f.guard = 0)
    (hc : f.custom3 = false) : issue s c k f = (mappedFirst s c k f).bind fun s _ => .ok s true := by
  simp only [issue, hw, hg, hc, Bool.not_true, Bool.false_eq_true, if_false, ne_eq, not_true, false_and]

/-- What an instruction's issue leaves is all it does if the issue stops it. -/
theorem run_stopped {s s1 : State} {c : Nat} {k : SlotN} {t : Thread} {f : Form} (h : s.At c k t) (hw : f.who.allows k = true)
    (hg : f.guard = 0) (hc : f.custom3 = false) (hm : mappedFirst s c k f = .stop s1) (body : Body) (len : Nat) :
    run f body s len = .next s1 := by
  obtain ⟨rfl, rfl, hs⟩ := h
  simp only [run, hs, Slot.thread?, runAt, issue_plain hw hg hc, hm, Got.bind_stop]

/-- What an instruction has done when its body is over: stopped, completed, or to be performed again (R51, R262). -/
def State.afterBody (s : State) (c : Nat) (k : SlotN) (len : Nat) : Got Completion → State
  | .stop s1 => s1
  | .ok s1 r => s.orAgain c k (complete s1 c k { r with len := len })

/-- An instruction that has done what it does about its mapped registers, and that no timing error strikes, performs its body. -/
theorem run_issued {s s2 : State} {c : Nat} {k : SlotN} {t : Thread} {f : Form} (h : s.At c k t) (hw : f.who.allows k = true)
    (hg : f.guard = 0) (hc : f.custom3 = false) (hm : mappedFirst s c k f = .ok s2 ()) (hn : s2.strikesNow c k = false)
    (body : Body) (len : Nat := 4) : run f body s len = .next (s2.afterBody c k len (body s2 c k)) := by
  obtain ⟨rfl, rfl, hs⟩ := h
  simp only [run, hs, Slot.thread?, runAt, issue_plain hw hg hc, hm, Got.bind_ok, hn, Bool.false_eq_true, if_false]
  rfl

end Sys2Proof.Machine
end

section
/-! How an instruction ends that delivers a value to a register that may be mapped (R57, R262): parts of O28. -/

namespace Sys2Proof.Machine

theorem State.slot_setQueue (s : State) (q : QRef) (x : Queue) (c : Nat) (k : SlotN) : (s.setQueue q x).slot c k = s.slot c k := by
  cases q with
  | lq d i =>
    by_cases h : c = d
    · subst h; simp [State.setQueue, State.slot]
    · simp only [State.setQueue, State.slot, State.modCtx, State.core_modCore_ne _ _ h]
  | cq cl i => rfl
  | mbx d i => rfl
  | inbox d => rfl

/-- What follows the delivery only completes the instruction, and then does something to the thread. -/
def EndsWith (ws : List RegWrite) (next : Option Word) (after : Thread → Thread) : Prop :=
  (∀ (s : State) (c : Nat) (k : SlotN), finishWs s c k next 4 ws = s.modThr c k fun t => after (t.finish next 4)) ∧
    ∀ t, (after t).st = t.st

theorem endsWith_nil (next : Option Word) : EndsWith [] next id := ⟨fun _ _ _ => rfl, fun _ => rfl⟩

theorem endsWith_rep (cnt body e : Word) : EndsWith [.rep cnt body e] none fun t => t.setRepeat cnt body e :=
  ⟨fun s c k => State.modThr_modThr s c k (fun t => t.finish none 4) fun t => t.setRepeat cnt body e, fun _ => rfl⟩

/-- How an instruction ends that pushes its result; the state and thread are s' and t' before it (R262). -/
def State.endsPush (s : State) (c : Nat) (k : SlotN) (w : Thread) (q : QRef) (h v : Word) (next : Option Word) (s' : State)
    (t' : Thread) (after : Thread → Thread) : State :=
  let x := s.queue q
  if w.owed = some h then
    let s1 := ((s'.setQueue q { x with kept := x.kept - 1 }).setThr c k { t' with owed := none }).sendPush (w.ref c) w.launch q h v
    s1.setThr c k (after ((s1.thr c k).finish next 4))
  else if x.room then
    let s1 := (s'.setThr c k t').sendPush (w.ref c) w.launch q h v
    s1.setThr c k (after ((s1.thr c k).finish next 4))
  else (s.setQueue q { x with pushes := x.pushes ++ [w.ref c] }).park c k (.push h v {} true)

theorem ends_mapped {w : Thread} {rd : XReg} {c : Nat} {q : QRef} (hm : w.a.mapped rd = true)
    (hq : qref c (w.a.mapHandle c rd) = some q) (s : State) (k : SlotN) (v : Word) (next : Option Word) (s' : State) (t' : Thread)
    (after : Thread → Thread) : s.ends c k w rd v next s' t' after =
      s.endsPush c k w q (w.a.mapHandle c rd) v next s' t' after := by
  simp only [State.ends, hm, if_true, hq]
  rfl

theorem ends_unmapped {w : Thread} {rd : XReg} (hm : w.a.mapped rd = false) (s : State) (c : Nat) (k : SlotN) (v : Word)
    (next : Option Word) (s' : State) (t' : Thread) (after : Thread → Thread) :
    s.ends c k w rd v next s' t' after = s'.setThr c k (after ((t'.wx rd v).finish next 4)) := by
  simp only [State.ends, hm, Bool.false_eq_true, if_false]

/-- A thread that was written before the end is written again at the end. -/
theorem ends_setThr (s : State) (c : Nat) (k : SlotN) (w : Thread) (rd : XReg) (v : Word) (next : Option Word) (s' : State)
    (t' : Thread) (after : Thread → Thread) :
    s.ends c k w rd v next (s'.setThr c k t') t' after = s.ends c k w rd v next s' t' after := by
  simp only [State.ends, State.setThr_setThr, State.setThr_setQueue_setThr]

/-- The push of a result: with the chunk committed it is sent from the entry kept or free for it, or the thread waits to perform
the instruction again (R57, R240, R262). -/
theorem orAgain_push {s s' : State} {c : Nat} {k : SlotN} {w : Thread} {a : Arch} {q : QRef} {h : Word} {next : Option Word}
    {ws : List RegWrite} {after : Thread → Thread} (hw : s.slot c k = .thread w) (hs : s'.slot c k = .thread { w with a := a })
    (hch : w.chunk = none) (hcl : w.closed = none) (hst : w.storesPending = false) (hq : qref c h = some q)
    (hx : s'.queue q = s.queue q) (he : EndsWith ws next after) (v : Word) :
    s.orAgain c k (finishWs s' c k next 4 (.push h v :: ws)) = s.endsPush c k w q h v next s' { w with a := a } after := by
  obtain ⟨hfin, hafter⟩ := he
  have hc' : commitFirst s' c k = .ok s' () := commitFirst_none hs hch hcl hst
  have hthr (x : Queue) : (s'.setQueue q x).thr c k = { w with a := a } :=
    State.thr_of_slot ((State.slot_setQueue s' q x c k).trans hs)
  have ended (s1 : State) : s.orAgain c k (finishWs s1 c k next 4 ws) = s1.setThr c k (after ((s1.thr c k).finish next 4)) := by
    rw [hfin, State.modThr]
    exact orAgain_of (by simp [hafter, Thread.finish])
  simp only [finishWs, pushFor, hc', Got.bind_ok, State.thr_of_slot hs, hq, hx, State.endsPush]
  by_cases howed : w.owed = some h
  · simp only [howed, if_true, ended, State.modThr, hthr]
    rfl
  by_cases hroom : (s.queue q).room = true
  · simp only [howed, hroom, if_false, if_true, ended, State.setThr_same hs, State.sendPush_relist, State.setThr_relist,
      State.thr_relist]
    rfl
  · simp only [howed, hroom, Bool.false_eq_true, if_false, State.park, State.modThr, hthr, State.orAgain, State.thr_setThr, hq,
      commitFirst_none hw hch hcl hst]
    rfl

/-- A mapped register is pushed to, and left (R57). -/
theorem finishWs_mapped {s : State} {c : Nat} {k : SlotN} {next : Option Word} {len : Nat} {r : XReg} {v : Word} {ws : List RegWrite}
    (h : (s.thr c k).a.mapped r = true) :
    finishWs s c k next len (.x r v :: ws) = finishWs s c k next len (.push ((s.thr c k).a.mapHandle c r) v :: ws) := by
  simp only [finishWs, h, if_true]

/-- An instruction that delivers a value to a register, whether it is mapped or not (R57, R119, R262). -/
theorem orAgain_ends {s s' : State} {c : Nat} {k : SlotN} {w : Thread} {a : Arch} {rd : XReg} {next : Option Word}
    {ws : List RegWrite} {after : Thread → Thread} (hw : s.slot c k = .thread w) (hs : s'.slot c k = .thread { w with a := a })
    (hmap : a.csr.qmap = w.a.csr.qmap) (hch : w.chunk = none) (hcl : w.closed = none)
    (hp : w.a.mapped rd = true → w.storesPending = false ∧ ∃ q, qref c (w.a.mapHandle c rd) = some q)
    (hx : ∀ q, s'.queue q = s.queue q) (he : EndsWith ws next after) (v : Word) :
    s.orAgain c k (finishWs s' c k next 4 (.x rd v :: ws)) = s.ends c k w rd v next s' { w with a := a } after := by
  have hma : a.mapped rd = w.a.mapped rd := by rw [Arch.mapped, Arch.mapByte, hmap]; rfl
  have hha : a.mapHandle c rd = w.a.mapHandle c rd := by rw [Arch.mapHandle, Arch.mapByte, hmap]; rfl
  cases hm : w.a.mapped rd with
  | false =>
    rw [ends_unmapped hm, finishWs_x (by rw [State.thr_of_slot hs]; exact hma.trans hm), he.1, State.modThr_modThr, State.modThr,
      State.thr_of_slot hs]
    exact orAgain_of (by simp [he.2, Thread.finish])
  | true =>
    obtain ⟨hst, q, hq⟩ := hp hm
    have hms : (s'.thr c k).a.mapped rd = true := by rw [State.thr_of_slot hs]; exact hma.trans hm
    rw [ends_mapped hm hq, finishWs_mapped hms, State.thr_of_slot hs, ← hha]
    rw [← hha] at hq
    exact orAgain_push hw hs hch hcl hst hq (hx q) he v

/-- A queue that does not refuse a push is a queue (R257). -/
theorem qref_of_queueTrap {s : State} {c : Nat} {h : Word} {push : Bool} (ht : s.queueTrap c h push = none) :
    ∃ q, qref c h = some q := by
  cases hq : qref c h with
  | none => simp [State.queueTrap, hq] at ht
  | some q => exact ⟨q, rfl⟩

end Sys2Proof.Machine
end

section
/-! Results of the base instructions as RISC-V states them (R130, R133, R134): parts of O28. -/

namespace Sys2Proof.Machine

/-! ### Results (R130, R133) -/

theorem ofBool_slt (a b : Word) : ofBool (a.slt b) = if a.toInt < b.toInt then 1 else 0 := by
  simp only [ofBool, BitVec.slt, decide_eq_true_eq]

theorem ofBool_ult (a b : Word) : ofBool (a.ult b) = if a.toNat < b.toNat then 1 else 0 := by
  simp only [ofBool, BitVec.ult, decide_eq_true_eq]

theorem mul_eq_ofNat (a b : Word) : a * b = BitVec.ofNat 64 (a.toNat * b.toNat) := by
  rw [BitVec.ofNat_mul, BitVec.ofNat_toNat, BitVec.ofNat_toNat, BitVec.setWidth_eq, BitVec.setWidth_eq]

/-- The high half of a product of 128 bits is the product divided by 2^64. -/
theorem mulHigh_ofInt (x y : Int) : mulHigh (BitVec.ofInt 128 x) (BitVec.ofInt 128 y) = BitVec.ofInt 64 (x * y / 2 ^ 64) := by
  rw [mulHigh, ← BitVec.ofInt_mul]
  generalize x * y = z
  apply BitVec.eq_of_toNat_eq
  rw [BitVec.toNat_setWidth, BitVec.toNat_ushiftRight, BitVec.toNat_ofInt, BitVec.toNat_ofInt, Nat.shiftRight_eq_div_pow]
  omega

theorem setWidth_eq_ofInt (a : Word) : a.setWidth 128 = BitVec.ofInt 128 a.toNat := by
  rw [BitVec.ofInt_natCast, BitVec.ofNat_toNat]

theorem mulHigh_unsigned (a b : Word) :
    mulHigh (a.setWidth 128) (b.setWidth 128) = BitVec.ofNat 64 (a.toNat * b.toNat / 2 ^ 64) := by
  rw [setWidth_eq_ofInt, setWidth_eq_ofInt, mulHigh_ofInt]
  exact BitVec.ofInt_natCast 64 _

theorem sdivF_eq {w : Nat} (a b : BitVec w) :
    sdivF a b = if b = 0 then -1 else BitVec.ofInt w (a.toInt.tdiv b.toInt) := by
  unfold sdivF
  split
  · exact BitVec.neg_one_eq_allOnes.symm
  · apply BitVec.eq_of_toInt_eq
    rw [BitVec.toInt_sdiv, BitVec.toInt_ofInt]

theorem sremF_eq {w : Nat} (a b : BitVec w) :
    sremF a b = if b = 0 then a else BitVec.ofInt w (a.toInt.tmod b.toInt) := by
  rw [sremF, ← BitVec.toInt_srem, BitVec.ofInt_toInt]

theorem udivF_eq {w : Nat} (a b : BitVec w) :
    udivF a b = if b = 0 then -1 else BitVec.ofNat w (a.toNat / b.toNat) := by
  rw [udivF, ← BitVec.neg_one_eq_allOnes, ← BitVec.toNat_udiv, BitVec.ofNat_toNat, BitVec.setWidth_eq]
  rfl

theorem uremF_eq {w : Nat} (a b : BitVec w) :
    uremF a b = if b = 0 then a else BitVec.ofNat w (a.toNat % b.toNat) := by
  rw [uremF, ← BitVec.toNat_umod, BitVec.ofNat_toNat, BitVec.setWidth_eq]

theorem signExtend_neg_one : (-1 : Word32).signExtend 64 = -1 := by decide

/-- The shift amount of a W operation is in the low word. -/
theorem low5 (b : Word) : (b.setWidth 32 : Word32).toNat % 32 = b.toNat % 32 := by
  rw [BitVec.toNat_setWidth]
  omega

/-- Twice a sign-extended offset. -/
theorem shiftLeft_one (x : Word) : x <<< 1 = x * 2 := by
  rw [BitVec.shiftLeft_eq_mul_twoPow]
  rfl

/-! ### Instructions that compute a register -/

section
variable {s s2 : State} {c : Nat} {k : SlotN} {w : Thread} {f : Form}

/-- An instruction of form f has come to its body, with its pops performed: the thread then is w, in the state s2, its chunk
committed, and a mapped destination takes a push (R57, R240, R262). -/
structure State.Popped (s : State) (c : Nat) (k : SlotN) (f : Form) (s2 : State) (w : Thread) : Prop where
  runs : ∀ body, run f body s = .next (s2.afterBody c k 4 (body s2 c k))
  slot : s2.slot c k = .thread w
  chunk : w.chunk = none
  closed : w.closed = none
  pushes : ∀ rd ∈ f.dst, w.a.mapped rd = true → w.storesPending = false ∧ ∃ q, qref c (w.a.mapHandle c rd) = some q

/-- The delivery of a result, the state and the registers before it being what the body has made of them (R57, R262). -/
theorem State.Popped.ends (h : s.Popped c k f s2 w) {rd : XReg} (hd : rd ∈ f.dst) {s' : State} {a : Arch}
    (hs : s'.slot c k = .thread { w with a := a }) (hmap : a.csr.qmap = w.a.csr.qmap) (hx : ∀ q, s'.queue q = s2.queue q)
    {ws : List RegWrite} {next : Option Word} {after : Thread → Thread} (he : EndsWith ws next after) (v : Word) :
    s2.afterBody c k 4 (.ok s' { ws := .x rd v :: ws, next := next }) = s2.ends c k w rd v next s' { w with a := a } after :=
  orAgain_ends h.slot hs hmap h.chunk h.closed (h.pushes rd hd) hx he v

/-- The delivery of a result by a body that has left the thread alone. -/
theorem State.Popped.endsIn (h : s.Popped c k f s2 w) {rd : XReg} (hd : rd ∈ f.dst) {s' : State} (hs : s'.slot c k = .thread w)
    (hx : ∀ q, s'.queue q = s2.queue q) {ws : List RegWrite} {next : Option Word} {after : Thread → Thread}
    (he : EndsWith ws next after) (v : Word) :
    s2.afterBody c k 4 (.ok s' { ws := .x rd v :: ws, next := next }) = s2.ends c k w rd v next (s' := s') (after := after) :=
  h.ends (a := w.a) hd hs rfl hx he v

/-- The delivery of a result by a body that has done nothing else. -/
theorem State.Popped.delivers (h : s.Popped c k f s2 w) {rd : XReg} (hd : rd ∈ f.dst) {ws : List RegWrite} {next : Option Word}
    {after : Thread → Thread} (he : EndsWith ws next after) (v : Word) :
    s2.afterBody c k 4 (.ok s2 { ws := .x rd v :: ws, next := next }) = s2.ends c k w rd v next (after := after) :=
  h.endsIn hd h.slot (fun _ => rfl) he v

/-- An instruction that computes rd from the thread (R130). -/
theorem State.Popped.alu {rd : XReg} {src : List XReg} (h : s.Popped c k { src := src, dst := [rd] } s2 w) (g : Thread → Word) :
    alu rd src g s = .next (s2.ends c k w rd (g w)) := by
  unfold Machine.alu
  rw [h.runs, pure_, State.thr_of_slot h.slot, h.delivers (by simp) (endsWith_nil _)]

theorem State.Popped.aluRR {rd rs1 rs2 : XReg} (h : s.Popped c k { src := [rs1, rs2], dst := [rd] } s2 w)
    (g : Word → Word → Word) : aluRR rd rs1 rs2 g s = .next (s2.ends c k w rd (g (w.xv rs1) (w.xv rs2))) :=
  h.alu fun t => g (t.xv rs1) (t.xv rs2)

theorem State.Popped.aluRI {rd rs1 : XReg} (h : s.Popped c k { src := [rs1], dst := [rd] } s2 w) (imm : BitVec 12)
    (g : Word → Word → Word) : aluRI rd rs1 imm g s = .next (s2.ends c k w rd (g (w.xv rs1) (imm.signExtend 64))) :=
  h.alu fun t => g (t.xv rs1) (imm.signExtend 64)

theorem Popped.regResults {rd rs1 rs2 : XReg} (h : s.Popped c k { src := [rs1, rs2], dst := [rd] } s2 w) :
    ∀ p ∈ regResults rd rs1 rs2 (w.xv rs1) (w.xv rs2), exec p.1 s = .next (s2.ends c k w rd p.2) := by
  simp only [Machine.regResults, List.forall_mem_cons, List.not_mem_nil, false_imp_iff, implies_true, and_true, ← ofBool_slt,
    ← ofBool_ult, ← mul_eq_ofNat, ← mulHigh_ofInt, ← mulHigh_unsigned, ← setWidth_eq_ofInt]
  exact ⟨h.aluRR (· + ·), h.aluRR (· - ·), h.aluRR fun a b => a <<< (b.toNat % 64), h.aluRR fun a b => ofBool (a.slt b),
    h.aluRR fun a b => ofBool (a.ult b), h.aluRR (· ^^^ ·), h.aluRR fun a b => a >>> (b.toNat % 64),
    h.aluRR fun a b => a.sshiftRight (b.toNat % 64), h.aluRR (· ||| ·), h.aluRR (· &&& ·), h.aluRR (onW (· + ·)),
    h.aluRR (onW (· - ·)), low5 _ ▸ h.aluRR (onW fun x y => x <<< (y.toNat % 32)),
    low5 _ ▸ h.aluRR (onW fun x y => x >>> (y.toNat % 32)), low5 _ ▸ h.aluRR (onW fun x y => x.sshiftRight (y.toNat % 32)),
    h.aluRR (· * ·),
    h.aluRR fun a b => mulHigh (a.signExtend 128) (b.signExtend 128), h.aluRR fun a b => mulHigh (a.signExtend 128) (b.setWidth 128),
    h.aluRR fun a b => mulHigh (a.setWidth 128) (b.setWidth 128), h.aluRR (onW (· * ·))⟩

theorem Popped.immResults {rd rs1 : XReg} (h : s.Popped c k { src := [rs1], dst := [rd] } s2 w) (imm : BitVec 12) (sh : Fin 64)
    (sh5 : Fin 32) : ∀ p ∈ immResults rd rs1 (w.xv rs1) imm sh sh5, exec p.1 s = .next (s2.ends c k w rd p.2) := by
  simp only [Machine.immResults, List.forall_mem_cons, List.not_mem_nil, false_imp_iff, implies_true, and_true, ← ofBool_slt,
    ← ofBool_ult]
  exact ⟨h.aluRI imm (· + ·), h.aluRI imm fun a b => ofBool (a.slt b), h.aluRI imm fun a b => ofBool (a.ult b),
    h.aluRI imm (· ^^^ ·), h.aluRI imm (· ||| ·), h.aluRI imm (· &&& ·), h.aluRI imm (onW (· + ·)),
    h.alu fun t => t.xv rs1 <<< sh.val, h.alu fun t => t.xv rs1 >>> sh.val, h.alu fun t => (t.xv rs1).sshiftRight sh.val,
    h.alu fun t => (((t.xv rs1).setWidth 32 : Word32) <<< sh5.val).signExtend 64,
    h.alu fun t => (((t.xv rs1).setWidth 32 : Word32) >>> sh5.val).signExtend 64,
    h.alu fun t => (((t.xv rs1).setWidth 32 : Word32).sshiftRight sh5.val).signExtend 64⟩

theorem Popped.upperResults {rd : XReg} (h : s.Popped c k { dst := [rd] } s2 w) (imm : BitVec 20) :
    ∀ p ∈ upperResults rd w.a.pc imm, exec p.1 s = .next (s2.ends c k w rd p.2) := by
  simp only [Machine.upperResults, List.forall_mem_cons, List.not_mem_nil, false_imp_iff, implies_true, and_true]
  exact ⟨h.alu fun _ => _, h.alu fun t => t.a.pc + _⟩

/-- A division: the thread parks until the divider's reply (R133). -/
theorem State.Popped.divide {rd rs1 rs2 : XReg} (h : s.Popped c k { src := [rs1, rs2], dst := [rd] } s2 w) (latency : Nat)
    (g : Word → Word → Word) : divide rd rs1 rs2 latency g s = .next (s2.setThr c k (w.parkedOn (s2.core c).cycle s2.curWord
      (.reply ((s2.core c).cycle + latency) true { ws := [.x rd (g (w.xv rs1) (w.xv rs2))] }))) := by
  unfold Machine.divide
  rw [h.runs]
  simp only [State.thr_of_slot h.slot, State.afterBody, State.park, State.modThr]
  rfl

theorem Popped.divResults {rd rs1 rs2 : XReg} (h : s.Popped c k { src := [rs1, rs2], dst := [rd] } s2 w) :
    ∀ p ∈ divResults rd rs1 rs2 (w.xv rs1) (w.xv rs2), exec p.1 s = .next (s2.setThr c k (w.parkedOn (s2.core c).cycle s2.curWord
      (.reply ((s2.core c).cycle + p.2.1) true { ws := [.x rd p.2.2] }))) := by
  have ext (p : Prop) [Decidable p] (x y : Word32) : (if p then x else y).signExtend 64 =
      if p then x.signExtend 64 else y.signExtend 64 := apply_ite _ _ _ _
  simp only [Machine.divResults, List.forall_mem_cons, List.not_mem_nil, false_imp_iff, implies_true, and_true]
  refine ⟨?_, ?_, ?_, ?_, ?_, ?_, ?_, ?_⟩
  · rw [← sdivF_eq]; exact h.divide 36 _
  · rw [← udivF_eq]; exact h.divide 36 _
  · rw [← sremF_eq]; exact h.divide 36 _
  · rw [← uremF_eq]; exact h.divide 36 _
  · rw [← signExtend_neg_one, ← ext, ← sdivF_eq]; exact h.divide 20 (onW sdivF)
  · rw [← signExtend_neg_one, ← ext, ← udivF_eq]; exact h.divide 20 (onW udivF)
  · rw [← ext, ← sremF_eq]; exact h.divide 20 (onW sremF)
  · rw [← ext, ← uremF_eq]; exact h.divide 20 (onW uremF)

end

end Sys2Proof.Machine
end

section
/-! Transfers and CSR writes of the base instructions (R134, R137): parts of O28. -/

namespace Sys2Proof.Machine

section
variable {s s2 : State} {c : Nat} {k : SlotN} {w : Thread} {f : Form}

/-! ### Transfers (R134) -/

theorem transfer_aligned {target : Word} (s : State) (c : Nat) (k : SlotN) (ws : List RegWrite) (h : target.toNat % 4 = 0) :
    transfer s c k target ws = .ok s { ws := ws, next := some target } := by
  simp only [transfer, h, if_true]

theorem transfer_misaligned {target : Word} (hs : s.slot c k = .thread w) (ws : List RegWrite) (h : target.toNat % 4 ≠ 0)
    (ht : w.trapReady = true) : transfer s c k target ws = .stop (s.takeTrap c k { cause := 0, val := target }) := by
  simp only [transfer, h, if_false, trap_ready hs ht]

/-- What an instruction with a link register does as it transfers to an address. -/
theorem State.Popped.links (h : s.Popped c k f s2 w) {rd : XReg} (hd : rd ∈ f.dst) (target v : Word) {body : Body}
    (hb : body s2 c k = transfer s2 c k target [.x rd v]) :
    (target.toNat % 4 = 0 → run f body s = .next (s2.ends c k w rd v (next := some target))) ∧
    (target.toNat % 4 ≠ 0 → w.trapReady = true → run f body s = .next (s2.takeTrap c k { cause := 0, val := target })) := by
  rw [h.runs, hb]
  refine ⟨fun ht => ?_, fun ht hr => ?_⟩
  · rw [transfer_aligned _ _ _ _ ht, h.delivers hd (endsWith_nil _)]
  · rw [transfer_misaligned h.slot _ ht hr]
    rfl

theorem Popped.jalr {rd rs1 : XReg} (h : s.Popped c k { src := [rs1], dst := [rd] } s2 w) (imm : BitVec 12) :
    let target := (w.xv rs1 + imm.signExtend 64) &&& ~~~1#64
    (target.toNat % 4 = 0 → exec (.jalr rd rs1 imm) s = .next (s2.ends c k w rd (w.a.pc + 4) (next := some target))) ∧
    (target.toNat % 4 ≠ 0 → w.trapReady = true →
      exec (.jalr rd rs1 imm) s = .next (s2.takeTrap c k { cause := 0, val := target })) :=
  h.links (by simp) _ _ (by rw [State.thr_of_slot h.slot])

theorem Popped.jal {rd : XReg} (h : s.Popped c k { dst := [rd] } s2 w) (imm : BitVec 20) :
    let target := w.a.pc + imm.signExtend 64 * 2
    (target.toNat % 4 = 0 → exec (.jal rd imm) s = .next (s2.ends c k w rd (w.a.pc + 4) (next := some target))) ∧
    (target.toNat % 4 ≠ 0 → w.trapReady = true →
      exec (.jal rd imm) s = .next (s2.takeTrap c k { cause := 0, val := target })) :=
  h.links (by simp) _ _ (by rw [State.thr_of_slot h.slot, shiftLeft_one])

/-- What completes an instruction that writes no register. -/
theorem afterBody_nil (s : State) (s' : State) (c : Nat) (k : SlotN) (next : Option Word) :
    s.afterBody c k 4 (.ok s' { next := next }) = s'.setThr c k ((s'.thr c k).finish next 4) :=
  orAgain_finish s s' c k next 4

/-- A conditional branch by its condition (R134). -/
theorem State.Popped.branch {rs1 rs2 : XReg} (h : s.Popped c k { src := [rs1, rs2] } s2 w) (imm : BitVec 12)
    (g : Word → Word → Bool) {b : Bool} (hb : g (w.xv rs1) (w.xv rs2) = b) :
    let target := w.a.pc + imm.signExtend 64 * 2
    (b = false → branch rs1 rs2 imm g s = .next (s2.done c k w)) ∧
    (b = true → target.toNat % 4 = 0 → branch rs1 rs2 imm g s = .next (s2.setThr c k (w.finish (some target) 4))) ∧
    (b = true → target.toNat % 4 ≠ 0 → w.trapReady = true →
      branch rs1 rs2 imm g s = .next (s2.takeTrap c k { cause := 0, val := target })) := by
  intro target
  unfold Machine.branch
  rw [h.runs]
  simp only [State.thr_of_slot h.slot, hb, shiftLeft_one]
  refine ⟨fun hf => ?_, fun ht h0 => ?_, fun ht h0 hr => ?_⟩
  · rw [hf, if_neg Bool.false_ne_true, afterBody_nil, State.thr_of_slot h.slot]
    rfl
  · rw [if_pos ht, transfer_aligned _ _ _ _ h0, afterBody_nil, State.thr_of_slot h.slot]
  · rw [if_pos ht, transfer_misaligned h.slot _ h0 hr]
    rfl

theorem Popped.branchResults {rs1 rs2 : XReg} (h : s.Popped c k { src := [rs1, rs2] } s2 w) (imm : BitVec 12) :
    let target := w.a.pc + imm.signExtend 64 * 2
    ∀ p ∈ branchResults rs1 rs2 (w.xv rs1) (w.xv rs2) imm,
      (p.2 = false → exec p.1 s = .next (s2.done c k w)) ∧
      (p.2 = true → target.toNat % 4 = 0 → exec p.1 s = .next (s2.setThr c k (w.finish (some target) 4))) ∧
      (p.2 = true → target.toNat % 4 ≠ 0 → w.trapReady = true →
        exec p.1 s = .next (s2.takeTrap c k { cause := 0, val := target })) := by
  simp only [Machine.branchResults, List.forall_mem_cons, List.not_mem_nil, false_imp_iff, implies_true, and_true]
  have not_lt (a b : Int) : (!decide (a < b)) = decide (b ≤ a) := by rw [← decide_not]; exact decide_eq_decide.mpr not_lt
  have not_lt' (a b : Nat) : (!decide (a < b)) = decide (b ≤ a) := by rw [← decide_not]; exact decide_eq_decide.mpr Nat.not_lt
  exact ⟨h.branch imm (fun a b => a == b) rfl, h.branch imm (fun a b => a != b) (by simp [bne, beq_eq_decide]),
    h.branch imm (fun a b => a.slt b) rfl, h.branch imm (fun a b => !a.slt b) (not_lt _ _),
    h.branch imm (fun a b => a.ult b) rfl, h.branch imm (fun a b => !a.ult b) (not_lt' _ _)⟩

/-! ### CSR writes (R137) -/

theorem State.queue_setThr (s : State) (c : Nat) (k : SlotN) (t : Thread) (q : QRef) : (s.setThr c k t).queue q = s.queue q := by
  cases q with
  | lq d i =>
    by_cases h : d = c
    · subst h; simp [State.queue, State.core_setThr]
    · simp only [State.queue, State.core_setThr_ne s k t h]
  | cq cl i => rfl
  | mbx d i => rfl
  | inbox d => rfl

theorem write_qmap (u : UserCsrs) (p : Bool) {n : Nat} (v : Word) (h : n ≠ 0x802) : (u.write p n v).qmap = u.qmap := by
  unfold UserCsrs.write
  split
  case h_3 => exact absurd rfl h
  all_goals rfl

/-- A number outside the user CSRs writes none of them. -/
theorem write_supervisor (u : UserCsrs) (p : Bool) {n : Nat} (v : Word) (h : n < 0x800) : u.write p n v = u := by
  unfold UserCsrs.write
  split
  case h_11 => rfl
  all_goals omega

theorem write_repeat (u : UserCsrs) (p : Bool) {n : Nat} (v : Word) (h : n = 0x807 ∨ n = 0x808) :
    u.write p n v = u.write false n v := by
  rcases h with rfl | rfl <;> rfl

/-- The low ten bits of a trap queue base are cleared (R124). -/
theorem clear_low10 (v : Word) : BitVec.ofNat 64 (v.toNat / 2 ^ 10 * 2 ^ 10) = v &&& ~~~0x3FF#64 := by
  apply BitVec.eq_of_getLsbD_eq
  intro i hi
  have h10 : (0x3FF#64).getLsbD i = decide (i < 10) := by
    rw [show (0x3FF#64) = BitVec.ofNat 64 (2 ^ 10 - 1) from rfl, BitVec.getLsbD_ofNat, Nat.testBit_two_pow_sub_one]
    simp [hi]
  rw [BitVec.getLsbD_ofNat, ← Nat.shiftRight_eq_div_pow, ← Nat.shiftLeft_eq, Nat.testBit_shiftLeft, Nat.testBit_shiftRight,
    BitVec.getLsbD_and, BitVec.getLsbD_not, h10]
  by_cases h : 10 ≤ i
  · have := Nat.not_lt.mpr h
    simp [h, hi, this, BitVec.getLsbD, Nat.add_sub_cancel' h]
  · simp [h, Nat.lt_of_not_le h]

theorem slot_modCtx (s : State) (c d : Nat) (k : SlotN) {g : CoreCtx → CoreCtx} (h : ∀ x, (g x).slots = x.slots) :
    (s.modCtx c g).slot d k = s.slot d k := by
  by_cases hd : d = c
  · subst hd; simp [State.slot, h]
  · simp only [State.modCtx, State.slot, State.core_modCore_ne _ _ hd]

theorem queue_modCtx (s : State) (c : Nat) {g : CoreCtx → CoreCtx} (h : ∀ x, (g x).lq = x.lq) (q : QRef) :
    (s.modCtx c g).queue q = s.queue q := by
  cases q with
  | lq d i =>
    by_cases hd : d = c
    · subst hd; simp [State.queue, h]
    · simp only [State.modCtx, State.queue, State.core_modCore_ne _ _ hd]
  | cq cl i => rfl
  | mbx d i => rfl
  | inbox d => rfl

/-- A write of a user CSR with no behaviour of its own (R120). -/
theorem writePlain_user {s : State} {n : Nat} (hs : s.slot c k = .thread w) (h : n ≠ 0x5C0) (v : Word) :
    writePlain s c k n v = s.setThr c k { w with a := { w.a with csr := w.a.csr.write w.paired n v } } := by
  simp only [writePlain, h, if_false, State.modThr, State.thr_of_slot hs]

theorem writeSupctl_eq (s : State) (c : Nat) (v : Word) : writeSupctl s c v =
    let s1 := s.modCtx c fun x => { x with supctl := v &&& 0xFFFFFFFF000000FF }
    if (s.core c).supBit 0 = false ∧ v.getLsbD 0 = true then s1.modDie (dieOf c) fun d => { d with passDue := true } else s1 := by
  simp only [writeSupctl, Bool.and_eq_true, Bool.not_eq_true']

theorem slot_writeSupctl (s : State) (c : Nat) (k : SlotN) (v : Word) : (writeSupctl s c v).slot c k = s.slot c k := by
  have h := slot_modCtx s c c k (g := fun x => { x with supctl := v &&& 0xFFFFFFFF000000FF }) fun _ => rfl
  unfold writeSupctl
  dsimp only
  split <;> exact h

theorem queue_writeSupctl (s : State) (c : Nat) (v : Word) (q : QRef) : (writeSupctl s c v).queue q = s.queue q := by
  have h := queue_modCtx s c (g := fun x => { x with supctl := v &&& 0xFFFFFFFF000000FF }) (fun _ => rfl) q
  unfold writeSupctl
  dsimp only
  split
  · rw [← h]
    cases q <;> rfl
  · exact h

theorem writeVstat_idle {s : State} (hs : s.slot c k = .thread w) (h : w.vq = []) (v : Word) :
    writeVstat s c k v = .ok (writePlain s c k 0x801 v) () := by
  simp only [writeVstat, State.thr_of_slot hs, h, decide_true, waitFor_true, Got.bind_ok]

theorem writeVstat_busy {s : State} (hs : s.slot c k = .thread w) (h : w.vq ≠ []) (v : Word) :
    writeVstat s c k v = .stop (s.setThr c k (w.parkedOn (s.core c).cycle s.curWord (.cond .strips))) := by
  simp only [writeVstat, State.thr_of_slot hs, h, decide_false, waitFor, Bool.false_eq_true, if_false, Got.bind_stop, State.park,
    State.modThr]
  rfl

theorem writeCsr_user {s : State} {n : Nat} (hs : s.slot c k = .thread w) (h : 0x800 ≤ n) (hv : n = 0x801 → w.vq = []) (v : Word) :
    writeCsr s c k n v = .ok (s.setThr c k { w with a := { w.a with csr := w.a.csr.write w.paired n v } }) () := by
  unfold writeCsr
  split
  next h1 =>
    subst h1
    rw [writeVstat_idle hs (hv rfl), writePlain_user hs (by decide)]
  next h1 => rw [if_neg (by omega), writePlain_user hs (by omega)]

/-- A repeat that a CSR write empties keeps its end (R144, R415). -/
theorem repeatFor_zero {s : State} {u : UserCsrs} {n : Nat} {v : Word} (hs : s.slot c k = .thread w)
    (h : (u.write false n v).count = 0) : repeatFor s c k u n v =
      .ok s ((u.write false n v).repcnt, (u.write false n v).repbody, w.a.repEnd) := by
  simp only [repeatFor, h, if_true, State.thr_of_slot hs]

/-- A repeat that a CSR write starts has its end computed (R144, R415). -/
theorem repeatFor_counts {s s0 : State} {u : UserCsrs} {n e : Nat} {v : Word} (h : (u.write false n v).count ≠ 0)
    (he : s.bodyEnd c (u.write false n v).replen (u.write false n v).repbody.toNat = (s0, .ok e)) : repeatFor s c k u n v =
      .ok s0 ((u.write false n v).repcnt, (u.write false n v).repbody, BitVec.ofNat 64 e) := by
  simp only [repeatFor, h, if_false, bodyEndFor, he, Got.bind_ok]

/-! The body of a Zicsr instruction, branch by branch. -/

section
variable {rd : XReg} {n : Nat} {g : Thread → Word → Word}

theorem csrBody_reads (rd : XReg) (n : Nat) (g : Thread → Word → Word) (s : State) (c : Nat) (k : SlotN) :
    csrBody rd n false g s c k = .ok s { ws := [.x rd (s.readCsr c k n)] } := by
  simp only [csrBody, Bool.false_eq_true, false_and, if_false, Got.bind_ok]

theorem csrBody_repeats (rd : XReg) (h : n = 0x807 ∨ n = 0x808) (g : Thread → Word → Word) (s : State) (c : Nat) (k : SlotN) :
    csrBody rd n true g s c k =
      (repeatFor s c k ((s.thr c k).a.advance none 4).csr n (g (s.thr c k) (s.readCsr c k n))).bind fun s1 r =>
        .ok s1 { ws := [.x rd (s.readCsr c k n), .rep r.1 r.2.1 r.2.2] } := by
  simp only [csrBody, h, and_self, if_true]

theorem csrBody_plain (rd : XReg) (h : n ≠ 0x807) (h' : n ≠ 0x808) (hq : n ≠ 0x802) (g : Thread → Word → Word) (s : State) (c : Nat)
    (k : SlotN) : csrBody rd n true g s c k =
      (writeCsr s c k n (g (s.thr c k) (s.readCsr c k n))).bind fun s1 _ => .ok s1 { ws := [.x rd (s.readCsr c k n)] } := by
  simp only [csrBody, h, h', hq, or_self, and_false, if_false, if_true]

/-- A write of `qmap` delivers the old value to rd as mapped before it (R121). -/
theorem csrBody_qmap (rd : XReg) (g : Thread → Word → Word) {s : State} (hs : s.slot c k = .thread w) :
    csrBody rd 0x802 true g s c k =
      let old := s.readCsr c k 0x802
      let s1 := s.setThr c k { w with a := { w.a with csr := w.a.csr.write w.paired 0x802 (g w old) } }
      if w.a.mapped rd then .ok s1 { ws := [.push (w.a.mapHandle c rd) old] }
      else .ok (s1.modThr c k fun t => { t with a := t.a.setX rd old }) {} := by
  simp only [csrBody, State.thr_of_slot hs, writeCsr_user hs (show 0x800 ≤ 0x802 by decide) (by simp), Got.bind_ok, and_self, if_true]
  rfl

end

/-! How a Zicsr instruction ends that writes v, by its CSR. -/

section
variable {rd : XReg} {n : Nat} {g : Thread → Word → Word} {v : Word} (h : s.Popped c k f s2 w) (hd : rd ∈ f.dst)
  (hv : g w (s2.readCsr c k n) = v)
include h hd hv

theorem csr_user (h8 : 0x800 ≤ n) (h807 : n ≠ 0x807) (h808 : n ≠ 0x808) (h802 : n ≠ 0x802) (hvq : n = 0x801 → w.vq = []) :
    s2.afterBody c k 4 (csrBody rd n true g s2 c k) = s2.ends c k w rd (s2.readCsr c k n)
      (t' := { w with a := { w.a with csr := w.a.csr.write w.paired n v } }) := by
  rw [csrBody_plain rd h807 h808 h802, State.thr_of_slot h.slot, hv, writeCsr_user h.slot h8 hvq, Got.bind_ok, ← ends_setThr]
  exact h.ends hd (State.slot_setThr _ _ _ _) (write_qmap _ _ _ h802) (State.queue_setThr _ _ _ _) (endsWith_nil _) _

omit hv in
theorem csr_qmap (hv : g w (s2.readCsr c k 0x802) = v) :
    s2.afterBody c k 4 (csrBody rd 0x802 true g s2 c k) = s2.ends c k w rd (s2.readCsr c k 0x802)
      (t' := { w with a := { w.a with csr := w.a.csr.write w.paired 0x802 v } }) := by
  rw [csrBody_qmap rd g h.slot]
  simp only [hv]
  cases hm : w.a.mapped rd with
  | true =>
    obtain ⟨hst, q, hq⟩ := h.pushes rd hd hm
    rw [if_pos rfl, ← ends_setThr, ends_mapped hm hq]
    exact orAgain_push h.slot (State.slot_setThr _ _ _ _) h.chunk h.closed hst hq (State.queue_setThr _ _ _ _ _) (endsWith_nil none) _
  | false =>
    rw [if_neg Bool.false_ne_true, afterBody_nil, ends_unmapped hm]
    simp only [State.modThr_setThr, State.thr_setThr, State.setThr_setThr]
    rfl

omit hd hv in
theorem csr_busy (hvq : w.vq ≠ []) : s2.afterBody c k 4 (csrBody rd 0x801 true g s2 c k) =
    s2.setThr c k (w.parkedOn (s2.core c).cycle s2.curWord (.cond .strips)) := by
  rw [csrBody_plain rd (by decide) (by decide) (by decide), writeCsr, if_pos rfl, writeVstat_busy h.slot hvq]
  rfl

theorem csr_empty (h78 : n = 0x807 ∨ n = 0x808) (hz : ((w.a.advance none 4).csr.write false n v).count = 0) :
    let r := (w.a.advance none 4).csr.write false n v
    s2.afterBody c k 4 (csrBody rd n true g s2 c k) =
      s2.ends c k w rd (s2.readCsr c k n) (after := fun z => z.setRepeat r.repcnt r.repbody w.a.repEnd) := by
  rw [csrBody_repeats rd h78, State.thr_of_slot h.slot, hv, repeatFor_zero h.slot hz, Got.bind_ok,
    h.delivers hd (endsWith_rep _ _ _)]

theorem csr_counts (h78 : n = 0x807 ∨ n = 0x808) {s0 : State} {e : Nat}
    (hz : ((w.a.advance none 4).csr.write false n v).count ≠ 0)
    (he : s2.bodyEnd c ((w.a.advance none 4).csr.write false n v).replen
      ((w.a.advance none 4).csr.write false n v).repbody.toNat = (s0, .ok e)) :
    let r := (w.a.advance none 4).csr.write false n v
    s2.afterBody c k 4 (csrBody rd n true g s2 c k) =
      s2.ends c k w rd (s2.readCsr c k n) (s' := s0) (after := fun z => z.setRepeat r.repcnt r.repbody (BitVec.ofNat 64 e)) := by
  have hk := cachesOnly_bodyEnd s2 c ((w.a.advance none 4).csr.write false n v).replen
    ((w.a.advance none 4).csr.write false n v).repbody.toNat
  rw [he] at hk
  rw [csrBody_repeats rd h78, State.thr_of_slot h.slot, hv, repeatFor_counts hz he, Got.bind_ok]
  exact h.endsIn hd ((hk.slot c k).trans h.slot) hk.queue (endsWith_rep _ _ _) _

omit hv in
theorem csr_trqbase (hv : g w (s2.readCsr c k 0x5C0) = v) : s2.afterBody c k 4 (csrBody rd 0x5C0 true g s2 c k) =
    s2.ends c k w rd (s2.readCsr c k 0x5C0) (s' := s2.modCtx c fun y => { y with trqbase := v &&& ~~~0x3FF#64 }) := by
  have hw : writeCsr s2 c k 0x5C0 v = .ok (s2.modCtx c fun y => { y with trqbase := v &&& ~~~0x3FF#64 }) () := by
    rw [writeCsr, if_neg (by decide), if_neg (by decide), writePlain, if_pos rfl, clear_low10]
  rw [csrBody_plain rd (by decide) (by decide) (by decide), State.thr_of_slot h.slot, hv, hw, Got.bind_ok]
  have hs := slot_modCtx s2 c c k (g := fun y => { y with trqbase := v &&& ~~~0x3FF#64 }) fun _ => rfl
  have hx := queue_modCtx s2 c (g := fun y => { y with trqbase := v &&& ~~~0x3FF#64 }) fun _ => rfl
  exact h.endsIn hd (hs.trans h.slot) hx (endsWith_nil _) _

omit hv in
theorem csr_supctl (hv : g w (s2.readCsr c k 0x5C1) = v) : s2.afterBody c k 4 (csrBody rd 0x5C1 true g s2 c k) =
    s2.ends c k w rd (s2.readCsr c k 0x5C1) (s' := writeSupctl s2 c v) := by
  rw [csrBody_plain rd (by decide) (by decide) (by decide), State.thr_of_slot h.slot, hv, writeCsr, if_neg (by decide), if_pos rfl,
    Got.bind_ok]
  exact h.endsIn hd ((slot_writeSupctl s2 c k v).trans h.slot) (queue_writeSupctl s2 c v) (endsWith_nil _) _

theorem csr_readOnly (hn : n = 0x5C2 ∨ n = 0x5C3) :
    s2.afterBody c k 4 (csrBody rd n true g s2 c k) = s2.ends c k w rd (s2.readCsr c k n) := by
  rw [csrBody_plain rd (by omega) (by omega) (by omega), State.thr_of_slot h.slot, hv, writeCsr, if_neg (by omega), if_neg (by omega),
    writePlain_user h.slot (by omega), Got.bind_ok, write_supervisor _ _ _ (by omega), ← ends_setThr]
  exact h.endsIn hd (State.slot_setThr _ _ _ _) (State.queue_setThr _ _ _ _) (endsWith_nil _) _

end

/-- A Zicsr instruction that may write what it writes: it delivers the old value, and does what a write of its CSR does (R120,
R121, R124, R137, R415). -/
theorem State.Popped.csrOp {rd : XReg} {csr : BitVec 12} {src : List XReg} {writes : Bool} {g : Thread → Word → Word}
    {write : Option Word} (h : s.Popped c k { who := csrWho csr.toNat, src := src, dst := [rd] } s2 w)
    (hw : write = if writes then some (g w (s2.readCsr c k csr.toNat)) else none) (hro : write ≠ none → csr.toNat < 0xC00) :
    s2.CsrDoes c k w (csrOp rd csr src writes g s) csr.toNat write fun s' t' after =>
      s2.ends c k w rd (s2.readCsr c k csr.toNat) (s' := s') (t' := t') (after := after) := by
  have hbad : (writes && decide (0xC00 ≤ csr.toNat)) = false := by
    cases hb : writes
    · rfl
    · have := hro (by rw [hw, hb]; simp)
      simp only [Bool.true_and, decide_eq_false_iff_not]
      omega
  have hd : rd ∈ ({ who := csrWho csr.toNat, src := src, dst := [rd] } : Form).dst := by simp
  rw [csrOp_run rd src g s hbad, h.runs]
  cases writes with
  | false =>
    rw [hw, if_neg Bool.false_ne_true, csrBody_reads, h.delivers hd (endsWith_nil _)]
    rfl
  | true =>
    rw [if_pos rfl] at hw
    subst hw
    generalize csr.toNat = n at *
    refine ⟨fun h8 _ h807 h808 hvq => ?_, fun h1 hvq => ?_, fun h78 hz => ?_, fun h78 hz s0 e he => ?_, fun h5 => ?_, fun h5 => ?_,
      fun h5 => ?_⟩
    · by_cases h2 : n = 0x802
      · subst h2
        rw [csr_qmap h hd rfl]
      · rw [csr_user h hd rfl h8 h807 h808 h2 hvq]
    · subst h1
      rw [csr_busy h hvq]
    · rw [write_repeat _ _ _ h78] at hz ⊢
      rw [csr_empty h hd rfl h78 hz]
      rfl
    · rw [write_repeat _ _ _ h78] at hz he ⊢
      rw [csr_counts h hd rfl h78 hz he]
      rfl
    · subst h5
      rw [csr_trqbase h hd rfl]
    · subst h5
      rw [csr_supctl h hd rfl, writeSupctl_eq]
      rfl
    · rw [csr_readOnly h hd rfl h5]

end

end Sys2Proof.Machine
end

section
/-! Base loads and stores at a checked place (R132, R188, R238, R241): parts of O28. -/

namespace Sys2Proof.Machine

/-! ### Checking an access -/

/-- A place that is not translated is found without changing anything (R184). -/
theorem resolve_here {s s0 : State} {c a : Nat} {need : Need} {micro : Bool} {tg : Target}
    (h : s.resolve c a need micro = (s0, .ok tg)) (hg : ∀ p, tg ≠ .global p) : s0 = s := by
  unfold State.resolve at h
  dsimp only at h
  split at h
  case h_7 =>
    split at h
    · simp at h
    split at h
    · simp at h
    split at h
    · simp at h
    split at h
    · simp at h
    split at h
    · simp at h
    · simp only [Prod.mk.injEq, Except.ok.injEq] at h
      exact absurd h.2.symm (hg _)
  all_goals simp_all

section
variable {s s0 : State} {c : Nat} {k : SlotN} {t : Thread}

theorem resolveFor_ok {a : Nat} {need : Need} {tg : Target} (h : s.resolve c a need = (s0, .ok tg)) :
    resolveFor s c k a need = .ok s0 tg := by
  simp only [resolveFor, h]

theorem aligned_ok {a n : Nat} (s : State) (c : Nat) (k : SlotN) (cause : Nat) (h : a % n = 0) : aligned s c k a n cause = .ok s () := by
  simp only [aligned, h, if_true]

theorem aligned_traps {a n : Nat} (hs : s.slot c k = .thread t) (cause : Nat) (h : a % n ≠ 0) (ht : t.trapReady = true) :
    aligned s c k a n cause = .stop (s.takeTrap c k { cause := cause, val := BitVec.ofNat 64 a }) := by
  simp only [aligned, h, if_false, trap_ready hs ht]

theorem destWait_free {tg : Target} {n : Nat} (hs : s.slot c k = .thread t) (h : s.Free c k t tg n) : destWait s c k tg = .ok s () := by
  obtain ⟨-, h⟩ := h
  cases tg <;> simp_all [destWait, State.thr_of_slot hs, waitFor_true]

theorem lockWait_free {tg : Target} {n : Nat} (h : s.Free c k t tg n) : lockWait s c k tg n = .ok s () := by
  obtain ⟨h, -⟩ := h
  cases tg <;> simp_all [lockWait, waitFor_true]

theorem ownLockWait_free {tg : Target} {n : Nat} (h : s.Free c k t tg n) : ownLockWait s c k tg n = .ok s () := by
  unfold ownLockWait
  split
  · exact lockWait_free h
  · rfl

theorem overlapWait_clear {key n : Nat} (hs : s.slot c k = .thread t) (h : t.overlaps key n = false) :
    overlapWait s c k key n = .ok s () := by
  simp only [overlapWait, State.thr_of_slot hs, h, Bool.not_false, waitFor_true]

/-! ### Loads (R132) -/

/-- A load at a place that goes ahead reads it (R132). -/
theorem scalarLoad_reads {a n : Nat} {tg : Target} (hs : s.slot c k = .thread t) (ha : a % n = 0)
    (hr : s.resolve c a .load = (s0, .ok tg)) (hc : s0.Clear c k t tg n) (fin : Nat → Completion) :
    scalarLoad s c k a n fin = (readFor s0 c k a tg n).bind fun s bs => deliver s c k tg.isLocal (fin (leNat bs)) := by
  obtain ⟨hov, -, hfree⟩ := hc
  have h0 : s0.slot c k = .thread t := by
    have h := (cachesOnly_resolve s c a .load true).slot c k
    rw [hr] at h
    exact h.trans hs
  rw [scalarLoad, aligned_ok s c k 4 ha, Got.bind_ok, resolveFor_ok hr, Got.bind_ok, destWait_free h0 hfree, Got.bind_ok,
    lockWait_free hfree, Got.bind_ok, overlapWait_clear h0 hov, Got.bind_ok]

/-- Reading a place that is not translated (R188). -/
theorem readFor_here {a n : Nat} {tg : Target} (hg : ∀ p, tg ≠ .global p) (hb : badIn s.bad tg.key n = none) :
    readFor s c k a tg n = .ok s (s.bytes tg.key n) := by
  cases tg
  case global p => exact absurd rfl (hg p)
  all_goals simp only [readFor, State.readAt, hb]

/-- A reply that comes in the next cycle. -/
theorem replyWait_parks {α : Type} (hs : s.slot c k = .thread t) (fin : Completion) : (replyWait s c k fin : Got α) =
    .stop (s.setThr c k (t.parkedOn (s.core c).cycle s.curWord (.reply ((s.core c).cycle + 1) false fin))) := by
  simp only [replyWait, State.park, State.modThr, State.thr_of_slot hs]
  rfl

/-! What a thread sees of translated memory (R238). -/

/-- The byte that a chunk's buffer holds at a key. -/
def bufByte (ch : Option Chunk) (key : Nat) : Option Byte :=
  ch.bind fun ch => (ch.buf.find? fun e => e.1 == key).map (·.2)

theorem seen_eq (s : State) (t : Thread) (key : Nat) :
    s.seen t key = ((bufByte t.chunk key).or (bufByte t.closed key)).getD (s.byte key) := by
  unfold State.seen bufByte
  cases t.chunk with
  | none =>
    cases t.closed with
    | none => rfl
    | some cl => cases hl : cl.buf.find? fun e => e.1 == key <;> simp [hl]
  | some ch =>
    cases t.closed with
    | none => cases hc : ch.buf.find? fun e => e.1 == key <;> simp [hc]
    | some cl =>
      cases hc : ch.buf.find? fun e => e.1 == key <;> cases hl : cl.buf.find? fun e => e.1 == key <;> simp [hc, hl]

/-- The two threads have buffered the same bytes. -/
def SameBufs (t u : Thread) : Prop :=
  ∀ key, bufByte u.chunk key = bufByte t.chunk key ∧ bufByte u.closed key = bufByte t.closed key

theorem SameBufs.seen {u : Thread} (h : SameBufs t u) (hm : s0.mem = s.mem) (key : Nat) : s0.seen u key = s.seen t key := by
  rw [seen_eq, seen_eq, (h key).1, (h key).2, State.byte, hm]
  rfl

/-- Opening a chunk leaves memory, the marks and the clock, and buffers nothing (R240). -/
theorem ensureChunk_opens {s1 : State} {u : Thread} (hs : s.slot c k = .thread t) (h : ensureChunk s c k = .ok s1 ())
    (hu : s1.slot c k = .thread u) :
    s1.mem = s.mem ∧ s1.bad = s.bad ∧ s1.curWord = s.curWord ∧ (s1.core c).cycle = (s.core c).cycle ∧ SameBufs t u := by
  unfold ensureChunk at h
  rw [State.thr_of_slot hs] at h
  dsimp only at h
  split at h
  · simp only [Got.ok.injEq, and_true] at h
    subst h
    obtain rfl : t = u := by simpa [hs] using hu
    exact ⟨rfl, rfl, rfl, rfl, fun _ => ⟨rfl, rfl⟩⟩
  next hn =>
    split at h
    · contradiction
    · simp only [Got.ok.injEq, and_true] at h
      subst h
      rw [State.slot_modThr, State.thr_of_slot hs, Slot.thread.injEq] at hu
      subst hu
      refine ⟨rfl, rfl, rfl, by simp [State.modThr], fun key => ⟨?_, rfl⟩⟩
      rw [hn]
      rfl

theorem noteLine_mem (s : State) (cl line : Nat) : (s.noteLine cl line).mem = s.mem ∧ (s.noteLine cl line).bad = s.bad := by
  unfold State.noteLine
  dsimp only
  split
  · exact ⟨rfl, rfl⟩
  split
  · exact ⟨rfl, rfl⟩
  split <;> exact ⟨rfl, rfl⟩

/-- Taking a shared copy notes it in the directory, and changes nothing else (R199). -/
theorem shCopy_same (s : State) (line m : Nat) : ∃ d, s.shCopy line m = { s with shDir := d } := by
  unfold State.shCopy
  split
  · exact ⟨s.shDir, rfl⟩
  split <;> exact ⟨_, rfl⟩

/-- The state in which a thread with an open chunk reads a translated line: the line is in its signature and counted at its owner
(R197, R199, R241). -/
def State.readingLine (s : State) (c : Nat) (k : SlotN) (p : Phys) : State :=
  let line := p.pa / 64
  let s1 := if p.shared then s.shCopy line s.modnum.val else s
  (s1.modThr c k fun t => t.modChunk fun ch => { ch with reads := addLine ch.reads line }).noteLine (clusterOf c) line

theorem readingLine_same {u : Thread} (hs : s.slot c k = .thread u) (p : Phys) :
    let s1 := s.readingLine c k p
    s1.slot c k = .thread (u.modChunk fun ch => { ch with reads := addLine ch.reads (p.pa / 64) }) ∧ s1.mem = s.mem ∧
      s1.bad = s.bad ∧ s1.curWord = s.curWord ∧ (s1.core c).cycle = (s.core c).cycle := by
  obtain ⟨d, hd⟩ : ∃ d, (if p.shared then s.shCopy (p.pa / 64) s.modnum.val else s) = { s with shDir := d } := by
    split
    · exact shCopy_same s _ _
    · exact ⟨s.shDir, rfl⟩
  simp only [State.readingLine, hd]
  have hn := cachesOnly_noteLine (({ s with shDir := d } : State).modThr c k fun t => t.modChunk fun ch =>
    { ch with reads := addLine ch.reads (p.pa / 64) }) (clusterOf c) (p.pa / 64)
  have ht : ({ s with shDir := d } : State).thr c k = u := State.thr_of_slot hs
  refine ⟨?_, (noteLine_mem _ _ _).1, (noteLine_mem _ _ _).2, hn.curWord, (hn.cycle c).trans ?_⟩
  · rw [hn.slot, State.slot_modThr, ht]
  · simp [State.modThr]
    rfl

theorem readFor_global {s1 : State} {a n : Nat} {p : Phys} (hs : s.slot c k = .thread t) (h : ensureChunk s c k = .ok s1 ())
    {u : Thread} {ch : Chunk} (hu : s1.slot c k = .thread u) (hch : u.chunk = some ch) (hb : badIn s.bad p.pa n = none) :
    readFor s c k a (.global p) n = .ok (s1.readingLine c k p) ((List.range n).map fun i => s.seen t (p.pa + i)) := by
  obtain ⟨hm, hbad, -, -, hbufs⟩ := ensureChunk_opens hs h hu
  obtain ⟨hslot, hm', hbad', -, -⟩ := readingLine_same hu p
  have hb' : badIn (s1.readingLine c k p).bad p.pa n = none := by rw [hbad', hbad]; exact hb
  have hsame : SameBufs t (u.modChunk fun ch => { ch with reads := addLine ch.reads (p.pa / 64) }) := by
    intro key
    refine ⟨?_, (hbufs key).2⟩
    rw [← (hbufs key).1, Thread.modChunk, hch]
    rfl
  have hr : (s1.readingLine c k p).readAt ((s1.readingLine c k p).thr c k) (.global p) n =
      some ((List.range n).map fun i => s.seen t (p.pa + i)) := by
    rw [State.thr_of_slot hslot]
    simp only [State.readAt, Target.key, hb', hsame.seen (hm'.trans hm)]
  simp only [readFor, h, Got.bind_ok]
  unfold State.readingLine at hr ⊢
  simp only [hr]

/-- A load, how it ends being what the body's end makes of a value that is there at once (R49, R132, R238, R241). -/
theorem scalarLoad_loadsAs {a n : Nat} {rd : XReg} {ext : Nat → Word} {ends : Word → State} (hs : s.slot c k = .thread t)
    (he : ∀ v, s.afterBody c k 4 (.ok s { ws := [.x rd v] }) = ends v) :
    s.LoadsAs c k t (.next (s.afterBody c k 4 (scalarLoad s c k a n fun v => { ws := [.x rd (ext v)] }))) a n rd ext ends := by
  have here {s0 : State} {tg : Target} (hg : ∀ p, tg ≠ .global p) (ha : a % n = 0) (hr : s.resolve c a .load = (s0, .ok tg))
      (hc : s0.Clear c k t tg n) : scalarLoad s c k a n (fun v => { ws := [.x rd (ext v)] }) =
        deliver s c k tg.isLocal { ws := [.x rd (ext (s.num tg.key n))] } := by
    have h0 := resolve_here hr hg
    subst h0
    rw [scalarLoad_reads hs ha hr hc, readFor_here hg hc.2.1, Got.bind_ok]
    rfl
  refine ⟨fun s0 tg ha hr hc => ?_, fun ha ht => ?_⟩
  · cases tg with
    | lane key => exact congrArg _ (by rw [here (by simp) ha hr hc]; exact he _)
    | own off key => exact congrArg _ (by rw [here (by simp) ha hr hc]; exact he _)
    | remote d off key => exact congrArg _ (by rw [here (by simp) ha hr hc, deliver, if_neg (by simp [Target.isLocal]), replyWait_parks hs]; rfl)
    | slate d key => exact congrArg _ (by rw [here (by simp) ha hr hc, deliver, if_neg (by simp [Target.isLocal]), replyWait_parks hs]; rfl)
    | global p =>
      intro s1 u ch h1 hu hch
      have hk := cachesOnly_resolve s c a .load true
      rw [hr] at hk
      have h0 : s0.slot c k = .thread t := (hk.slot c k).trans hs
      obtain ⟨hm, -, hword, hcyc, -⟩ := ensureChunk_opens h0 h1 hu
      obtain ⟨hslot, hm', -, hword', hcyc'⟩ := readingLine_same hu p
      have hw : (s1.readingLine c k p).curWord = s.curWord := hword'.trans (hword.trans hk.curWord)
      have hc' : ((s1.readingLine c k p).core c).cycle = (s.core c).cycle := hcyc'.trans (hcyc.trans (hk.cycle c))
      rw [scalarLoad_reads hs ha hr hc, readFor_global h0 h1 hu hch hc.2.1, Got.bind_ok, deliver, if_neg (by simp [Target.isLocal]),
        replyWait_parks hslot, hw, hc']
      refine ⟨_, rfl, hm'.trans hm, ?_⟩
      simp only [State.afterBody]
      rw [State.slot_setThr, Thread.modChunk, hch]
      rfl
  · rw [scalarLoad, aligned_traps hs 4 ha ht]
    rfl

end

end Sys2Proof.Machine
end

section
/-! Base stores at a checked place (R132, R199, R241, R246, R247): parts of O28. -/

namespace Sys2Proof.Machine

/-! ### Lists of cells -/

theorem Memory.read_writeCells (m : Memory) (cs : List Host.Cell) (a : Nat) :
    (m.writeCells cs).read a = ((cs.find? fun e => e.1 == a).map (·.2)).getD (m.read a) := by
  induction cs with
  | nil => rfl
  | cons e cs ih =>
    rw [writeCells, read_write, List.find?_cons]
    by_cases h : e.1 = a
    · simp [h]
    · rw [if_neg h, ih, beq_false_of_ne h]

theorem mem_cellsAt {key : Nat} {bs : List Byte} {e : Host.Cell} :
    e ∈ cellsAt key bs ↔ ∃ j, ∃ _ : j < bs.length, (key + j, bs[j]) = e := List.mem_mapIdx

theorem find_cellsAt (key j : Nat) (bs : List Byte) (h : j < bs.length) :
    ((cellsAt key bs).reverse.find? fun e => e.1 == key + j) = some (key + j, bs.getD j 0) := by
  have hmem : (key + j, bs[j]) ∈ (cellsAt key bs).reverse := List.mem_reverse.2 (mem_cellsAt.2 ⟨j, h, rfl⟩)
  cases hf : (cellsAt key bs).reverse.find? fun e => e.1 == key + j with
  | none => exact absurd (List.find?_eq_none.1 hf _ hmem) (by simp)
  | some e =>
    obtain ⟨i, hi, rfl⟩ := mem_cellsAt.1 (List.mem_reverse.1 (List.mem_of_find?_eq_some hf))
    obtain rfl : i = j := by simpa using List.find?_some hf
    rw [List.getD_eq_getElem _ _ h]

theorem cellsAt_ne {key q : Nat} {bs : List Byte} (h : q < key ∨ key + bs.length ≤ q) : ∀ e ∈ cellsAt key bs, e.1 ≠ q := by
  intro e he
  obtain ⟨j, hj, rfl⟩ := mem_cellsAt.1 he
  show key + j ≠ q
  omega

theorem map_cellsAt {α : Type} (g : Nat → α) (key : Nat) (bs : List Byte) :
    (cellsAt key bs).map (fun e => g e.1) = (List.range bs.length).map fun j => g (key + j) := by
  apply List.ext_getElem <;> simp [cellsAt]

/-! ### The own memories (R246) -/

section
variable {s s0 : State} {c : Nat} {k : SlotN} {t : Thread}

/-- A store to the own memories writes its bytes, and the old ones enter an open chunk's undo log (R241, R246). -/
theorem storeLocal_writes (hs : s.slot c k = .thread t) (key : Nat) (bs : List Byte) :
    let s' := s.storeLocal c k (cellsAt key bs)
    (∀ j < bs.length, s'.byte (key + j) = bs.getD j 0) ∧
      (∀ q, q < key ∨ key + bs.length ≤ q → s'.byte q = s.byte q) ∧
      s'.slot c k = .thread { t with chunk := t.chunk.map fun ch =>
        { ch with undo := ((List.range bs.length).map fun j => (key + j, s.byte (key + j))) :: ch.undo } } := by
  refine ⟨fun j hj => ?_, fun q hq => ?_, ?_⟩
  · show (s.mem.writeCells _).read _ = _
    rw [Memory.read_writeCells, find_cellsAt key j bs hj]
    rfl
  · show (s.mem.writeCells _).read _ = _
    exact Memory.read_writeCells_out _ _ _ fun e he => cellsAt_ne hq e (List.mem_reverse.1 he)
  · have ht : (s.pokeCells (cellsAt key bs).reverse).thr c k = t := State.thr_of_slot hs
    simp only [State.storeLocal]
    rw [State.slot_modThr, ht, map_cellsAt (fun a => (a, s.byte a))]
    rfl

/-! ### Scene-shared lines (R199) -/

/-- A slot with what a function makes of its thread. -/
def Slot.mapThread (f : Thread → Thread) : Slot → Slot
  | .thread t => .thread (f t)
  | w => w

/-- A core with what a function makes of its threads. -/
def Core.mapThreads (f : Thread → Thread) (k : Core) : Core :=
  { k with c := { k.c with slots := k.c.slots.map (Slot.mapThread f) } }

theorem mapThreads_cores (s : State) (f : Thread → Thread) :
    (s.mapThreads f).cores = s.cores.map fun e => (e.1, e.2.mapThreads f) := by
  simp only [State.mapThreads, Core.mapThreads]
  congr

theorem Table.getD_map {α : Type} (g : α → α) (T : Table α) (n : Nat) {d : α} (h : g d = d) :
    Table.getD (T.map fun e => (e.1, g e.2)) n d = g (Table.getD T n d) := by
  induction T with
  | nil => exact h.symm
  | cons e T ih =>
    simp only [List.map_cons, Table.getD]
    split
    · rfl
    · exact ih

theorem slot_mapThreads (f : Thread → Thread) (hs : s.slot c k = .thread t) :
    (s.mapThreads f).slot c k = .thread (f t) := by
  have hd : ({ Core.reset with cycle := s.clock } : Core).mapThreads f = { Core.reset with cycle := s.clock } := by
    have h : Core.reset.c.slots = Vector.replicate 8 .empty := rfl
    simp only [Core.mapThreads, h, Vector.map_replicate]
    rfl
  have hc : (s.mapThreads f).core c = (s.core c).mapThreads f := by
    rw [State.core, mapThreads_cores]
    exact Table.getD_map (Core.mapThreads f) s.cores c hd
  have hs' : (s.core c).c.slots[k] = .thread t := hs
  rw [State.slot, hc]
  simp only [Core.mapThreads, Fin.getElem_fin, Vector.getElem_map]
  rw [← Fin.getElem_fin, hs']
  rfl

theorem SameBufs.refl (t : Thread) : SameBufs t t := fun _ => ⟨rfl, rfl⟩

theorem SameBufs.trans {u w : Thread} (h : SameBufs t u) (h' : SameBufs u w) : SameBufs t w :=
  fun key => ⟨(h' key).1.trans (h key).1, (h' key).2.trans (h key).2⟩

theorem foldl_poke_cores (ps : List (Nat × List Byte)) (s : State) :
    (ps.foldl (fun s e => s.poke (e.1 * 64) e.2) s).cores = s.cores ∧
      (ps.foldl (fun s e => s.poke (e.1 * 64) e.2) s).clock = s.clock := by
  induction ps generalizing s with
  | nil => exact ⟨rfl, rfl⟩
  | cons e ps ih => exact ih (s.poke (e.1 * 64) e.2)

theorem bufByte_map {f : Chunk → Chunk} (hf : ∀ ch, (f ch).buf = ch.buf) (ch : Option Chunk) (key : Nat) :
    bufByte (ch.map f) key = bufByte ch key := by
  cases ch with
  | none => rfl
  | some ch => simp only [Option.map_some, bufByte, Option.bind_some, hf]

/-- A chunk that waits for a scene-shared line no longer (R255). -/
def Chunk.dropShared (line : Nat) (ch : Chunk) : Chunk := { ch with shared := ch.shared.filter fun l => l != line }

/-- Taking a scene-shared line leaves what a thread has buffered (R199). -/
theorem takeLine_sameBufs (hs : s.slot c k = .thread t) (line : Nat) (b : Bool) :
    ∃ u, (s.takeLine line b).slot c k = .thread u ∧ SameBufs t u := by
  obtain ⟨hcores, hclock⟩ := foldl_poke_cores (s.shPending.filter fun e => e.1 == line) s
  have hs1 : ((s.shPending.filter fun e => e.1 == line).foldl (fun s e => s.poke (e.1 * 64) e.2) s).slot c k = .thread t := by
    rw [State.slot, State.core, hcores, hclock]
    exact hs
  exact ⟨_, slot_mapThreads _ hs1, fun key => ⟨bufByte_map (f := Chunk.dropShared line) (fun _ => rfl) t.chunk key,
    bufByte_map (f := Chunk.dropShared line) (fun _ => rfl) t.closed key⟩⟩

theorem obtain_sameBufs (lines : List Nat) (hs : s.slot c k = .thread t) :
    ∃ u, (s.obtain lines).slot c k = .thread u ∧ SameBufs t u := by
  induction lines generalizing s t with
  | nil => exact ⟨t, hs, .refl t⟩
  | cons l lines ih =>
    by_cases h : (s.inDomain && s.ownerHere l && !s.shOwned.contains l) = true
    · obtain ⟨u, hu, htu⟩ := takeLine_sameBufs hs l (s.copied l)
      obtain ⟨w, hw, huw⟩ := ih hu
      refine ⟨w, ?_, htu.trans huw⟩
      rw [State.obtain, List.foldl_cons, if_pos h]
      exact hw
    · obtain ⟨w, hw, htw⟩ := ih hs
      refine ⟨w, ?_, htw⟩
      rw [State.obtain, List.foldl_cons, if_neg h]
      exact hw

theorem ensureChunk_thread {s1 : State} (hs : s.slot c k = .thread t) (h : ensureChunk s c k = .ok s1 ()) :
    ∃ u, s1.slot c k = .thread u := by
  unfold ensureChunk at h
  rw [State.thr_of_slot hs] at h
  dsimp only at h
  split at h
  · simp only [Got.ok.injEq, and_true] at h
    exact ⟨t, h ▸ hs⟩
  · split at h
    · contradiction
    · simp only [Got.ok.injEq, and_true] at h
      exact ⟨_, h ▸ State.slot_modThr ..⟩

/-! ### Translated memory (R241) -/

/-- What a chunk is once cells are buffered in it (R199, R241). -/
def State.buffered (s : State) (shared : Bool) (cells : List Host.Cell) (ch : Chunk) : Chunk :=
  let lines := cells.map fun e => e.1 / 64
  { ch with
    shared := if shared then (lines.filter fun l => !s.ownsLine l).foldl addLine ch.shared else ch.shared
    buf := cells.reverse ++ ch.buf.filter fun e => !cells.any fun x => x.1 == e.1
    writes := lines.foldl addLine ch.writes }

theorem buffer_eq {shared : Bool} {cells : List Host.Cell}
    (h : (if shared then s.obtain (cells.map fun e => e.1 / 64) else s) = s0) :
    s.buffer c k shared cells = s0.modThr c k fun t => t.modChunk (s0.buffered shared cells) := by
  subst h
  rfl

theorem bufByte_buffered_in (s : State) (shared : Bool) (key j : Nat) (bs : List Byte) (ch : Chunk) (h : j < bs.length) :
    bufByte (some (s.buffered shared (cellsAt key bs) ch)) (key + j) = some (bs.getD j 0) := by
  simp only [bufByte, Option.bind_some, State.buffered, List.find?_append, find_cellsAt key j bs h, Option.some_or, Option.map_some]

theorem bufByte_buffered_out (s : State) (shared : Bool) {key q : Nat} {bs : List Byte} (ch : Chunk)
    (h : q < key ∨ key + bs.length ≤ q) :
    bufByte (some (s.buffered shared (cellsAt key bs) ch)) q = bufByte (some ch) q := by
  have hne := cellsAt_ne h
  have hnone : ((cellsAt key bs).reverse.find? fun e => e.1 == q) = none :=
    List.find?_eq_none.2 fun e he => by simpa using hne e (List.mem_reverse.1 he)
  have hkeep : (fun e : Host.Cell => decide ((!(cellsAt key bs).any fun x => x.1 == e.1) = true ∧ (e.1 == q) = true)) =
      fun e => e.1 == q := by
    funext e
    by_cases he : e.1 = q
    · subst he
      simpa using hne
    · simp [he]
  simp only [bufByte, Option.bind_some, State.buffered, List.find?_append, hnone, Option.none_or, List.find?_filter, hkeep]

/-- What the thread sees once it has buffered bytes: those bytes there, and elsewhere what it saw (R238). -/
theorem seen_buffered {y : Thread} {ch : Chunk} (hch : y.chunk = some ch) (hy : SameBufs t y) (shared : Bool) (key : Nat)
    (bs : List Byte) :
    let u := { y with chunk := some (s.buffered shared (cellsAt key bs) ch) }
    (∀ j < bs.length, s0.seen u (key + j) = bs.getD j 0) ∧
      ∀ q, q < key ∨ key + bs.length ≤ q → s0.seen u q = s0.seen t q := by
  refine ⟨fun j hj => ?_, fun q hq => ?_⟩
  · rw [seen_eq, bufByte_buffered_in s shared key j bs ch hj]
    rfl
  · rw [seen_eq, seen_eq, bufByte_buffered_out s shared ch hq, ← hch, (hy q).1, (hy q).2]

/-! ### A store -/

/-- A store at a place that goes ahead stores there (R132). -/
theorem scalarStore_stores {a n : Nat} {tg : Target} (hs : s.slot c k = .thread t) (ha : a % n = 0)
    (hr : s.resolve c a .store = (s0, .ok tg)) (hc : s0.Clear c k t tg n) (v : Word) :
    scalarStore s c k a n v = (storeAt s0 c k tg (leBytes n v.toNat)).bind fun s _ => .ok s {} := by
  obtain ⟨hov, -, hfree⟩ := hc
  have h0 : s0.slot c k = .thread t := by
    have h := (cachesOnly_resolve s c a .store true).slot c k
    rw [hr] at h
    exact h.trans hs
  rw [scalarStore, aligned_ok s c k 6 ha, Got.bind_ok, resolveFor_ok hr, Got.bind_ok, ownLockWait_free hfree, Got.bind_ok,
    overlapWait_clear h0 hov, Got.bind_ok]

theorem softCloseIf_ok (s : State) (c : Nat) (k : SlotN) {b : Bool} (h : b = false) : softCloseIf s c k b = .ok s () := by
  subst h
  rfl

/-- With no chunk of the thread and room in its counter an operation passes the gate (R122, R240). -/
theorem gate_ok (hs : s.slot c k = .thread t) (hv : t.storesPending = false) (hc : t.chunk = none) (hl : t.closed = none)
    {i : Nat} (hp : t.psc i + 1 ≤ 0xFFFF) : gate s c k i 1 = .ok s () := by
  rw [gate, commitFirst_none hs hc hl hv, Got.bind_ok, roomWait, State.thr_of_slot hs]
  simp only [hp, decide_true, waitFor_true]

/-- A store that is performed at once completes its instruction. -/
theorem afterBody_stored (s s' : State) (c : Nat) (k : SlotN) :
    s.afterBody c k 4 (.ok s' {}) = s'.done c k (s'.thr c k) := afterBody_nil s s' c k none

/-- A store to the own memories, for which the undo log has room (R240, R246). -/
theorem storeAt_local {tg : Target} (hs : s.slot c k = .thread t) (ht : tg.isLocal = true) (hl : t.logFull 1 = false)
    (bs : List Byte) : storeAt s c k tg bs = .ok (s.storeLocal c k (cellsAt tg.key bs)) () := by
  cases tg with
  | lane key => simp only [storeAt, State.thr_of_slot hs, softCloseIf_ok s c k hl, Got.bind_ok]
  | own off key => simp only [storeAt, State.thr_of_slot hs, softCloseIf_ok s c k hl, Got.bind_ok]
  | remote d off key => contradiction
  | slate d key => contradiction
  | global p => contradiction

theorem scalarStore_local {a n : Nat} {tg : Target} (hs : s.slot c k = .thread t) (v : Word) (ha : a % n = 0)
    (hr : s.resolve c a .store = (s0, .ok tg)) (hc : s0.Clear c k t tg n) (ht : tg.isLocal = true)
    (hl : t.logFull 1 = false) :
    let bs := leBytes n v.toNat
    ∃ s', (.next (s.afterBody c k 4 (scalarStore s c k a n v)) : Out) = .next s' ∧
      (∀ j < n, s'.byte (tg.key + j) = bs.getD j 0) ∧ (∀ q, q < tg.key ∨ tg.key + n ≤ q → s'.byte q = s.byte q) ∧
      s'.slot c k = .thread (({ t with chunk := t.chunk.map fun ch =>
        { ch with undo := ((List.range n).map fun j => (tg.key + j, s.byte (tg.key + j))) :: ch.undo } } : Thread).finish none 4) := by
  obtain rfl := resolve_here hr (by rintro p rfl; contradiction)
  obtain ⟨hin, hout, hslot⟩ := storeLocal_writes hs tg.key (leBytes n v.toNat)
  rw [length_leBytes] at hin hout hslot
  rw [scalarStore_stores hs ha hr hc, storeAt_local hs ht hl, Got.bind_ok, afterBody_stored, State.thr_of_slot hslot]
  exact ⟨_, rfl, hin, hout, State.slot_setThr ..⟩

/-- A store (R132, R241, R246, R247). -/
theorem scalarStore_storesAs (hs : s.slot c k = .thread t) (a n : Nat) (v : Word) :
    s.StoresAs c k t (.next (s.afterBody c k 4 (scalarStore s c k a n v))) a n v := by
  refine ⟨fun s0 tg ha hr hc => ?_, fun ha ht => ?_⟩
  · cases tg with
    | lane key => exact scalarStore_local hs v ha hr hc rfl
    | own off key => exact scalarStore_local hs v ha hr hc rfl
    | remote d off key =>
      intro hv hch hcl hp
      obtain rfl := resolve_here hr (by simp)
      rw [scalarStore_stores hs ha hr hc, storeAt, gate_ok hs hv hch hcl (i := 0) hp, Got.bind_ok, Got.bind_ok, afterBody_stored]
      rfl
    | slate d key =>
      intro hv hch hcl hp
      obtain rfl := resolve_here hr (by simp)
      rw [scalarStore_stores hs ha hr hc, storeAt, gate_ok hs hv hch hcl (i := 1) hp, Got.bind_ok, Got.bind_ok, afterBody_stored]
      rfl
    | global p =>
      intro s1 y ch hb h1 lines s2 hy hch
      have h0 : s0.slot c k = .thread t := by
        have h := (cachesOnly_resolve s c a .store true).slot c k
        rw [hr] at h
        exact h.trans hs
      obtain ⟨u1, hu1⟩ := ensureChunk_thread h0 h1
      obtain ⟨-, -, -, -, hbufs⟩ := ensureChunk_opens h0 h1 hu1
      have hsame : SameBufs t y := by
        refine hbufs.trans ?_
        by_cases hsh : p.shared = true
        · obtain ⟨w, hw, h⟩ := obtain_sameBufs lines hu1
          have h2 : s2 = s1.obtain lines := if_pos hsh
          rw [h2, hw, Slot.thread.injEq] at hy
          exact hy ▸ h
        · have h2 : s2 = s1 := if_neg hsh
          rw [h2, hu1, Slot.thread.injEq] at hy
          exact hy ▸ .refl u1
      have hlines : (cellsAt p.pa (leBytes n v.toNat)).map (fun e => e.1 / 64) = lines := by
        rw [map_cellsAt (fun a => a / 64), length_leBytes]
      have hbuf := buffer_eq (s := s1) (s0 := s2) (c := c) (k := k) (shared := p.shared)
        (cells := cellsAt p.pa (leBytes n v.toNat)) (by rw [hlines])
      obtain ⟨hin, hout⟩ := seen_buffered (s := s2) (s0 := s2) hch hsame p.shared p.pa (leBytes n v.toNat)
      rw [length_leBytes] at hin hout
      refine ⟨_, s2.buffered p.shared (cellsAt p.pa (leBytes n v.toNat)) ch, ?_, rfl, ?_, hin, hout⟩
      · rw [scalarStore_stores hs ha hr hc, storeAt, State.thr_of_slot h0, softCloseIf_ok _ _ _ hb, Got.bind_ok, h1, Got.bind_ok,
          Got.bind_ok, afterBody_stored, Target.key, hbuf, State.done, State.modThr, State.thr_setThr, State.setThr_setThr,
          State.thr_of_slot hy, Thread.modChunk, hch]
        rfl
      · rw [State.buffered, hlines]
  · rw [scalarStore, aligned_traps hs 6 ha ht]
    rfl

end

end Sys2Proof.Machine
end

section
/-! Mapped registers of a base instruction (R57, R262, R417): O28. -/

namespace Sys2Proof.Machine

section
variable {s s1 s2 : State} {c : Nat} {k : SlotN} {t u w : Thread} {f : Form} {ps : List (XReg × Word)}

/-! ### Refused and waiting -/

theorem Arch.mapped_of_mappedOf {a : Arch} {rs rest : List XReg} {r : XReg} (h : a.mappedOf rs = r :: rest) (rs' : List XReg) :
    a.mappedOf rs ++ rs' ≠ [] := by
  rw [h]
  exact List.cons_ne_nil _ _

/-- A queue that refuses a pop stops the instruction (R57, R277). -/
theorem mappedFirst_popRefused (hs : s.slot c k = .thread t) {r : XReg} {rs : List XReg} {p : Trap}
    (hm : t.a.mappedOf f.src = r :: rs) (hq : s.queueTrap c (t.a.mapHandle c r) false = some p) (ht : t.trapReady = true) :
    mappedFirst s c k f = .stop (s.takeTrap c k p) := by
  unfold mappedFirst
  simp only [State.thr_of_slot hs]
  rw [if_neg (Arch.mapped_of_mappedOf hm _), hm, checkQueues_trap hs hq (by simp), trap_ready hs ht, Got.bind_stop]

/-- A queue that refuses a push stops the instruction, its pops being accepted, unless an entry is kept for the push (R57,
R277). -/
theorem mappedFirst_pushRefused (hs : s.slot c k = .thread t) {r : XReg} {rs : List XReg} {p : Trap}
    (hsrc : ∀ r' ∈ t.a.mappedOf f.src, s.queueTrap c (t.a.mapHandle c r') false = none) (hm : t.a.mappedOf f.dst = r :: rs)
    (ho : t.owed ≠ some (t.a.mapHandle c r)) (hq : s.queueTrap c (t.a.mapHandle c r) true = some p) (ht : t.trapReady = true) :
    mappedFirst s c k f = .stop (s.takeTrap c k p) := by
  unfold mappedFirst
  simp only [State.thr_of_slot hs]
  rw [if_neg (by simp [hm]), checkQueues_ok hs hsrc, Got.bind_ok, hm, checkQueues_trap hs hq (fun _ => ho), trap_ready hs ht,
    Got.bind_stop]

/-- A base instruction whose issue is stopped does no more. -/
theorem exec_stopped {i : Instr} (hi : baseForm i = some f) (h : s.At c k t) (hw : f.who.allows k = true)
    (hm : mappedFirst s c k f = .stop s1) : exec i s = .next s1 := by
  obtain ⟨body, hrun⟩ := run_of_baseForm hi
  obtain ⟨hg, hc, -⟩ := baseForm_plain hi
  exact (hrun s).trans (run_stopped h hw hg hc hm body 4)

/-- The pops that an instruction has performed leave the next one (R57, R417). -/
theorem mappedFirst_next (h : s.Maps c k t f s1 u) (hd : f.dst.length ≤ 1) (hp : State.Pops c k s1 u ps s2 w) {r : XReg}
    {rs : List XReg} (hm : t.a.mappedOf f.src = ps.map (·.1) ++ r :: rs) (hf : w.holds r = false) :
    mappedFirst s c k f = (popFor s2 c k r).bind fun s _ => popAll s c k rs := by
  rw [mappedFirst_maps h hd, hm, popAll_pops hp h.commits.slot, popAll, State.thr_of_slot (Pops.slot hp), hf,
    if_neg Bool.false_ne_true]

/-! ### Performed -/

theorem storesPending_congr (hv : w.vq = u.vq) (hc : w.chunk = u.chunk) (hl : w.closed = u.closed) :
    w.storesPending = u.storesPending := by
  simp only [Thread.storesPending, hv, hc, hl]

/-- A base instruction whose pops are performed, and that no timing error strikes, comes to its body (R57, R240, R262). -/
theorem popped_of_maps (h : s.Maps c k t f s1 u) (hm : t.a.mappedOf f.src = ps.map (·.1)) (hp : State.Pops c k s1 u ps s2 w)
    (hn : s2.strikesNow c k = false) (hg : f.guard = 0) (hc : f.custom3 = false) (hd : f.dst.length ≤ 1) :
    s.Popped c k f s2 w := by
  have hsame := Pops.same hp
  have ha : w.a = t.a := hsame.a.trans h.commits.a
  have hfirst : mappedFirst s c k f = .ok s2 () := by
    have hall := popAll_pops hp h.commits.slot []
    rw [List.append_nil] at hall
    rw [mappedFirst_maps h hd, hm, hall]
    rfl
  refine ⟨fun body => run_issued h.here h.who hg hc hfirst hn body, Pops.slot hp, hsame.chunk.trans h.commits.chunk,
    hsame.closed.trans h.commits.closed, fun rd hrd hmap => ?_⟩
  rw [ha] at hmap ⊢
  have hmem : rd ∈ t.a.mappedOf f.dst := (Arch.mem_mappedOf _ _ _).2 ⟨hrd, hmap⟩
  rw [storesPending_congr hsame.vq hsame.chunk hsame.closed]
  exact ⟨(h.room (List.ne_nil_of_mem hmem)).1, qref_of_queueTrap (h.pushes rd hmem)⟩

/-! ### Loads and stores -/

theorem State.Popped.load {rd rs1 : XReg} (h : s.Popped c k { src := [rs1], dst := [rd] } s2 w) (imm : BitVec 12) (n : Nat)
    (ext : Nat → Word) : s2.LoadsAs c k w (load rd rs1 imm n ext s) (w.xv rs1 + imm.signExtend 64).toNat n rd ext
      fun v => s2.ends c k w rd v := by
  unfold Machine.load
  rw [h.runs, State.thr_of_slot h.slot]
  exact scalarLoad_loadsAs h.slot fun v => h.delivers (by simp) (endsWith_nil _) v

theorem Popped.loads {rd rs1 : XReg} (h : s.Popped c k { src := [rs1], dst := [rd] } s2 w) (imm : BitVec 12) :
    ∀ p ∈ baseLoads rd rs1 imm, s2.LoadsAs c k w (exec p.1 s) (w.xv rs1 + imm.signExtend 64).toNat p.2.1 rd p.2.2
      fun v => s2.ends c k w rd v := by
  simp only [baseLoads, List.forall_mem_cons, List.not_mem_nil, false_imp_iff, implies_true, and_true]
  exact ⟨h.load imm 1 (sext 8), h.load imm 2 (sext 16), h.load imm 4 (sext 32), h.load imm 1 _, h.load imm 2 _, h.load imm 4 _,
    h.load imm 8 _⟩

theorem State.Popped.store {rs1 rs2 : XReg} (h : s.Popped c k { src := [rs1, rs2] } s2 w) (imm : BitVec 12) (n : Nat) :
    s2.StoresAs c k w (store rs2 rs1 imm n s) (w.xv rs1 + imm.signExtend 64).toNat n (w.xv rs2) := by
  unfold Machine.store
  rw [h.runs, State.thr_of_slot h.slot]
  exact scalarStore_storesAs h.slot _ n _

theorem Popped.stores {rs1 rs2 : XReg} (h : s.Popped c k { src := [rs1, rs2] } s2 w) (imm : BitVec 12) :
    ∀ p ∈ baseStores rs2 rs1 imm, s2.StoresAs c k w (exec p.1 s) (w.xv rs1 + imm.signExtend 64).toNat p.2 (w.xv rs2) := by
  simp only [baseStores, List.forall_mem_cons, List.not_mem_nil, false_imp_iff, implies_true, and_true]
  exact ⟨h.store imm 1, h.store imm 2, h.store imm 4, h.store imm 8⟩

/-! ### Zicsr instructions (R137) -/

/-- What a Zicsr instruction does, if it may write what it writes (R120, R121, R124, R137, R415). -/
def State.CsrEnds (s s2 : State) (c : Nat) (k : SlotN) (w : Thread) (rd : XReg) (n : Nat) (p : Instr × Option Word) : Prop :=
  (p.2 ≠ none → n < 0xC00) → s2.CsrDoes c k w (exec p.1 s) n p.2
    fun s' t' after => s2.ends c k w rd (s2.readCsr c k n) (s' := s') (t' := t') (after := after)

theorem Popped.csrReg {rd rs1 : XReg} {csr : BitVec 12} (h : s.Popped c k { who := csrWho csr.toNat, src := [rs1], dst := [rd] } s2 w) :
    ∀ p ∈ csrRegWrites rd rs1 csr (s2.readCsr c k csr.toNat) (w.xv rs1), State.CsrEnds s s2 c k w rd csr.toNat p := by
  simp only [csrRegWrites, List.forall_mem_cons, List.not_mem_nil, false_imp_iff, implies_true, and_true]
  refine ⟨h.csrOp (writes := true) (g := fun t _ => t.xv rs1) rfl,
    h.csrOp (writes := rs1 != 0) (g := fun t old => old ||| t.xv rs1) ?_,
    h.csrOp (writes := rs1 != 0) (g := fun t old => old &&& ~~~(t.xv rs1)) ?_⟩
  all_goals by_cases h0 : rs1 = 0 <;> simp [h0]

theorem Popped.csrImm {rd : XReg} {csr : BitVec 12} (h : s.Popped c k { who := csrWho csr.toNat, dst := [rd] } s2 w) (uimm : Fin 32) :
    ∀ p ∈ csrImmWrites rd csr uimm (s2.readCsr c k csr.toNat), State.CsrEnds s s2 c k w rd csr.toNat p := by
  simp only [csrImmWrites, List.forall_mem_cons, List.not_mem_nil, false_imp_iff, implies_true, and_true]
  refine ⟨h.csrOp (writes := true) (g := fun _ _ => BitVec.ofNat 64 uimm.val) rfl,
    h.csrOp (writes := uimm != 0) (g := fun _ old => old ||| BitVec.ofNat 64 uimm.val) ?_,
    h.csrOp (writes := uimm != 0) (g := fun _ old => old &&& ~~~(BitVec.ofNat 64 uimm.val)) ?_⟩
  all_goals by_cases h0 : uimm = 0 <;> simp [h0]

/-- A write to the read-only CSRs is illegal, and pops and pushes nothing (R137). -/
theorem csrOp_readOnly {rd : XReg} {csr : BitVec 12} {src : List XReg} {writes : Bool} {g : Thread → Word → Word}
    (h : s.At c k t) (hr : 0xC00 ≤ csr.toNat) (hn : s.strikesNow c k = false) (hw : writes = true) (ht : t.trapReady = true) :
    csrOp rd csr src writes g s = .next (s.takeTrap c k { cause := 2, val := s.curWord.setWidth 64 }) := by
  have hany : csrWho csr.toNat = .any := if_neg (by omega)
  have hready : s.Ready c k t { who := csrWho csr.toNat } :=
    ⟨h, by rw [hany]; rfl, .inl rfl, by simp, by simp [Arch.Unmapped], hn⟩
  rw [csrOp_bad rd src g s (by simp [hw, hr]), run_ready hready, illegal, trap_ready h.2.2 ht]

theorem csrWrites_readOnly (h : s.At c k t) (rd rs1 : XReg) {csr : BitVec 12} (uimm : Fin 32) (hr : 0xC00 ≤ csr.toNat)
    (hn : s.strikesNow c k = false) : ∀ p ∈ csrRegWrites rd rs1 csr 0 0 ++ csrImmWrites rd csr uimm 0, p.2 ≠ none →
      s.Traps c k t p.1 { cause := 2, val := s.curWord.setWidth 64 } := by
  simp only [csrRegWrites, csrImmWrites, List.cons_append, List.nil_append, List.forall_mem_cons, List.not_mem_nil, false_imp_iff,
    implies_true, and_true]
  refine ⟨fun _ => csrOp_readOnly (g := fun t _ => t.xv rs1) h hr hn rfl, fun hw => ?_, fun hw => ?_,
    fun _ => csrOp_readOnly (g := fun _ _ => BitVec.ofNat 64 uimm.val) h hr hn rfl, fun hw => ?_, fun hw => ?_⟩
  · exact csrOp_readOnly (g := fun t old => old ||| t.xv rs1) h hr hn (by simpa using hw)
  · exact csrOp_readOnly (g := fun t old => old &&& ~~~(t.xv rs1)) h hr hn (by simpa using hw)
  · exact csrOp_readOnly (g := fun _ old => old ||| BitVec.ofNat 64 uimm.val) h hr hn (by simpa using hw)
  · exact csrOp_readOnly (g := fun _ old => old &&& ~~~(BitVec.ofNat 64 uimm.val)) h hr hn (by simpa using hw)

end

/-- Settles O28: the checks, the commit and the pops before a base instruction, and what each of them then does with the values
popped and delivers. -/
theorem mappedRegisters : Obligations.MappedRegisters := by
  unfold Obligations.MappedRegisters
  refine ⟨?_, ?_, ?_, ?_⟩
  · intro s c k t i f r rs p hat hi hw
    exact ⟨fun hm hq ht => exec_stopped hi hat hw (mappedFirst_popRefused hat.2.2 hm hq ht),
      fun hsrc hm ho hq ht => exec_stopped hi hat hw (mappedFirst_pushRefused hat.2.2 hsrc hm ho hq ht)⟩
  · intro s s1 s2 c k t u w i f ps r rs q hi h hm hp hf hq hl
    obtain ⟨-, -, hd⟩ := baseForm_plain hi
    have ha : w.a = t.a := (Pops.same hp).a.trans h.commits.a
    have hnext := mappedFirst_next h hd hp hm hf
    rw [← ha] at hq ⊢
    refine ⟨fun hnone => exec_stopped hi h.here h.who ?_, fun v s3 hpop hown => exec_stopped hi h.here h.who ?_⟩
    · rw [hnext, popFor_waits (Pops.slot hp) hq hl hnone, Got.bind_stop]
    · rw [hnext, popFor_takes (Pops.slot hp) hq hl hpop, hown, if_neg Bool.false_ne_true, Got.bind_stop]
  · intro s s1 s2 c k t u w f ps rd rs1 rs2 h hm hp hn val now
    have hua : u.a = t.a := h.commits.a
    have hpc : t.a.pc = w.a.pc := by rw [(Pops.same hp).a, hua]
    have hval (r : XReg) (hr : r ∈ f.src) : val r = w.xv r := by
      rw [xv_of_pops hp (by rw [hua]; exact hm) hr, hua]
    have hpop := popped_of_maps h hm hp hn
    rw [hpc]
    refine ⟨?_, ?_, ?_, ?_, ?_⟩
    · rintro rfl
      have hx := hpop rfl rfl le_rfl
      rw [hval rs1 (by simp), hval rs2 (by simp)]
      exact ⟨Popped.regResults hx, Popped.divResults hx⟩
    · rintro imm sh sh5 rfl
      have hx := hpop rfl rfl le_rfl
      rw [hval rs1 (by simp)]
      exact ⟨Popped.immResults hx imm sh sh5, Popped.loads hx imm, Popped.jalr hx imm⟩
    · rintro imm rfl
      have hx := hpop rfl rfl le_rfl
      exact ⟨Popped.upperResults hx imm, Popped.jal hx imm⟩
    · rintro imm rfl
      have hx := hpop rfl rfl (Nat.zero_le _)
      rw [hval rs1 (by simp), hval rs2 (by simp)]
      exact ⟨Popped.stores hx imm, Popped.branchResults hx imm⟩
    · intro csr uimm _
      refine ⟨?_, ?_⟩
      · rintro rfl
        rw [hval rs1 (by simp)]
        exact Popped.csrReg (hpop rfl rfl le_rfl)
      · rintro rfl
        exact Popped.csrImm (hpop rfl rfl le_rfl) uimm
  · intro s c k t rd rs1 csr uimm hat hr hn
    exact csrWrites_readOnly hat rd rs1 uimm hr hn

end Sys2Proof.Machine
end

section
/-! The proof of O57: decoding an encoded well-formed instruction gives it back (R102 to R116). -/

namespace Sys2Proof

/-! ### Fields of a word -/

/-- A field made of two parts, the lower of a bits: each part is a field of the word too. -/
theorem fld_split {w lo a b m n : Nat} (h : fld w lo (a + b) = m + n * 2 ^ a) (hm : m < 2 ^ a) :
    fld w lo a = m ∧ fld w (lo + a) b = n := by
  unfold fld at h ⊢
  rw [Nat.pow_add, Nat.mod_mul, Nat.mul_comm n] at h
  have hlow := congrArg (· % 2 ^ a) h
  have hhigh := congrArg (· / 2 ^ a) h
  have hpos : 0 < 2 ^ a := Nat.two_pow_pos a
  simp only [Nat.add_mul_mod_self_left, Nat.mod_mod, Nat.mod_eq_of_lt hm, Nat.add_mul_div_left _ _ hpos,
    Nat.div_eq_of_lt (Nat.mod_lt _ hpos), Nat.div_eq_of_lt hm, Nat.zero_add] at hlow hhigh
  exact ⟨hlow, by rw [Nat.pow_add, ← Nat.div_div_eq_div_mul]; exact hhigh⟩

/-- A field stays below its width. -/
theorem fld_lt (w lo len : Nat) : fld w lo len < 2 ^ len := Nat.mod_lt _ (Nat.two_pow_pos len)

theorem toNat_beq_one (b : Bool) : (b.toNat == 1) = b := by cases b <;> rfl

theorem limit_val {n : Nat} (x : Fin n) : limit n x = .ok x := dif_pos x.isLt

theorem VType.code_lt (t : VType) : t.code < 2 ^ 3 := by cases t <;> decide

/-- A permitted type is read back from its code (R109). -/
theorem typed_code {t : VType} {ok : VType → Bool} (k : VType → Except DecodeError Instr) (h : ok t = true) :
    typed t.code ok k = k t := by
  have ht : typeOf t.code = some t := by cases t <;> rfl
  rw [typed, ht]
  exact if_pos h

/-! ### Words by their fields -/

/-- The fields of a word in the R layout, of which every other layout is a finer or coarser cut (R105 to R109). -/
structure RWord (w op rd f3 rs1 rs2 f7 : Nat) : Prop where
  op : fld w 0 7 = op
  rd : fld w 7 5 = rd
  f3 : fld w 12 3 = f3
  rs1 : fld w 15 5 = rs1
  rs2 : fld w 20 5 = rs2
  f7 : fld w 25 7 = f7

/-- Values that the fields of the R layout have room for. -/
structure RFits (op rd f3 rs1 rs2 f7 : Nat) : Prop where
  op : op < 2 ^ 7
  rd : rd < 2 ^ 5
  f3 : f3 < 2 ^ 3
  rs1 : rs1 < 2 ^ 5
  rs2 : rs2 < 2 ^ 5
  f7 : f7 < 2 ^ 7

theorem RFits.word {op rd f3 rs1 rs2 f7 : Nat} (h : RFits op rd f3 rs1 rs2 f7) :
    RWord (packR op rd f3 rs1 rs2 f7) op rd f3 rs1 rs2 f7 := by
  obtain ⟨⟩ := h
  constructor <;> (unfold fld packR; omega)

theorem RFits.lt {op rd f3 rs1 rs2 f7 : Nat} (h : RFits op rd f3 rs1 rs2 f7) : packR op rd f3 rs1 rs2 f7 < 2 ^ 32 := by
  obtain ⟨⟩ := h
  unfold packR; omega

/-- The fields of a word in the KR layout, which KV words share (R106, R109). -/
structure KrWord (w op rd f3 rs1 rs2 f4 g : Nat) : Prop where
  op : fld w 0 7 = op
  rd : fld w 7 5 = rd
  f3 : fld w 12 3 = f3
  rs1 : fld w 15 5 = rs1
  rs2 : fld w 20 5 = rs2
  f4 : fld w 25 4 = f4
  g : fld w 29 3 = g

/-- The fields of a word in the I layout (R105). -/
structure IWord (w op rd f3 rs1 imm : Nat) : Prop where
  op : fld w 0 7 = op
  rd : fld w 7 5 = rd
  f3 : fld w 12 3 = f3
  rs1 : fld w 15 5 = rs1
  imm : fld w 20 12 = imm

/-- The fields of a word in the KA layout (R108). -/
structure KaWord (w op : Nat) (aq rl d : Bool) (rs2 rs1 rd : Nat) : Prop where
  major : fld w 0 7 = 0x0B
  rd : fld w 7 5 = rd
  f3 : fld w 12 3 = 1
  rs1 : fld w 15 5 = rs1
  rs2 : fld w 20 5 = rs2
  d : fld w 25 1 = d.toNat
  rl : fld w 26 1 = rl.toNat
  aq : fld w 27 1 = aq.toNat
  op : fld w 28 4 = op

/-! ### Words that decode to their instruction -/

/-- The literal that follows the word of an instruction; 0 where none does (R110). -/
def Instr.literal : Instr → Nat
  | .limm _ _ lit => lit.toNat
  | _ => 0

/-- The instruction has a word of 32 bits, and the word decodes to it. -/
def Decodes (i : Instr) : Prop := ∃ w, encodeWord i = some w ∧ w < 2 ^ 32 ∧ decodeWord w i.literal = .ok i

/-! An instruction decodes if the decoder finds it in every word with the fields that the encoder packs: one lemma for each
layout, so that no case of the decoder looks into a packed word. -/

section
variable {i : Instr} {op rd f3 rs1 rs2 f4 f7 g v : Nat}

theorem decodes_r (hi : encodeWord i = some v) (hv : v = packR op rd f3 rs1 rs2 f7) (hf : RFits op rd f3 rs1 rs2 f7)
    (hd : ∀ w, RWord w op rd f3 rs1 rs2 f7 → decodeWord w i.literal = .ok i) : Decodes i := by
  subst hv
  exact ⟨_, hi, hf.lt, hd _ hf.word⟩

/-- A KR word is an R word whose funct7 holds the instruction code and the guard. -/
theorem pack_eq_packR : pack op rd f3 rs1 rs2 f4 g = packR op rd f3 rs1 rs2 (f4 + g * 2 ^ 4) := by
  unfold pack packR; omega

theorem RWord.kr {w : Nat} (h : RWord w op rd f3 rs1 rs2 (f4 + g * 2 ^ 4)) (h4 : f4 < 2 ^ 4) :
    KrWord w op rd f3 rs1 rs2 f4 g := by
  obtain ⟨hf4, hg⟩ := fld_split (b := 3) h.f7 h4
  exact ⟨h.op, h.rd, h.f3, h.rs1, h.rs2, hf4, hg⟩

theorem decodes_kr (hi : encodeWord i = some (pack op rd f3 rs1 rs2 f4 g)) (hf : RFits op rd f3 rs1 rs2 0)
    (h4 : f4 < 2 ^ 4) (hg : g < 2 ^ 3) (hd : ∀ w, KrWord w op rd f3 rs1 rs2 f4 g → decodeWord w i.literal = .ok i) :
    Decodes i :=
  decodes_r hi pack_eq_packR { hf with f7 := by omega } fun w h => hd w (h.kr h4)

/-- A KV word, with the code of a type in place of the guard (R109). -/
theorem decodes_kv {t : VType} (hi : encodeWord i = some (pack 0x2B rd f3 rs1 rs2 f4 t.code))
    (hf : RFits 0x2B rd f3 rs1 rs2 0) (h4 : f4 < 2 ^ 4)
    (hd : ∀ w, KrWord w 0x2B rd f3 rs1 rs2 f4 t.code → decodeWord w i.literal = .ok i) : Decodes i :=
  decodes_kr hi hf h4 t.code_lt hd

theorem decodes_i {imm : Nat} (hi : encodeWord i = some (packI op rd f3 rs1 imm)) (hf : RFits op rd f3 rs1 0 0)
    (hm : imm < 2 ^ 12) (hd : ∀ w, IWord w op rd f3 rs1 imm → decodeWord w i.literal = .ok i) : Decodes i := by
  obtain ⟨⟩ := hf
  refine ⟨_, hi, by unfold packI; omega, hd _ ?_⟩
  constructor <;> (unfold fld packI; omega)

theorem decodes_s {imm : BitVec 12} (hi : encodeWord i = some (packS op f3 rs1 rs2 imm.toNat)) (hf : RFits op 0 f3 rs1 rs2 0)
    (hd : ∀ w lo hi, RWord w op lo f3 rs1 rs2 hi → immS w = imm → decodeWord w i.literal = .ok i) : Decodes i := by
  refine decodes_r hi rfl { hf with rd := fld_lt _ 0 5, f7 := fld_lt _ 5 7 } fun w h => hd w _ _ h ?_
  have hm : fld imm.toNat 5 7 * 2 ^ 5 + fld imm.toNat 0 5 = imm.toNat := by
    unfold fld; rw [Nat.pow_zero, Nat.div_one]; omega
  rw [immS, h.f7, h.rd, hm, BitVec.ofNat_toNat, BitVec.setWidth_eq]

theorem decodes_b {imm : BitVec 12} (hi : encodeWord i = some (packB op f3 rs1 rs2 imm.toNat)) (hf : RFits op 0 f3 rs1 rs2 0)
    (hd : ∀ w lo hi, RWord w op lo f3 rs1 rs2 hi → immB w = imm → decodeWord w i.literal = .ok i) : Decodes i := by
  have h1 := fld_lt imm.toNat 10 1
  have h2 := fld_lt imm.toNat 0 4
  have h3 := fld_lt imm.toNat 4 6
  have h4 := fld_lt imm.toNat 11 1
  refine decodes_r (rd := fld imm.toNat 10 1 + fld imm.toNat 0 4 * 2 ^ 1)
    (f7 := fld imm.toNat 4 6 + fld imm.toNat 11 1 * 2 ^ 6) hi (by unfold packB packR; omega)
    { hf with rd := by omega, f7 := by omega } fun w h => hd w _ _ h ?_
  obtain ⟨hrd1, hrd2⟩ := fld_split (b := 4) h.rd h1
  obtain ⟨hf1, hf2⟩ := fld_split (b := 1) h.f7 h3
  have hm : fld imm.toNat 11 1 * 2 ^ 11 + fld imm.toNat 10 1 * 2 ^ 10 + fld imm.toNat 4 6 * 2 ^ 4 + fld imm.toNat 0 4 =
      imm.toNat := by
    unfold fld; rw [Nat.pow_zero, Nat.div_one]; omega
  rw [immB, hrd1, hrd2, hf1, hf2, hm, BitVec.ofNat_toNat, BitVec.setWidth_eq]

theorem decodes_ka {aq rl d : Bool} (hi : encodeWord i = some (packKA op aq rl d rs2 rs1 rd)) (hf : RFits 0x0B rd 1 rs1 rs2 0)
    (ho : op < 2 ^ 4) (hd : ∀ w, KaWord w op aq rl d rs2 rs1 rd → decodeWord w i.literal = .ok i) : Decodes i := by
  have h1 := aq.toNat_lt
  have h2 := rl.toNat_lt
  have h3 := d.toNat_lt
  refine decodes_r (f7 := d.toNat + (rl.toNat + (aq.toNat + op * 2 ^ 1) * 2 ^ 1) * 2 ^ 1) hi (by unfold packKA packR; omega)
    { hf with f7 := by omega } fun w h => hd w ?_
  obtain ⟨hd, h6⟩ := fld_split (b := 6) h.f7 h3
  obtain ⟨hrl, h5⟩ := fld_split (b := 5) h6 h2
  obtain ⟨haq, hop⟩ := fld_split (b := 4) h5 h1
  exact ⟨h.op, h.rd, h.f3, h.rs1, h.rs2, hd, hrl, haq, hop⟩

/-- A KM word: w is its W field, and f its F bit with the store bit above (R107). -/
theorem decodes_km {f wc : Nat} (hi : encodeWord i = some v) (hv : v = packR 0x0B rd 0 rs1 rs2 (f + (wc + g * 2 ^ 2) * 2 ^ 2))
    (hf : RFits 0x0B rd 0 rs1 rs2 0) (h2 : f < 2 ^ 2) (hw : wc < 2 ^ 2) (hg : g < 2 ^ 3)
    (hd : ∀ w, RWord w 0x0B rd 0 rs1 rs2 (f + (wc + g * 2 ^ 2) * 2 ^ 2) → fld w 25 2 = f → fld w 27 2 = wc → fld w 29 3 = g →
      decodeWord w i.literal = .ok i) : Decodes i := by
  refine decodes_r hi hv { hf with f7 := by omega } fun w h => ?_
  obtain ⟨hf2, h5⟩ := fld_split (b := 5) h.f7 h2
  obtain ⟨hwc, hg⟩ := fld_split (b := 3) h5 hw
  exact hd w h hf2 hwc hg

theorem decodes_u {imm : BitVec 20} (hi : encodeWord i = some (packU op rd imm.toNat)) (ho : op < 2 ^ 7) (hr : rd < 2 ^ 5)
    (hd : ∀ w, fld w 0 7 = op → fld w 7 5 = rd → immU w = imm → decodeWord w i.literal = .ok i) : Decodes i := by
  have hm : fld (packU op rd imm.toNat) 12 20 = imm.toNat := by unfold fld packU; omega
  refine ⟨_, hi, by unfold packU; omega, hd _ ?_ ?_ ?_⟩
  · unfold fld packU; omega
  · unfold fld packU; omega
  · rw [immU, hm, BitVec.ofNat_toNat, BitVec.setWidth_eq]

/-- The fields of a J word, whose offset stands in four parts (R105). -/
theorem packJ_fields (ho : op < 2 ^ 7) (hr : rd < 2 ^ 5) (imm : Nat) :
    fld (packJ op rd imm) 0 7 = op ∧ fld (packJ op rd imm) 7 5 = rd ∧ fld (packJ op rd imm) 12 8 = fld imm 11 8 ∧
      fld (packJ op rd imm) 20 1 = fld imm 10 1 ∧ fld (packJ op rd imm) 21 10 = fld imm 0 10 ∧
      fld (packJ op rd imm) 31 1 = fld imm 19 1 ∧ packJ op rd imm < 2 ^ 32 := by
  have ha := fld_lt imm 11 8
  have hb := fld_lt imm 10 1
  have hc := fld_lt imm 0 10
  have hd := fld_lt imm 19 1
  unfold packJ
  generalize fld imm 11 8 = a, fld imm 10 1 = b, fld imm 0 10 = c, fld imm 19 1 = d at *
  unfold fld
  omega

theorem decodes_j {imm : BitVec 20} (hi : encodeWord i = some (packJ op rd imm.toNat)) (ho : op < 2 ^ 7) (hr : rd < 2 ^ 5)
    (hd : ∀ w, fld w 0 7 = op → fld w 7 5 = rd → immJ w = imm → decodeWord w i.literal = .ok i) : Decodes i := by
  obtain ⟨hop, hrd, ha, hb, hc, he, hlt⟩ := packJ_fields ho hr imm.toNat
  have parts : fld imm.toNat 19 1 * 2 ^ 19 + fld imm.toNat 11 8 * 2 ^ 11 + fld imm.toNat 10 1 * 2 ^ 10 + fld imm.toNat 0 10 =
      imm.toNat := by
    unfold fld; rw [Nat.pow_zero, Nat.div_one]; omega
  refine ⟨_, hi, hlt, hd _ hop hrd ?_⟩
  rw [immJ, ha, hb, hc, he, parts, BitVec.ofNat_toNat, BitVec.setWidth_eq]

/-- A VKOP word of two k registers, which names the second in the low bits of its rs2 field (R115). -/
theorem decodes_vkop {kd ka kb : Fin 8} (n : Nat) (hn : n < 3)
    (hi : encodeWord i = some (pack 0x2B kd 5 ka (kb + n * 2 ^ 3) 9 0))
    (hd : i = if n = 0 then .vkopAnd kd ka kb else if n = 1 then .vkopOr kd ka kb else .vkopXor kd ka kb) : Decodes i := by
  refine decodes_kr hi (by constructor <;> omega) (by omega) (by omega) fun w h => ?_
  obtain ⟨hkb, hop⟩ := fld_split (b := 2) h.rs2 kb.isLt
  simp only [decodeWord, decCustom1, decC1Class5, need, limit_val, Except.bind, h.op, h.rd, h.f3, h.rs1, h.f4, h.g, hkb, hop,
    fld3, Fin.eta, reduceIte, hd]
  obtain rfl | rfl | rfl : n = 0 ∨ n = 1 ∨ n = 2 := by omega
  all_goals rfl

end

/-! ### Every instruction that has a word (R104, R105, R113 to R116) -/

/-- The vector instructions: the words of custom-1 (R104, R115). -/
def Instr.isVector : Instr → Bool
  | .vadd .. | .vsub .. | .vmul .. | .vfma .. | .vfms .. | .vmin .. | .vmax .. | .vabs .. | .vneg .. | .vceq .. | .vclt ..
  | .vcle .. | .vsel .. | .vdiv .. | .vsqrt .. | .vrsqrt .. | .vrcp .. | .vexp2 .. | .vlog2 .. | .vsin .. | .vcos ..
  | .vand .. | .vor .. | .vxor .. | .vshl .. | .vshr .. | .vsra .. | .vcadd .. | .vcsub .. | .vcmul .. | .vcfma .. | .vcconj ..
  | .vcmag2 .. | .vcexpj .. | .vld .. | .vlds .. | .vst .. | .vsts .. | .vgath .. | .vscat .. | .vldl .. | .vstl ..
  | .vbcast .. | .vmvx .. | .vins .. | .vcfg .. | .vredadd .. | .vredmax .. | .vredmin .. | .vcvt .. | .vpack .. | .vunpk ..
  | .vperm .. | .vslide .. | .vkopAnd .. | .vkopOr .. | .vkopXor .. | .vkopNot .. | .vkopFromx .. | .vkopTox ..
  | .vkopCount .. | .vfence | .vstat .. => true
  | _ => false

theorem decodes_vector {i : Instr} (hi : i.isVector = true) (hw : i.wf = true) : Decodes i := by
  cases i
  -- words with a type, which the entry restricts
  case vadd | vsub | vmul | vfma | vfms | vmin | vmax | vabs | vneg | vceq | vclt | vcle | vsel | vand | vor | vxor | vshl
      | vshr | vsra | vld | vlds | vst | vsts | vgath | vscat | vldl | vstl | vbcast | vmvx | vins | vredadd | vredmax
      | vredmin | vcvt | vperm | vslide =>
    simp only [Instr.wf] at hw
    refine decodes_kv rfl (by constructor <;> omega) (by omega) fun w h => ?_
    simp only [decodeWord, decCustom1, decC1Class0, decC1Class2, decC1Class4, decC1Class5, need, limit_val, typed_code, hw,
      Except.bind, h.op, h.rd, h.f3, h.rs1, h.rs2, h.f4, h.g, fld5, Fin.eta, reduceIte]
  -- words whose type field is fixed
  case vdiv | vsqrt | vrsqrt | vrcp | vexp2 | vlog2 | vsin | vcos | vcadd | vcsub | vcmul | vcfma | vcconj | vcmag2 | vcexpj
      | vcfg | vpack | vunpk | vfence | vstat =>
    refine decodes_kr rfl (by constructor <;> omega) (by omega) (by omega) fun w h => ?_
    simp only [decodeWord, decCustom1, decC1Class1, decC1Class3, decC1Class5, need, limit_val, Except.bind, h.op, h.rd, h.f3,
      h.rs1, h.rs2, h.f4, h.g, fld5, Fin.eta, reduceIte]
  case vkopAnd => exact decodes_vkop 0 (by decide) rfl rfl
  case vkopOr => exact decodes_vkop 1 (by decide) rfl rfl
  case vkopXor => exact decodes_vkop 2 (by decide) rfl rfl
  case vkopNot | vkopFromx | vkopTox | vkopCount =>
    refine decodes_kr rfl (by constructor <;> omega) (by omega) (by omega) fun w h => ?_
    have hop : fld w 23 2 = 3 := (fld_split (a := 3) (b := 2) h.rs2 (by omega)).2
    simp only [decodeWord, decCustom1, decC1Class5, need, limit_val, Except.bind, h.op, h.rd, h.f3, h.rs1, h.rs2, h.f4, h.g,
      hop, fld5, Fin.eta, reduceIte, Nat.reduceEqDiff]
  all_goals exact absurd hi Bool.false_ne_true

theorem decodes_scalar {i : Instr} (hi : (i.isWord && !i.isVector) = true) (hw : i.wf = true) : Decodes i := by
  cases i
  -- base instructions (R105)
  case lui | auipc =>
    refine decodes_u rfl (by omega) (by omega) fun w hop hrd him => ?_
    simp only [decodeWord, fld5, hop, hrd, him, Fin.eta]
  case jal =>
    refine decodes_j rfl (by omega) (by omega) fun w hop hrd him => ?_
    simp only [decodeWord, fld5, hop, hrd, him, Fin.eta]
  case add | sub | sll | slt | sltu | xor | srl | sra | or | and | mul | mulh | mulhsu | mulhu | div | divu | rem | remu | addw
      | subw | sllw | srlw | sraw | mulw | divw | divuw | remw | remuw | slliw | srliw | sraiw =>
    refine decodes_r rfl rfl (by constructor <;> omega) fun w h => ?_
    simp only [decodeWord, decOp, decOp32, decOpImm32, h.op, h.rd, h.f3, h.rs1, h.rs2, h.f7, fld5, Fin.eta, reduceIte,
      Nat.reduceEqDiff]
  case lb | lh | lw | lbu | lhu | lwu | ld | addi | slti | sltiu | xori | ori | andi | addiw | jalr =>
    refine decodes_i rfl (by constructor <;> omega) (by omega) fun w h => ?_
    simp only [decodeWord, decLoad, decOpImm, decOpImm32, immI, h.op, h.rd, h.f3, h.rs1, h.imm, fld5, Fin.eta,
      BitVec.ofNat_toNat, BitVec.setWidth_eq, reduceIte]
  case csrrw | csrrs | csrrc | csrrwi | csrrsi | csrrci =>
    simp only [Instr.wf] at hw
    refine decodes_i rfl (by constructor <;> omega) (by omega) fun w h => ?_
    simp only [decodeWord, decSystem, immI, h.op, h.rd, h.f3, h.rs1, h.imm, fld5, Fin.eta, BitVec.ofNat_toNat,
      BitVec.setWidth_eq, hw, reduceIte]
  case slli _ _ sh | srli _ _ sh =>
    refine decodes_i rfl (by constructor <;> omega) (by omega) fun w h => ?_
    obtain ⟨hsh, htop⟩ := fld_split (a := 6) (b := 6) (m := sh) (n := 0) (by rw [h.imm]; omega) (by omega)
    simp only [decodeWord, decOpImm, h.op, h.rd, h.f3, h.rs1, hsh, htop, fld5, Fin.eta, reduceIte]
  case srai _ _ sh =>
    refine decodes_i rfl (by constructor <;> omega) (by omega) fun w h => ?_
    obtain ⟨hsh, htop⟩ := fld_split (a := 6) (b := 6) (m := sh) (n := 16) (by rw [h.imm]; omega) (by omega)
    simp only [decodeWord, decOpImm, h.op, h.rd, h.f3, h.rs1, hsh, htop, fld5, Fin.eta, reduceIte, Nat.reduceEqDiff]
  case sb | sh | sw | sd =>
    refine decodes_s rfl (by constructor <;> omega) fun w lo hi h him => ?_
    simp only [decodeWord, decStore, him, h.op, h.f3, h.rs1, h.rs2, fld5, Fin.eta]
  case beq | bne | blt | bge | bltu | bgeu =>
    refine decodes_b rfl (by constructor <;> omega) fun w lo hi h him => ?_
    simp only [decodeWord, decBranch, him, h.op, h.f3, h.rs1, h.rs2, fld5, Fin.eta]
  case fence | ecall | ebreak => exact ⟨_, rfl, by decide, rfl⟩
  -- KM and KA words (R107, R108)
  case ldx g wc size off rd rs1 =>
    refine decodes_km (rd := rd) (rs1 := rs1) (rs2 := off + size * 2 ^ 3) (f := 0) (wc := wc) (g := g) rfl
      (by unfold packKML packR; omega) (by constructor <;> omega) (by omega) (by omega) (by omega) fun w h hf hwc hg => ?_
    obtain ⟨hoff, hsize⟩ := fld_split (b := 2) h.rs2 (by omega)
    simp only [decodeWord, decCustom0, decKM, h.op, h.rd, h.f3, h.rs1, hf, hwc, hg, hoff, hsize, fld5, fld3, fld2, Fin.eta]
  case ldxF g wc dbl off rd rs1 =>
    have hdbl := dbl.toNat_lt
    refine decodes_km (rd := rd) (rs1 := rs1) (rs2 := off + (2 + dbl.toNat) * 2 ^ 3) (f := 1) (wc := wc) (g := g) rfl
      (by unfold packKML packR; omega) (by constructor <;> omega) (by omega) (by omega) (by omega) fun w h hf hwc hg => ?_
    obtain ⟨hoff, hsize⟩ := fld_split (b := 2) h.rs2 (by omega)
    simp only [decodeWord, decCustom0, decKM, h.op, h.rd, h.f3, h.rs1, hf, hwc, hg, hoff, hsize, fld5, fld3, fld2, Fin.eta]
    cases dbl <;> rfl
  case stx g wc size off rs2 rs1 =>
    refine decodes_km (rd := off + size * 2 ^ 3) (rs1 := rs1) (rs2 := rs2) (f := 2) (wc := wc) (g := g) rfl
      (by unfold packKMS packR; omega) (by constructor <;> omega) (by omega) (by omega) (by omega) fun w h hf hwc hg => ?_
    obtain ⟨hoff, hsize⟩ := fld_split (b := 2) h.rd (by omega)
    simp only [decodeWord, decCustom0, decKM, h.op, h.f3, h.rs1, h.rs2, hf, hwc, hg, hoff, hsize, fld5, fld3, fld2, Fin.eta]
  case stxF g wc dbl off rs2 rs1 =>
    have hdbl := dbl.toNat_lt
    refine decodes_km (rd := off + (2 + dbl.toNat) * 2 ^ 3) (rs1 := rs1) (rs2 := rs2) (f := 3) (wc := wc) (g := g) rfl
      (by unfold packKMS packR; omega) (by constructor <;> omega) (by omega) (by omega) (by omega) fun w h hf hwc hg => ?_
    obtain ⟨hoff, hsize⟩ := fld_split (b := 2) h.rd (by omega)
    simp only [decodeWord, decCustom0, decKM, h.op, h.f3, h.rs1, h.rs2, hf, hwc, hg, hoff, hsize, fld5, fld3, fld2, Fin.eta]
    cases dbl <;> rfl
  case aadd | aswp | aand | aor | axor | amax | amin | amaxu | aminu | acas | afadd | afmax | aincw =>
    refine decodes_ka rfl (by constructor <;> omega) (by omega) fun w h => ?_
    simp only [decodeWord, decCustom0, decKA, h.major, h.rd, h.f3, h.op, h.d, h.rl, h.aq, h.rs1, h.rs2, toNat_beq_one, fld5,
      Fin.eta, Bool.false_eq_true, reduceIte]
  -- custom-0 words of the KR layout (R106, R114)
  case pseq | psne | pslt | psge | psltu | psgeu | pand | por | pandn | pxor | prd | pwr | limm =>
    refine decodes_kr rfl (by constructor <;> omega) (by omega) (by omega) fun w h => ?_
    simp only [decodeWord, decCustom0, decC0Group2, Instr.literal, need, h.op, h.rd, h.f3, h.rs1, h.rs2, h.f4, h.g, fld5, fld3,
      Fin.eta, BitVec.ofNat_toNat, BitVec.setWidth_eq, reduceIte]
  case ldro | feclr | feset | fetest | stnibLo | stnibHi | lockr | chunk | pfetch | unlockr | unlockrP1 | unlockrP2
      | unlockrP3 | unlockrP4 | unlockrP5 | unlockrP6 | unlockrP7 =>
    refine decodes_kr rfl (by constructor <;> omega) (by omega) (by omega) fun w h => ?_
    simp only [decodeWord, decCustom0, decC0Group3, decUnlock, need, limit_val, Except.bind, h.op, h.rd, h.f3, h.rs1, h.rs2,
      h.f4, h.g, fld5, fld3, Fin.eta, reduceIte, Nat.reduceEqDiff]
  case cntwait g mask =>
    have hmask : mask ≠ 0 := bne_iff_ne.mp hw
    refine decodes_kr rfl (by constructor <;> omega) (by omega) (by omega) fun w h => ?_
    simp only [decodeWord, decCustom0, decC0Group3, need, limit_val, Except.bind, h.op, h.rd, h.f3, h.rs1, h.rs2, h.f4, h.g,
      fld3, Fin.eta, hmask, reduceIte]
  case fencer g kinds scope rs1 rs2 =>
    have hkinds : kinds.val ≠ 0 := fun h => bne_iff_ne.mp (show (kinds != 0) = true from hw) (Fin.ext h)
    refine decodes_kr rfl (by constructor <;> omega) (by omega) (by omega) fun w h => ?_
    obtain ⟨hlo, hhi⟩ := fld_split (a := 3) (b := 2) h.rd (by omega)
    simp only [decodeWord, decCustom0, decC0Group3, h.op, h.f3, h.rs1, h.rs2, h.f4, h.g, hlo, hhi, hkinds, fld5, fld3, fld2,
      Fin.eta, reduceIte]
  case spawn | mspawn | migr | retire | waitev | pairon | pairoff | rep =>
    refine decodes_kr rfl (by constructor <;> omega) (by omega) (by omega) fun w h => ?_
    simp only [decodeWord, decCustom0, decC0Group4, need, h.op, h.rd, h.f3, h.rs1, h.rs2, h.f4, h.g, fld5, fld3, Fin.eta,
      reduceIte]
  case qpush | qpop | qwait | qstat | msend | mrecv | barset | barrive | barwait | barstat =>
    refine decodes_kr rfl (by constructor <;> omega) (by omega) (by omega) fun w h => ?_
    simp only [decodeWord, decCustom0, decC0Group5, need, limit_val, Except.bind, h.op, h.rd, h.f3, h.rs1, h.rs2, h.f4, h.g,
      fld5, fld3, Fin.eta, reduceIte]
  case qmap g n reg rs1 =>
    refine decodes_kr rfl (by constructor <;> omega) (by omega) (by omega) fun w h => ?_
    obtain ⟨hn, hhi⟩ := fld_split (a := 2) (b := 3) h.rd (by omega)
    obtain ⟨hreg, htop⟩ := fld_split (a := 2) (b := 1) (m := reg) (n := 0) hhi (by omega)
    simp only [decodeWord, decCustom0, decC0Group5, need, h.op, h.f3, h.rs1, h.rs2, h.f4, h.g, hn, hreg, htop, fld5, fld3, fld2,
      Fin.eta, reduceIte]
  case qreg g reg rs1 =>
    refine decodes_kr rfl (by constructor <;> omega) (by omega) (by omega) fun w h => ?_
    obtain ⟨-, hhi⟩ := fld_split (a := 2) (b := 3) (m := 0) (n := reg + 1 * 2 ^ 2) (by rw [h.rd]; omega) (by omega)
    obtain ⟨hreg, htop⟩ := fld_split (a := 2) (b := 1) hhi (by omega)
    simp only [decodeWord, decCustom0, decC0Group5, need, h.op, h.f3, h.rs1, h.rs2, h.f4, h.g, hreg, htop, fld5, fld3, fld2,
      Fin.eta, reduceIte, Nat.reduceEqDiff]
  case mbxput | mbxget | cpyiss | cpywait | cpydone | trpop | xrdt | xwrt | xresume | xkill | tcswap | dbrk | stamp =>
    refine decodes_kr rfl (by constructor <;> omega) (by omega) (by omega) fun w h => ?_
    simp only [decodeWord, decCustom0, decC0Group6, decC0Group7, need, h.op, h.rd, h.f3, h.rs1, h.rs2, h.f4, h.g, fld5, fld3,
      Fin.eta, reduceIte]
  -- custom-2 and custom-3 words (R106, R116)
  case mcfg | mgang | mbld | mma | mzero | mstore | mstat | mwait | ptcfg | ptserve | ptenq | topen | pfork | pdone | nacc
      | ndown | ndownUp | sacfg | saddF32 | saddBf16 | snormRms | snormLayer | snormUnit | ssq | szero | sevict | sload
      | sexport =>
    refine decodes_kr rfl (by constructor <;> omega) (by omega) (by omega) fun w h => ?_
    simp only [decodeWord, decCustom2, decC2Group0, decC2Group1, decC2Group2, need, limit_val, Except.bind, h.op, h.rd, h.f3,
      h.rs1, h.rs2, h.f4, h.g, fld5, fld3, Fin.eta, reduceIte, Nat.reduceEqDiff]
  case trace | tresume | twait | taccept | tignore | tterm | tspawn | trsave | hhtinv | rsetup | rcover | rdepth =>
    refine decodes_kr rfl (by constructor <;> omega) (by omega) (by omega) fun w h => ?_
    simp only [decodeWord, decCustom3, decC3Group0, decC3Group1, need, limit_val, Except.bind, h.op, h.rd, h.f3, h.rs1, h.rs2,
      h.f4, h.g, fld5, fld3, Fin.eta, reduceIte]
  all_goals exact absurd hi Bool.false_ne_true

theorem decodes_of_wf {i : Instr} (hi : i.isWord = true) (hw : i.wf = true) : Decodes i := by
  by_cases hv : i.isVector = true
  · exact decodes_vector hv hw
  · exact decodes_scalar (by simp [hi, hv]) hw

/-! ### Bytes, and the literal word of LIMM (R5, R102, R110) -/

theorem wordOfBytes_bytesOfWord {w : Nat} (h : w < 2 ^ 32) :
    wordOfBytes (BitVec.ofNat 8 w) (BitVec.ofNat 8 (w / 2 ^ 8)) (BitVec.ofNat 8 (w / 2 ^ 16)) (BitVec.ofNat 8 (w / 2 ^ 24)) =
      w := by
  simp only [wordOfBytes, BitVec.toNat_ofNat]
  omega

theorem decode_bytesOfWord {w : Nat} (h : w < 2 ^ 32) (hl : takesLiteral w = false) (rest : List Byte) :
    decode (bytesOfWord w ++ rest) = (decodeWord w 0).map (·, rest) := by
  simp only [bytesOfWord, List.cons_append, List.nil_append, decode, wordOfBytes_bytesOfWord h, hl,
    Bool.false_eq_true, if_false]

theorem decode_bytesOfWords {w l : Nat} (h : w < 2 ^ 32) (hl : l < 2 ^ 32) (ht : takesLiteral w = true) (rest : List Byte) :
    decode (bytesOfWord w ++ bytesOfWord l ++ rest) = (decodeWord w l).map (·, rest) := by
  simp only [bytesOfWord, List.cons_append, List.nil_append, decode, wordOfBytes_bytesOfWord h,
    wordOfBytes_bytesOfWord hl, ht, if_true]

/-- A word that takes a literal is LIMM's. -/
theorem decodeWord_of_takesLiteral {w : Nat} (h : takesLiteral w = true) (l : Nat) :
    decodeWord w l = .ok (.limm (fld3 w 29) (fld5 w 7) (BitVec.ofNat 32 l)) := by
  simp only [takesLiteral, Bool.and_eq_true, beq_iff_eq] at h
  obtain ⟨⟨⟨⟨hop, hf3⟩, hf4⟩, hrs1⟩, hrs2⟩ := h
  simp only [decodeWord, decCustom0, decC0Group2, need, hop, hf3, hf4, hrs1, hrs2, if_true]

theorem takesLiteral_limm (g : Guard) (rd : XReg) : takesLiteral (pack 0x0B rd 2 0 0 12 g) = true := by
  have hf : RFits 0x0B rd 2 0 0 (12 + g * 2 ^ 4) := by constructor <;> omega
  have h := hf.word.kr (by omega)
  rw [pack_eq_packR]
  simp only [takesLiteral, h.op, h.f3, h.f4, h.rs1, h.rs2, BEq.rfl, Bool.and_self]

theorem literal_of_ne_limm {i : Instr} (h : ∀ g rd lit, i ≠ .limm g rd lit) : i.literal = 0 := by
  unfold Instr.literal
  split
  · exact absurd rfl (h _ _ _)
  · rfl

theorem encode_of_ne_limm {i : Instr} {w : Nat} (h : ∀ g rd lit, i ≠ .limm g rd lit) (hw : encodeWord i = some w) :
    encode i = bytesOfWord w := by
  unfold encode
  rw [hw]
  dsimp only
  split
  · exact absurd rfl (h _ _ _)
  · exact List.append_nil _

/-- Settles O57: an instruction's word has 32 bits and decodes to it, and its word takes a literal exactly if it is LIMM. -/
theorem decodeEncodeRoundTrip : Obligations.DecodeEncodeRoundTrip := by
  unfold Obligations.DecodeEncodeRoundTrip
  intro i rest hi hw
  obtain ⟨w, hword, hlt, hdec⟩ := decodes_of_wf hi hw
  by_cases hlimm : ∃ g rd lit, i = .limm g rd lit
  · obtain ⟨g, rd, lit, rfl⟩ := hlimm
    obtain rfl : pack 0x0B rd 2 0 0 12 g = w := Option.some.inj hword
    have h := decode_bytesOfWords hlt lit.isLt (takesLiteral_limm g rd) rest
    rw [show lit.toNat = (Instr.limm g rd lit).literal from rfl, hdec] at h
    exact h
  · have hne : ∀ g rd lit, i ≠ .limm g rd lit := fun g rd lit h => hlimm ⟨g, rd, lit, h⟩
    rw [literal_of_ne_limm hne] at hdec
    have hl : takesLiteral w = false := by
      by_contra h
      rw [decodeWord_of_takesLiteral (Bool.of_not_eq_false h)] at hdec
      exact hne _ _ _ (Except.ok.inj hdec).symm
    rw [encode_of_ne_limm hne hword, decode_bytesOfWord hlt hl, hdec]
    rfl

end Sys2Proof
end

section
/-! The proofs of O13, a guarded-off instruction only completes (R112, R117), and of O60, words written out by the spec. -/

namespace Sys2Proof.Machine

/-- An instruction that a guard can hold back runs by a form with this guard and the slots that may issue it. -/
theorem exec_runs_guarded {i : Instr} (s : State) (hg : guardOf i ≠ 0) :
    ∃ f body, f.guard = guardOf i ∧ f.who = whoOf i ∧ exec i s = run f body s (lengthOf i) := by
  cases i
  case ldx | ldxF | stx | stxF | pseq | psne | pslt | psge | psltu | psgeu | pand | por | pandn | pxor | prd | pwr
      | limm | fencer | ldro | feclr | feset | fetest | cntwait | stnibLo | stnibHi | lockr | chunk | pfetch | spawn
      | mspawn | migr | retire | waitev | pairon | pairoff | rep | qpush | qpop | qwait | qstat | msend | mrecv
      | barset | barrive | barwait | barstat | qmap | qreg | mbxput | mbxget | cpyiss | cpywait | cpydone | trpop
      | xrdt | xwrt | xresume | xkill | tcswap | dbrk | stamp | mcfg | mgang | mbld | mma | mzero | mstore | mstat
      | mwait | ptcfg | ptserve | ptenq | topen | pfork | pdone | nacc | ndown | ndownUp | sacfg | saddF32
      | saddBf16 | snormRms | snormLayer | snormUnit | ssq | szero | sevict | sload | sexport | trace | tresume
      | twait | taccept | tignore | tterm | tspawn | trsave | hhtinv | rsetup | rcover | rdepth | unlockrP1
      | unlockrP2 | unlockrP3 | unlockrP4 | unlockrP5 | unlockrP6 | unlockrP7 =>
    exact ⟨_, _, rfl, rfl, rfl⟩
  all_goals exact absurd rfl hg

/-- Settles O13: issue looks at the slot first and then at the guard, and a guard that fails leaves the completion alone. -/
theorem guardedOffInstructions : Obligations.GuardedOffInstructions := by
  unfold Obligations.GuardedOffInstructions
  intro i s c k t h hg hp
  obtain ⟨f, body, hfg, hfw, hrun⟩ := exec_runs_guarded s hg
  rw [hrun, ← hfw]
  refine ⟨fun hw => ?_, fun hw ht => run_illegal h hw ht body _⟩
  rw [run_off h hw (hfg ▸ hg) (hfg ▸ hp), State.modThr, State.thr_of_slot h.2.2, Thread.skip]

/-- Settles O60: each word decodes as the spec writes it out. -/
theorem decodeSanityWords : Obligations.DecodeSanityWords := by
  unfold Obligations.DecodeSanityWords
  decide

end Sys2Proof.Machine
end

section
/-! Fields of the user CSRs as a write stores them, and what CSRs read as (R8, R120 to R124): the proof of O12. -/

namespace Sys2Proof.Machine

/-! ### Words cut to their low bits -/

/-- The low bits of a word as a number are the word under their mask (R8). -/
theorem low_masked (v : Word) {k : Nat} (h : k ≤ 64) : BitVec.ofNat 64 (bits v.toNat 0 k) = v &&& BitVec.ofNat 64 (2 ^ k - 1) := by
  have hk : 2 ^ k - 1 < 2 ^ 64 := lt_of_lt_of_le (Nat.sub_one_lt (Nat.two_pow_pos k).ne') (Nat.pow_le_pow_right (by decide) h)
  apply BitVec.eq_of_toNat_eq
  rw [BitVec.toNat_and, BitVec.toNat_ofNat, BitVec.toNat_ofNat, Nat.mod_eq_of_lt hk, Nat.and_two_pow_sub_one_eq_mod, bits,
    pow_zero, Nat.div_one, Nat.mod_eq_of_lt (lt_of_le_of_lt (Nat.mod_le _ _) v.isLt)]

/-- The low two bits of an instruction address are cleared (R120). -/
theorem clear_low2 (v : Word) : BitVec.ofNat 64 (v.toNat / 4 * 4) = v &&& ~~~3#64 := by
  have hshift : BitVec.ofNat 64 (v.toNat / 4 * 4) = v >>> 2 <<< 2 := by
    apply BitVec.eq_of_toNat_eq
    simp [Nat.shiftRight_eq_div_pow, Nat.shiftLeft_eq]
  rw [hshift, BitVec.shiftLeft_ushiftRight]
  rfl

/-! ### `vctl` (R120) -/

/-- The fields of a word put together from VL, MIDX with MEN, DTYPE, and RM with LEND. -/
theorem bits_vctl {vl m dt r : Nat} (hvl : vl < 2 ^ 7) (hm : m < 2 ^ 4) (hdt : dt < 2 ^ 3) (hr : r < 2 ^ 3) :
    let u := (BitVec.ofNat 64 (vl + m * 2 ^ 8 + dt * 2 ^ 12 + r * 2 ^ 16)).toNat
    bits u 0 7 = vl ∧ bits u 7 1 = 0 ∧ bits u 8 3 = bits m 0 3 ∧ bits u 11 1 = bits m 3 1 ∧ bits u 12 3 = dt ∧
      bits u 15 1 = 0 ∧ bits u 16 2 = bits r 0 2 ∧ bits u 18 1 = bits r 2 1 ∧ u < 2 ^ 19 := by
  rw [BitVec.toNat_ofNat, Nat.mod_eq_of_lt (by omega)]
  simp only [bits]
  and_intros <;> omega

/-- The upper and lower part of a field. -/
theorem bits_bits (n lo i : Nat) {len w : Nat} (h : i + w ≤ len) : bits (bits n lo len) i w = bits n (lo + i) w := by
  obtain ⟨r, rfl⟩ := Nat.exists_eq_add_of_le h
  rw [bits, bits, bits, pow_add 2 lo i, ← Nat.div_div_eq_div_mul, Nat.add_assoc, pow_add 2 i, Nat.mod_mul_right_div_self, pow_add,
    Nat.mod_mul_right_mod]

theorem bits_lt (n lo len : Nat) : bits n lo len < 2 ^ len := Nat.mod_lt _ (Nat.two_pow_pos len)

/-- `vctl` keeps VL up to the length of the registers, MIDX, MEN, RM and LEND, reads DTYPE 7 as 0, and holds nothing else. -/
theorem vctlField_fields (paired : Bool) (v : Word) :
    let n := v.toNat
    let u := (vctlField paired v).toNat
    bits u 0 7 = min (bits n 0 7) (if paired then 64 else 32) ∧ bits u 7 1 = 0 ∧ bits u 8 3 = bits n 8 3 ∧
      bits u 11 1 = bits n 11 1 ∧ bits u 12 3 = (if bits n 12 3 = 7 then 0 else bits n 12 3) ∧ bits u 15 1 = 0 ∧
      bits u 16 2 = bits n 16 2 ∧ bits u 18 1 = bits n 18 1 ∧ u < 2 ^ 19 := by
  intro n u
  have hvl : min (bits n 0 7) (if paired then 64 else 32) < 2 ^ 7 := lt_of_le_of_lt (Nat.min_le_left _ _) (bits_lt n 0 7)
  have hdt : (if bits n 12 3 = 7 then 0 else bits n 12 3) < 2 ^ 3 := by
    split
    · decide
    · exact bits_lt n 12 3
  have h := bits_vctl hvl (bits_lt n 8 4) hdt (bits_lt n 16 3)
  rwa [bits_bits n 8 0 (by decide), bits_bits n 8 3 (by decide), bits_bits n 16 0 (by decide), bits_bits n 16 2 (by decide)] at h

/-! ### `qmap` (R120) -/

/-- A byte of `qmap`: a local index above 7 is stored with EN = 0. -/
def qmapByte (m : Nat) : Nat := if m / 64 % 2 = 0 ∧ 8 ≤ m % 64 then m % 128 else m

theorem qmapByte_lt {m : Nat} (h : m < 2 ^ 8) : qmapByte m < 2 ^ 8 := by
  unfold qmapByte
  split <;> omega

/-- A byte of `qmap` by the fields of the word written. -/
theorem qmapByte_fields (n lo : Nat) : qmapByte (bits n lo 8) =
    if bits n (lo + 6) 1 = 0 ∧ 8 ≤ bits n lo 6 then bits n lo 7 else bits n lo 8 := by
  rw [← bits_bits n lo 6 (len := 8) (by decide), ← Nat.add_zero lo, ← bits_bits n lo 0 (len := 8) (w := 6) (by decide),
    ← bits_bits n lo 0 (len := 8) (w := 7) (by decide)]
  simp [qmapByte, bits]

/-- Four bytes in a word. -/
theorem bits_bytes {b0 b1 b2 b3 : Nat} (h0 : b0 < 2 ^ 8) (h1 : b1 < 2 ^ 8) (h2 : b2 < 2 ^ 8) (h3 : b3 < 2 ^ 8) :
    let u := (BitVec.ofNat 64 (b0 * 2 ^ (8 * 0) + b1 * 2 ^ (8 * 1) + b2 * 2 ^ (8 * 2) + b3 * 2 ^ (8 * 3))).toNat
    bits u 0 8 = b0 ∧ bits u 8 8 = b1 ∧ bits u 16 8 = b2 ∧ bits u 24 8 = b3 ∧ u < 2 ^ 32 := by
  rw [BitVec.toNat_ofNat, Nat.mod_eq_of_lt (by omega)]
  simp only [bits]
  and_intros <;> omega

theorem qmapField_bytes (v : Word) :
    (∀ i < 4, bits (qmapField v).toNat (8 * i) 8 = qmapByte (bits v.toNat (8 * i) 8)) ∧ (qmapField v).toNat < 2 ^ 32 := by
  have hb (i : Nat) : qmapByte (bits v.toNat (8 * i) 8) < 2 ^ 8 := qmapByte_lt (bits_lt _ _ _)
  obtain ⟨h0, h1, h2, h3, hlt⟩ := bits_bytes (hb 0) (hb 1) (hb 2) (hb 3)
  refine ⟨fun i hi => ?_, hlt⟩
  match i, hi with
  | 0, _ => exact h0
  | 1, _ => exact h1
  | 2, _ => exact h2
  | 3, _ => exact h3

/-! ### Reading (R120 to R124) -/

section
variable {s : State} {c : Nat} {k : SlotN} {t : Thread} (hs : s.slot c k = .thread t)
include hs

/-- A user CSR reads as the thread holds it, VBUSY included. -/
theorem readCsr_user {n : Nat} (h : 0x800 ≤ n) (h' : n < 0xC00) : s.readCsr c k n = t.userCsr n := by
  have h1 : n ≠ 0xC00 := by omega
  have h2 : n ≠ 0xC02 := by omega
  have h3 : ¬0xCC0 ≤ n := by omega
  simp only [State.readCsr, State.thr_of_slot hs, h1, h2, h3, h, if_true, if_false]

/-- A read-only CSR but the two counters. -/
theorem readCsr_ro {n : Nat} (h : 0xCC0 ≤ n) : s.readCsr c k n = s.roCsr c k t n := by
  have h1 : n ≠ 0xC00 := by omega
  have h2 : n ≠ 0xC02 := by omega
  simp only [State.readCsr, State.thr_of_slot hs, h1, h2, h, if_true, if_false]

end

/-- `cycle` (R123). -/
theorem readCsr_cycle (s : State) (c : Nat) (k : SlotN) : s.readCsr c k 0xC00 = BitVec.ofNat 64 (s.core c).cycle := rfl

/-- `instret` (R123). -/
theorem readCsr_instret {s : State} {c : Nat} {k : SlotN} {t : Thread} (hs : s.slot c k = .thread t) :
    s.readCsr c k 0xC02 = BitVec.ofNat 64 (t.instret - t.counted.toNat) := by
  rw [← State.thr_of_slot hs]
  rfl

/-- A supervisor CSR. -/
theorem readCsr_sup (s : State) (c : Nat) (k : SlotN) {n : Nat} (h : n < 0x800) : s.readCsr c k n = s.supCsr c n := by
  have h1 : n ≠ 0xC00 := by omega
  have h2 : n ≠ 0xC02 := by omega
  have h3 : ¬0xCC0 ≤ n := by omega
  have h4 : ¬0x800 ≤ n := by omega
  simp only [State.readCsr, h1, h2, h3, h4, if_false]

/-- The low byte of CSR 0x5C2 is the set of removed slots, below the number of swapped threads (R124). -/
theorem supCsr_removed (s : State) (c : Nat) : (s.supCsr c 0x5C2).toNat % 2 ^ 8 = (s.core c).removed.toNat := by
  have h := (s.core c).removed.isLt
  simp only [State.supCsr, BitVec.toNat_ofNat]
  omega

theorem lockstat_unlocked {s : State} {c : Nat} (h : (s.core c).c.lock = none) : s.lockstat c = 0 := by
  simp only [State.lockstat, h]

/-- Settles O12: each field of a write by its place in the word stored, each CSR by the part of the state it reads. -/
theorem csrFieldsAndReads : Obligations.CsrFieldsAndReads := by
  unfold Obligations.CsrFieldsAndReads
  refine ⟨?fields, ?reads⟩
  case fields =>
    intro u paired v n vctl f
    obtain ⟨hvl, h7, hmidx, hmen, hdt, h15, hrm, hlend, hlt⟩ := vctlField_fields paired v
    obtain ⟨hbytes, hqlt⟩ := qmapField_bytes v
    exact ⟨hvl, h7, hmidx, hmen, hdt, h15, hrm, hlend, hlt, low_masked v (by decide),
      fun i hi => (hbytes i hi).trans (qmapByte_fields v.toNat (8 * i)), hqlt, low_masked v (by decide), low_masked v (by decide),
      rfl, rfl, low_masked v (by decide), clear_low2 v, low_masked v (by decide)⟩
  case reads =>
    intro s c k t hs r
    have user {n : Nat} (h : 0x800 ≤ n ∧ n < 0xC00) : r n = t.userCsr n := readCsr_user hs h.1 h.2
    have ro {n : Nat} (h : 0xCC0 ≤ n) : r n = s.roCsr c k t n := readCsr_ro hs h
    have sup {n : Nat} (h : n < 0x800) : r n = s.supCsr c n := readCsr_sup s c k h
    have hvstat : t.userCsr 0x801 = if t.vq = [] then t.a.csr.vstat else t.a.csr.vstat ||| 0x100 := by
      simp only [Thread.userCsr, List.isEmpty_iff]
    exact ⟨user (by decide), (user (by decide)).trans hvstat, user (by decide), user (by decide), user (by decide),
      user (by decide), user (by decide), user (by decide), user (by decide), user (by decide), readCsr_cycle s c k,
      readCsr_instret hs, ro (by decide), ro (by decide), ro (by decide), ro (by decide), ro (by decide), sup (by decide),
      sup (by decide), (congrArg (·.toNat % 2 ^ 8) (sup (by decide))).trans (supCsr_removed s c),
      fun hl => (sup (by decide)).trans (lockstat_unlocked hl)⟩

end Sys2Proof.Machine
end

section
/-! The proof of O49: CSR writes, replies, timing errors, expired waits and deferred traps as steps (R49, R80, R120, R121, R137,
R263, R264, R368, R372, R415). -/

namespace Sys2Proof.Machine

theorem State.core_modDie (s : State) (d : Nat) (f : Die → Die) (c : Nat) : (s.modDie d f).core c = s.core c := rfl

theorem State.die_modDie (s : State) (d : Nat) (f : Die → Die) : (s.modDie d f).die d = f (s.die d) := Table.getD_set_same ..

/-- Writing `supctl` with DLDET set before changes the CSR alone (R264). -/
theorem writeSupctl_on {s : State} {c : Nat} (h : (s.core c).supBit 0 = true) (v : Word) :
    writeSupctl s c v = s.modCtx c fun x => { x with supctl := v &&& 0xFFFFFFFF000000FF#64 } := by
  have hold : ¬((s.core c).supBit 0 = false ∧ v.getLsbD 0 = true) := by simp [h]
  exact (writeSupctl_eq s c v).trans (if_neg hold)

/-- Setting DLDET makes a pass of the detector of the die due (R264). -/
theorem writeSupctl_starts {s : State} {c : Nat} {v : Word} (h : (s.core c).supBit 0 = false) (hv : v.getLsbD 0 = true) :
    ((writeSupctl s c v).core c).c.supctl = v &&& 0xFFFFFFFF000000FF#64 ∧
      ((writeSupctl s c v).die (dieOf c)).passDue = true := by
  have hw : writeSupctl s c v = (s.modCtx c fun x => { x with supctl := v &&& 0xFFFFFFFF000000FF#64 }).modDie (dieOf c)
      fun d => { d with passDue := true } := (writeSupctl_eq s c v).trans (if_pos ⟨h, hv⟩)
  rw [hw, State.core_modDie, State.core_modCtx, State.die_modDie]
  exact ⟨rfl, rfl⟩

section
variable {s : State} {k : SlotN} {t : Thread} (hk : s.subject.slot = k) (hs : s.slot s.subject.core k = .thread t)
include hk hs

/-- A step for the thread in the subject's slot does what it does to this thread. -/
theorem onThread_at (f : Nat → SlotN → Thread → State) : onThread s f = .next (f s.subject.core k t) := by
  have hhome : s.home s.subject.core s.subject.slot = k := by rw [hk, State.home, hs]
  simp only [onThread, hhome, hs, Slot.thread?]

/-! ### CSR writes (R120, R121, R137, R264, R415) -/

theorem csrWrite_user (h : s.subject.num ∈ [0x800, 0x802, 0x803, 0x804, 0x805, 0x806, 0x809]) : exec .csrWrite s =
    .next (s.setThr s.subject.core k { t with a := { t.a with
      csr := t.a.csr.write t.paired s.subject.num s.subject.val } }) := by
  have hplain : ∀ n ∈ [0x800, 0x802, 0x803, 0x804, 0x805, 0x806, 0x809],
      n ≠ 0x5C0 ∧ n ∉ [0x801, 0x807, 0x808, 0x5C1] := by decide
  obtain ⟨hbase, hspecial⟩ := hplain _ h
  delta exec
  simp only [execCsrWrite, onThread_at hk hs, if_neg hspecial, writePlain_user hs hbase]

theorem csrWrite_trqbase (h : s.subject.num = 0x5C0) : exec .csrWrite s =
    .next (s.modCtx s.subject.core fun x => { x with trqbase := s.subject.val &&& ~~~1023#64 }) := by
  have hp : (0x5C0 : Nat) ∉ [0x801, 0x807, 0x808, 0x5C1] := by decide
  delta exec
  simp only [execCsrWrite, onThread_at hk hs, h, if_neg hp, writePlain, if_true, clear_low10]

/-- With no strip pending a write of `vstat` stores its flags. -/
theorem vstatCsrWrite_idle (h : t.vq = []) : exec .vstatCsrWrite s =
    .next (s.setThr s.subject.core k { t with a := { t.a with
      csr := { t.a.csr with vstat := s.subject.val &&& 31 } } }) := by
  have hn : (0x801 : Nat) ≠ 0x5C0 := by decide
  have hw (u : UserCsrs) (v : Word) : u.write t.paired 0x801 v = { u with vstat := v &&& 31 } :=
    congrArg (fun w => { u with vstat := w }) (low_masked v (by decide))
  delta exec
  simp only [execVstatCsrWrite, onThread_at hk hs, writeVstat_idle hs h, Got.state, writePlain_user hs hn, hw]

/-- With strips pending it waits for them. -/
theorem vstatCsrWrite_busy (h : t.vq ≠ []) :
    exec .vstatCsrWrite s = .next (s.park s.subject.core k (.cond .strips)) := by
  delta exec
  simp only [execVstatCsrWrite, onThread_at hk hs, writeVstat, State.thr_of_slot hs, h, decide_false, waitFor,
    Bool.false_eq_true, if_false, Got.bind_stop, Got.state]

/-- A write of `repcnt` with COUNT 0 starts no repeat: the end stays as it is, and none is left to be computed. -/
theorem repeatCsrWrite_empty (hn : s.subject.num = 0x807) (h : s.subject.val.toNat % 2 ^ 32 = 0) : exec .repeatCsrWrite s =
    .next (s.setThr s.subject.core k { t with a := { t.a with
      endPend := false, csr := { t.a.csr with repcnt := s.subject.val &&& 0xFFFFFFFFFFFF#64 } } }) := by
  have hw (v : Word) : t.a.csr.write false 0x807 v = { t.a.csr with repcnt := v &&& 0xFFFFFFFFFFFF#64 } :=
    congrArg (fun w => { t.a.csr with repcnt := w }) (low_masked v (k := 48) (by decide))
  have hcount : (t.a.csr.write false 0x807 s.subject.val).count = 0 := by
    simp only [UserCsrs.write, UserCsrs.count, bits, BitVec.toNat_ofNat]
    omega
  delta exec
  simp only [execRepeatCsrWrite, onThread_at hk hs, hn, writeRepeat, State.thr_of_slot hs, repeatFor_zero hs hcount, Got.bind_ok,
    Got.state, State.modThr, Thread.setRepeat, hw]

theorem dldetCsrWrite_writes : exec .dldetCsrWrite s = .next (writeSupctl s s.subject.core s.subject.val) :=
  onThread_at hk hs fun c _ _ => writeSupctl s c s.subject.val

/-! ### Replies (R49) -/

/-- A reply that is due completes the waiting instruction. -/
theorem replyArrival_due {due : Nat} {x : Bool} {fin : Completion} (hp : t.st = .parked) (hw : t.wait = .reply due x fin)
    (h : due ≤ (s.core s.subject.core).cycle) :
    exec .replyArrival s = .next ((complete s s.subject.core k fin).resumed s.subject.core k) := by
  have hh : s.replyHere s.subject.core k = true := by simp only [State.replyHere, hs, Slot.thread?, hp, hw, h, decide_true]
  have ha : s.answer s.subject.core k = complete s s.subject.core k fin := by
    simp only [State.answer, State.thr_of_slot hs, hw]
  delta exec
  simp only [execReplyArrival, hk, hh, if_true, ha]

/-- No reply reaches a thread that is not parked. -/
theorem replyArrival_unparked (h : t.st ≠ .parked) : exec .replyArrival s = .next s := by
  have hh : s.replyHere s.subject.core k = false := by
    simp only [State.replyHere, hs, Slot.thread?]
    cases hst : t.st
    case parked => exact absurd hst h
    all_goals rfl
  delta exec
  simp only [execReplyArrival, hk, hh, Bool.false_eq_true, if_false]

/-! ### Bounded waits (R124, R263, R368) -/

theorem waitLimitExpiry_over {v v2 : Word} (h : s.expired s.subject.core k = true)
    (hv : s.limitVals s.subject.core k t = some (v, v2)) :
    exec .waitLimitExpiry s = .next (s.trapBetween s.subject.core k { cause := 24, val := v, val2 := v2 }) := by
  delta exec
  simp only [execWaitLimitExpiry, hk, h, State.thr_of_slot hs, hv]

omit hs in
theorem waitLimitExpiry_early (h : s.expired s.subject.core k = false) : exec .waitLimitExpiry s = .next s := by
  delta exec
  simp only [execWaitLimitExpiry, hk, h]

theorem barrierTimeout_over {v v2 : Word} (h : s.bartoOver s.subject.core t = true)
    (hv : s.barrierVals s.subject.core t = some (v, v2)) :
    exec .barrierTimeout s = .next (s.trapBetween s.subject.core k { cause := 26, val := v, val2 := v2 }) := by
  delta exec
  simp only [execBarrierTimeout, hk, hs, Slot.thread?, h, hv]

theorem barrierTimeout_early (h : s.bartoOver s.subject.core t = false) : exec .barrierTimeout s = .next s := by
  delta exec
  simp only [execBarrierTimeout, hk, hs, Slot.thread?, h]

theorem gangTimeout_early (h : s.bartoOver s.subject.core t = false) : exec .gangTimeout s = .next s := by
  delta exec
  simp only [execGangTimeout, hk, hs, Slot.thread?, h, Bool.false_eq_true, false_and, if_false]
  split <;> rfl

theorem gangTimeout_over {g id : Nat} {rd : XReg} (h : s.bartoOver s.subject.core t = true)
    (hg : s.gangWaits s.subject.core t = true) (hw : t.wait = .gang g id rd) : exec .gangTimeout s =
      .next (s.trapBetween s.subject.core k { cause := 26, val := BitVec.ofNat 64 id, val2 := BitVec.ofNat 64 g }) := by
  delta exec
  simp only [execGangTimeout, hk, hs, Slot.thread?, hw, h, hg, and_self, if_true]

/-! ### Deferred traps (R372) -/

theorem deferredTrap_ready (h : t.deferReady = true) : exec .deferredTrap s = .next (s.takeDeferred s.subject.core k) := by
  delta exec
  simp only [execDeferredTrap, hk, hs, Slot.thread?, h, if_true]

theorem deferredTrap_waits (h : t.deferReady = false) : exec .deferredTrap s = .next s := by
  delta exec
  simp only [execDeferredTrap, hk, hs, Slot.thread?, h, Bool.false_eq_true, if_false]

end

/-! ### Timing errors (R80) -/

section
variable {s : State} {k : SlotN}

/-- A timing error before the pops of the instruction that would issue spends the turn, and is put on record. -/
theorem timingErrorReplay_turn (h : s.canIssue s.subject.core = some k) (hf : s.subject.flag = false) : exec .timingErrorReplay s =
    .next (s.modCore s.subject.core fun x => { (x.countEv 1).struck with turnDone := true, issued := x.issued + 1 }) := by
  delta exec
  simp only [execTimingErrorReplay, h, hf, Bool.false_eq_true, if_false]

/-- One after the pops strikes what the turn issues (R417). -/
theorem timingErrorReplay_pops (h : s.canIssue s.subject.core = some k) (hf : s.subject.flag = true) : exec .timingErrorReplay s =
    .next (s.modCore s.subject.core fun x => { x with strikes := true }) := by
  delta exec
  simp only [execTimingErrorReplay, h, hf, if_true]

theorem timingErrorReplay_idle (h : s.canIssue s.subject.core = none) : exec .timingErrorReplay s = .next s := by
  delta exec
  simp only [execTimingErrorReplay, h]

theorem replayRateReport_few (h : (s.core s.subject.core).recentReplays.length ≤ 4) : exec .replayRateReport s = .next s := by
  delta exec
  simp only [execReplayRateReport, h, if_true]

/-- More than 4 replays raise the voltage of the core's row by a step, and the count starts again. -/
theorem replayRateReport_many (h : 4 < (s.core s.subject.core).recentReplays.length) :
    let c := s.subject.core
    exec .replayRateReport s = .next { s.modCore c fun x => { x with replays := [] } with
      mgmt := s.mgmt.setVolts (dieOf c) (rowOf c) (s.mgmt.volts (dieOf c) (rowOf c) + 1) } := by
  delta exec
  simp only [execReplayRateReport, Nat.not_le.mpr h, if_false]

end

/-- Settles O49: each of the steps by what its unit does when it is due, and by its leaving the state alone when it is not. -/
theorem threadSteps : Obligations.ThreadSteps := by
  unfold Obligations.ThreadSteps
  refine ⟨?thread, ?timing⟩
  case thread =>
    intro s k t hk hs
    have hdldet := dldetCsrWrite_writes hk hs
    exact ⟨csrWrite_user hk hs, csrWrite_trqbase hk hs, vstatCsrWrite_idle hk hs, vstatCsrWrite_busy hk hs,
      repeatCsrWrite_empty hk hs, fun h => hdldet.trans (congrArg _ (writeSupctl_on h _)),
      fun h hv => ⟨_, hdldet, writeSupctl_starts h hv⟩, fun _ _ _ => replyArrival_due hk hs, replyArrival_unparked hk hs,
      fun _ _ => waitLimitExpiry_over hk hs, waitLimitExpiry_early hk, fun _ _ => barrierTimeout_over hk hs,
      fun h => ⟨barrierTimeout_early hk hs h, gangTimeout_early hk hs h⟩, fun _ _ _ => gangTimeout_over hk hs,
      deferredTrap_ready hk hs, deferredTrap_waits hk hs⟩
  case timing =>
    intro s c m x
    refine ⟨fun k h => ⟨fun hf => ⟨_, timingErrorReplay_turn h hf, ?_⟩, timingErrorReplay_pops h⟩, timingErrorReplay_idle,
      replayRateReport_few, replayRateReport_many⟩
    rw [State.core_modCore]
    exact ⟨rfl, rfl, rfl, rfl⟩

end Sys2Proof.Machine
end

section
/-! Completing an instruction, and the state after module reset (R122 to R124, R129, R143, R187, R326): the proofs of O15 and O59. -/

namespace Sys2Proof.Machine

/-! ### COUNT and LEN of `repcnt` (R120, R143) -/

theorem count_lt (u : UserCsrs) : u.count < 2 ^ 32 := Nat.mod_lt _ (by decide)

theorem repcnt_setCount (u : UserCsrs) (n : Nat) : (u.setCount n).repcnt.toNat = u.replen * 2 ^ 32 + n % 2 ^ 32 := by
  have hlen : u.replen < 2 ^ 16 := Nat.mod_lt _ (by decide)
  rw [UserCsrs.setCount, BitVec.toNat_ofNat, Nat.mod_eq_of_lt (by omega)]

theorem count_setCount (u : UserCsrs) {n : Nat} (h : n < 2 ^ 32) : (u.setCount n).count = n := by
  rw [UserCsrs.count, repcnt_setCount, bits]
  omega

/-- The end of a pass takes one from COUNT. -/
theorem count_pass (u : UserCsrs) : (u.setCount (u.count - 1)).count = u.count - 1 :=
  count_setCount u (lt_of_le_of_lt (Nat.sub_le _ _) (count_lt u))

theorem replen_setCount (u : UserCsrs) (n : Nat) : (u.setCount n).replen = u.replen := by
  have hlen : u.replen < 2 ^ 16 := Nat.mod_lt _ (by decide)
  rw [UserCsrs.replen, repcnt_setCount, bits]
  omega

theorem repbody_setCount (u : UserCsrs) (n : Nat) : (u.setCount n).repbody = u.repbody := by rw [UserCsrs.setCount]

theorem vctl_setCount (u : UserCsrs) (n : Nat) : (u.setCount n).vctl = u.vctl := by rw [UserCsrs.setCount]

/-! ### The pc after an instruction (R143) -/

/-- Outside a repeat, or short of its end, the pc moves past the instruction. -/
theorem advance_past (a : Arch) {len : Nat} (h : a.csr.count = 0 ∨ a.pc + BitVec.ofNat 64 len ≠ a.repEnd) :
    a.advance none len = { a with pc := a.pc + BitVec.ofNat 64 len } := by
  have h' : ¬(a.csr.count ≠ 0 ∧ a.pc + BitVec.ofNat 64 len = a.repEnd) := by tauto
  simp only [Arch.advance, if_neg h']

/-- At the end of a repeat's body the pass ends: the pc goes back for the next pass, or on after the last one. -/
theorem advance_pass (a : Arch) {len : Nat} (hn : a.csr.count ≠ 0) (h : a.pc + BitVec.ofNat 64 len = a.repEnd) :
    a.advance none len = { a with
      csr := a.csr.setCount (a.csr.count - 1)
      pc := if a.csr.count = 1 then a.pc + BitVec.ofNat 64 len else a.csr.repbody } := by
  have h1 : a.csr.count - 1 ≠ 0 ↔ ¬a.csr.count = 1 := by omega
  simp only [Arch.advance, if_pos (And.intro hn h), h1, ite_not]

/-- Whichever of them, only pc and the user CSRs of the registers change. -/
theorem advance_none_frame (a : Arch) (len : Nat) :
    let b := a.advance none len
    b.x = a.x ∧ b.pw = a.pw ∧ b.v = a.v ∧ b.vOdd = a.vOdd ∧ b.k = a.k := by
  simp only [Arch.advance]
  split <;> exact ⟨rfl, rfl, rfl, rfl, rfl⟩

/-- Settles O15: a completion advances the pc, at the end of a repeat's body by ending the pass. -/
theorem completionAdvances : Obligations.CompletionAdvances := by
  unfold Obligations.CompletionAdvances
  intro t len
  have ha : (t.finish none len).a = t.a.advance none len := rfl
  obtain ⟨hx, hpw, hv, hvOdd, hk⟩ := advance_none_frame t.a len
  simp only [ha]
  refine ⟨rfl, rfl, hx, hpw, hv, hvOdd, hk, rfl, rfl, rfl, fun h => ?past, fun hn h => ?pass⟩
  case past =>
    rw [advance_past t.a h]
    exact ⟨rfl, rfl⟩
  case pass =>
    rw [advance_pass t.a hn h]
    exact ⟨count_pass _, replen_setCount _ _, repbody_setCount _ _, vctl_setCount _ _, rfl⟩

/-! ### Reset (R124, R129) -/

theorem Arch.p_reset (r : PReg) : Arch.reset.p r = decide (r = 0) := by
  have hpw : Arch.reset.pw.getLsbD r = decide (r = 0) := (BitVec.getLsbD_one ..).trans (by simp)
  simp only [Arch.p, hpw, beq_eq_decide, Bool.or_self]

theorem slots_reset (k : SlotN) : Core.reset.c.slots[k] = .empty := Vector.getElem_replicate ..

/-- Settles O59: every part of the reset state by its definition. -/
theorem resetState : Obligations.ResetState := by
  unfold Obligations.ResetState
  refine ⟨Arch.xr_reset, Arch.p_reset, fun n => ⟨?v, ?vOdd⟩, ?k, rfl, rfl, rfl, rfl, rfl, rfl, ?core, fun _ => rfl, ?mode,
    ?budgets, rfl, reset_mem_wf, rfl⟩
  case v | vOdd => exact Vector.getElem_replicate ..
  case k => exact fun n => Vector.getElem_replicate ..
  case core => exact fun c k => ⟨slots_reset k, rfl, rfl, rfl, rfl, rfl⟩
  case mode => exact ⟨rfl, rfl, rfl, rfl, rfl, rfl, rfl, rfl⟩
  case budgets =>
    intro i
    have h : State.reset.mgmt.budgets[i] = ⟨0, 0, 0, 0, 0, 0, 0⟩ := Vector.getElem_replicate ..
    rw [h]
    exact ⟨rfl, rfl⟩

end Sys2Proof.Machine
end

section
/-! How a ready instruction ends: one that issues and names no mapped register (R57, R117, R119). -/

namespace Sys2Proof.Machine

section
variable {s s' : State} {c : Nat} {k : SlotN} {t u : Thread} {f : Form} {rd : XReg}

/-! ### What is ready -/

theorem State.Ready.here (h : s.Ready c k t f) : s.At c k t :=
  let ⟨hat, _⟩ := h
  hat

theorem State.Ready.slot (h : s.Ready c k t f) : s.slot c k = .thread t :=
  let ⟨_, _, hs⟩ := h.here
  hs

theorem State.Ready.thr (h : s.Ready c k t f) : s.thr c k = t := State.thr_of_slot h.slot

theorem State.Ready.unmapped (h : s.Ready c k t f) {r : XReg} (hr : r ∈ f.dst) : t.a.mapped r = false :=
  let ⟨_, _, _, _, hm, _⟩ := h
  hm r (List.mem_append_right _ hr)

/-- A source of a ready instruction reads its register. -/
theorem State.Ready.xv (h : s.Ready c k t f) {r : XReg} (hr : r ∈ f.src) : t.xv r = t.a.xr r :=
  let ⟨_, _, _, _, hm, _⟩ := h
  Thread.xv_of (hm r (List.mem_append_left _ hr))

theorem State.Ready.strikesNow (h : s.Ready c k t f) : s.strikesNow c k = false :=
  let ⟨_, _, _, _, _, hn⟩ := h
  hn

/-- An instruction that names some of the registers of a ready one is ready. -/
theorem State.Ready.of_subset (h : s.Ready c k t f) {src dst : List XReg} (hs : src ⊆ f.src) (hd : dst ⊆ f.dst) :
    s.Ready c k t { f with src := src, dst := dst } :=
  let ⟨hat, hw, hg, hc, hm, hn⟩ := h
  ⟨hat, hw, hg, hc, fun r hr => hm r (List.mem_append.2 ((List.mem_append.1 hr).imp (@hs r) (@hd r))), hn⟩

/-- The search for the end of a repeat's body leaves the threads (R47). -/
theorem slot_bodyEnd {n a e : Nat} (he : s.bodyEnd c n a = (s', .ok e)) (k : SlotN) : s'.slot c k = s.slot c k := by
  have hk := (cachesOnly_bodyEnd s c n a).slot c k
  rwa [he] at hk

/-! ### How it ends -/

/-- A ready instruction performs its body. -/
theorem State.Ready.runs (h : s.Ready c k t f) (body : Body) (len : Nat := 4) :
    run f body s len = .next (s.afterBody c k len (body s c k)) := by
  rw [run_ready h]
  cases body s c k <;> rfl

/-- A body that stops leaves its state. -/
theorem State.Ready.stops (h : s.Ready c k t f) {body : Body} (hb : body s c k = .stop s') (len : Nat := 4) :
    run f body s len = .next s' := by
  rw [h.runs body len, hb]
  rfl

/-- A completion that writes an unmapped register, and then does what follows (R119). -/
theorem afterBody_x (hs : s'.slot c k = .thread u) (hm : u.a.mapped rd = false) {ws : List RegWrite} {next : Option Word}
    {after : Thread → Thread} (he : EndsWith ws next after) (s : State) (v : Word) :
    s.afterBody c k 4 (.ok s' { ws := .x rd v :: ws, next := next }) = s'.setThr c k (after ((u.wx rd v).finish next 4)) := by
  obtain ⟨hfin, hafter⟩ := he
  have hm' : (s'.thr c k).a.mapped rd = false := by rw [State.thr_of_slot hs, hm]
  show s.orAgain c k (finishWs s' c k next 4 (.x rd v :: ws)) = _
  rw [finishWs_x hm', hfin, State.modThr_modThr, State.modThr, State.thr_of_slot hs]
  exact orAgain_of (by simp [hafter, Thread.finish])

/-- A ready instruction whose body delivers a value to a register and does nothing else to the thread. -/
theorem State.Ready.delivers (h : s.Ready c k t f) (hd : rd ∈ f.dst) (hs : s'.slot c k = .thread t) {ws : List RegWrite}
    {next : Option Word} {after : Thread → Thread} (he : EndsWith ws next after) (v : Word) :
    s.afterBody c k 4 (.ok s' { ws := .x rd v :: ws, next := next }) = s'.setThr c k (after ((t.wx rd v).finish next 4)) :=
  afterBody_x hs (h.unmapped hd) he s v

end

end Sys2Proof.Machine
end

section
/-! Base arithmetic, divisions and transfers by their results (R130, R133, R134): the proofs of O1, O3 and O4. -/

namespace Sys2Proof.Machine

section
variable {s : State} {c : Nat} {k : SlotN} {t : Thread} {rd rs1 rs2 : XReg}

/-! ### Instructions that compute a register (R130, R133) -/

theorem State.Ready.alu {src : List XReg} (h : s.Ready c k t { src := src, dst := [rd] }) (g : Thread → Word) :
    alu rd src g s = .next (s.done c k (t.wx rd (g t))) := run_x h (by simp) g 4

/-- The register-register instructions compute their results from the values of rs1 and rs2. -/
theorem aluRR_of_regResults (a b : Word) : ∀ p ∈ regResults rd rs1 rs2 a b,
    ∃ g, (∀ s, exec p.1 s = aluRR rd rs1 rs2 g s) ∧ p.2 = g a b := by
  simp only [regResults, List.forall_mem_cons, List.not_mem_nil, false_imp_iff, implies_true, and_true, ← ofBool_slt,
    ← ofBool_ult, ← mul_eq_ofNat, ← mulHigh_ofInt, ← mulHigh_unsigned, ← setWidth_eq_ofInt, ← low5]
  exact ⟨⟨(· + ·), fun _ => rfl, rfl⟩, ⟨(· - ·), fun _ => rfl, rfl⟩, ⟨fun a b => a <<< (b.toNat % 64), fun _ => rfl, rfl⟩,
    ⟨fun a b => ofBool (a.slt b), fun _ => rfl, rfl⟩, ⟨fun a b => ofBool (a.ult b), fun _ => rfl, rfl⟩,
    ⟨(· ^^^ ·), fun _ => rfl, rfl⟩, ⟨fun a b => a >>> (b.toNat % 64), fun _ => rfl, rfl⟩,
    ⟨fun a b => a.sshiftRight (b.toNat % 64), fun _ => rfl, rfl⟩, ⟨(· ||| ·), fun _ => rfl, rfl⟩,
    ⟨(· &&& ·), fun _ => rfl, rfl⟩,
    ⟨onW (· + ·), fun _ => rfl, rfl⟩, ⟨onW (· - ·), fun _ => rfl, rfl⟩,
    ⟨onW fun x y => x <<< (y.toNat % 32), fun _ => rfl, rfl⟩, ⟨onW fun x y => x >>> (y.toNat % 32), fun _ => rfl, rfl⟩,
    ⟨onW fun x y => x.sshiftRight (y.toNat % 32), fun _ => rfl, rfl⟩, ⟨(· * ·), fun _ => rfl, rfl⟩,
    ⟨fun a b => mulHigh (a.signExtend 128) (b.signExtend 128), fun _ => rfl, rfl⟩,
    ⟨fun a b => mulHigh (a.signExtend 128) (b.setWidth 128), fun _ => rfl, rfl⟩,
    ⟨fun a b => mulHigh (a.setWidth 128) (b.setWidth 128), fun _ => rfl, rfl⟩, ⟨onW (· * ·), fun _ => rfl, rfl⟩⟩

/-- The register-immediate instructions compute their results from the value of rs1. -/
theorem alu_of_immResults (a : Word) (imm : BitVec 12) (sh : Fin 64) (sh5 : Fin 32) :
    ∀ p ∈ immResults rd rs1 a imm sh sh5,
    ∃ g : Word → Word, (∀ s, exec p.1 s = alu rd [rs1] (fun t => g (t.xv rs1)) s) ∧ p.2 = g a := by
  simp only [immResults, List.forall_mem_cons, List.not_mem_nil, false_imp_iff, implies_true, and_true, ← ofBool_slt, ← ofBool_ult]
  exact ⟨⟨(· + imm.signExtend 64), fun _ => rfl, rfl⟩, ⟨fun a => ofBool (a.slt (imm.signExtend 64)), fun _ => rfl, rfl⟩,
    ⟨fun a => ofBool (a.ult (imm.signExtend 64)), fun _ => rfl, rfl⟩, ⟨(· ^^^ imm.signExtend 64), fun _ => rfl, rfl⟩,
    ⟨(· ||| imm.signExtend 64), fun _ => rfl, rfl⟩, ⟨(· &&& imm.signExtend 64), fun _ => rfl, rfl⟩,
    ⟨fun a => onW (· + ·) a (imm.signExtend 64), fun _ => rfl, rfl⟩, ⟨(· <<< sh.val), fun _ => rfl, rfl⟩,
    ⟨(· >>> sh.val), fun _ => rfl, rfl⟩, ⟨fun a => a.sshiftRight sh.val, fun _ => rfl, rfl⟩,
    ⟨fun a => ((a.setWidth 32 : Word32) <<< sh5.val).signExtend 64, fun _ => rfl, rfl⟩,
    ⟨fun a => ((a.setWidth 32 : Word32) >>> sh5.val).signExtend 64, fun _ => rfl, rfl⟩,
    ⟨fun a => ((a.setWidth 32 : Word32).sshiftRight sh5.val).signExtend 64, fun _ => rfl, rfl⟩⟩

/-- LUI and AUIPC compute their results from the pc. -/
theorem alu_of_upperResults (pc : Word) (imm : BitVec 20) : ∀ p ∈ upperResults rd pc imm,
    ∃ g : Word → Word, (∀ s, exec p.1 s = alu rd [] (fun t => g t.a.pc) s) ∧ p.2 = g pc := by
  simp only [upperResults, List.forall_mem_cons, List.not_mem_nil, false_imp_iff, implies_true, and_true]
  exact ⟨⟨fun _ => (imm ++ 0#12).signExtend 64, fun _ => rfl, rfl⟩, ⟨(· + (imm ++ 0#12).signExtend 64), fun _ => rfl, rfl⟩⟩

end

/-- Settles O1: each instruction writes what it computes from its operands. -/
theorem baseArithmetic : Obligations.BaseArithmetic := by
  unfold Obligations.BaseArithmetic
  refine ⟨fun s c k t rd rs1 rs2 h p hp => ?reg, fun s c k t rd rs1 imm sh sh5 h p hp => ?imm, fun s c k t rd imm h p hp => ?upper⟩
  case reg =>
    obtain ⟨g, hexec, hres⟩ := aluRR_of_regResults _ _ p hp
    rw [hexec, aluRR, h.alu, h.xv (by simp), h.xv (by simp), hres]
  case imm =>
    obtain ⟨g, hexec, hres⟩ := alu_of_immResults _ imm sh sh5 p hp
    rw [hexec, h.alu, h.xv (by simp), hres]
  case upper =>
    obtain ⟨g, hexec, hres⟩ := alu_of_upperResults _ imm p hp
    rw [hexec, h.alu, hres]

section
variable {s : State} {c : Nat} {k : SlotN} {t : Thread} {rd rs1 rs2 : XReg}

/-! ### Divisions (R133) -/

/-- The divisions take the quotients and remainders of RISC-V to the divider. -/
theorem divide_of_divResults (a b : Word) : ∀ p ∈ divResults rd rs1 rs2 a b,
    ∃ g, (∀ s, exec p.1 s = divide rd rs1 rs2 p.2.1 g s) ∧ p.2.2 = g a b := by
  have ext (p : Prop) [Decidable p] (x y : Word32) : (if p then x else y).signExtend 64 =
      if p then x.signExtend 64 else y.signExtend 64 := apply_ite _ _ _ _
  -- a W form chooses its result first and then extends it
  simp only [divResults, List.forall_mem_cons, List.not_mem_nil, false_imp_iff, implies_true, and_true, ← signExtend_neg_one,
    ← ext]
  simp only [signExtend_neg_one, ← sdivF_eq, ← udivF_eq, ← sremF_eq, ← uremF_eq]
  exact ⟨⟨sdivF, fun _ => rfl, rfl⟩, ⟨udivF, fun _ => rfl, rfl⟩, ⟨sremF, fun _ => rfl, rfl⟩, ⟨uremF, fun _ => rfl, rfl⟩,
    ⟨onW sdivF, fun _ => rfl, rfl⟩, ⟨onW udivF, fun _ => rfl, rfl⟩, ⟨onW sremF, fun _ => rfl, rfl⟩, ⟨onW uremF, fun _ => rfl, rfl⟩⟩

theorem State.park_thread (hs : s.slot c k = .thread t) (w : Wait) :
    s.park c k w = s.setThr c k (t.parkedOn (s.core c).cycle s.curWord w) := by
  rw [State.park, State.modThr, State.thr_of_slot hs]
  rfl

/-- A division parks its thread until the divider's reply. -/
theorem State.Ready.divide (h : s.Ready c k t { src := [rs1, rs2], dst := [rd] }) (latency : Nat) (g : Word → Word → Word) :
    divide rd rs1 rs2 latency g s = .next (s.setThr c k (t.parkedOn (s.core c).cycle s.curWord
      (.reply ((s.core c).cycle + latency) true { ws := [.x rd (g (t.a.xr rs1) (t.a.xr rs2))] }))) := by
  refine h.stops ?_
  simp only [h.thr, h.xv (r := rs1) (by simp), h.xv (r := rs2) (by simp), State.park_thread h.slot]

end

/-- Settles O3: the divider's reply brings the result. -/
theorem division : Obligations.Division := by
  unfold Obligations.Division
  intro s c k t rd rs1 rs2 h p hp
  obtain ⟨g, hexec, hres⟩ := divide_of_divResults _ _ p hp
  rw [hexec, h.divide, hres]

section
variable {s : State} {c : Nat} {k : SlotN} {t : Thread} {f : Form} {rd rs1 rs2 : XReg}

/-! ### Branches and jumps (R134) -/

/-- A taken transfer to a multiple of 4 with the link register written. -/
theorem State.Ready.links (h : s.Ready c k t f) (hd : rd ∈ f.dst) {target v : Word} {body : Body}
    (hb : body s c k = transfer s c k target [.x rd v]) :
    (target.toNat % 4 = 0 → run f body s = .next (s.setThr c k ((t.wx rd v).finish (some target) 4))) ∧
    (target.toNat % 4 ≠ 0 → t.trapReady = true → run f body s = .next (s.takeTrap c k { cause := 0, val := target })) := by
  refine ⟨fun h0 => ?_, fun h0 ht => h.stops (hb.trans (transfer_misaligned h.slot _ h0 ht))⟩
  rw [h.runs, hb, transfer_aligned _ _ _ _ h0, h.delivers hd h.slot (endsWith_nil _)]
  rfl

/-- A conditional branch by its condition. -/
theorem State.Ready.branch (h : s.Ready c k t { src := [rs1, rs2] }) (imm : BitVec 12) (g : Word → Word → Bool) :
    let target := t.a.pc + imm.signExtend 64 * 2
    let taken := g (t.a.xr rs1) (t.a.xr rs2)
    (taken = false → Machine.branch rs1 rs2 imm g s = .next (s.done c k t)) ∧
    (taken = true → target.toNat % 4 = 0 → Machine.branch rs1 rs2 imm g s = .next (s.setThr c k (t.finish (some target) 4))) ∧
    (taken = true → target.toNat % 4 ≠ 0 → t.trapReady = true →
      Machine.branch rs1 rs2 imm g s = .next (s.takeTrap c k { cause := 0, val := target })) := by
  intro target taken
  have hb : Machine.branch rs1 rs2 imm g s =
      .next (s.afterBody c k 4 (if taken then transfer s c k target [] else .ok s {})) := by
    rw [Machine.branch, h.runs]
    simp only [h.thr, h.xv (r := rs1) (by simp), h.xv (r := rs2) (by simp), shiftLeft_one, taken, target]
  rw [hb]
  refine ⟨fun hf => ?_, fun ht h0 => ?_, fun ht h0 hr => ?_⟩
  · rw [hf, if_neg Bool.false_ne_true, afterBody_nil, h.thr]
    rfl
  · rw [if_pos ht, transfer_aligned _ _ _ _ h0, afterBody_nil, h.thr]
  · rw [if_pos ht, transfer_misaligned h.slot _ h0 hr]
    rfl

theorem not_decide_lt {α : Type} [LinearOrder α] (a b : α) [Decidable (a < b)] [Decidable (b ≤ a)] :
    (!decide (a < b)) = decide (b ≤ a) := by rw [← decide_not, decide_eq_decide, not_lt]

/-- The conditional branches are taken by their conditions on the values of rs1 and rs2. -/
theorem branch_of_branchResults (a b : Word) (imm : BitVec 12) : ∀ p ∈ branchResults rs1 rs2 a b imm,
    ∃ g, (∀ s, exec p.1 s = branch rs1 rs2 imm g s) ∧ p.2 = g a b := by
  simp only [branchResults, List.forall_mem_cons, List.not_mem_nil, false_imp_iff, implies_true, and_true]
  exact ⟨⟨(· == ·), fun _ => rfl, rfl⟩, ⟨(· != ·), fun _ => rfl, by simp [bne, beq_eq_decide]⟩,
    ⟨fun a b => a.slt b, fun _ => rfl, rfl⟩, ⟨fun a b => !a.slt b, fun _ => rfl, (not_decide_lt _ _).symm⟩,
    ⟨fun a b => a.ult b, fun _ => rfl, rfl⟩, ⟨fun a b => !a.ult b, fun _ => rfl, (not_decide_lt _ _).symm⟩⟩

/-- A taken transfer ends an active repeat (R144). -/
theorem finish_taken (t : Thread) (target : Word) :
    (t.finish (some target) 4).a.pc = target ∧ (t.finish (some target) 4).a.csr.count = 0 := by
  refine ⟨rfl, ?_⟩
  show (if t.a.csr.count = 0 then t.a.csr else t.a.csr.setCount 0).count = 0
  split
  · assumption
  · exact count_setCount _ (by decide)

end

/-- Settles O4: what each transfer does, taken to a multiple of 4, taken elsewhere, or not taken. -/
theorem controlTransfer : Obligations.ControlTransfer := by
  unfold Obligations.ControlTransfer
  refine ⟨fun s c k t rs1 rs2 imm h => ?branch, fun s c k t rd rs1 imm h => ?jalr, fun s c k t rd imm h => ?jal, finish_taken⟩
  case branch =>
    intro target p hp
    obtain ⟨g, hexec, hres⟩ := branch_of_branchResults _ _ imm p hp
    simp only [State.Traps, hexec, hres]
    exact h.branch imm g
  case jalr => exact h.links (by simp) (by simp only [h.thr, h.xv (r := rs1) (by simp)])
  case jal => exact h.links (by simp) (by rw [h.thr, shiftLeft_one])

end Sys2Proof.Machine
end

section
/-! Loads and stores (R132, R201, R202), system calls and FENCE (R135, R136): the proofs of O5, O6 and O10. -/

namespace Sys2Proof.Machine

section
variable {s : State} {c : Nat} {k : SlotN} {t : Thread} {f : Form} {rd rs1 rs2 : XReg}

/-! ### Loads and stores (R132, R201, R202) -/

/-- A ready instruction whose body is a load (R132). -/
theorem State.Ready.loads (h : s.Ready c k t f) (hd : rd ∈ f.dst) {body : Body} {a n : Nat} {ext : Nat → Word}
    (hb : body s c k = scalarLoad s c k a n fun v => { ws := [.x rd (ext v)] }) :
    s.LoadsAs c k t (run f body s) a n rd ext fun v => s.done c k (t.wx rd v) := by
  rw [h.runs, hb]
  exact scalarLoad_loadsAs h.slot fun v => h.delivers hd h.slot (endsWith_nil _) v

/-- A ready instruction whose body is a store (R132). -/
theorem State.Ready.stores (h : s.Ready c k t f) {body : Body} {a n : Nat} {v : Word} (hb : body s c k = scalarStore s c k a n v) :
    s.StoresAs c k t (run f body s) a n v := by
  rw [h.runs, hb]
  exact scalarStore_storesAs h.slot a n v

theorem load_of_baseLoads (imm : BitVec 12) : ∀ p ∈ baseLoads rd rs1 imm, ∀ s, exec p.1 s = load rd rs1 imm p.2.1 p.2.2 s := by
  simp only [baseLoads, List.forall_mem_cons, List.not_mem_nil, false_imp_iff, implies_true, and_true]
  exact ⟨fun _ => rfl, fun _ => rfl, fun _ => rfl, fun _ => rfl, fun _ => rfl, fun _ => rfl, fun _ => rfl⟩

theorem store_of_baseStores (imm : BitVec 12) : ∀ p ∈ baseStores rs2 rs1 imm, ∀ s, exec p.1 s = store rs2 rs1 imm p.2 s := by
  simp only [baseStores, List.forall_mem_cons, List.not_mem_nil, false_imp_iff, implies_true, and_true]
  exact ⟨fun _ => rfl, fun _ => rfl, fun _ => rfl, fun _ => rfl⟩

/-- No wait for posted operations of a class that has none (R202). -/
theorem wclassWait_none (hs : s.slot c k = .thread t) {w : Fin 4} (hw : w = 0 ∨ t.psc (w.val - 1) = 0) :
    wclassWait s c k w = .ok s () := by
  rcases hw with rfl | hw
  · rfl
  · simp only [wclassWait, State.thr_of_slot hs, hw, decide_true, waitFor_true, ite_self]

end

/-- Settles O5: the base loads and LDX are loads of their sizes at their addresses. -/
theorem loadsRead : Obligations.LoadsRead := by
  unfold Obligations.LoadsRead
  refine ⟨fun s c k t rd rs1 imm h p hp => ?base, fun s c k t g w size off3 rd rs1 h hw => ?ldx⟩
  case base =>
    rw [load_of_baseLoads imm p hp]
    exact h.loads (by simp) (by rw [h.thr, h.xv (by simp)])
  case ldx => exact h.loads (by simp) (by rw [wclassWait_none h.slot hw, Got.bind_ok, h.thr, h.xv (by simp)])

/-- Settles O6: the base stores and STX are stores of their sizes at their addresses. -/
theorem storesWrite : Obligations.StoresWrite := by
  unfold Obligations.StoresWrite
  refine ⟨fun s c k t rs2 rs1 imm h p hp => ?base, fun s c k t g w size off3 rs2 rs1 h hw => ?stx⟩
  case base =>
    rw [store_of_baseStores imm p hp]
    exact h.stores (by simp only [h.thr, h.xv (r := rs1) (by simp), h.xv (r := rs2) (by simp)])
  case stx =>
    exact h.stores (by simp only [wclassWait_none h.slot hw, Got.bind_ok, h.thr, h.xv (r := rs1) (by simp),
      h.xv (r := rs2) (by simp)])

section
variable {s s1 : State} {c : Nat} {k : SlotN} {t u : Thread}

/-! ### FENCE (R135) -/

/-- A condition that does not hold parks its thread. -/
theorem waitFor_false (hs : s.slot c k = .thread t) (w : Cond) :
    waitFor s c k w false = .stop (s.setThr c k (t.parkedOn (s.core c).cycle s.curWord (.cond w))) := by
  rw [← State.park_thread hs]
  rfl

theorem fenceDone_iff (s : State) (r : TRef) (t : Thread) : s.fenceDone r t = true ↔
    t.psc0 = 0 ∧ t.psc1 = 0 ∧ t.psc2 = 0 ∧ s.engineBusy r = false ∧ t.vq = [] := by
  simp [State.fenceDone, and_assoc]

/-- FENCE, its chunk committed: it completes or waits. -/
theorem State.Ready.fence (h : s.Ready c k t {}) (hc : s.Commits c k t s1 u) :
    exec .fence s = .next (s.afterBody c k 4 ((waitFor s1 c k .fence (s1.fenceDone (u.ref c) u)).bind fun s _ => .ok s {})) := by
  refine (h.runs _).trans ?_
  simp only [hc.run, Got.bind_ok, State.thr_of_slot hc.slot]

end

/-- Settles O10: the traps of ECALL and EBREAK, and the two outcomes of FENCE. -/
theorem systemCallsAndFence : Obligations.SystemCallsAndFence := by
  unfold Obligations.SystemCallsAndFence
  refine ⟨fun s c k t h ht => ⟨h.stops (trap_ready h.slot ht _), h.stops (trap_ready h.slot ht _)⟩,
    fun s s1 c k t u h hc => ⟨fun hover => ?done, fun hover => ?waits⟩⟩
  case done =>
    rw [h.fence hc, (fenceDone_iff ..).2 hover, waitFor_true, Got.bind_ok, afterBody_nil, State.thr_of_slot hc.slot]
    rfl
  case waits =>
    rw [h.fence hc, Bool.eq_false_iff.2 (mt (fenceDone_iff ..).1 hover), waitFor_false hc.slot]
    rfl

end Sys2Proof.Machine
end

section
/-! The Zicsr instructions on every CSR (R120, R121, R124, R137, R415): the proof of O11. -/

namespace Sys2Proof.Machine

/-! ### Words that name no CSR (R105) -/

theorem decodeWord_system {w : Nat} (h : fld w 0 7 = 0x73) (lit : Nat) : decodeWord w lit = decSystem w := by
  simp only [decodeWord, h]

theorem decSystem_noCsr {w : Nat} (h : fld w 12 3 ≠ 0) (hc : csrExists (immI w) = false) : ∃ e, decSystem w = .error e := by
  unfold decSystem
  dsimp only
  rw [hc]
  split
  case h_1 => contradiction
  all_goals exact ⟨_, rfl⟩

section
variable {s s' : State} {c : Nat} {k : SlotN} {t : Thread} {rd rs1 : XReg} {n : Nat} {g : Thread → Word → Word} {v : Word}

/-! ### What a Zicsr instruction does that writes -/

theorem Arch.mapped_congr {a b : Arch} (h : a.csr.qmap = b.csr.qmap) (r : XReg) : a.mapped r = b.mapped r := by
  simp only [Arch.mapped, Arch.mapByte, h]

/-- No clause is about a write to the read-only range. -/
theorem csrDoes_readOnly (h : 0xC00 ≤ n) (out : Out) (ends : State → Thread → (Thread → Thread) → State) :
    s.CsrDoes c k t out n (some v) ends := by
  refine ⟨fun _ h' => ?_, fun h' => ?_, fun h' => ?_, fun h' => ?_, fun h' => ?_, fun h' => ?_, fun h' => ?_⟩ <;> omega

/-- How a Zicsr instruction ends that names no mapped register, the old value being delivered (R119, R137). -/
def State.csrEnd (s : State) (c : Nat) (k : SlotN) (rd : XReg) (n : Nat) (s' : State) (t' : Thread) (after : Thread → Thread) :
    State :=
  s'.setThr c k (after ((t'.wx rd (s.readCsr c k n)).finish none 4))

/-- A write that is in force at once, the thread then being u, before the old value is delivered. -/
theorem csrBody_writes {u : Thread} (h : n ≠ 0x807 ∧ n ≠ 0x808 ∧ n ≠ 0x802) (hv : g (s.thr c k) (s.readCsr c k n) = v)
    (hw : writeCsr s c k n v = .ok s' ()) (hs : s'.slot c k = .thread u) (hm : u.a.mapped rd = false) :
    s.afterBody c k 4 (csrBody rd n true g s c k) = s.csrEnd c k rd n s' u id := by
  obtain ⟨h807, h808, h802⟩ := h
  rw [csrBody_plain rd h807 h808 h802, hv, hw, Got.bind_ok, afterBody_x hs hm (endsWith_nil _)]
  rfl

/-- A thread that is written before the delivery is written again by it. -/
theorem csrEnd_setThr (s s' : State) (u t' : Thread) (after : Thread → Thread) :
    s.csrEnd c k rd n (s'.setThr c k u) t' after = s.csrEnd c k rd n s' t' after := State.setThr_setThr ..

theorem writeCsr_trqbase (s : State) (c : Nat) (k : SlotN) (v : Word) :
    writeCsr s c k 0x5C0 v = .ok (s.modCtx c fun y => { y with trqbase := v &&& ~~~0x3FF#64 }) () := by
  rw [writeCsr, if_neg (by decide), if_neg (by decide), writePlain, if_pos rfl, clear_low10]

theorem writeCsr_supctl (s : State) (c : Nat) (k : SlotN) (v : Word) : writeCsr s c k 0x5C1 v = .ok (writeSupctl s c v) () := by
  rw [writeCsr, if_neg (by decide), if_pos rfl]

/-- The supervisor's CSRs that tell of the core take no write (R124). -/
theorem writeCsr_status (hs : s.slot c k = .thread t) (hn : n = 0x5C2 ∨ n = 0x5C3) (v : Word) :
    writeCsr s c k n v = .ok (s.setThr c k t) () := by
  rw [writeCsr, if_neg (by omega), if_neg (by omega), writePlain_user hs (by omega), write_supervisor _ _ _ (by omega)]

/-- A write of `qmap` delivers the old value first to a register that is not mapped (R121). -/
theorem csrBody_qmap_ends (hs : s.slot c k = .thread t) (hm : t.a.mapped rd = false) (hv : g t (s.readCsr c k 0x802) = v) :
    s.afterBody c k 4 (csrBody rd 0x802 true g s c k) =
      s.csrEnd c k rd 0x802 s { t with a := { t.a with csr := t.a.csr.write t.paired 0x802 v } } id := by
  simp only [csrBody_qmap rd g hs, hv, hm, Bool.false_eq_true, if_false, afterBody_nil, State.modThr_setThr, State.thr_setThr,
    State.setThr_setThr]
  rfl

/-- The body of a Zicsr instruction that writes, by its CSR (R120, R121, R124, R137, R415). -/
theorem csrBody_does (hs : s.slot c k = .thread t) (hm : t.a.mapped rd = false) (hv : g t (s.readCsr c k n) = v) :
    s.CsrDoes c k t (.next (s.afterBody c k 4 (csrBody rd n true g s c k))) n (some v) (s.csrEnd c k rd n) := by
  have hv' : g (s.thr c k) (s.readCsr c k n) = v := by rw [State.thr_of_slot hs, hv]
  refine ⟨fun h8 _ h807 h808 hvq => ?user, fun h1 hvq => ?busy, fun h78 hz => ?empty, fun h78 hz s0 e he => ?counts,
    fun h5 => ?trqbase, fun h5 => ?supctl, fun h5 => ?status⟩ <;> refine congrArg _ ?_
  case user =>
    by_cases h2 : n = 0x802
    · subst h2
      exact csrBody_qmap_ends hs hm hv
    · rw [csrBody_writes ⟨h807, h808, h2⟩ hv' (writeCsr_user hs h8 hvq v) (State.slot_setThr ..)
        ((Arch.mapped_congr (write_qmap _ _ _ h2) rd).trans hm), csrEnd_setThr]
  case busy =>
    subst h1
    rw [csrBody_plain rd (by decide) (by decide) (by decide), hv', writeCsr, if_pos rfl, writeVstat_busy hs hvq]
    rfl
  case empty =>
    rw [write_repeat _ _ _ h78] at hz ⊢
    rw [csrBody_repeats rd h78, hv', State.thr_of_slot hs, repeatFor_zero hs hz, Got.bind_ok,
      afterBody_x hs hm (endsWith_rep _ _ _)]
    rfl
  case counts =>
    rw [write_repeat _ _ _ h78] at hz he ⊢
    rw [csrBody_repeats rd h78, hv', State.thr_of_slot hs, repeatFor_counts hz he, Got.bind_ok,
      afterBody_x ((slot_bodyEnd he k).trans hs) hm (endsWith_rep _ _ _)]
    rfl
  case trqbase =>
    subst h5
    have hslot := slot_modCtx s c c k (g := fun y => { y with trqbase := v &&& ~~~0x3FF#64 }) fun _ => rfl
    exact csrBody_writes (by decide) hv' (writeCsr_trqbase s c k v) (hslot.trans hs) hm
  case supctl =>
    subst h5
    rw [csrBody_writes (by decide) hv' (writeCsr_supctl s c k v) ((slot_writeSupctl s c k v).trans hs) hm, writeSupctl_eq]
    rfl
  case status => rw [csrBody_writes (by omega) hv' (writeCsr_status hs h5 v) (State.slot_setThr ..) hm, csrEnd_setThr]

/-! ### The instructions (R137) -/

/-- A Zicsr instruction that names no mapped register: illegal, or it delivers the old value and does what a write of its CSR
does. -/
theorem State.Ready.csrOp {csr : BitVec 12} {src : List XReg} {writes : Bool}
    (h : s.Ready c k t { who := csrWho csr.toNat, src := src, dst := [rd] }) :
    let write := if writes then some (g t (s.readCsr c k csr.toNat)) else none
    (write ≠ none → 0xC00 ≤ csr.toNat → t.trapReady = true →
      csrOp rd csr src writes g s = .next (s.takeTrap c k { cause := 2, val := s.curWord.setWidth 64 })) ∧
    s.CsrDoes c k t (csrOp rd csr src writes g s) csr.toNat write (s.csrEnd c k rd csr.toNat) := by
  have hrun (hb : (writes && decide (0xC00 ≤ csr.toNat)) = false) := (csrOp_run rd src g s hb).trans (h.runs _)
  cases writes with
  | false =>
    refine ⟨fun hw => absurd rfl hw, ?_⟩
    rw [hrun rfl, csrBody_reads, h.delivers (by simp) h.slot (endsWith_nil _)]
    rfl
  | true =>
    refine ⟨fun _ hr ht => csrOp_readOnly h.here hr h.strikesNow rfl ht, ?_⟩
    by_cases hr : 0xC00 ≤ csr.toNat
    · exact csrDoes_readOnly hr _ _
    · rw [hrun (by simpa using hr)]
      exact csrBody_does h.slot (h.unmapped (by simp)) rfl

/-- The Zicsr instructions by what they write over the old value, from the value that rs1 reads or the immediate. -/
theorem csrOp_of_csrWrites (hx : t.xv rs1 = t.a.xr rs1) (csr : BitVec 12) (uimm : Fin 32) (old : Word) :
    ∀ p ∈ csrRegWrites rd rs1 csr old (t.a.xr rs1) ++ csrImmWrites rd csr uimm old, ∃ src ⊆ [rs1],
      ∃ (writes : Bool) (g : Thread → Word → Word), (∀ s, exec p.1 s = csrOp rd csr src writes g s) ∧
        p.2 = if writes then some (g t old) else none := by
  simp only [csrRegWrites, csrImmWrites, List.cons_append, List.nil_append, List.forall_mem_cons, List.not_mem_nil, false_imp_iff,
    implies_true, and_true, ← hx]
  have skips {α : Type} [DecidableEq α] (x y : α) (v : Word) :
      (if x = y then none else some v) = if (x != y) = true then some v else none := by by_cases h : x = y <;> simp [h]
  exact ⟨⟨[rs1], List.Subset.refl _, true, fun t _ => t.xv rs1, fun _ => rfl, rfl⟩,
    ⟨[rs1], List.Subset.refl _, rs1 != 0, fun t old => old ||| t.xv rs1, fun _ => rfl, skips _ _ _⟩,
    ⟨[rs1], List.Subset.refl _, rs1 != 0, fun t old => old &&& ~~~(t.xv rs1), fun _ => rfl, skips _ _ _⟩,
    ⟨[], List.nil_subset _, true, fun _ _ => BitVec.ofNat 64 uimm.val, fun _ => rfl, rfl⟩,
    ⟨[], List.nil_subset _, uimm != 0, fun _ old => old ||| BitVec.ofNat 64 uimm.val, fun _ => rfl, skips _ _ _⟩,
    ⟨[], List.nil_subset _, uimm != 0, fun _ old => old &&& ~~~(BitVec.ofNat 64 uimm.val), fun _ => rfl, skips _ _ _⟩⟩

end

/-- Settles O11: words that name no CSR do not decode, and each Zicsr instruction by the CSR it names. -/
theorem csrInstructions : Obligations.CsrInstructions := by
  unfold Obligations.CsrInstructions
  refine ⟨fun w lit hop hf hc => ?_, fun s c k t rd rs1 csr uimm _ h => ?_⟩
  · rw [decodeWord_system hop]
    exact decSystem_noCsr hf hc
  · intro n old p hp
    obtain ⟨src, hsrc, writes, g, hexec, hwrite⟩ := csrOp_of_csrWrites (h.xv (by simp)) csr uimm old p hp
    simp only [State.Traps, hexec, hwrite]
    exact (h.of_subset hsrc (List.Subset.refl _)).csrOp

end Sys2Proof.Machine
end

section
/-! Predicates, LIMM and REP (R138 to R142, R415): the proofs of O16 and O17. -/

namespace Sys2Proof.Machine

section
variable {s s' : State} {c : Nat} {k : SlotN} {t : Thread} {f : Form}

/-! ### Predicates (R119, R138, R139) -/

/-- A completion that writes a predicate. -/
theorem afterBody_p (hs : s.slot c k = .thread t) (pd : PReg) (v : Bool) :
    s.afterBody c k 4 (.ok s { ws := [.p pd v] }) = s.done c k (t.wp pd v) := by
  show s.orAgain c k (finishWs s c k none 4 [.p pd v]) = _
  rw [finishWs_p, finishWs_nil, orAgain_finish, State.modThr_modThr, State.modThr, State.thr_of_slot hs]
  rfl

/-- A completion without writes, the body having changed the thread. -/
theorem afterBody_modThr (hs : s'.slot c k = .thread t) (s : State) (g : Thread → Thread) (next : Option Word) :
    s.afterBody c k 4 (.ok (s'.modThr c k g) { next := next }) = s'.setThr c k ((g t).finish next 4) := by
  rw [afterBody_nil, State.setThr_modThr, State.thr_modThr, State.thr_of_slot hs]

/-- A ready instruction whose body computes a predicate (R138). -/
theorem State.Ready.predicate (h : s.Ready c k t f) (pd : PReg) (g : Thread → Bool) :
    run f (pure_ fun t => { ws := [.p pd (g t)] }) s = .next (s.done c k (t.wp pd (g t))) := by
  rw [h.runs, pure_, h.thr, afterBody_p h.slot]

/-- A comparison of two registers (R138). -/
theorem State.Ready.pcmp {g : Guard} {rs1 rs2 : XReg} (h : s.Ready c k t { guard := g, src := [rs1, rs2] }) (pd : PReg)
    (cmp : Word → Word → Bool) : pcmp g pd rs1 rs2 cmp s = .next (s.done c k (t.wp pd (cmp (t.a.xr rs1) (t.a.xr rs2)))) := by
  rw [Machine.pcmp, h.predicate, h.xv (by simp), h.xv (by simp)]

/-- PWR (R139). -/
theorem State.Ready.pwr {g : Guard} {rs1 rs2 : XReg} (h : s.Ready c k t { guard := g, src := [rs1, rs2] }) :
    exec (.pwr g rs1 rs2) s = .next (s.done c k { t with a := { t.a with
      pw := (t.a.pw &&& ~~~(t.a.xr rs2).setWidth 32 ||| (t.a.xr rs1).setWidth 32 &&& (t.a.xr rs2).setWidth 32) ||| 1 } }) := by
  refine (h.runs _).trans ?_
  simp only [h.thr, h.xv (r := rs1) (by simp), h.xv (r := rs2) (by simp)]
  rw [afterBody_modThr h.slot]
  rfl

theorem setP_zero (a : Arch) (v : Bool) : a.setP 0 v = a := if_pos rfl

/-- Writing a predicate sets its bit of pw and no other (R119). -/
theorem getLsbD_setP (a : Arch) {r : PReg} (hr : r ≠ 0) (v : Bool) (q : PReg) :
    (a.setP r v).pw.getLsbD q = if q = r then v else a.pw.getLsbD q := by
  have hbit : (BitVec.ofNat 32 (2 ^ r.val)).getLsbD q.val = decide (q = r) := by
    rw [BitVec.getLsbD_ofNat, Nat.testBit_two_pow]
    simp [q.isLt, Fin.ext_iff, eq_comm]
  simp only [Arch.setP, hr, if_false]
  cases v with
  | true =>
    rw [if_pos rfl, BitVec.getLsbD_or, hbit]
    by_cases hq : q = r <;> simp [hq]
  | false =>
    rw [if_neg Bool.false_ne_true, BitVec.getLsbD_and, BitVec.getLsbD_not, hbit]
    by_cases hq : q = r <;> simp [hq]

theorem p_setP_same (a : Arch) {r : PReg} (hr : r ≠ 0) (v : Bool) : (a.setP r v).p r = v := by
  rw [Arch.p, getLsbD_setP a hr, if_pos rfl, beq_false_of_ne hr, Bool.false_or]

theorem p_setP_ne (a : Arch) {r q : PReg} (h : q ≠ r) (v : Bool) : (a.setP r v).p q = a.p q := by
  by_cases hr : r = 0
  · rw [hr, setP_zero]
  · rw [Arch.p, Arch.p, getLsbD_setP a hr, if_neg h]

end

/-- Settles O16: each predicate instruction by what it computes, PRD, PWR and LIMM, and what a predicate reads after a write. -/
theorem predicatesAndLiterals : Obligations.PredicatesAndLiterals := by
  unfold Obligations.PredicatesAndLiterals
  refine ⟨fun s c k t g pd rs1 rs2 h => ?registers, fun s c k t g pd pa pb h => ?logic, fun s c k t g rd lit h => ?literals,
    fun a p q v => ⟨rfl, setP_zero a v, fun hp => p_setP_same a hp v, fun hq => p_setP_ne a hq v⟩⟩
  case registers =>
    intro a b sets
    have hne : decide (a ≠ b) = (a != b) := by simp [bne, beq_eq_decide]
    simp only [sets, hne, ← not_decide_lt]
    exact ⟨h.pcmp pd (· == ·), h.pcmp pd (· != ·), h.pcmp pd fun a b => a.slt b, h.pcmp pd fun a b => !a.slt b,
      h.pcmp pd fun a b => a.ult b, h.pcmp pd fun a b => !a.ult b, h.pwr⟩
  case logic =>
    exact ⟨h.predicate pd fun t => t.a.p pa && t.a.p pb, h.predicate pd fun t => t.a.p pa || t.a.p pb,
      h.predicate pd fun t => t.a.p pa && !t.a.p pb, h.predicate pd fun t => t.a.p pa != t.a.p pb⟩
  case literals =>
    exact ⟨run_x h (by simp) (fun t => (t.a.pw ||| 1).setWidth 64) 4, run_x h (by simp) (fun _ => lit.signExtend 64) 8⟩

section
variable {s s0 : State} {c : Nat} {k : SlotN} {t : Thread} {g : Guard} {rs1 rs2 : XReg}

/-! ### REP (R142, R415) -/

theorem thread_at (h : s.At c k t) : s.thread? s.cur.1 s.cur.2 = some t := by
  obtain ⟨rfl, rfl, hs⟩ := h
  rw [State.thread?, hs]
  rfl

/-- A REP inside a repeat is illegal (R142). -/
theorem rep_nested (h : s.Ready c k t { guard := g, src := [rs1, rs2] }) (hn : t.a.csr.count ≠ 0) (ht : t.trapReady = true) :
    exec (.rep g rs1 rs2) s = .next (s.takeTrap c k { cause := 2, val := s.curWord.setWidth 64 }) := by
  have h' : s.Ready c k t { guard := g, src := [] } := h.of_subset (List.nil_subset _) (List.nil_subset _)
  show execRep g rs1 rs2 s = _
  simp only [execRep, thread_at h.here, bne_iff_ne, ne_eq, hn, not_false_eq_true, if_true]
  refine h'.stops ?_
  simp only [h.thr, hn, not_false_eq_true, if_true]
  exact trap_ready h.slot ht _

/-- The thread in which a repeat of a body of len instructions that ends at e is set up (R142, R415). -/
def Thread.withRepeat (t : Thread) (len count e : Nat) : Thread :=
  { t with a := { t.a with
      repEnd := BitVec.ofNat 64 e, endPend := false
      csr := { t.a.csr with repcnt := BitVec.ofNat 64 (len * 2 ^ 32 + count), repbody := t.a.pc + 4 } } }

/-- A REP outside a repeat, the end of its body found, sets the repeat up, or jumps to that end (R142, R415). -/
theorem rep_sets (h : s.Ready c k t { guard := g, src := [rs1, rs2] }) (hn : t.a.csr.count = 0) {e : Nat}
    (he : s.bodyEnd c ((t.a.xr rs2).toNat % 2 ^ 16) (t.a.pc + 4).toNat = (s0, .ok e)) :
    let len := (t.a.xr rs2).toNat % 2 ^ 16
    let count := if len = 0 then 0 else (t.a.xr rs1).toNat % 2 ^ 32
    let u := t.withRepeat len count e
    exec (.rep g rs1 rs2) s =
      .next (if count = 0 then s0.setThr c k (u.finish (some (BitVec.ofNat 64 e)) 4) else s0.done c k u) := by
  intro len count u
  have hs0 : s0.slot c k = .thread t := (slot_bodyEnd he k).trans h.slot
  show execRep g rs1 rs2 s = _
  simp only [execRep, thread_at h.here, hn, bne_self_eq_false, Bool.false_eq_true, if_false]
  rw [h.runs]
  simp only [h.thr, hn, ne_eq, not_true_eq_false, if_false, h.xv (r := rs1) (by simp), h.xv (r := rs2) (by simp), bodyEndFor, he,
    Got.bind_ok]
  change Host.Outcome.next (s.afterBody c k 4 (.ok (s0.modThr c k fun t => t.withRepeat len count e)
    (if count = 0 then { next := some (BitVec.ofNat 64 e) } else {}))) = _
  by_cases hz : count = 0
  · rw [if_pos hz, if_pos hz, afterBody_modThr hs0]
  · rw [if_neg hz, if_neg hz, afterBody_modThr hs0]
    rfl

end

/-- Settles O17: REP inside a repeat, and outside one by the length and the count of the repeat it sets up. -/
theorem repeatSetup : Obligations.RepeatSetup := by
  unfold Obligations.RepeatSetup
  intro s s0 c k t g rs1 rs2 e h
  exact ⟨rep_nested h, fun hn he => rep_sets h hn he⟩

end Sys2Proof.Machine
end

section
/-! Vector instructions of the scalar pipeline (R151, R159, R161, R166, R167): the proof of O38. -/

namespace Sys2Proof.Machine

section
variable {s s' : State} {c : Nat} {k : SlotN} {t u : Thread} {f : Form} {rd rs1 rs2 : XReg}

/-! ### Waits on vector results (R151) -/

theorem vregWait_pending (hs : s.slot c k = .thread t) {r : VNum} (h : t.vPending r = true) :
    vregWait s c k r = .stop (s.park c k (.cond (.vreg r))) := by
  rw [vregWait, State.thr_of_slot hs, h]
  rfl

theorem vregWait_done (hs : s.slot c k = .thread t) {r : VNum} (h : t.vPending r = false) : vregWait s c k r = .ok s () := by
  rw [vregWait, State.thr_of_slot hs, h]
  rfl

theorem kregWait_pending (hs : s.slot c k = .thread t) {r : KReg} (h : t.kPending r = true) :
    kregWait s c k r = .stop (s.park c k (.cond (.kreg r))) := by
  rw [kregWait, State.thr_of_slot hs, h]
  rfl

theorem kregWait_done (hs : s.slot c k = .thread t) {r : KReg} (h : t.kPending r = false) : kregWait s c k r = .ok s () := by
  rw [kregWait, State.thr_of_slot hs, h]
  rfl

theorem stripsWait_pending (hs : s.slot c k = .thread t) (h : t.vq ≠ []) :
    stripsWait s c k = .stop (s.park c k (.cond .strips)) := by
  rw [stripsWait, State.thr_of_slot hs, decide_eq_false h]
  rfl

theorem stripsWait_done (hs : s.slot c k = .thread t) (h : t.vq = []) : stripsWait s c k = .ok s () := by
  rw [stripsWait, State.thr_of_slot hs, decide_eq_true h]
  rfl

/-! ### How these instructions end -/

/-- A ready instruction that first waits for what has not come parks. -/
theorem State.Ready.parksFirst {α : Type} (h : s.Ready c k t f) {body : Body} {g : Got α} {rest : State → α → Got Completion}
    (hb : body s c k = g.bind rest) (hg : g = .stop s') : run f body s = .next s' :=
  h.stops (by rw [hb, hg, Got.bind_stop])

/-- A ready instruction whose wait is over and that then writes an x register. -/
theorem State.Ready.thenWrites {α : Type} (h : s.Ready c k t f) {body : Body} {g : Got α} {a : α} {v : Word}
    {rest : State → α → Got Completion} (hb : body s c k = g.bind rest) (hg : g = .ok s a)
    (hr : rest s a = .ok s { ws := [.x rd v] }) (hd : rd ∈ f.dst) : run f body s = .next (s.done c k (t.wx rd v)) := by
  rw [h.runs, hb, hg, Got.bind_ok, hr, h.delivers hd h.slot (endsWith_nil none)]
  rfl

/-- A completion that writes a mask register. -/
theorem afterBody_k (hs : s'.slot c k = .thread u) (s : State) (r : KReg) (v : Word) :
    s.afterBody c k 4 (.ok s' { ws := [.k r v] }) = s'.done c k (u.wk r v) := by
  show s.orAgain c k (finishWs s' c k none 4 [.k r v]) = _
  rw [finishWs_k, finishWs_nil, State.modThr_modThr, State.modThr, State.thr_of_slot hs, orAgain_setThr_finish]
  rfl

/-! ### VMVX, VCFG (R159, R161) -/

/-- The x value that VMVX gives a lane of a type (R159). -/
def lanexValue (ty : VType) (w : Word32) : Word :=
  match ty with
  | .bf16 => BitVec.ofNat 64 (w.toNat % 2 ^ 16)
  | .f16 => BitVec.ofNat 64 (w.toNat % 2 ^ 16)
  | .u8 => BitVec.ofNat 64 (w.toNat % 2 ^ 8)
  | .i8 => (w.setWidth 8 : BitVec 8).signExtend 64
  | _ => w.signExtend 64

theorem vmvx_waits (h : s.Ready c k t { src := [rs1], dst := [rd] }) (ty : VType) {vs2 : VNum} (hp : t.vPending vs2 = true) :
    exec (.vmvx ty rd rs1 vs2) s = .next (s.park c k (.cond (.vreg vs2))) :=
  h.parksFirst rfl (vregWait_pending h.slot hp)

theorem vmvx_done (h : s.Ready c k t { src := [rs1], dst := [rd] }) (ty : VType) {vs2 : VNum} (hp : t.vPending vs2 = false) :
    exec (.vmvx ty rd rs1 vs2) s =
      .next (s.done c k (t.wx rd (lanexValue ty (t.a.lane vs2 ((t.a.xr rs1).toNat % if t.paired then 64 else 32))))) := by
  refine h.thenWrites rfl (vregWait_done h.slot hp) ?_ (by simp)
  simp only [h.thr, h.xv (r := rs1) (by simp)]
  cases ty <;> rfl

/-- The thread with `vctl` set. -/
def Thread.setVctl (t : Thread) (v : Word) : Thread := { t with a := { t.a with csr := { t.a.csr with vctl := v } } }

/-- VCFG sets `vctl` and gives the new VL (R161). -/
theorem vcfg_done (h : s.Ready c k t { src := [rs1, rs2], dst := [rd] }) :
    let vl := min (t.a.xr rs1).toNat (if t.paired then 64 else 32)
    let keep : Word := if rs2 = 0 then t.a.csr.vctl else (t.a.csr.vctl &&& ~~~(0x7FF00#64)) ||| (t.a.xr rs2 &&& 0x7FF00#64)
    exec (.vcfg rd rs1 rs2) s = .next (s.done c k
      ((t.setVctl (vctlField t.paired ((keep &&& ~~~(0x7F#64)) ||| BitVec.ofNat 64 vl))).wx rd (BitVec.ofNat 64 vl))) := by
  intro vl keep
  show execVcfg rd rs1 rs2 s = _
  unfold execVcfg
  rw [h.runs]
  simp only [h.thr, h.xv (r := rs1) (by simp), h.xv (r := rs2) (by simp)]
  rw [afterBody_x (State.slot_modThr ..) (by rw [h.thr]; exact h.unmapped (by simp)) (endsWith_nil none), h.thr, State.modThr,
    State.setThr_setThr]
  rfl

/-! ### Masks, VFENCE and VSTAT (R151, R166, R167) -/

theorem strips_wait (h : s.Ready c k t { src := [rs1], dst := [rd] }) (kd : KReg) (hq : t.vq ≠ []) :
    exec (.vkopFromx kd rs1) s = .next (s.park c k (.cond .strips)) ∧ exec .vfence s = .next (s.park c k (.cond .strips)) ∧
      exec (.vstat rd) s = .next (s.park c k (.cond .strips)) :=
  ⟨(h.of_subset (src := [rs1]) (dst := []) (by simp) (by simp)).parksFirst rfl (stripsWait_pending h.slot hq),
    (h.of_subset (src := []) (dst := []) (by simp) (by simp)).parksFirst rfl (stripsWait_pending h.slot hq),
    (h.of_subset (src := []) (dst := [rd]) (by simp) (by simp)).parksFirst rfl (stripsWait_pending h.slot hq)⟩

theorem vkopFromx_done (h : s.Ready c k t { src := [rs1] }) (kd : KReg) (hq : t.vq = []) :
    exec (.vkopFromx kd rs1) s = .next (s.done c k (t.wk kd (t.a.xr rs1))) := by
  show execVkopFromx kd rs1 s = _
  unfold execVkopFromx
  rw [h.runs, stripsWait_done h.slot hq, Got.bind_ok, afterBody_k h.slot, h.thr, h.xv (by simp)]

theorem vfence_done (h : s.Ready c k t {}) (hq : t.vq = []) : exec .vfence s = .next (s.done c k t) := by
  show execVfence s = _
  unfold execVfence
  rw [h.runs, stripsWait_done h.slot hq, Got.bind_ok, afterBody_nil, h.thr]
  rfl

theorem vstat_done (h : s.Ready c k t { dst := [rd] }) (hq : t.vq = []) :
    exec (.vstat rd) s = .next (s.done c k (t.wx rd t.a.csr.vstat)) := by
  refine h.thenWrites rfl (stripsWait_done h.slot hq) ?_ (by simp)
  simp only [h.thr, Thread.userCsr, hq, List.isEmpty_nil, if_true]

/-- VKOP TOX and VKOP COUNT wait for the mask register that they read. -/
theorem mask_waits (h : s.Ready c k t { dst := [rd] }) {ka : KReg} (hp : t.kPending ka = true) :
    exec (.vkopTox rd ka) s = .next (s.park c k (.cond (.kreg ka))) ∧
      exec (.vkopCount rd ka) s = .next (s.park c k (.cond (.kreg ka))) :=
  ⟨h.parksFirst rfl (kregWait_pending h.slot hp), h.parksFirst rfl (kregWait_pending h.slot hp)⟩

theorem mask_done (h : s.Ready c k t { dst := [rd] }) {ka : KReg} (hp : t.kPending ka = false) :
    exec (.vkopTox rd ka) s = .next (s.done c k (t.wx rd t.a.k[ka])) ∧
      exec (.vkopCount rd ka) s = .next (s.done c k (t.wx rd (BitVec.ofNat 64
        ((List.range (if t.paired then 64 else 32)).filter fun l => (t.a.k[ka]).getLsbD l).length))) := by
  refine ⟨h.thenWrites rfl (kregWait_done h.slot hp) ?_ (by simp), h.thenWrites rfl (kregWait_done h.slot hp) ?_ (by simp)⟩
  · simp only [h.thr]
  · simp only [h.thr]
    rfl

end

/-- Settles O38: each instruction once its wait is over, and while it is not. -/
theorem vectorMovesAndWaits : Obligations.VectorMovesAndWaits := by
  unfold Obligations.VectorMovesAndWaits
  intro s c k t ty rd rs1 rs2 vs2 kd ka h vlmax waits w v vl keep cfg ones
  have hmove : s.Ready c k t { src := [rs1], dst := [rd] } := h.of_subset (by simp) (by simp)
  have hread : s.Ready c k t { dst := [rd] } := h.of_subset (by simp) (by simp)
  exact ⟨vmvx_waits hmove ty, vmvx_done hmove ty, vcfg_done h, strips_wait hmove kd,
    fun hq => ⟨vkopFromx_done (h.of_subset (by simp) (by simp)) kd hq, vfence_done (h.of_subset (by simp) (by simp)) hq,
      vstat_done hread hq⟩, mask_waits hread, mask_done hread⟩

end Sys2Proof.Machine
end

section
/-! A strip executes: what it writes, and what the other strips of its thread keep (R60, R150, R153). -/

namespace Sys2Proof.Machine

section
variable {s : State} {k : SlotN} {t : Thread}

/-- A device step that acts on the thread of the subject's slot. -/
theorem onThread_eq (hk : s.subject.slot = k) (ht : s.slot s.subject.core k = .thread t) (f : Nat → SlotN → Thread → State) :
    onThread s f = .next (f s.subject.core k t) := by
  have hhome : s.home s.subject.core s.subject.slot = k := by rw [hk]; simp [State.home, ht]
  simp only [onThread, hhome, ht, Slot.thread?]

/-- A strip that raises no flags keeps none. -/
theorem VRes.flags_nil {r : VRes} (h : r.fs = []) (act : List Nat) : r.flags = act.foldl (fun f _ => f ||| 0) 0 := by
  have zero (ls : List Nat) : ls.foldl (fun (f : FFlags) _ => f ||| 0) 0 = 0 := by
    induction ls with
    | nil => rfl
    | cons l ls ih => exact ih
  rw [VRes.flags, h, zero]
  rfl

theorem VRes.lanes_nil {r : VRes} (h : r.fs = []) (act : List Nat) (at_ : Nat → Nat) :
    r.lanes = (List.range 5).map fun b => (act.find? fun _ => (0 : FFlags).getLsbD b).map at_ := by
  have none (ls : List Nat) : ls.find? (fun _ => false) = none := List.find?_eq_none.2 (by simp)
  simp [VRes.lanes, h, none]

/-- A strip that writes a word to each lane of `act` and raises no flags (R60, R147). -/
theorem stripRuns_of_words {p : Strip} {r : VRes}
    (hex : exec .stripExecute s = .next (s.setThr s.subject.core k (t.stripped p r (s.core s.subject.core).cycle)))
    {vd : VNum} {act : List Nat} (w : Nat → Word32) (hr : r = { vd := vd, vs := act.map fun l => (l, w l) })
    (hlt : ∀ l ∈ act, l < 64) : s.StripRuns s.subject.core k t vd act fun l v fl => v = w l ∧ fl = 0 := by
  have ha : t.a.applyRes r = t.a.setLanes vd act w := by
    simp only [hr, Arch.applyRes, List.foldl_nil, List.foldl_map]
    rfl
  obtain ⟨hx, hpw, hk, hcsr, hpc⟩ := t.a.setLanes_rest vd act w
  refine ⟨_, _, fun _ => 0, hex, State.slot_setThr _ _ _ _, rfl, ?_⟩
  rw [Thread.stripped_a, Thread.stripped_vq, ha, VRes.flags_nil (by rw [hr]) act, VRes.lanes_nil (by rw [hr]) act id]
  refine ⟨fun l hl => ⟨?_, rfl⟩, fun r' l hl hne => ?_, hx, hpw, hk, hcsr, hpc, rfl⟩
  · rw [Arch.lane_setLanes _ _ _ _ hlt (hlt l hl), if_pos ⟨rfl, hl⟩]
  · rw [Arch.lane_setLanes _ _ _ _ hlt hl, if_neg (by rintro ⟨e, hm⟩; exact hne.elim (· e) (· hm))]

end

end Sys2Proof.Machine
end

section
/-! Integer, bitwise, select, permute and mask strips, and how strips complete (R34, R146 to R166): the proof of O39. -/

namespace Sys2Proof.Machine

section
variable {s : State} {k : SlotN} {t : Thread} {p : Strip} {ty : VType} {vd a b : VNum}

/-! ### Integer lanes (R34, R155) -/

theorem fmtOf_int (h : ty ∈ [VType.i32, .i8, .u8]) : fmtOf ty = none := by
  simp only [List.mem_cons, List.not_mem_nil, or_false] at h
  rcases h with rfl | rfl | rfl <;> rfl

/-- What a strip computes that gives each active lane a wrapped integer (R34, R155). -/
def intRes (x : VCtx) (ty : VType) (vd a b : VNum) (fi : Int → Int → Int → Int) : VRes where
  vd := vd
  vs := (x.act ty).map fun l =>
    (l, wrapInt ty (fi (laneInt ty (x.a.lane a l)) (laneInt ty (x.a.lane b l)) (laneInt ty (x.a.lane vd l))))
  fs := (x.act ty).map fun l => (l, 0)

theorem elementwise_int (hty : ty ∈ [VType.i32, .i8, .u8]) (x : VCtx) (vd a b : VNum)
    (ff : Fmt → RMode → Nat → Nat → Nat → Nat × FFlags) (fi : Int → Int → Int → Int) :
    elementwise x ty vd a b ff fi = intRes x ty vd a b fi := by
  simp only [elementwise, fmtOf_int hty, List.map_map, intRes, ← placeInt_eq_wrapInt ty hty, ← elemInt_eq_laneInt]
  rfl

theorem arith_int (hty : ty ∈ [VType.i32, .i8, .u8]) (x : VCtx) (vd a b : VNum)
    (e : Val → Val → Val → List (Val × Val) × List Val) (fi : Int → Int → Int → Int) :
    arith x ty vd a b e fi = intRes x ty vd a b fi := elementwise_int hty ..

theorem minmax_int (hty : ty ∈ [VType.i32, .i8, .u8]) (x : VCtx) (mx : Bool) (vd a b : VNum) :
    minmax x ty mx vd a b = intRes x ty vd a b fun a b _ => if mx then max a b else min a b := elementwise_int hty ..

theorem signOp_int (hty : ty ∈ [VType.i32, .i8, .u8]) (x : VCtx) (neg : Bool) (vd a : VNum) :
    signOp x ty neg vd a = intRes x ty vd a a fun a _ _ => if neg then -a else |a| := by
  simp only [Int.abs_eq_natAbs]
  exact elementwise_int hty ..

/-- A strip of an integer instruction: each active lane is the wrapped result of its operands (R155). -/
theorem stripRuns_int (h : s.StripAt k t p) (hst : isVstore p.instr = false) {fi : Int → Int → Int → Int}
    (hres : stripRes p.instr (s.stripCtx s.subject.core t p) = intRes (s.stripCtx s.subject.core t p) ty vd a b fi) :
    s.StripRuns s.subject.core k t vd ((s.stripCtx s.subject.core t p).act ty) fun l w fl =>
      w = wrapInt ty (fi (laneInt ty (t.a.lane a l)) (laneInt ty (t.a.lane b l)) (laneInt ty (t.a.lane vd l))) ∧ fl = 0 :=
  stripRuns_of_lanes h hst _ (fun _ => 0) hres (fun _ hl => VCtx.act_lt hl) fun _ _ => ⟨rfl, rfl⟩

theorem compare_int (hty : ty ∈ [VType.i32, .i8, .u8]) (x : VCtx) (kd : KReg) (a b : VNum) (any : Bool) (ff : Val → Val → Bool)
    (fi : Int → Int → Bool) : compare x ty kd a b any ff fi = {
      ks := [(kd, setBits x.a.k[kd] (x.act ty) fun l => fi (laneInt ty (x.a.lane a l)) (laneInt ty (x.a.lane b l)))]
      fs := (x.act ty).map fun l => (l, 0) } := by
  simp only [compare, fmtOf_int hty, List.map_map, List.foldl_map, setBits, ← elemInt_eq_laneInt]
  rfl

/-- A strip of an integer compare (R155). -/
theorem stripCompares_int (h : s.StripAt k t p) (hst : isVstore p.instr = false) (hty : ty ∈ [VType.i32, .i8, .u8])
    {kd : KReg} {any : Bool} {ff : Val → Val → Bool} {fi : Int → Int → Bool}
    (hres : stripRes p.instr (s.stripCtx s.subject.core t p) = compare (s.stripCtx s.subject.core t p) ty kd a b any ff fi) :
    s.StripCompares s.subject.core k t kd ((s.stripCtx s.subject.core t p).act ty) fun l c fl =>
      c = fi (laneInt ty (t.a.lane a l)) (laneInt ty (t.a.lane b l)) ∧ fl = 0 :=
  stripCompares_of_bits h hst _ _ (hres.trans (compare_int hty _ kd a b any ff fi)) (fun _ hl => VCtx.act_lt hl)
    fun _ _ => ⟨rfl, rfl⟩

/-! ### Reductions (R162) -/

/-- The lane that a reduction writes, if it has any to take. -/
def reducedTo (all : List Nat) : List Nat := if all = [] then [] else [0]

theorem reducedTo_lt {all : List Nat} {l : Nat} (h : l ∈ reducedTo all) : l < 64 := by
  unfold reducedTo at h
  split at h <;> simp_all

/-- A strip of an integer VREDADD. -/
theorem stripRuns_redAdd_int (h : s.StripAt k t p) (hty : ty ∈ [VType.i32, .i8, .u8]) (hi : p.instr = .vredadd ty vd a) :
    let all := (s.stripCtx s.subject.core t p).reduced ty
    s.StripRuns s.subject.core k t vd (reducedTo all) fun _ w fl =>
      w = wrapInt ty (all.foldl (fun n l => n + laneInt ty (t.a.lane a l)) (laneInt ty (t.a.lane vd 0))) ∧ fl = 0 := by
  intro all
  have hc : ty ≠ .c32 := by rintro rfl; simp at hty
  refine stripRuns_of_lanes h (by rw [hi]; rfl)
    (fun _ => wrapInt ty (all.foldl (fun n l => n + laneInt ty (t.a.lane a l)) (laneInt ty (t.a.lane vd 0)))) (fun _ => 0) (at_ := id)
    ?_ (fun _ hl => reducedTo_lt hl) fun _ _ => ⟨rfl, rfl⟩
  rw [show stripRes p.instr _ = redAdd _ ty vd a by rw [hi]; rfl]
  rcases (s.stripCtx s.subject.core t p).reduced_cases ty with ⟨h1, h2⟩ | ⟨h1, h2, h3⟩
  · simp only [redAdd, h1, if_true, all, h2, reducedTo, List.map_nil]
  · simp only [redAdd, h1, Bool.false_eq_true, if_false]
    simp only [hc, redSum, fmtOf_int hty, all, h2, h3, if_false, reducedTo, ← placeInt_eq_wrapInt ty hty, ← elemInt_eq_laneInt]
    rfl

/-- A strip of an integer VREDMAX or VREDMIN. -/
theorem stripRuns_redFold_int (h : s.StripAt k t p) (hst : isVstore p.instr = false) (hty : ty ∈ [VType.i32, .i8, .u8]) {mx : Bool}
    (hres : stripRes p.instr (s.stripCtx s.subject.core t p) = redFold (s.stripCtx s.subject.core t p) ty mx vd a) :
    let all := (s.stripCtx s.subject.core t p).reduced ty
    s.StripRuns s.subject.core k t vd (reducedTo all) fun _ w fl =>
      w = wrapInt ty (all.foldl (fun n l => if mx then max n (laneInt ty (t.a.lane a l)) else min n (laneInt ty (t.a.lane a l)))
        (laneInt ty (t.a.lane vd 0))) ∧ fl = 0 := by
  intro all
  refine stripRuns_of_words (exec_stripExecute h hst) (fun _ => wrapInt ty (all.foldl (fun n l =>
    if mx then max n (laneInt ty (t.a.lane a l)) else min n (laneInt ty (t.a.lane a l))) (laneInt ty (t.a.lane vd 0)))) ?_
    fun _ hl => reducedTo_lt hl
  rw [hres]
  rcases (s.stripCtx s.subject.core t p).reduced_cases ty with ⟨h1, h2⟩ | ⟨h1, h2, h3⟩
  · simp only [redFold, h1, if_true, all, h2, reducedTo, List.map_nil]
  · simp only [redFold, h1, Bool.false_eq_true, if_false]
    simp only [fmtOf_int hty, all, h2, h3, if_false, reducedTo, ← placeInt_eq_wrapInt ty hty, ← elemInt_eq_laneInt]
    rfl

/-! ### Bitwise lanes (R157) -/

/-- The lane that a bitwise operation on the width of an integer type gives. -/
def bitLane (ty : VType) (f : (w : Nat) → BitVec w → BitVec w → BitVec w) (x y : Word32) : Word32 :=
  if ty = .i32 then f 32 x y
  else (let b := f 8 (x.setWidth 8) (y.setWidth 8); if ty = .i8 then b.signExtend 32 else b.setWidth 32)

/-- The operation F on numbers, as the model has it, is the operation f on words of w bits. -/
def BitOp (F : Nat → Nat → Nat → Nat → Int → Nat) (f : (w : Nat) → BitVec w → BitVec w → BitVec w) : Prop :=
  ∀ (w : Nat) (x y : BitVec w), BitVec.ofNat w (F w x.toNat y.toNat (y.toNat % w) x.toInt) = f w x y

/-- The operation does not look at the signed value. -/
def Unsigned (F : Nat → Nat → Nat → Nat → Int → Nat) : Prop := ∀ w a b n i j, F w a b n i = F w a b n j

theorem placeLane_bits (hty : ty ∈ [VType.i32, .i8, .u8]) {F : Nat → Nat → Nat → Nat → Int → Nat}
    {f : (w : Nat) → BitVec w → BitVec w → BitVec w} (hF : BitOp F f) (hu : ty ≠ .u8 ∨ Unsigned F) (x y : Word32) :
    placeLane ty (F (8 * laneBytes ty) (elemBits ty x) (elemBits ty y) (elemBits ty y % (8 * laneBytes ty))
      (if ty = .i8 then (x.setWidth 8).toInt else x.toInt) % 2 ^ (8 * laneBytes ty)) = bitLane ty f x y := by
  have hbyte (x : Word32) : x.toNat % 2 ^ 8 = (x.setWidth 8).toNat := (BitVec.toNat_setWidth 8 x).symm
  have hmod (n : Nat) : BitVec.ofNat 8 (n % 2 ^ 8) = BitVec.ofNat 8 n := BitVec.eq_of_toNat_eq (by simp)
  simp only [List.mem_cons, List.not_mem_nil, or_false] at hty
  rcases hty with rfl | rfl | rfl
  · have h := hF 32 x y
    show BitVec.ofNat 32 (F 32 (x.toNat % 2 ^ 32) (y.toNat % 2 ^ 32) (y.toNat % 2 ^ 32 % 32) x.toInt % 2 ^ 32) = f 32 x y
    rw [Nat.mod_eq_of_lt x.isLt, Nat.mod_eq_of_lt y.isLt, ← h]
    exact BitVec.eq_of_toNat_eq (by simp)
  · have h := hF 8 (x.setWidth 8) (y.setWidth 8)
    show (BitVec.ofNat 8 (F 8 (x.toNat % 2 ^ 8) (y.toNat % 2 ^ 8) (y.toNat % 2 ^ 8 % 8) (x.setWidth 8).toInt % 2 ^ 8)).signExtend 32 =
      (f 8 (x.setWidth 8) (y.setWidth 8)).signExtend 32
    rw [hbyte, hbyte, hmod, h]
  · have hu := hu.resolve_left (by simp)
    have h := hF 8 (x.setWidth 8) (y.setWidth 8)
    show BitVec.ofNat 32 (F 8 (x.toNat % 2 ^ 8) (y.toNat % 2 ^ 8) (y.toNat % 2 ^ 8 % 8) x.toInt % 2 ^ 8 % 2 ^ 8) =
      (f 8 (x.setWidth 8) (y.setWidth 8)).setWidth 32
    rw [hbyte, hbyte, hu _ _ _ _ _ (x.setWidth 8).toInt, ← h]
    exact BitVec.eq_of_toNat_eq (by simp)

/-- A strip of a bitwise instruction. -/
theorem stripRuns_bitwise (h : s.StripAt k t p) (hst : isVstore p.instr = false) (hty : ty ∈ [VType.i32, .i8, .u8])
    {F : Nat → Nat → Nat → Nat → Int → Nat} {f : (w : Nat) → BitVec w → BitVec w → BitVec w} (hF : BitOp F f)
    (hu : ty ≠ .u8 ∨ Unsigned F)
    (hres : stripRes p.instr (s.stripCtx s.subject.core t p) = bitwise (s.stripCtx s.subject.core t p) ty vd a b F) :
    s.StripRuns s.subject.core k t vd ((s.stripCtx s.subject.core t p).act ty) fun l w fl =>
      w = bitLane ty f (t.a.lane a l) (t.a.lane b l) ∧ fl = 0 := by
  refine stripRuns_of_words (exec_stripExecute h hst) _ (hres.trans ?_) fun _ hl => VCtx.act_lt hl
  simp only [← placeLane_bits hty hF hu]
  rfl

theorem bitOp_and : BitOp (fun _ a b _ _ => a &&& b) fun _ a b => a &&& b := fun w x y => by
  dsimp only
  rw [← BitVec.toNat_and, BitVec.ofNat_toNat, BitVec.setWidth_eq]

theorem bitOp_or : BitOp (fun _ a b _ _ => a ||| b) fun _ a b => a ||| b := fun w x y => by
  dsimp only
  rw [← BitVec.toNat_or, BitVec.ofNat_toNat, BitVec.setWidth_eq]

theorem bitOp_xor : BitOp (fun _ a b _ _ => a ^^^ b) fun _ a b => a ^^^ b := fun w x y => by
  dsimp only
  rw [← BitVec.toNat_xor, BitVec.ofNat_toNat, BitVec.setWidth_eq]

theorem bitOp_shl : BitOp (fun _ a _ n _ => a * 2 ^ n) fun w a b => a <<< (b.toNat % w) := fun w x y =>
  BitVec.eq_of_toNat_eq (by rw [BitVec.toNat_ofNat, BitVec.toNat_shiftLeft, Nat.shiftLeft_eq])

theorem bitOp_shr : BitOp (fun _ a _ n _ => a / 2 ^ n) fun w a b => a >>> (b.toNat % w) := fun w x y => by
  dsimp only
  rw [← Nat.shiftRight_eq_div_pow, ← BitVec.toNat_ushiftRight, BitVec.ofNat_toNat, BitVec.setWidth_eq]

theorem bitOp_sra : BitOp (fun w _ _ n i => (BitVec.ofInt w (i / 2 ^ n)).toNat) fun w a b => a.sshiftRight (b.toNat % w) :=
  fun w x y => by
    dsimp only
    rw [BitVec.ofNat_toNat, BitVec.setWidth_eq, BitVec.sshiftRight, Int.shiftRight_eq_div_pow]
    norm_cast

/-! ### Lanes moved (R155, R159, R165) -/

/-- What a lane of a type keeps of a word that is put there (R146). -/
def laneOf (ty : VType) (w : Word32) : Word32 :=
  match ty with
  | .bf16 | .f16 => (w.setWidth 16 : BitVec 16).setWidth 32
  | .i8 => (w.setWidth 8 : BitVec 8).signExtend 32
  | .u8 => (w.setWidth 8 : BitVec 8).setWidth 32
  | _ => w

theorem placeLane_toNat (ty : VType) {w : Nat} (_ : 32 ≤ w) (x : BitVec w) : placeLane ty x.toNat = laneOf ty (x.setWidth 32) := by
  have half : BitVec.ofNat 32 (x.toNat % 2 ^ 16) = ((x.setWidth 32).setWidth 16 : BitVec 16).setWidth 32 := by
    apply BitVec.eq_of_toNat_eq
    simp only [BitVec.toNat_ofNat, BitVec.toNat_setWidth]
    omega
  have byte : BitVec.ofNat 8 x.toNat = (x.setWidth 32).setWidth 8 := by
    apply BitVec.eq_of_toNat_eq
    simp only [BitVec.toNat_ofNat, BitVec.toNat_setWidth]
    omega
  cases ty with
  | bf16 | f16 => exact half
  | i8 => exact congrArg (BitVec.signExtend 32) byte
  | u8 =>
    show BitVec.ofNat 32 (x.toNat % 2 ^ 8) = ((x.setWidth 32).setWidth 8 : BitVec 8).setWidth 32
    apply BitVec.eq_of_toNat_eq
    simp only [BitVec.toNat_ofNat, BitVec.toNat_setWidth]
    omega
  | f32 | i32 | c32 => exact BitVec.ofNat_toNat 32 x

theorem placeLane_elemBits (ty : VType) (w : Word32) : placeLane ty (elemBits ty w) = laneOf ty w := by
  have h := placeLane_toNat ty (Nat.le_refl 32) w
  rw [BitVec.setWidth_eq] at h
  rw [← h]
  have byte : BitVec.ofNat 8 (w.toNat % 2 ^ 8) = BitVec.ofNat 8 w.toNat := BitVec.eq_of_toNat_eq (by simp)
  cases ty with
  | bf16 | f16 | u8 => simp [placeLane, elemBits, laneBytes]
  | i8 => exact congrArg (BitVec.signExtend 32) byte
  | f32 | i32 | c32 => exact congrArg (BitVec.ofNat 32) (Nat.mod_eq_of_lt w.isLt)

/-- The lanes of a strip's half below VL, in the two ways to name them. -/
theorem halfLanes_filter (odd : Bool) (vl : Nat) :
    let lo := if odd then 32 else 0
    ((List.range (lo + 32)).drop lo).filter (fun l => decide (l < vl)) =
      (List.range 64).filter fun l => decide (lo ≤ l ∧ l < lo + 32 ∧ l < vl) := by
  intro lo
  have half : (List.range (lo + 32)).drop lo = (List.range 64).filter fun l => decide (lo ≤ l ∧ l < lo + 32) := by
    cases odd <;> decide
  rw [half, List.filter_filter]
  congr 1
  funext l
  simp only [← Bool.decide_and, decide_eq_decide]
  omega

theorem stripRuns_sel (h : s.StripAt k t p) (hi : p.instr = .vsel ty vd a b) :
    let lo := if p.odd then 32 else 0
    s.StripRuns s.subject.core k t vd ((List.range 64).filter fun l => lo ≤ l ∧ l < lo + 32 ∧ l < vlOf p.vctl) fun l w fl =>
      w = laneOf ty (t.a.lane (if t.a.kbit (midxOf p.vctl) l then a else b) l) ∧ fl = 0 := by
  refine stripRuns_of_words (exec_stripExecute h (by rw [hi]; rfl)) _ ?_ fun l hl => ?_
  · simp only [← placeLane_elemBits, ← halfLanes_filter]
    rw [hi]
    rfl
  · simpa using (List.mem_filter.1 hl).1

theorem stripRuns_bcast (h : s.StripAt k t p) {rs1 : XReg} (hi : p.instr = .vbcast ty vd rs1) :
    s.StripRuns s.subject.core k t vd ((s.stripCtx s.subject.core t p).act ty) fun l w fl =>
      w = (if ty = .c32 then (p.scalar >>> (32 * (l % 2))).setWidth 32 else laneOf ty (p.scalar.setWidth 32)) ∧ fl = 0 := by
  refine stripRuns_of_words (exec_stripExecute h (by rw [hi]; rfl)) _ ?_ fun _ hl => VCtx.act_lt hl
  have hpart (n : Nat) : (p.scalar >>> n).setWidth 32 = BitVec.ofNat 32 (p.scalar.toNat / 2 ^ n) := by
    apply BitVec.eq_of_toNat_eq
    rw [BitVec.toNat_setWidth, BitVec.toNat_ushiftRight, Nat.shiftRight_eq_div_pow, BitVec.toNat_ofNat]
  simp only [← placeLane_toNat ty (show 32 ≤ 64 by omega), hpart]
  rw [hi]
  rfl

theorem stripRuns_ins (h : s.StripAt k t p) {rs1 rs2 : XReg} (hi : p.instr = .vins ty vd rs1 rs2) :
    s.StripRuns s.subject.core k t vd (if p.last then [p.scalar2.toNat % if t.paired then 64 else 32] else []) fun _ w fl =>
      w = laneOf ty (p.scalar.setWidth 32) ∧ fl = 0 := by
  refine stripRuns_of_words (exec_stripExecute h (by rw [hi]; rfl)) (fun _ => laneOf ty (p.scalar.setWidth 32)) ?_ fun l hl => ?_
  · rw [hi, ← placeLane_toNat ty (show 32 ≤ 64 by omega)]
    show insRes (s.stripCtx s.subject.core t p) ty vd = _
    unfold insRes State.stripCtx
    cases p.last <;> rfl
  · split at hl
    · rw [List.mem_singleton.1 hl]
      exact lt_of_lt_of_le (Nat.mod_lt _ (by split <;> omega)) (by split <;> omega)
    · cases hl

theorem VCtx.reduced_lt {x : VCtx} {l : Nat} (h : l ∈ x.reduced ty) : l < 64 := by
  unfold VCtx.reduced at h
  split at h
  · exact activeLanes_lt h
  · cases h

theorem stripRuns_perm (h : s.StripAt k t p) (hi : p.instr = .vperm ty vd a b) :
    s.StripRuns s.subject.core k t vd ((s.stripCtx s.subject.core t p).reduced ty) fun l w fl =>
      w = t.a.lane a ((t.a.lane b l).toNat % if t.paired then 64 else 32) ∧ fl = 0 := by
  refine stripRuns_of_words (exec_stripExecute h (by rw [hi]; rfl)) _ ?_ fun _ hl => VCtx.reduced_lt hl
  rw [hi]
  show permRes (s.stripCtx s.subject.core t p) ty vd a b = _
  unfold permRes VCtx.reduced State.stripCtx
  cases p.last <;> rfl

theorem stripRuns_slide (h : s.StripAt k t p) {rs2 : XReg} (hi : p.instr = .vslide ty vd a rs2) :
    s.StripRuns s.subject.core k t vd ((s.stripCtx s.subject.core t p).reduced ty) fun l w fl =>
      w = (let j : Int := l + p.scalar.toInt
        if 0 ≤ j ∧ j < (vlOf p.vctl : Int) then t.a.lane a j.toNat else 0) ∧ fl = 0 := by
  refine stripRuns_of_words (exec_stripExecute h (by rw [hi]; rfl)) _ ?_ fun _ hl => VCtx.reduced_lt hl
  rw [hi]
  show slideRes (s.stripCtx s.subject.core t p) ty vd a = _
  unfold slideRes VCtx.reduced State.stripCtx
  cases p.last <;> rfl

/-! ### Masks (R166) -/

/-- Without a chunk of the thread a strip writes its registers alone (R154). -/
theorem modArchFrom_alone (hch : t.chunk = none) (hcl : t.closed = none) (no : Nat) (f : Arch → Arch) :
    t.modArchFrom no f = { t with a := f t.a } := by
  obtain ⟨⟩ := t
  subst hch hcl
  rfl

/-- The last strip of an instruction on mask registers. -/
theorem exec_mask (h : s.StripAt k t p) (hst : isVstore p.instr = false) (hl : p.last = true) (hch : t.chunk = none)
    (hcl : t.closed = none) {kd : KReg} {v : Word}
    (hres : stripRes p.instr (s.stripCtx s.subject.core t p) = kopRes (s.stripCtx s.subject.core t p) kd v) :
    exec .stripExecute s = .next (s.setThr s.subject.core k { t.wk kd v with
      vq := markDone (fun p => { p with done := some (s.core s.subject.core).cycle, flags := 0, lanes := List.replicate 5 none })
        t.vq }) := by
  have hlast : (s.stripCtx s.subject.core t p).last = true := hl
  rw [exec_stripExecute h hst, hres, kopRes, if_pos hlast, Thread.stripped, modArchFrom_alone hch hcl]
  simp only [bne_self_eq_false, Bool.or_false]
  rfl

/-! ### Completion (R152, R153) -/

/-- A strip that has executed completes its instruction's latency later (R152). -/
theorem Strip.over_eq (p : Strip) (now : Nat) :
    p.over now = p.done.any fun d => decide (d + latencyOf p.instr p.local_ ≤ now) := by
  unfold Strip.over
  cases p.done <;> rfl

theorem exec_stripComplete (hk : s.subject.slot = k) (ht : s.slot s.subject.core k = .thread t) :
    exec .stripComplete s = .next (s.completeStrip s.subject.core k) := onThread_eq hk ht fun c k _ => s.completeStrip c k

theorem completeStrip_none {c : Nat} (ht : s.slot c k = .thread t)
    (h : (t.vq.find? fun p => p.over (s.core c).cycle) = none) : s.completeStrip c k = s := by
  simp only [State.completeStrip, State.thr_of_slot ht, h]

/-- A strip completes for a thread that does not wait for it: its flags enter `vstat` (R31, R152). -/
theorem completeStrip_runnable {c : Nat} (ht : s.slot c k = .thread t) (hst : t.st = .runnable) (hch : t.chunk = none)
    (hcl : t.closed = none) (h : (t.vq.find? fun p => p.over (s.core c).cycle) = some p) :
    s.completeStrip c k = s.setThr c k { t with
      vq := t.vq.eraseP fun p => p.over (s.core c).cycle
      a := { t.a with csr := { t.a.csr with vstat := t.a.csr.vstat ||| p.flags.setWidth 64 } } } := by
  simp only [State.completeStrip, State.thr_of_slot ht, h, hst, modArchFrom_alone hch hcl, State.modThr]
  rfl

end

/-- Settles O39: a strip writes what `stripRes` computes to its thread; each clause is then the lemma that says what it
computes for a lane. -/
theorem stripsExecuteAndComplete : Obligations.StripsExecuteAndComplete := by
  unfold Obligations.StripsExecuteAndComplete
  refine ⟨?lanes, ?masks, ?completes⟩
  case lanes =>
    intro s k t p ty vd vs1 vs2 kd rs1 rs2 hk ht hn he
    have h : s.StripAt k t p := ⟨hk, ht, hn, he⟩
    have res {i : Instr} (hi : p.instr = i) : stripRes p.instr (s.stripCtx s.subject.core t p) =
      stripRes i (s.stripCtx s.subject.core t p) := by rw [hi]
    have reg {i : Instr} (hi : p.instr = i) (hs : isVstore i = false) : isVstore p.instr = false := hi ▸ hs
    intro c lo act all vlmax x writes
    refine ⟨fun hty => ?ints, ⟨stripRuns_sel h, stripRuns_bcast h, stripRuns_ins h⟩, stripRuns_perm h, stripRuns_slide h⟩
    case ints =>
      intro n gives compares bitwise
      -- one shape for each kind of instruction: what `stripRes` makes of it, and the operation that the statement names
      have binary {i : Instr} {f : Int → Int → Int → Int} (hs : isVstore i = false)
          (hr : ∀ x, stripRes i x = intRes x ty vd vs1 vs2 f) : gives i f :=
        fun hi => stripRuns_int h (reg hi hs) ((res hi).trans (hr _))
      have unary {i : Instr} {f : Int → Int} (hs : isVstore i = false)
          (hr : ∀ x, stripRes i x = intRes x ty vd vs1 vs1 fun a _ _ => f a) : gives i fun a _ _ => f a :=
        fun hi => stripRuns_int (b := vs1) (fi := fun a _ _ => f a) h (reg hi hs) ((res hi).trans (hr _))
      have compared {i : Instr} {any : Bool} {ff : Val → Val → Bool} {g : Int → Int → Bool} (hs : isVstore i = false)
          (hr : ∀ x, stripRes i x = compare x ty kd vs1 vs2 any ff g) : compares i g :=
        fun hi => stripCompares_int h (reg hi hs) hty ((res hi).trans (hr _))
      have bits {i : Instr} {F : Nat → Nat → Nat → Nat → Int → Nat} {f : (w : Nat) → BitVec w → BitVec w → BitVec w}
          (hF : BitOp F f) (hu : ty ≠ .u8 ∨ Unsigned F) (hs : isVstore i = false)
          (hr : ∀ x, stripRes i x = Machine.bitwise x ty vd vs1 vs2 F) : bitwise i f :=
        fun hi => stripRuns_bitwise h (reg hi hs) hty hF hu ((res hi).trans (hr _))
      have reduces {i : Instr} {mx : Bool} (hs : isVstore i = false) (hr : ∀ x, stripRes i x = redFold x ty mx vd vs1)
          (hi : p.instr = i) := stripRuns_redFold_int h (reg hi hs) hty ((res hi).trans (hr _))
      refine ⟨?vadd, ?vsub, ?vmul, ?vfma, ?vfms, ?vmin, ?vmax, ?vabs, ?vneg, ?vceq, ?vclt, ?vcle,
        ?vand, ?vor, ?vxor, ?vshl, ?vshr, ?vsra, ?vredadd, ?vredmax, ?vredmin⟩
      case vadd => exact binary (f := fun a b _ => a + b) rfl fun _ => arith_int hty _ _ _ _ (fun a b _ => ([], [a, b])) _
      case vsub => exact binary (f := fun a b _ => a - b) rfl fun _ => arith_int hty _ _ _ _ (fun a b _ => ([], [a, b.flip])) _
      case vmul => exact binary (f := fun a b _ => a * b) rfl fun _ => arith_int hty _ _ _ _ (fun a b _ => ([(a, b)], [])) _
      case vfma => exact binary (f := fun a b d => a * b + d) rfl fun _ => arith_int hty _ _ _ _ (fun a b d => ([(a, b)], [d])) _
      case vfms => exact binary (f := fun a b d => a * b - d) rfl fun _ => arith_int hty _ _ _ _ (fun a b d => ([(a, b)], [d.flip])) _
      case vmin => exact binary (f := fun a b _ => min a b) rfl fun _ => minmax_int hty ..
      case vmax => exact binary (f := fun a b _ => max a b) rfl fun _ => minmax_int hty ..
      case vabs => exact unary (f := fun a => |a|) rfl fun _ => signOp_int hty ..
      case vneg => exact unary (f := fun a => -a) rfl fun _ => signOp_int hty ..
      case vceq => exact compared (g := fun a b => decide (a = b)) rfl fun _ => rfl
      case vclt => exact compared (g := fun a b => decide (a < b)) rfl fun _ => rfl
      case vcle => exact compared (ff := fun x y => x.lt y || x.eq y) (g := fun a b => decide (a ≤ b)) rfl fun _ => rfl
      case vand => exact bits (f := fun _ a b => a &&& b) bitOp_and (.inr fun _ _ _ _ _ _ => rfl) rfl fun _ => rfl
      case vor => exact bits (f := fun _ a b => a ||| b) bitOp_or (.inr fun _ _ _ _ _ _ => rfl) rfl fun _ => rfl
      case vxor => exact bits (f := fun _ a b => a ^^^ b) bitOp_xor (.inr fun _ _ _ _ _ _ => rfl) rfl fun _ => rfl
      case vshl => exact bits (f := fun w a b => a <<< (b.toNat % w)) bitOp_shl (.inr fun _ _ _ _ _ _ => rfl) rfl fun _ => rfl
      case vshr => exact bits (f := fun w a b => a >>> (b.toNat % w)) bitOp_shr (.inr fun _ _ _ _ _ _ => rfl) rfl fun _ => rfl
      case vsra => exact fun hu => bits (f := fun w a b => a.sshiftRight (b.toNat % w)) bitOp_sra (.inl hu) rfl fun _ => rfl
      case vredadd => exact stripRuns_redAdd_int h hty
      case vredmax => exact reduces (mx := true) rfl fun _ => rfl
      case vredmin => exact reduces (mx := false) rfl fun _ => rfl
  case masks =>
    intro s k t p kd ka kb hk ht hn he hl hch hcl
    have h : s.StripAt k t p := ⟨hk, ht, hn, he⟩
    refine ⟨fun hi => ?_, fun hi => ?_, fun hi => ?_, fun hi => ?_⟩ <;>
      exact exec_mask h (by rw [hi]; rfl) hl hch hcl (by rw [hi]; rfl)
  case completes =>
    intro s k t hk ht hst hch hcl c due
    have hdue : due = fun p => p.over (s.core c).cycle := funext fun p => (p.over_eq _).symm
    rw [hdue]
    rw [exec_stripComplete hk ht]
    exact ⟨fun h => congrArg _ (completeStrip_none ht h), fun p h => congrArg _ (completeStrip_runnable ht hst hch hcl h)⟩

end Sys2Proof.Machine
end

section
/-! Issuing vector loads and stores: addresses, checks and failures (R147, R159, R160, R184): parts of O37. -/

namespace Sys2Proof.Machine

section
variable {s s0 s1 : State} {c : Nat} {k : SlotN} {t : Thread} {need : Need} {tg : Nat → Target} {n : Nat} {i : Instr}
  {as_ : List (Nat × Nat)}

/-! ### Elements checked and translated (R160) -/

/-- The elements of lanes and addresses, with the places that tg gives them. -/
def placed (tg : Nat → Target) (as_ : List (Nat × Nat)) : List (Nat × Nat × Target) := as_.map fun e => (e.1, e.2, tg e.1)

theorem State.Locates.cachesOnly (h : State.Locates c need tg s as_ s0) : s.CachesOnly s0 := by
  induction as_ generalizing s with
  | nil =>
    obtain rfl : s0 = s := h
    exact .refl s0
  | cons e es ih =>
    obtain ⟨s', hr, h⟩ := h
    have hc := cachesOnly_resolve s c e.2 need true
    rw [hr] at hc
    exact hc.trans (ih h)

theorem locateAll_prefix {xs : List (Nat × Nat)} (h : State.Locates c need tg s xs s0) (k : SlotN) (n : Nat)
    (ys : List (Nat × Nat)) (acc : List (Nat × Nat × Target)) :
    locateAll s c k need n (xs ++ ys) acc = locateAll s0 c k need n ys ((placed tg xs).reverse ++ acc) := by
  induction xs generalizing s acc with
  | nil =>
    obtain rfl : s0 = s := h
    rfl
  | cons e es ih =>
    obtain ⟨s', hr, h⟩ := h
    simp only [List.cons_append, locateAll, hr, ih h, placed, List.map_cons, List.reverse_cons, List.append_assoc, List.nil_append]

/-- What issuing a vector load or store does about its elements before the rest of the instruction (R160). -/
def issueElems (s : State) (c : Nat) (k : SlotN) (need : Need) (n : Nat) (as_ : List (Nat × Nat))
    (rest : State → List (Nat × Nat × Target) → Got Completion) : Got Completion :=
  match as_.find? fun e => e.2 % n != 0 with
  | some e =>
    trap s c k { cause := if need = .store then 6 else 4, val := BitVec.ofNat 64 e.2, val2 := BitVec.ofNat 64 e.1 }
  | none => (locateAll s c k need n as_ []).bind rest

variable {rest : State → List (Nat × Nat × Target) → Got Completion}

theorem issueElems_aligned (s : State) (c : Nat) (k : SlotN) (need : Need)
    (rest : State → List (Nat × Nat × Target) → Got Completion) (ha : ∀ e ∈ as_, e.2 % n = 0) :
    issueElems s c k need n as_ rest = (locateAll s c k need n as_ []).bind rest := by
  have hf : (as_.find? fun e => e.2 % n != 0) = none := List.find?_eq_none.2 fun e he => by simp [ha e he]
  simp only [issueElems, hf]

theorem issueElems_located (ha : ∀ e ∈ as_, e.2 % n = 0) (h : State.Locates c need tg s as_ s0) :
    issueElems s c k need n as_ rest = rest s0 (placed tg as_) := by
  have hl := locateAll_prefix h k n [] []
  rw [List.append_nil, List.append_nil] at hl
  rw [issueElems_aligned s c k need rest ha, hl, locateAll, List.reverse_reverse, Got.bind_ok]

/-- The trap of an element names its lane (R160). -/
theorem laneTrap_eq (p : Trap) (l : Nat) : laneTrap p l =
    { p with val2 := BitVec.ofNat 64 (if p.cause = 32 then p.val2.toNat % 256 + l * 256 else l) } := by
  unfold laneTrap
  split <;> rfl

/-- How a vector load or store fails: at its first misaligned element, or at the first that cannot be translated (R160). -/
theorem issueElems_fails (hs : s.slot c k = .thread t)
    (hx : exec i s = .next (s.afterBody c k 4 (issueElems s c k need n as_ rest))) :
    (∀ e, (as_.find? fun e => e.2 % n != 0) = some e → s.Traps c k t i
      { cause := if need = .store then 6 else 4, val := BitVec.ofNat 64 e.2, val2 := BitVec.ofNat 64 e.1 }) ∧
    (∀ xs e ys s0 s1 p, as_ = xs ++ e :: ys → (∀ x ∈ as_, x.2 % n = 0) →
      State.Locates c need tg s xs s0 → t.trapReady = true →
      (s0.resolve c e.2 need = (s1, .error (.trap p)) → exec i s = .next (s1.takeTrap c k { p with
        val2 := BitVec.ofNat 64 (if p.cause = 32 then p.val2.toNat % 256 + e.1 * 256 else e.1) })) ∧
      (s0.resolve c e.2 need = (s1, .error (.table p)) → exec i s = .next (s1.takeTrap c k p))) := by
  refine ⟨fun e hf ht => ?_, fun xs e ys s0 s1 p has ha hl ht => ?_⟩
  · rw [hx, issueElems, hf]
    simp only [trap_ready hs ht]
    rfl
  · have hat {err : AccErr} (hr : s0.resolve c e.2 need = (s1, .error err)) : s1.slot c k = .thread t ∧
        issueElems s c k need n as_ rest = (laneStop s1 c k err e.1).bind rest := by
      have hc := cachesOnly_resolve s0 c e.2 need true
      rw [hr] at hc
      refine ⟨(hc.slot c k).trans ((hl.cachesOnly.slot c k).trans hs), ?_⟩
      rw [issueElems_aligned s c k need rest ha, has, locateAll_prefix hl]
      simp only [locateAll, hr]
    refine ⟨fun hr => ?_, fun hr => ?_⟩
    · obtain ⟨h1, hi⟩ := hat hr
      rw [hx, hi, laneStop, trap_ready h1 ht, laneTrap_eq]
      rfl
    · obtain ⟨h1, hi⟩ := hat hr
      rw [hx, hi, laneStop, trap_ready h1 ht]
      rfl

/-! ### The instructions (R150, R159) -/

/-- The strips fit the queue, and what the addresses depend on is there (R150). -/
structure Thread.CanIssue (t : Thread) (vi : Option VNum) : Prop where
  room : t.pendingStrips + t.stripsFor ≤ 8
  mask : menOf t.a.csr.vctl = true → t.kPending (midxOf t.a.csr.vctl) = false
  index : ∀ r, vi = some r → t.vPending r = false

theorem addressWait_over (hs : s.slot c k = .thread t) {vi : Option VNum} (h : t.CanIssue vi) : addressWait s c k vi = .ok s () := by
  obtain ⟨hroom, hmask, hindex⟩ := h
  have hm : (if menOf t.a.csr.vctl then kregWait s c k (midxOf t.a.csr.vctl) else .ok s ()) = .ok s () := by
    split
    · rw [kregWait, State.thr_of_slot hs, hmask ‹_›]
      rfl
    · rfl
  simp only [addressWait, State.thr_of_slot hs, stripRoomWait_room hs hroom, Got.bind_ok, hm]
  cases vi with
  | none => rfl
  | some r =>
    simp only [vregWait, State.thr_of_slot hs, hindex r rfl]
    rfl

theorem laneAddrs_eq (ty : VType) (act : List Nat) (f : Nat → Word) : laneAddrs ty act f =
    act.map fun l => (l, if ty = .c32 then (f (l / 2) + BitVec.ofNat 64 (4 * (l % 2))).toNat else (f l).toNat) := by
  unfold laneAddrs
  refine List.map_congr_left fun l _ => ?_
  split <;> rfl

/-- A vector memory instruction whose operands are there goes on to its elements (R159, R160). -/
theorem vmem_ready {src : List XReg} (h : s.Ready c k t { src := src }) {vi : Option VNum} (hc : t.CanIssue vi) (i : Instr)
    (ty : VType) (store : Bool) (f : Thread → Nat → Word) : vmem i ty store src vi f s = .next (s.afterBody c k 4 (
      let as_ := (activeLanes t.a t.a.csr.vctl ty 0 64).map fun l =>
        (l, if ty = .c32 then (f t (l / 2) + BitVec.ofNat 64 (4 * (l % 2))).toNat else (f t l).toNat)
      if store then vstoreAt s c k i (laneBytes ty) as_ else vloadAt s c k i (laneBytes ty) as_)) := by
  unfold vmem
  rw [h.runs]
  simp only [addressWait_over h.slot hc, Got.bind_ok, h.thr, laneAddrs_eq]

/-- The lanes of VLDL and VSTL with their addresses in the lane slices (R159, R184). -/
def sliceAddrs (ty : VType) (b : Word) (act : List Nat) : List (Nat × Nat) :=
  act.map fun l => (l, 0xFFFFFFFF00000000 + (slicePlace ty b l).1 * 4096 + (slicePlace ty b l).2)

theorem vlane_ready {rs1 : XReg} (h : s.Ready c k t { src := [rs1] }) (hc : t.CanIssue none) (i : Instr) (ty : VType) (store : Bool)
    (ha : (t.a.xr rs1).toNat % 4 = 0) : vlane i ty store rs1 s = .next (s.afterBody c k 4 (
      let as_ := sliceAddrs ty (t.a.xr rs1) (activeLanes t.a t.a.csr.vctl ty 0 64)
      if store then vstoreAt s c k i 4 as_ else vloadAt s c k i 4 as_)) := by
  unfold vlane
  rw [h.runs]
  simp only [addressWait_over h.slot hc, Got.bind_ok, h.thr, h.xv (r := rs1) (by simp), ha, sliceAddrs]
  cases activeLanes t.a t.a.csr.vctl ty 0 64 <;> rfl

/-- VLDL and VSTL with a misaligned base trap with their first active lane (R160). -/
theorem vlane_traps {rs1 : XReg} (h : s.Ready c k t { src := [rs1] }) (hc : t.CanIssue none) (i : Instr) (ty : VType) (store : Bool)
    (ha : (t.a.xr rs1).toNat % 4 ≠ 0) {l : Nat} (hl : (activeLanes t.a t.a.csr.vctl ty 0 64).head? = some l)
    (ht : t.trapReady = true) : vlane i ty store rs1 s = .next (s.takeTrap c k {
      cause := if store then 6 else 4, val := t.a.xr rs1 + BitVec.ofNat 64 (4 * ((if ty = .c32 then l / 2 else l) / 32)),
      val2 := BitVec.ofNat 64 l }) := by
  obtain ⟨ls, hact⟩ := List.head?_eq_some_iff.1 hl
  unfold vlane
  rw [h.runs]
  simp only [addressWait_over h.slot hc, Got.bind_ok, h.thr, h.xv (r := rs1) (by simp), hact, List.map_cons, ne_eq, ha,
    not_false_eq_true, if_true, trap_ready h.slot ht]
  rfl

/-! ### Strips entered (R60, R150, R160) -/

/-- What a store writes with its second strip, `b` being the elements of lanes 32 to 63 (R60, R160). -/
def lateEl (i : Instr) (b : List VEl) (e : VEl) : Bool :=
  match i with
  | .vst _ _ _ | .vsts _ _ _ _ | .vscat _ _ _ _ => b.any fun x => x.key / 64 == e.key / 64
  | .vstl _ _ _ => b != []
  | _ => false

theorem splitEls_eq (i : Instr) (els : List VEl) :
    let a := els.filter fun e => e.lane < 32
    let b := els.filter fun e => 32 ≤ e.lane
    splitEls i els = (a.filter fun e => !lateEl i b e, a.filter (lateEl i b) ++ b) := by
  intro a b
  have other (hi : isVstore i = false) : lateEl i b = fun _ => false := by
    funext e
    unfold lateEl
    split
    case h_5 => rfl
    all_goals cases hi
  by_cases hi : isVstore i = true
  · unfold isVstore at hi
    split at hi
    case h_5 => cases hi
    all_goals rfl
  · rw [Bool.not_eq_true] at hi
    simp only [splitEls, hi, other hi, Bool.false_and]
    rfl

theorem enqueue_entered (hs : s.slot c k = .thread t) (i : Instr) (els : List VEl) (logged alone away : Bool) :
    s.enqueue c k i 0 0 els logged alone away =
      s.setThr c k (t.entered (s.core c).cycle s.curWord i els logged alone away) := by
  have h2 : (t.stripsFor == 2) = (t.paired && decide (32 < t.a.csr.vl)) := by
    unfold Thread.stripsFor
    split <;> simp_all
  simp only [State.enqueue, State.modThr, State.thr_of_slot hs, h2, splitEls_eq]
  rfl

end

end Sys2Proof.Machine
end

section
/-! Issuing vector loads (R160, R188, R238, R241): parts of O37. -/

namespace Sys2Proof.Machine

section
variable {s s0 s1 : State} {c : Nat} {k : SlotN} {t u w : Thread} {tg : Nat → Target} {n : Nat} {i : Instr}
  {as_ : List (Nat × Nat)}

/-! ### Elements of a strip -/

theorem isGlobal_iff {x : Target} : isGlobal x = true ↔ ∃ p, x = .global p := by
  cases x <;> simp [isGlobal]

/-- The elements as a strip holds them, with the values that were read at issue. -/
def elsOf (tg : Nat → Target) (n : Nat) (val : Nat → Option Nat) (as_ : List (Nat × Nat)) : List VEl :=
  as_.map fun e => ⟨e.1, (tg e.1).key, n, vplaceOf (tg e.1), val e.1⟩

/-- What a load does once its elements are translated (R160). -/
def loadElems (c : Nat) (k : SlotN) (i : Instr) (n : Nat) (s : State) (es : List (Nat × Nat × Target)) : Got Completion :=
  (waitsFor s c k false n es).bind fun s _ =>
  let away := es.any fun e => !e.2.2.isLocal
  (if away then overlapWait s c k 0 (2 ^ 64) else .ok s ()).bind fun s _ =>
  (readAll s c k n es []).bind fun s els =>
  let s1 := s.enqueue c k i 0 0 els false false away
  if away then replyWait s1 c k {} else .ok s1 {}

theorem vloadAt_eq (s : State) (c : Nat) (k : SlotN) (i : Instr) (n : Nat) (as_ : List (Nat × Nat)) :
    vloadAt s c k i n as_ = issueElems s c k .load n as_ (loadElems c k i n) := rfl

/-- The first elements of a load are read when its strip executes if they lie in the own memories. -/
theorem readAll_own {xs : List (Nat × Nat)} (h : ∀ x ∈ xs, (tg x.1).isLocal = true ∧ badIn s.bad (tg x.1).key n = none)
    (ys : List (Nat × Nat)) (acc : List VEl) :
    readAll s c k n (placed tg (xs ++ ys)) acc = readAll s c k n (placed tg ys) ((elsOf tg n (fun _ => none) xs).reverse ++ acc) := by
  induction xs generalizing acc with
  | nil => rfl
  | cons x xs ih =>
    obtain ⟨hl, hb⟩ := h x List.mem_cons_self
    have ih := ih fun y hy => h y (List.mem_cons_of_mem _ hy)
    simp only [placed, elsOf, List.cons_append, List.map_cons, List.reverse_cons, List.append_assoc, List.nil_append] at ih ⊢
    simp only [readAll, hb, hl, if_true, ih]

theorem waitsFor_free (hs : s.slot c k = .thread t) (h : ∀ e ∈ as_, s.Free c k t (tg e.1) n) :
    waitsFor s c k false n (placed tg as_) = .ok s () := by
  induction as_ with
  | nil => rfl
  | cons e es ih =>
    have he := h e List.mem_cons_self
    have ih := ih fun x hx => h x (List.mem_cons_of_mem _ hx)
    simp only [placed] at ih
    simp only [placed, List.map_cons, waitsFor, Bool.false_eq_true, if_false, destWait_free hs he, lockWait_free he, Got.bind_ok, ih]

/-- Some element lies outside the own memories. -/
def anyAway (tg : Nat → Target) (as_ : List (Nat × Nat)) : Bool := as_.any fun e => !(tg e.1).isLocal

theorem anyAway_eq_true : anyAway tg as_ = true ↔ ∃ e ∈ as_, (tg e.1).isLocal = false := by simp [anyAway]

/-- A load whose places are free reads its elements, once no access of the thread is outstanding if some lie elsewhere (R151, R248). -/
theorem loadElems_reads (hs : s.slot c k = .thread t) (hf : ∀ e ∈ as_, s.Free c k t (tg e.1) n)
    (ho : (∃ e ∈ as_, (tg e.1).isLocal = false) → t.overlaps 0 (2 ^ 64) = false) :
    loadElems c k i n s (placed tg as_) = (readAll s c k n (placed tg as_) []).bind fun s els =>
      let s1 := s.enqueue c k i 0 0 els false false (anyAway tg as_)
      if anyAway tg as_ then replyWait s1 c k {} else .ok s1 {} := by
  have haway : ((placed tg as_).any fun e => !e.2.2.isLocal) = anyAway tg as_ := by
    simp only [placed, List.any_map, anyAway]
    rfl
  have hwait : (if anyAway tg as_ then overlapWait s c k 0 (2 ^ 64) else .ok s ()) = .ok s () := by
    split
    · exact overlapWait_clear hs (ho (anyAway_eq_true.1 ‹_›))
    · rfl
  simp only [loadElems, waitsFor_free hs hf, Got.bind_ok, haway, hwait]

/-- A load from the own memories enters its strips and completes (R160). -/
theorem loadElems_own (hs : s.slot c k = .thread t) (hf : ∀ e ∈ as_, s.Free c k t (tg e.1) n)
    (h : ∀ e ∈ as_, (tg e.1).isLocal = true ∧ badIn s.bad (tg e.1).key n = none) :
    loadElems c k i n s (placed tg as_) = .ok (s.setThr c k (t.entered (s.core c).cycle s.curWord i
      (elsOf tg n (fun _ => none) as_) false false false)) {} := by
  have hnone : ¬∃ e ∈ as_, (tg e.1).isLocal = false := fun ⟨e, he, hl⟩ => by simp [(h e he).1] at hl
  have haway : anyAway tg as_ = false := by rw [← Bool.not_eq_true, anyAway_eq_true]; exact hnone
  have hread := readAll_own (c := c) (k := k) h [] []
  rw [List.append_nil, List.append_nil] at hread
  rw [loadElems_reads hs hf (absurd · hnone), hread, placed, List.map_nil, readAll, List.reverse_reverse, Got.bind_ok, haway,
    enqueue_entered hs]
  rfl

/-- A load traps at the first element that meets an uncorrectable error, if those before it lie in the own memories (R188). -/
theorem loadElems_bad (hs : s.slot c k = .thread t) (hf : ∀ e ∈ as_, s.Free c k t (tg e.1) n)
    (ho : (∃ e ∈ as_, (tg e.1).isLocal = false) → t.overlaps 0 (2 ^ 64) = false)
    {xs ys : List (Nat × Nat)} {e : Nat × Nat} {b : Nat} (has : as_ = xs ++ e :: ys)
    (h : ∀ x ∈ xs, (tg x.1).isLocal = true ∧ badIn s.bad (tg x.1).key n = none)
    (hb : badIn s.bad (tg e.1).key n = some b) (ht : t.trapReady = true) :
    loadElems c k i n s (placed tg as_) =
      .stop (s.takeTrap c k { cause := 31, val := BitVec.ofNat 64 e.2, val2 := BitVec.ofNat 64 e.1 }) := by
  have hread : readAll s c k n (placed tg as_) [] =
      .stop (s.takeTrap c k { cause := 31, val := BitVec.ofNat 64 e.2, val2 := BitVec.ofNat 64 e.1 }) := by
    rw [has, readAll_own h]
    simp only [placed, List.map_cons, readAll, hb, trap_ready hs ht]
  rw [loadElems_reads hs hf ho, hread, Got.bind_stop]

/-! ### Elements read at issue (R160, R238) -/

/-- The thread u in the state s has read elements since it was t in s0: memory, the clock and what it buffered are as they were. -/
structure State.Reading (s0 : State) (t : Thread) (c : Nat) (k : SlotN) (s : State) (u : Thread) : Prop where
  slot : s.slot c k = .thread u
  mem : s.mem = s0.mem
  bad : s.bad = s0.bad
  curWord : s.curWord = s0.curWord
  cycle : (s.core c).cycle = (s0.core c).cycle
  bufs : SameBufs t u

/-- The value of a lane that is read at issue: translated memory as the thread sees it, another core's scratchpad, a Slate (R160). -/
def State.issueVal (s : State) (t : Thread) (tg : Nat → Target) (n l : Nat) : Option Nat :=
  match tg l with
  | .global p => some (leNat ((List.range n).map fun j => s.seen t (p.pa + j)))
  | .remote _ _ key => some (s.num key n)
  | .slate _ key => some (s.num key n)
  | _ => none

theorem issueVal_own {l : Nat} (h : (tg l).isLocal = true) : s0.issueVal t tg n l = none := by
  unfold State.issueVal
  split
  case h_4 => rfl
  all_goals simp_all [Target.isLocal]

/-- The lines of the translated elements added to those a chunk has read (R241). -/
def linesRead (tg : Nat → Target) (as_ : List (Nat × Nat)) (ls : List Nat) : List Nat :=
  (as_.filter fun e => isGlobal (tg e.1)).foldl (fun ls e => addLine ls ((tg e.1).key / 64)) ls

/-- The thread with the lines of its translated elements in its open chunk. -/
def Thread.readLines (u : Thread) (tg : Nat → Target) (as_ : List (Nat × Nat)) : Thread :=
  { u with chunk := u.chunk.map fun ch => { ch with reads := linesRead tg as_ ch.reads } }

/-- From s and u the chunk that translated elements need is open in s1 and w (R240). -/
def State.Opened (s : State) (c : Nat) (k : SlotN) (u : Thread) (tg : Nat → Target) (as_ : List (Nat × Nat)) (s1 : State)
    (w : Thread) : Prop :=
  if as_.any fun e => isGlobal (tg e.1) then ensureChunk s c k = .ok s1 () ∧ s1.slot c k = .thread w else s1 = s ∧ w = u

theorem ensureChunk_open (hs : s.slot c k = .thread t) (h : ensureChunk s c k = .ok s1 ()) (hu : s1.slot c k = .thread u) :
    ∃ ch, u.chunk = some ch := by
  unfold ensureChunk at h
  rw [State.thr_of_slot hs] at h
  dsimp only at h
  split at h
  next ch hch =>
    simp only [Got.ok.injEq, and_true] at h
    subst h
    obtain rfl : t = u := by simpa [hs] using hu
    exact ⟨ch, hch⟩
  next =>
    split at h
    · contradiction
    · simp only [Got.ok.injEq, and_true] at h
      subst h
      rw [State.slot_modThr, Slot.thread.injEq] at hu
      subst hu
      exact ⟨_, rfl⟩

/-- With a chunk open nothing has to be opened. -/
theorem ensureChunk_already (hs : s.slot c k = .thread t) {ch : Chunk} (hch : t.chunk = some ch) : ensureChunk s c k = .ok s () := by
  simp only [ensureChunk, State.thr_of_slot hs, hch]

theorem opened_none (h : as_.any (fun e => isGlobal (tg e.1)) = false) : s.Opened c k u tg as_ s1 w ↔ s1 = s ∧ w = u := by
  rw [State.Opened, h]
  exact Iff.rfl

/-- A thread with an open chunk needs none opened. -/
theorem opened_already (hs : s.slot c k = .thread u) {ch : Chunk} (hch : u.chunk = some ch) (as_ : List (Nat × Nat)) :
    s.Opened c k u tg as_ s u := by
  unfold State.Opened
  split
  · exact ⟨ensureChunk_already hs hch, hs⟩
  · exact ⟨rfl, rfl⟩

/-- A place outside the own memories that is not translated is read without changing anything (R188). -/
theorem issueVal_here (hr : State.Reading s0 t c k s u) {l a : Nat} (hl : (tg l).isLocal = false) (hg : isGlobal (tg l) = false)
    (hb : badIn s.bad (tg l).key n = none) : readFor s c k a (tg l) n = .ok s (s.bytes (tg l).key n) ∧
      some (leNat (s.bytes (tg l).key n)) = s0.issueVal t tg n l := by
  have hnum (key : Nat) : leNat (s.bytes key n) = s0.num key n := by rw [State.bytes, hr.mem]; rfl
  refine ⟨readFor_here (fun p hp => by rw [hp] at hg; cases hg) hb, ?_⟩
  unfold State.issueVal
  rw [hnum]
  cases h : tg l with
  | lane key => rw [h] at hl; cases hl
  | own off key => rw [h] at hl; cases hl
  | remote d off key => rfl
  | slate d key => rfl
  | global p => rw [h] at hg; cases hg

/-- Translated memory is read as the thread saw it before, its line entering the open chunk (R238, R241). -/
theorem issueVal_global (hr : State.Reading s0 t c k s u) {l a : Nat} {p : Phys} (hp : tg l = .global p)
    (h1 : ensureChunk s c k = .ok s1 ()) (hw : s1.slot c k = .thread w) (hb : badIn s.bad (tg l).key n = none) :
    ∃ s2 bs, readFor s c k a (tg l) n = .ok s2 bs ∧ some (leNat bs) = s0.issueVal t tg n l ∧
      State.Reading s0 t c k s2 (w.modChunk fun ch => { ch with reads := addLine ch.reads ((tg l).key / 64) }) := by
  obtain ⟨hs, hmem, hbad, hword, hcyc, hbufs⟩ := hr
  obtain ⟨ch, hch⟩ := ensureChunk_open hs h1 hw
  obtain ⟨hm1, hb1, hw1, hc1, hbufs1⟩ := ensureChunk_opens hs h1 hw
  obtain ⟨hs2, hm2, hb2, hw2, hc2⟩ := readingLine_same hw p
  have hkey : (tg l).key = p.pa := by rw [hp]; rfl
  rw [hkey] at hb ⊢
  refine ⟨s1.readingLine c k p, _, hp ▸ readFor_global hs h1 hw hch hb, ?_, hs2, (hm2.trans hm1).trans hmem,
    (hb2.trans hb1).trans hbad, (hw2.trans hw1).trans hword, (hc2.trans hc1).trans hcyc,
    (hbufs.trans hbufs1).trans fun key => ⟨?_, rfl⟩⟩
  · simp only [State.issueVal, hp, hbufs.seen hmem]
  · exact bufByte_map (f := fun ch : Chunk => { ch with reads := addLine ch.reads (p.pa / 64) }) (fun _ => rfl) w.chunk key

theorem readLines_nil (u : Thread) (tg : Nat → Target) : u.readLines tg [] = u := by
  obtain ⟨⟩ := u
  simp only [Thread.readLines, linesRead, List.filter_nil, List.foldl_nil, Option.map_id']

theorem readLines_here {e : Nat × Nat} (h : isGlobal (tg e.1) = false) (u : Thread) (es : List (Nat × Nat)) :
    u.readLines tg (e :: es) = u.readLines tg es := by
  simp only [Thread.readLines, linesRead, List.filter_cons, h, Bool.false_eq_true, if_false]

theorem readLines_global {e : Nat × Nat} (h : isGlobal (tg e.1) = true) (u : Thread) (es : List (Nat × Nat)) :
    u.readLines tg (e :: es) =
      (u.modChunk fun ch => { ch with reads := addLine ch.reads ((tg e.1).key / 64) }).readLines tg es := by
  simp only [Thread.readLines, Thread.modChunk, linesRead, List.filter_cons, h, if_true, List.foldl_cons, Option.map_map]
  rfl

/-- The elements of a load are read in order: those outside the own memories now, the lines of the translated ones entering the
chunk, which opens at the first of them (R160, R240, R241). -/
theorem readAll_reads (hr : State.Reading s0 t c k s u) (ho : s.Opened c k u tg as_ s1 w)
    (hb : ∀ e ∈ as_, badIn s0.bad (tg e.1).key n = none) (acc : List VEl) :
    ∃ s', readAll s c k n (placed tg as_) acc = .ok s' (acc.reverse ++ elsOf tg n (s0.issueVal t tg n) as_) ∧
      State.Reading s0 t c k s' (w.readLines tg as_) := by
  induction as_ generalizing s u s1 w acc with
  | nil =>
    obtain ⟨rfl, rfl⟩ : s1 = s ∧ w = u := ho
    exact ⟨s1, by simp [placed, readAll, elsOf], by rwa [readLines_nil]⟩
  | cons e es ih =>
    have hbad : badIn s.bad (tg e.1).key n = none := hr.bad ▸ hb e List.mem_cons_self
    have hbs := fun x hx => hb x (List.mem_cons_of_mem _ hx)
    have hel (v : Option Nat) (hv : v = s0.issueVal t tg n e.1) :
        (⟨e.1, (tg e.1).key, n, vplaceOf (tg e.1), v⟩ :: acc : List VEl).reverse ++ elsOf tg n (s0.issueVal t tg n) es =
          acc.reverse ++ elsOf tg n (s0.issueVal t tg n) (e :: es) := by
      simp [elsOf, hv]
    cases hg : isGlobal (tg e.1) with
    | false =>
      have ho' : s.Opened c k u tg es s1 w := by
        simpa only [State.Opened, List.any_cons, hg, Bool.false_or] using ho
      rw [readLines_here hg]
      cases hl : (tg e.1).isLocal with
      | true =>
        obtain ⟨s', h1, h2⟩ := ih hr ho' hbs
          (⟨e.1, (tg e.1).key, n, vplaceOf (tg e.1), none⟩ :: acc)
        rw [hel _ (issueVal_own hl).symm] at h1
        refine ⟨s', ?_, h2⟩
        rw [← h1]
        simp only [placed, List.map_cons, readAll, hbad, hl, if_true]
      | false =>
        obtain ⟨hread, hv⟩ := issueVal_here hr (a := e.2) hl hg hbad
        obtain ⟨s', h1, h2⟩ := ih hr ho' hbs
          (⟨e.1, (tg e.1).key, n, vplaceOf (tg e.1), some (leNat (s.bytes (tg e.1).key n))⟩ :: acc)
        rw [hel _ hv] at h1
        refine ⟨s', ?_, h2⟩
        rw [← h1]
        simp only [placed, List.map_cons, readAll, hbad, hl, Bool.false_eq_true, if_false, hread, Got.bind_ok]
    | true =>
      obtain ⟨h1, hw⟩ : ensureChunk s c k = .ok s1 () ∧ s1.slot c k = .thread w := by
        simpa only [State.Opened, List.any_cons, hg, Bool.true_or, if_true] using ho
      obtain ⟨p, hp⟩ := isGlobal_iff.1 hg
      have hl : (tg e.1).isLocal = false := by rw [hp]; rfl
      obtain ⟨s2, bs, hread, hv, hr2⟩ := issueVal_global hr (a := e.2) hp h1 hw hbad
      obtain ⟨ch, hch⟩ := ensureChunk_open hr.slot h1 hw
      have ho2 := opened_already (tg := tg) hr2.slot (ch := { ch with reads := addLine ch.reads ((tg e.1).key / 64) })
        (by rw [Thread.modChunk, hch]; rfl) es
      obtain ⟨s', h3, h4⟩ := ih hr2 ho2 hbs (⟨e.1, (tg e.1).key, n, vplaceOf (tg e.1), some (leNat bs)⟩ :: acc)
      rw [hel _ hv] at h3
      rw [readLines_global hg]
      refine ⟨s', ?_, h4⟩
      rw [← h3]
      simp only [placed, List.map_cons, readAll, hbad, hl, Bool.false_eq_true, if_false, hread, Got.bind_ok]

/-- A load with elements outside the own memories enters its strips and waits for its reply (R49, R160). -/
theorem loadElems_away (hs : s.slot c k = .thread t) (hf : ∀ e ∈ as_, s.Free c k t (tg e.1) n)
    (ha : ∃ e ∈ as_, (tg e.1).isLocal = false) (ho : t.overlaps 0 (2 ^ 64) = false)
    (hb : ∀ e ∈ as_, badIn s.bad (tg e.1).key n = none) (h1 : s.Opened c k t tg as_ s1 u) :
    ∃ s', loadElems c k i n s (placed tg as_) = .stop s' ∧ s'.mem = s.mem ∧ s'.slot c k = .thread
      (({ u.entered (s.core c).cycle s.curWord i (elsOf tg n (s.issueVal t tg n) as_) false false true with
          chunk := (u.readLines tg as_).chunk } : Thread).parkedOn
        (s.core c).cycle s.curWord (.reply ((s.core c).cycle + 1) false {})) := by
  obtain ⟨s', hread, hr⟩ := readAll_reads (n := n) (s0 := s) (t := t) (s := s) (u := t) ⟨hs, rfl, rfl, rfl, rfl, .refl t⟩ h1 hb []
  rw [loadElems_reads hs hf fun _ => ho, hread, Got.bind_ok, anyAway_eq_true.2 ha, if_pos rfl, enqueue_entered hr.slot,
    replyWait_parks (State.slot_setThr ..), State.setThr_setThr]
  refine ⟨_, rfl, hr.mem, ?_⟩
  rw [State.slot_setThr, State.core_setThr, List.reverse_nil, List.nil_append, hr.cycle, State.setThr_curWord, hr.curWord]
  rfl

end

end Sys2Proof.Machine
end

section
/-! Committing a thread's chunks takes no time and fetches nothing (R240, R242): parts of O37. -/

namespace Sys2Proof.Machine

/-- The clocks of the cores and the instruction word are the same. -/
structure State.SameClock (s s' : State) : Prop where
  curWord : s'.curWord = s.curWord
  cycle : ∀ c, (s'.core c).cycle = (s.core c).cycle

namespace State.SameClock

theorem refl (s : State) : s.SameClock s := ⟨rfl, fun _ => rfl⟩

theorem trans {s s1 s2 : State} (h : s.SameClock s1) (h' : s1.SameClock s2) : s.SameClock s2 :=
  ⟨h'.curWord.trans h.curWord, fun c => (h'.cycle c).trans (h.cycle c)⟩

theorem modThr (s : State) (c : Nat) (k : SlotN) (f : Thread → Thread) : s.SameClock (s.modThr c k f) := by
  refine ⟨rfl, fun d => ?_⟩
  by_cases h : d = c
  · subst h
    rw [State.modThr, State.core_setThr]
  · rw [State.modThr, State.core_setThr_ne _ _ _ h]

end State.SameClock

theorem State.CachesOnly.sameClock {s s' : State} (h : s.CachesOnly s') : s.SameClock s' := ⟨h.curWord, h.cycle⟩

theorem sameClock_accept (s : State) (c : Nat) (k : SlotN) (ch : Chunk) : s.SameClock (s.accept c k ch) := by
  have hrecord (s : State) (ls : List Nat) : s.SameClock (s.record ls) := by
    unfold State.record
    split <;> exact ⟨rfl, fun _ => rfl⟩
  have hstored (s : State) (r : TRef) (ls : List Nat) : s.SameClock (s.shStored r ls) := ⟨rfl, fun _ => rfl⟩
  have hlines (s : State) (ls : List Nat) : s.SameClock (ls.foldl (fun s l => s.noteLine (clusterOf c) l) s) :=
    (State.CachesOnly.foldl (fun s l => cachesOnly_noteLine s (clusterOf c) l) ls s).sameClock
  have htoken (s : State) (r : TRef) : s.SameClock (if ch.solo then s.dropToken r else s) := by
    split <;> exact ⟨rfl, fun _ => rfl⟩
  have hcount (s : State) : s.SameClock (s.modCore c fun x => x.countEv 6) :=
    (State.CachesOnly.modCore s c (f := fun x => x.countEv 6) fun _ => ⟨rfl, rfl, rfl⟩).sameClock
  have hpoke : s.SameClock (s.pokeCells ch.buf) := ⟨rfl, fun _ => rfl⟩
  unfold State.accept
  exact (((((hpoke.trans (hrecord _ _)).trans (hstored _ _ _)).trans (hlines _ _)).trans (htoken _ _)).trans (hcount _)).trans
    (.modThr _ _ _ _)

theorem sameClock_judgeClosed {s s' : State} {c : Nat} {k : SlotN} (h : s.judgeClosed c k = (s', true)) : s.SameClock s' := by
  unfold State.judgeClosed at h
  dsimp only at h
  split at h
  · obtain ⟨rfl, -⟩ := Prod.mk.inj h
    exact .refl _
  · split at h
    · cases (Prod.mk.inj h).2
    · obtain ⟨rfl, -⟩ := Prod.mk.inj h
      exact (sameClock_accept _ _ _ _).trans (.modThr _ _ _ _)

theorem sameClock_commit {s s' : State} {c : Nat} {k : SlotN} (h : s.commit c k = (s', true)) : s.SameClock s' := by
  unfold State.commit at h
  split at h
  · cases (Prod.mk.inj h).2
  next s1 hj =>
    have h1 := sameClock_judgeClosed hj
    dsimp only at h
    split at h
    · obtain ⟨rfl, -⟩ := Prod.mk.inj h
      exact h1
    · split at h
      · cases (Prod.mk.inj h).2
      · obtain ⟨rfl, -⟩ := Prod.mk.inj h
        exact h1.trans ((sameClock_accept _ _ _ _).trans (.modThr _ _ _ _))

theorem State.Commits.sameClock {s s1 : State} {c : Nat} {k : SlotN} {t u : Thread} (h : s.Commits c k t s1 u) : s.SameClock s1 := by
  have hrun := h.run
  unfold commitFirst at hrun
  split at hrun
  · cases hrun
  · split at hrun
    · next hc =>
      cases hrun
      exact sameClock_commit hc
    · cases hrun

end Sys2Proof.Machine
end

section
/-! Issuing vector stores (R160, R240, R241): parts of O37. -/

namespace Sys2Proof.Machine

section
variable {s s0 s1 : State} {c : Nat} {k : SlotN} {t u : Thread} {tg : Nat → Target} {n own : Nat} {i : Instr}
  {as_ : List (Nat × Nat)}

/-! ### Lines (R160) -/

/-- The lines of some elements, each once. -/
def linesOf (tg : Nat → Target) (as_ : List (Nat × Nat)) : List Nat :=
  as_.foldl (fun ls e => addLine ls ((tg e.1).key / 64)) []

theorem lineSet_placed (tg : Nat → Target) (as_ : List (Nat × Nat)) (f : Target → Bool) :
    lineSet (placed tg as_) f = linesOf tg (as_.filter fun e => f (tg e.1)) := by
  simp only [lineSet, placed, linesOf, List.filter_map, List.foldl_map]
  rfl

theorem addLine_ne_nil {ls : List Nat} (h : ls ≠ []) (l : Nat) : addLine ls l ≠ [] := by
  unfold addLine
  split
  · exact h
  · exact List.cons_ne_nil l ls

theorem linesOf_ne_nil {as_ : List (Nat × Nat)} (h : as_ ≠ []) : linesOf tg as_ ≠ [] := by
  have keeps (es : List (Nat × Nat)) : ∀ ls ≠ [], es.foldl (fun ls e => addLine ls ((tg e.1).key / 64)) ls ≠ [] := by
    induction es with
    | nil => exact fun _ h => h
    | cons e es ih => exact fun ls hls => ih _ (addLine_ne_nil hls _)
  obtain ⟨e, es, rfl⟩ := List.exists_cons_of_ne_nil h
  exact keeps es _ (by simp [addLine])

/-- No line is named where no element lies in such a place. -/
theorem linesOf_none {f : Target → Bool} (h : ∀ e ∈ as_, f (tg e.1) = false) :
    linesOf tg (as_.filter fun e => f (tg e.1)) = [] := by
  rw [List.filter_eq_nil_iff.2 fun e he => by simp [h e he]]
  rfl

/-! ### After the elements are translated (R160, R240) -/

/-- The lines of the own memories that the log counts (R160). -/
def ownLines (i : Instr) (as_ : List (Nat × Nat)) (es : List (Nat × Nat × Target)) : Nat :=
  match i with
  | .vstl _ _ _ => if as_ = [] then 0 else 1
  | _ => (lineSet es isOwn).length

/-- A place in a scene-shared page (R199). -/
def Target.shares : Target → Bool
  | .global p => p.shared
  | _ => false

/-- What a store does once its elements are translated (R160, R240). -/
def storeElems (c : Nat) (k : SlotN) (i : Instr) (n own : Nat) (s : State) (es : List (Nat × Nat × Target)) : Got Completion :=
  (waitsFor s c k true n es).bind fun s _ =>
  let far := (lineSet es Target.isPosted).length
  let glob := lineSet es isGlobal
  let logged := own ≤ 32
  (if far ≠ 0 ∨ !logged then commitFirst s c k else .ok s ()).bind fun s _ =>
  (roomWait s c k 0 (lineSet es fun t => t.isPosted && t.cls == 0).length).bind fun s _ =>
  (roomWait s c k 1 (lineSet es fun t => t.isPosted && t.cls == 1).length).bind fun s _ =>
  let alone := glob ≠ [] && (far ≠ 0 || !logged)
  (softCloseIf s c k ((own ≠ 0 && (s.thr c k).logFull own) || (glob ≠ [] && !alone && (s.thr c k).bufFull glob))).bind
    fun s _ =>
  (if glob ≠ [] ∧ !alone then ensureChunk s c k else .ok s ()).bind fun s _ =>
  let all := lineSet es Target.shares
  let s := s.obtain all
  let sh := all.filter fun l => !s.ownsLine l
  let s1 := if glob ≠ [] ∧ !alone then
      s.modThr c k fun t => t.modChunk fun ch =>
        { ch with writes := glob.foldl addLine ch.writes, shared := sh.foldl addLine ch.shared }
    else s
  .ok (s1.enqueue c k i 0 0 (es.map fun e => ⟨e.1, e.2.2.key, n, vplaceOf e.2.2, none⟩)
    (logged && (s1.thr c k).chunk.isSome) alone) {}

theorem vstoreAt_eq (s : State) (c : Nat) (k : SlotN) (i : Instr) (n : Nat) (as_ : List (Nat × Nat)) : vstoreAt s c k i n as_ =
    issueElems s c k .store n as_ fun s es => storeElems c k i n (ownLines i as_ es) s es := rfl

theorem waitsFor_unlocked (h : ∀ e ∈ as_, ∀ off key, tg e.1 = .own off key → s.lockHolds c off n (some (c, k)) = false) :
    waitsFor s c k true n (placed tg as_) = .ok s () := by
  induction as_ with
  | nil => rfl
  | cons e es ih =>
    have he := h e List.mem_cons_self
    have ih := ih fun x hx => h x (List.mem_cons_of_mem _ hx)
    have hw : ownLockWait s c k (tg e.1) n = .ok s () := by
      cases hx : tg e.1 with
      | own off key => simp only [ownLockWait, lockWait, he off key hx, Bool.not_false, waitFor_true]
      | _ => rfl
    simp only [placed] at ih
    simp only [placed, List.map_cons, waitsFor, if_true, hw, Got.bind_ok, ih]

theorem roomWait_room (hs : s.slot c k = .thread t) {j m : Nat} (h : t.psc j + m ≤ 0xFFFF) : roomWait s c k j m = .ok s () := by
  rw [roomWait, State.thr_of_slot hs, decide_eq_true h]
  rfl

/-- Nothing is posted, and the log and the buffer have room. -/
structure Thread.Keeps (t : Thread) (tg : Nat → Target) (as_ : List (Nat × Nat)) (own : Nat) : Prop where
  near : ∀ e ∈ as_, (tg e.1).isPosted = false
  few : own ≤ 32
  psc0 : t.psc0 ≤ 0xFFFF
  psc1 : t.psc1 ≤ 0xFFFF
  log : t.logFull own = false
  buf : t.bufFull (linesOf tg (as_.filter fun e => isGlobal (tg e.1))) = false

/-- The places of a store may be written, and none is scene-shared (R199, R214). -/
structure State.Stores (s : State) (c : Nat) (k : SlotN) (tg : Nat → Target) (n : Nat) (as_ : List (Nat × Nat)) : Prop where
  unlocked : ∀ e ∈ as_, ∀ off key, tg e.1 = .own off key → s.lockHolds c off n (some (c, k)) = false
  unshared : ∀ e ∈ as_, ∀ p, tg e.1 = .global p → p.shared = false

theorem State.Stores.noShared (h : s.Stores c k tg n as_) : lineSet (placed tg as_) Target.shares = [] := by
  rw [lineSet_placed]
  refine linesOf_none fun e he => ?_
  cases hx : tg e.1 with
  | global p => exact h.unshared e he p hx
  | _ => rfl

theorem obtain_nil (s : State) : s.obtain [] = s := rfl

theorem elsOf_placed (tg : Nat → Target) (n : Nat) (as_ : List (Nat × Nat)) :
    ((placed tg as_).map fun e => (⟨e.1, e.2.2.key, n, vplaceOf e.2.2, none⟩ : VEl)) = elsOf tg n (fun _ => none) as_ := by
  simp only [placed, elsOf, List.map_map]
  rfl

/-- A store to the own memories and to translated memory enters its strips in the open chunk (R160, R241). -/
theorem storeElems_kept (hs : s.slot c k = .thread t) (hw : s.Stores c k tg n as_) (hk : t.Keeps tg as_ own) :
    let glob := linesOf tg (as_.filter fun e => isGlobal (tg e.1))
    let els := elsOf tg n (fun _ => none) as_
    (glob = [] → storeElems c k i n own s (placed tg as_) =
      .ok (s.setThr c k (t.entered (s.core c).cycle s.curWord i els t.chunk.isSome false false)) {}) ∧
    (glob ≠ [] → ∀ s1 u ch, ensureChunk s c k = .ok s1 () → s1.slot c k = .thread u → u.chunk = some ch →
      storeElems c k i n own s (placed tg as_) = .ok (s1.setThr c k { u.entered (s.core c).cycle s.curWord i els true false false with
        chunk := some { ch with writes := glob.foldl addLine ch.writes } }) {}) := by
  intro glob els
  obtain ⟨hnear, hfew, h0, h1, hlog, hbuf⟩ := hk
  have hglob : lineSet (placed tg as_) isGlobal = glob := lineSet_placed tg as_ isGlobal
  have hfar : lineSet (placed tg as_) Target.isPosted = [] := (lineSet_placed ..).trans (linesOf_none hnear)
  have hcls (cls : Fin 3) : lineSet (placed tg as_) (fun t => t.isPosted && t.cls == cls) = [] :=
    (lineSet_placed ..).trans (linesOf_none (f := fun t => t.isPosted && t.cls == cls) fun e he => by simp [hnear e he])
  have hbuf : t.bufFull glob = false := hbuf
  have hroom0 : roomWait s c k 0 0 = .ok s () := roomWait_room hs h0
  have hroom1 : roomWait s c k 1 0 = .ok s () := roomWait_room hs h1
  have hsoft : softCloseIf s c k false = .ok s () := rfl
  simp only [storeElems, waitsFor_unlocked hw.unlocked, Got.bind_ok, hglob, hfar, hcls, List.length_nil, ne_eq, not_true_eq_false,
    hfew, decide_true, Bool.not_true, Bool.false_eq_true, or_self, if_false, hroom0, hroom1, State.thr_of_slot hs, hlog, hbuf,
    Bool.and_false, Bool.or_self, decide_false, hsoft, hw.noShared, elsOf_placed, List.filter_nil, List.foldl_nil, obtain_nil]
  refine ⟨fun hg => ?_, fun hg s1 u ch he hu hch => ?_⟩
  · simp only [hg, not_true_eq_false, false_and, if_false, Got.bind_ok, State.thr_of_slot hs, Bool.true_and, enqueue_entered hs]
    rfl
  · obtain ⟨-, -, hword, hcyc, -⟩ := ensureChunk_opens hs he hu
    simp only [hg, not_false_eq_true, Bool.not_false, true_and, if_true, he, Got.bind_ok, State.modThr, State.thr_of_slot hu,
      State.thr_setThr, Thread.modChunk, hch, enqueue_entered (State.slot_setThr ..), State.setThr_setThr, State.core_setThr,
      State.setThr_curWord, hword, hcyc]
    rfl

/-- A store with posted elements, or for which the log has no room, enters its strips once the thread's chunks are committed; its
translated lines then commit by themselves (R160, R240). -/
theorem storeElems_posted (hw : s.Stores c k tg n as_) (hfar : (∃ e ∈ as_, (tg e.1).isPosted = true) ∨ 32 < own)
    (hc : s.Commits c k t s1 u)
    (hroom : ∀ cls : Fin 3, cls = 0 ∨ cls = 1 →
      u.psc cls + (linesOf tg (as_.filter fun e => (tg e.1).isPosted && (tg e.1).cls == cls)).length ≤ 0xFFFF) :
    storeElems c k i n own s (placed tg as_) = .ok (s1.setThr c k (u.entered (s.core c).cycle s.curWord i
      (elsOf tg n (fun _ => none) as_) false (decide (linesOf tg (as_.filter fun e => isGlobal (tg e.1)) ≠ [])) false)) {} := by
  have hglob := lineSet_placed tg as_ isGlobal
  generalize linesOf tg (as_.filter fun e => isGlobal (tg e.1)) = glob at hglob ⊢
  have hcls (cls : Fin 3) := lineSet_placed tg as_ fun t => t.isPosted && t.cls == cls
  have hgate : (lineSet (placed tg as_) Target.isPosted).length ≠ 0 ∨ (!decide (own ≤ 32)) = true := by
    refine hfar.imp (fun ⟨e, he, hp⟩ => ?_) fun h => by simpa using h
    rw [lineSet_placed, ne_eq, List.length_eq_zero_iff]
    exact linesOf_ne_nil (List.ne_nil_of_mem (List.mem_filter.2 ⟨he, hp⟩))
  have halone : (decide ((lineSet (placed tg as_) Target.isPosted).length ≠ 0) || !decide (own ≤ 32)) = true := by
    rwa [Bool.or_eq_true, decide_eq_true_eq]
  have hroom0 : roomWait s1 c k 0 (linesOf tg (as_.filter fun e => (tg e.1).isPosted && (tg e.1).cls == 0)).length = .ok s1 () :=
    roomWait_room hc.slot (hroom 0 (.inl rfl))
  have hroom1 : roomWait s1 c k 1 (linesOf tg (as_.filter fun e => (tg e.1).isPosted && (tg e.1).cls == 1)).length = .ok s1 () :=
    roomWait_room hc.slot (hroom 1 (.inr rfl))
  have hlog : u.logFull own = false := by rw [Thread.logFull, hc.chunk]
  have hclock := hc.sameClock
  have hsoft : softCloseIf s1 c k false = .ok s1 () := rfl
  have hnot : ¬(glob ≠ [] ∧ (!decide (glob ≠ [])) = true) := by simp
  simp only [storeElems, waitsFor_unlocked hw.unlocked, Got.bind_ok, hglob, if_pos hgate, hc.run, hcls, hroom0, hroom1, halone,
    Bool.and_true, State.thr_of_slot hc.slot, hlog, Bool.and_false, Bool.and_not_self, Bool.false_and, Bool.or_self, hsoft,
    if_neg hnot, hw.noShared, obtain_nil, hc.chunk, Option.isSome_none, elsOf_placed, enqueue_entered hc.slot, hclock.curWord,
    hclock.cycle]

end

end Sys2Proof.Machine
end

section
/-! Vector loads and stores at issue (R147, R159, R160, R184): the proof of O37. -/

namespace Sys2Proof.Machine

theorem postedClass_eq (x : Target) (cls : Fin 3) : (x.isPosted && x.cls.val == cls.val) = (x.isPosted && x.cls == cls) := by
  rw [Bool.eq_iff_iff]
  simp [Fin.ext_iff]

/-- Settles O37: each instruction goes on to its elements, from the addresses of its active lanes; the elements are checked and
translated, and then the load or the store does what the lemmas about it say. -/
theorem vectorMemoryIssue : Obligations.VectorMemoryIssue := by
  unfold Obligations.VectorMemoryIssue
  intro s c k t ty vr vi rs1 rs2 tg h hroom hmask hindex now act b isGlob isFar lines els fails loads stores n elem unit strided indexed
    elemOf slices
  have hs := h.slot
  have h1 : s.Ready c k t { src := [rs1] } := h.of_subset (by simp) (by simp)
  have hplain : t.CanIssue none := ⟨hroom, hmask, fun r hr => by cases hr⟩
  have hvi : t.CanIssue (some vi) := ⟨hroom, hmask, fun r hr => by cases hr; exact hindex⟩
  have hx : t.xv rs1 = b := h.xv (by simp)
  have hy : t.xv rs2 = t.a.xr rs2 := h.xv (by simp)
  -- a load is its elements, and then `loadElems`
  have loads_of {i : Instr} {n : Nat} {as_ : List (Nat × Nat)} (hi : exec i s = .next (s.afterBody c k 4 (vloadAt s c k i n as_))) :
      loads i n as_ := by
    rw [vloadAt_eq] at hi
    refine ⟨issueElems_fails hs hi, fun s0 hfree hloc => ?_⟩
    have hs0 : s0.slot c k = .thread t := (hloc.cachesOnly.slot c k).trans hs
    have hword : s0.curWord = s.curWord := hloc.cachesOnly.curWord
    have hcyc : (s0.core c).cycle = now := hloc.cachesOnly.cycle c
    have hf := fun e he => (hfree e he).2
    rw [hi, issueElems_located (fun e he => (hfree e he).1) hloc]
    refine ⟨fun hown => ?here, fun xs e ys u has hpre ho hbad ht => ?bad, fun s1 u ha ho hb hopen => ?away⟩
    case here =>
      rw [loadElems_own hs0 hf hown, afterBody_nil, State.thr_setThr, State.setThr_setThr, hword, hcyc]
      rfl
    case bad =>
      rw [loadElems_bad hs0 hf ho has hpre hbad ht]
      rfl
    case away =>
      obtain ⟨s', hstop, hmem, hslot⟩ := loadElems_away (i := i) hs0 hf ha ho hb hopen
      rw [hword, hcyc] at hslot
      rw [hstop]
      exact ⟨s', rfl, hmem, hslot⟩
  have stores_of {i : Instr} {n : Nat} {as_ : List (Nat × Nat)} (hi : exec i s = .next (s.afterBody c k 4 (vstoreAt s c k i n as_)))
      (hown : ownLines i as_ (placed tg as_) =
        if i = .vstl ty vr rs1 then min as_.length 1 else (linesOf tg (as_.filter fun e => (tg e.1).isLocal)).length) :
      stores i n as_ := by
    rw [vstoreAt_eq] at hi
    refine ⟨issueElems_fails hs hi, fun s0 hfree hloc => ?_⟩
    have hs0 : s0.slot c k = .thread t := (hloc.cachesOnly.slot c k).trans hs
    have hword : s0.curWord = s.curWord := hloc.cachesOnly.curWord
    have hcyc : (s0.core c).cycle = now := hloc.cachesOnly.cycle c
    have hw : s0.Stores c k tg n as_ := ⟨fun e he => (hfree e he).2.1, fun e he => (hfree e he).2.2⟩
    rw [hi, issueElems_located (fun e he => (hfree e he).1) hloc]
    intro own glob far enters
    rw [show ownLines i as_ (placed tg as_) = own from hown]
    have hposted (e : Nat × Nat) : isFar e = (tg e.1).isPosted := rfl
    have hclass (cls : Fin 3) :
        (linesOf tg (as_.filter fun e => (tg e.1).isPosted && (tg e.1).cls == cls)).length = far cls.val := by
      simp only [← postedClass_eq]
      rfl
    refine ⟨fun hnear hfew h0 h1 hlog hbuf => ?kept, fun hfar s1 u hc h0 h1 => ?posted⟩
    case kept =>
      have hk : t.Keeps tg as_ own := ⟨fun e he => (hposted e).symm.trans (by simpa using List.any_eq_false.1 hnear e he),
        hfew, h0, h1, hlog, hbuf⟩
      obtain ⟨hno, hyes⟩ := storeElems_kept (i := i) hs0 hw hk
      rw [hword, hcyc] at hno hyes
      refine ⟨fun hg => ?_, fun hg s1 u ch he hu hch => ?_⟩
      · rw [hno hg, afterBody_nil, State.thr_setThr, State.setThr_setThr]
        rfl
      · rw [hyes hg s1 u ch he hu hch, afterBody_nil, State.thr_setThr, State.setThr_setThr]
        rfl
    case posted =>
      have hroom (cls : Fin 3) (hcls : cls = 0 ∨ cls = 1) :
          u.psc cls + (linesOf tg (as_.filter fun e => (tg e.1).isPosted && (tg e.1).cls == cls)).length ≤ 0xFFFF := by
        rw [hclass]
        rcases hcls with rfl | rfl
        · exact h0
        · exact h1
      rw [storeElems_posted (i := i) hw (hfar.imp_left List.any_eq_true.1) hc hroom, afterBody_nil, State.thr_setThr,
        State.setThr_setThr, hword, hcyc]
      rfl
  -- the three forms by base, stride and index register, and the lane slices
  have mem {src : List XReg} {vi' : Option VNum} (hr : s.Ready c k t { src := src }) (hc : t.CanIssue vi') (f : Thread → Nat → Word)
      {g : Nat → Word} (hg : f t = g) (i : Instr) (store : Bool) : vmem i ty store src vi' f s = .next (s.afterBody c k 4
        (if store then vstoreAt s c k i n (elem g) else vloadAt s c k i n (elem g))) := by
    rw [vmem_ready hr hc, hg]
  have hunit := mem h1 hplain (fun th e => th.xv rs1 + BitVec.ofNat 64 (e * elemBytes ty)) (by rw [hx])
  have hstrided := mem h hplain (fun th e => th.xv rs1 + BitVec.ofNat 64 e * th.xv rs2) (by rw [hx, hy])
  have hindexed := mem h1 hvi (fun th e =>
    th.xv rs1 + BitVec.ofNat 64 ((th.a.lane vi (if ty = .c32 then 2 * e else e)).toNat * elemBytes ty)) (by rw [hx])
  have hslices (hb : b.toNat % 4 = 0) (i : Instr) (store : Bool) := vlane_ready h1 hplain i ty store hb
  have own_lines {i : Instr} {as_ : List (Nat × Nat)} (hi : i ≠ .vstl ty vr rs1)
      (ho : ownLines i as_ (placed tg as_) = (lineSet (placed tg as_) isOwn).length) : ownLines i as_ (placed tg as_) =
        if i = .vstl ty vr rs1 then min as_.length 1 else (linesOf tg (as_.filter fun e => (tg e.1).isLocal)).length := by
    rw [if_neg hi, ho, lineSet_placed]
    rfl
  have own_slices (as_ : List (Nat × Nat)) : ownLines (.vstl ty vr rs1) as_ (placed tg as_) =
      if Instr.vstl ty vr rs1 = .vstl ty vr rs1 then min as_.length 1
      else (linesOf tg (as_.filter fun e => (tg e.1).isLocal)).length := by
    rw [if_pos rfl]
    cases as_ <;> simp [ownLines]
  exact ⟨loads_of (hunit (.vld ty vr rs1) false), loads_of (hstrided (.vlds ty vr rs1 rs2) false),
    loads_of (hindexed (.vgath ty vr rs1 vi) false),
    stores_of (hunit (.vst ty vr rs1) true) (own_lines (by simp) rfl),
    stores_of (hstrided (.vsts ty vr rs1 rs2) true) (own_lines (by simp) rfl),
    stores_of (hindexed (.vscat ty vr rs1 vi) true) (own_lines (by simp) rfl),
    fun hb => ⟨loads_of (hslices hb (.vldl ty vr rs1) false), stores_of (hslices hb (.vstl ty vr rs1) true) (own_slices _)⟩,
    fun hb l hl => ⟨vlane_traps h1 hplain (.vldl ty vr rs1) ty false hb hl, vlane_traps h1 hplain (.vstl ty vr rs1) ty true hb hl⟩⟩

end Sys2Proof.Machine
end

section
/-! Cells of memory and their lines, and what a chunk of a thread logs and buffers (R160, R241): parts of O33. -/

namespace Sys2Proof.Machine

/-! ### The last cell at an address -/

/-- The byte of the last cell at an address, which is the one that stands. -/
def lastByte (cs : List Host.Cell) (q : Nat) : Option Byte := (cs.reverse.find? fun e => e.1 == q).map (·.2)

theorem lastByte_append (xs ys : List Host.Cell) (q : Nat) : lastByte (xs ++ ys) q = (lastByte ys q).or (lastByte xs q) := by
  simp only [lastByte, List.reverse_append, List.find?_append, Option.map_or]

theorem lastByte_eq_none {cs : List Host.Cell} {q : Nat} : lastByte cs q = none ↔ ∀ e ∈ cs, e.1 ≠ q := by
  simp [lastByte]

theorem byte_pokeCells (s : State) (cs : List Host.Cell) (q : Nat) :
    (s.pokeCells cs.reverse).byte q = (lastByte cs q).getD (s.byte q) := Memory.read_writeCells s.mem cs.reverse q

/-! ### Cells by line (R160) -/

theorem mem_addLine {ls : List Nat} {l x : Nat} : x ∈ addLine ls l ↔ x = l ∨ x ∈ ls := by
  unfold addLine
  split
  · exact ⟨.inr, fun h => h.elim (· ▸ ‹_›) id⟩
  · exact List.mem_cons

theorem nodup_addLine {ls : List Nat} (h : ls.Nodup) (l : Nat) : (addLine ls l).Nodup := by
  unfold addLine
  split
  · exact h
  · exact List.nodup_cons.2 ⟨‹_›, h⟩

theorem cellLines_fold (cs : List Host.Cell) (ls : List Nat) :
    (ls.Nodup → (cs.foldl (fun ls e => addLine ls (e.1 / 64)) ls).Nodup) ∧
      ∀ x, x ∈ cs.foldl (fun ls e => addLine ls (e.1 / 64)) ls ↔ x ∈ ls ∨ ∃ e ∈ cs, e.1 / 64 = x := by
  induction cs generalizing ls with
  | nil => exact ⟨id, by simp⟩
  | cons e cs ih =>
    obtain ⟨hn, hm⟩ := ih (addLine ls (e.1 / 64))
    refine ⟨fun h => hn (nodup_addLine h _), fun x => ?_⟩
    rw [List.foldl_cons, hm, mem_addLine]
    simp only [List.exists_mem_cons_iff, eq_comm (a := x)]
    tauto

theorem nodup_cellLines (cs : List Host.Cell) : (cellLines cs).Nodup := (cellLines_fold cs []).1 List.nodup_nil

theorem mem_cellLines {cs : List Host.Cell} {l : Nat} : l ∈ cellLines cs ↔ ∃ e ∈ cs, e.1 / 64 = l :=
  ((cellLines_fold cs []).2 l).trans (by simp)

theorem byLine_eq (cs : List Host.Cell) : byLine cs = (cellLines cs).map fun l => cs.filter fun e => e.1 / 64 == l := rfl

theorem lastByte_filter (cs : List Host.Cell) (l q : Nat) :
    lastByte (cs.filter fun e => e.1 / 64 == l) q = if q / 64 = l then lastByte cs q else none := by
  split
  · next h =>
    simp only [lastByte, ← List.filter_reverse, List.find?_filter]
    congr 2
    funext e
    by_cases he : e.1 = q
    · simp [he, h]
    · simp [he]
  · next h =>
    refine lastByte_eq_none.2 fun e he hq => h ?_
    rw [← hq]
    simpa using (List.mem_filter.1 he).2

/-- Storing cells line by line leaves what storing them in order leaves. -/
theorem lastByte_byLine (cs : List Host.Cell) (q : Nat) : lastByte (byLine cs).flatten q = lastByte cs q := by
  have lines (ls : List Nat) : lastByte (ls.map fun l => cs.filter fun e => e.1 / 64 == l).flatten q =
      if q / 64 ∈ ls then lastByte cs q else none := by
    induction ls with
    | nil => rfl
    | cons l ls ih =>
      rw [List.map_cons, List.flatten_cons, lastByte_append, ih, lastByte_filter]
      by_cases h2 : q / 64 = l
      · subst h2
        by_cases h1 : q / 64 ∈ ls <;> simp [h1]
      · simp [h2]
  rw [byLine_eq, lines]
  split
  · rfl
  · next h => exact (lastByte_eq_none.2 fun e he hq => h (mem_cellLines.2 ⟨e, he, by rw [hq]⟩)).symm

/-- No cell of one list lies where a cell of the other does. -/
def Apart (xs ys : List Host.Cell) : Prop := ∀ x ∈ xs, ∀ y ∈ ys, x.1 ≠ y.1

theorem byLine_apart (cs : List Host.Cell) : (byLine cs).Pairwise Apart := by
  rw [byLine_eq, List.pairwise_map]
  refine (nodup_cellLines cs).imp fun {l l'} hne x hx y hy he => hne ?_
  have h1 : x.1 / 64 = l := by simpa using (List.mem_filter.1 hx).2
  have h2 : y.1 / 64 = l' := by simpa using (List.mem_filter.1 hy).2
  rw [← h1, ← h2, he]

theorem mem_byLine {cs : List Host.Cell} {e : Host.Cell} : e ∈ (byLine cs).flatten ↔ e ∈ cs := by
  rw [byLine_eq, List.mem_flatten]
  constructor
  · rintro ⟨g, hg, he⟩
    obtain ⟨l, -, rfl⟩ := List.mem_map.1 hg
    exact (List.mem_filter.1 he).1
  · intro he
    exact ⟨_, List.mem_map_of_mem (mem_cellLines.2 ⟨e, he, rfl⟩), List.mem_filter.2 ⟨he, beq_self_eq_true _⟩⟩

/-! ### The chunk that a strip belongs to (R160, R241) -/

theorem modChunkNo_id (t : Thread) (no : Nat) : t.modChunkNo no (fun ch => ch) = t := by
  simp only [Thread.modChunkNo, ite_self, Option.map_id']

theorem modChunkNo_modChunkNo (t : Thread) (no : Nat) {f : Chunk → Chunk} (hf : ∀ ch, (f ch).no = ch.no) (g : Chunk → Chunk) :
    (t.modChunkNo no f).modChunkNo no g = t.modChunkNo no fun ch => g (f ch) := by
  have h (ch : Chunk) : (if (if ch.no = no then f ch else ch).no = no then g (if ch.no = no then f ch else ch)
      else if ch.no = no then f ch else ch) = if ch.no = no then g (f ch) else ch := by
    by_cases he : ch.no = no <;> simp [he, hf]
  simp only [Thread.modChunkNo, Option.map_map, Function.comp_def, h]

/-- The thread with groups of old bytes in the undo log of the chunk that a logged strip belongs to (R241). -/
def Thread.logs (t : Thread) (p : Strip) (gs : List (List Host.Cell)) : Thread :=
  t.modChunkNo p.no fun ch => if p.logged then { ch with undo := gs ++ ch.undo } else ch

theorem logs_nil (t : Thread) (p : Strip) : t.logs p [] = t := by
  simp only [Thread.logs, List.nil_append, ite_self, modChunkNo_id]

theorem logs_logs (t : Thread) (p : Strip) (xs ys : List (List Host.Cell)) : (t.logs p xs).logs p ys = t.logs p (ys ++ xs) := by
  unfold Thread.logs
  rw [modChunkNo_modChunkNo _ _ fun ch => by split <;> rfl]
  cases p.logged <;> simp

/-- What becomes of the translated cells of a strip: buffered in its chunk, or committed by themselves (R160). -/
def Thread.buffers (t : Thread) (p : Strip) (cs : List Host.Cell) : Thread :=
  { t.modChunkNo p.no fun ch =>
      if p.alone then ch else { ch with buf := cs.reverse ++ ch.buf.filter fun e => !cs.any fun x => x.1 == e.1 } with
    cc := { t.cc with commit := if p.alone ∧ p.last ∧ cs ≠ [] then t.cc.commit + 1 else t.cc.commit } }

theorem buffers_nil (t : Thread) (p : Strip) : t.buffers p [] = t := by
  simp only [Thread.buffers, List.reverse_nil, List.nil_append, List.any_nil, Bool.not_false, List.filter_true, ite_self,
    modChunkNo_id, ne_eq, not_true_eq_false, and_false, if_false]

/-- What a buffer holds at an address once cells are buffered in it. -/
theorem find_buffered (cs buf : List Host.Cell) (q : Nat) :
    ((cs.reverse ++ buf.filter fun e => !cs.any fun x => x.1 == e.1).find? fun e => e.1 == q).map (·.2) =
      (lastByte cs q).or ((buf.find? fun e => e.1 == q).map (·.2)) := by
  rw [List.find?_append, Option.map_or, lastByte, List.find?_filter]
  by_cases h : ∃ e ∈ cs, e.1 = q
  · have hsome : ((cs.reverse.find? fun e => e.1 == q).map (·.2)).isSome = true := by simpa using h
    obtain ⟨b, hb⟩ := Option.isSome_iff_exists.1 hsome
    rw [hb]
    rfl
  · congr 3
    funext e
    by_cases he : e.1 = q
    · have hne : (cs.any fun x => x.1 == e.1) = false := List.any_eq_false.2 fun x hx hq => h ⟨x, hx, (beq_iff_eq.1 hq).trans he⟩
      simp only [hne, Bool.not_false, true_and, Bool.decide_eq_true]
    · simp [he]

end Sys2Proof.Machine
end

section
/-! Vector memory strips (R160): what their loads read, and the cells of their stores: parts of O33. -/

namespace Sys2Proof.Machine

section
variable {s : State} {k : SlotN} {t : Thread} {p : Strip}

/-! ### Loads -/

/-- The strip of a load writes what its elements read. -/
theorem exec_stripExecute_load (hk : s.subject.slot = k) (ht : s.slot s.subject.core k = .thread t)
    (hn : s.nextStrip s.subject.core k = some p) (hst : isVstore p.instr = false) (he : p.els ≠ []) : exec .stripExecute s =
      .next (s.setThr s.subject.core k (t.stripped p (s.loadRes p) (s.core s.subject.core).cycle)) := by
  rw [exec_stripExecute_eq, execStripExecute, onThread_eq hk ht]
  simp only [State.runStrip, hn, Strip.isStore, hst, he, State.thr_of_slot ht, State.modThr, Thread.stripped, if_false,
    Bool.false_eq_true, ne_eq, not_false_eq_true, if_true]

/-- What the element of a lane makes of a value its place holds. -/
def State.elWord (s : State) (p : Strip) (placed : Nat → Word32) (l : Nat) : Word32 :=
  ((p.els.find? fun e => e.lane == l).map fun e => placed (e.val.getD (s.num e.key e.n))).getD 0

theorem elWord_of_mem (placed : Nat → Word32) (hnd : (p.els.map (·.lane)).Nodup) {e : VEl} (he : e ∈ p.els) :
    s.elWord p placed e.lane = placed (e.val.getD (s.num e.key e.n)) := by
  have hfind : (p.els.find? fun x => x.lane == e.lane) = some e := by
    cases hf : p.els.find? fun x => x.lane == e.lane with
    | none => exact absurd (List.find?_eq_none.1 hf e he) (by simp)
    | some x =>
      have hx : x.lane = e.lane := by simpa using List.find?_some hf
      rw [List.inj_on_of_nodup_map hnd (List.mem_of_find?_eq_some hf) he hx]
  rw [State.elWord, hfind]
  rfl

/-- Each lane of a load's strip gets what its element read (R146, R160). -/
theorem stripRuns_load (hk : s.subject.slot = k) (ht : s.slot s.subject.core k = .thread t)
    (hn : s.nextStrip s.subject.core k = some p) (hst : isVstore p.instr = false) (he : p.els ≠ [])
    (hnd : (p.els.map (·.lane)).Nodup) (hlt : ∀ e ∈ p.els, e.lane < 64) {vr : VNum} (hvd : vdOf p.instr = some vr)
    (placed : Nat → Word32) (hp : ∀ v, placeLane (memType p.instr) v = placed v) :
    s.StripRuns s.subject.core k t vr (p.els.map (·.lane)) fun l w fl => fl = 0 ∧ ∃ e ∈ p.els, e.lane = l ∧
      w = placed (e.val.getD (s.num e.key e.n)) := by
  have hres : s.loadRes p = { vd := vr, vs := (p.els.map (·.lane)).map fun l => (l, s.elWord p placed l) } := by
    rw [State.loadRes, hvd, List.map_map]
    congr 1
    refine List.map_congr_left fun e he => ?_
    rw [Function.comp_apply, elWord_of_mem placed hnd he, hp]
  refine (stripRuns_of_words (exec_stripExecute_load hk ht hn hst he) _ hres ?_).mono ?_
  · intro l hl
    obtain ⟨e, he, rfl⟩ := List.mem_map.1 hl
    exact hlt e he
  · rintro l hl w fl ⟨rfl, rfl⟩
    obtain ⟨e, he, rfl⟩ := List.mem_map.1 hl
    exact ⟨rfl, e, he, rfl, elWord_of_mem placed hnd he⟩

/-! ### The cells of a store -/

theorem leBytes_eq (n v : Nat) : leBytes n v = (List.range n).map fun j => BitVec.ofNat 8 (v / 2 ^ (8 * j)) := by
  induction n generalizing v with
  | zero => rfl
  | succ n ih =>
    rw [leBytes, ih, List.range_succ_eq_map, List.map_cons, List.map_map]
    congr 1
    · simp
    · refine List.map_congr_left fun j _ => ?_
      rw [Function.comp_apply, Nat.div_div_eq_div_mul, Nat.succ_eq_add_one, Nat.mul_add, Nat.pow_add, Nat.mul_comm]

theorem cellsAt_leBytes (key n v : Nat) :
    cellsAt key (leBytes n v) = (List.range n).map fun j => (key + j, BitVec.ofNat 8 (v / 2 ^ (8 * j))) := by
  rw [leBytes_eq]
  apply List.ext_getElem <;> simp [cellsAt]

theorem storeCells_eq {c : Nat} {vr : VNum} (hv : vsOf p.instr = some vr) {a : Arch} (ha : (s.thr c k).a = a)
    (f : VPlace → Bool) : s.storeCells c k p f = p.cells a vr f := by
  simp only [State.storeCells, hv, ha, cellsAt_leBytes, Strip.cells]

end

end Sys2Proof.Machine
end

section
/-! What the strip of a vector store does to its own memories, to translated memory and to the posted operations (R160,
R241, R242, R247): parts of O33. -/

namespace Sys2Proof.Machine

section
variable {s s' : State} {c : Nat} {k : SlotN} {t : Thread} {p : Strip} {vr : VNum}

/-! ### The own memories (R160, R241) -/

/-- The place is a lane slice or the own scratchpad. -/
def VPlace.isOwn (x : VPlace) : Bool := match x with | .lane => true | .own => true | _ => false

/-- The place is in translated memory. -/
def VPlace.isGlobal (x : VPlace) : Bool := match x with | .global _ => true | _ => false

/-- The cells that enter the undo log together: those of a line, or all of a VSTL (R160). -/
def logGroups (i : Instr) (cs : List Host.Cell) : List (List Host.Cell) :=
  if cs = [] then [] else match i with
    | .vstl _ _ _ => [cs]
    | _ => byLine cs

theorem logGroups_cases (i : Instr) (cs : List Host.Cell) : logGroups i cs = [] ∧ cs = [] ∨ logGroups i cs = [cs] ∨
    logGroups i cs = byLine cs := by
  unfold logGroups
  split
  · next h => exact .inl ⟨rfl, h⟩
  · split
    · exact .inr (.inl rfl)
    · exact .inr (.inr rfl)

theorem logGroups_apart (i : Instr) (cs : List Host.Cell) : (logGroups i cs).Pairwise Apart := by
  obtain ⟨h, -⟩ | h | h := logGroups_cases i cs <;> rw [h]
  · exact .nil
  · exact List.pairwise_singleton _ _
  · exact byLine_apart cs

theorem lastByte_logGroups (i : Instr) (cs : List Host.Cell) (q : Nat) : lastByte (logGroups i cs).flatten q = lastByte cs q := by
  obtain ⟨h, rfl⟩ | h | h := logGroups_cases i cs <;> rw [h]
  · rfl
  · rw [List.flatten_singleton]
  · exact lastByte_byLine cs q

theorem mem_logGroups {i : Instr} {cs : List Host.Cell} {e : Host.Cell} : e ∈ (logGroups i cs).flatten ↔ e ∈ cs := by
  obtain ⟨h, rfl⟩ | h | h := logGroups_cases i cs <;> rw [h]
  · rfl
  · rw [List.flatten_singleton]
  · exact mem_byLine

/-- What cells overwrite. -/
def State.old (s : State) (g : List Host.Cell) : List Host.Cell := g.map fun e => (e.1, s.byte e.1)

/-- Stores a group of cells in the own memories; a logged strip keeps what they overwrite (R241). -/
def State.storeGroup (c : Nat) (k : SlotN) (p : Strip) (s : State) (g : List Host.Cell) : State :=
  let s1 := s.pokeCells g.reverse
  if p.logged then s1.modThr c k fun t => t.modChunkNo p.no fun ch => { ch with undo := s.old g :: ch.undo } else s1

theorem storeGroup_byte (p : Strip) (s : State) (g : List Host.Cell) (q : Nat) :
    (s.storeGroup c k p g).byte q = (lastByte g q).getD (s.byte q) := by
  rw [← byte_pokeCells]
  unfold State.storeGroup
  cases p.logged <;> rfl

theorem storeGroup_posted (p : Strip) (s : State) (g : List Host.Cell) : (s.storeGroup c k p g).posted = s.posted := by
  unfold State.storeGroup
  cases p.logged <;> rfl

theorem storeGroup_slot (hs : s.slot c k = .thread t) (p : Strip) (g : List Host.Cell) :
    (s.storeGroup c k p g).slot c k = .thread (t.logs p [s.old g]) := by
  have ht : (s.pokeCells g.reverse).thr c k = t := State.thr_of_slot hs
  simp only [State.storeGroup, Thread.logs]
  cases p.logged
  · simp only [Bool.false_eq_true, if_false, modChunkNo_id]
    exact hs
  · simp only [if_true, State.slot_modThr, ht]
    rfl

theorem old_storeGroup {g h : List Host.Cell} (hgh : Apart g h) (p : Strip) (s : State) :
    (s.storeGroup c k p g).old h = s.old h := by
  refine List.map_congr_left fun e he => ?_
  rw [storeGroup_byte, lastByte_eq_none.2 fun x hx => hgh x hx e he]
  rfl

/-- Storing groups of cells that lie apart writes them all, and each group's old bytes are those before the first (R241). -/
theorem storeGroups {gs : List (List Host.Cell)} (hgs : gs.Pairwise Apart) (hs : s.slot c k = .thread t) (p : Strip) :
    let s' := gs.foldl (State.storeGroup c k p) s
    s'.slot c k = .thread (t.logs p (gs.map s.old).reverse) ∧
      (∀ q, s'.byte q = (lastByte gs.flatten q).getD (s.byte q)) ∧ s'.posted = s.posted := by
  induction gs generalizing s t with
  | nil => exact ⟨by rw [List.map_nil, List.reverse_nil, logs_nil]; exact hs, fun _ => rfl, rfl⟩
  | cons g gs ih =>
    obtain ⟨hg, hgs⟩ := List.pairwise_cons.1 hgs
    obtain ⟨hslot, hbyte, hposted⟩ := ih hgs (storeGroup_slot hs p g)
    refine ⟨hslot.trans ?_, fun q => (hbyte q).trans ?_, hposted.trans (storeGroup_posted p s g)⟩
    · rw [logs_logs, List.map_congr_left fun h hh => old_storeGroup (hg h hh) p s, List.map_cons, List.reverse_cons]
    · rw [storeGroup_byte, List.flatten_cons, lastByte_append, Option.getD_or]

theorem stripLocal_eq (hv : vsOf p.instr = some vr) (hs : s.slot c k = .thread t) : s.stripLocal c k p =
    (logGroups p.instr (p.cells t.a vr VPlace.isOwn)).foldl (State.storeGroup c k p) s := by
  rw [← storeCells_eq (s := s) hv (congrArg Thread.a (State.thr_of_slot hs))]
  unfold logGroups
  by_cases h : s.storeCells c k p VPlace.isOwn = []
  · rw [if_pos h]
    exact if_pos h
  · rw [if_neg h]
    exact if_neg h

/-! ### Translated memory (R160, R242) -/

theorem noteLines_caches (cl : Nat) (ls : List Nat) (s : State) :
    s.CachesOnly (ls.foldl (fun s l => s.noteLine cl l) s) ∧ (ls.foldl (fun s l => s.noteLine cl l) s).mem = s.mem := by
  induction ls generalizing s with
  | nil => exact ⟨.refl s, rfl⟩
  | cons l ls ih =>
    obtain ⟨h, hm⟩ := ih (s.noteLine cl l)
    exact ⟨(cachesOnly_noteLine s cl l).trans h, hm.trans (noteLine_mem s cl l).1⟩

theorem slot_record (s : State) (ls : List Nat) : (s.record ls).slot c k = s.slot c k ∧ (s.record ls).mem = s.mem ∧
    (s.record ls).posted = s.posted := by
  unfold State.record
  split <;> exact ⟨rfl, rfl, rfl⟩

/-- The state once a strip has committed translated cells by itself, before it counts the commit (R160, R242). -/
def State.commitCells (s : State) (c : Nat) (k : SlotN) (cs : List Host.Cell) : State :=
  (cellLines cs).foldl (fun s l => s.noteLine (clusterOf c) l)
    (((s.pokeCells cs.reverse).record (cellLines cs)).shStored ((s.thr c k).ref c) (cellLines cs))

theorem commitCells_does (s : State) (cs : List Host.Cell) : (s.commitCells c k cs).slot c k = s.slot c k ∧
    (∀ q, (s.commitCells c k cs).byte q = (lastByte cs q).getD (s.byte q)) ∧ (s.commitCells c k cs).posted = s.posted := by
  obtain ⟨hc, hm⟩ := noteLines_caches (clusterOf c) (cellLines cs)
    (((s.pokeCells cs.reverse).record (cellLines cs)).shStored ((s.thr c k).ref c) (cellLines cs))
  obtain ⟨hslot, hmem, hposted⟩ := slot_record (c := c) (k := k) (s.pokeCells cs.reverse) (cellLines cs)
  refine ⟨(hc.slot c k).trans hslot, fun q => ?_, hc.posted.trans hposted⟩
  rw [← byte_pokeCells, State.byte, State.byte]
  exact congrArg (Memory.read · q) (hm.trans hmem)

theorem stripGlobal_eq (s : State) (c : Nat) (k : SlotN) (p : Strip) : s.stripGlobal c k p =
    let cs := s.storeCells c k p VPlace.isGlobal
    if cs = [] then s else if p.alone then
      if p.last then ((s.commitCells c k cs).modCore c fun x => x.countEv 6).modThr c k fun t =>
        { t with cc := { t.cc with commit := t.cc.commit + 1 } }
      else s.commitCells c k cs
    else s.modThr c k fun t => t.modChunkNo p.no fun ch =>
      { ch with buf := cs.reverse ++ ch.buf.filter fun e => !cs.any fun x => x.1 == e.1 } := rfl

theorem stripGlobal_does (hv : vsOf p.instr = some vr) (hs : s.slot c k = .thread t) :
    let s' := s.stripGlobal c k p
    let cs := p.cells t.a vr VPlace.isGlobal
    s'.slot c k = .thread (t.buffers p cs) ∧
      (∀ q, s'.byte q = if p.alone then (lastByte cs q).getD (s.byte q) else s.byte q) ∧ s'.posted = s.posted := by
  have ht := State.thr_of_slot hs
  rw [stripGlobal_eq, storeCells_eq hv (congrArg Thread.a ht)]
  dsimp only
  generalize p.cells t.a vr VPlace.isGlobal = cs
  obtain ⟨hslot, hbyte, hposted⟩ := commitCells_does (c := c) (k := k) s cs
  generalize s.commitCells c k cs = s1 at *
  split
  · next h =>
    subst h
    rw [buffers_nil]
    exact ⟨hs, fun q => by split <;> rfl, rfl⟩
  next hne =>
    cases ha : p.alone with
    | false =>
      simp only [Bool.false_eq_true, if_false, State.slot_modThr, ht]
      refine ⟨?_, fun _ => rfl, rfl⟩
      simp only [Thread.buffers, ha, Bool.false_eq_true, if_false, false_and]
      rfl
    | true =>
      cases hl : p.last with
      | false =>
        simp only [Bool.false_eq_true, if_false, if_true]
        refine ⟨?_, hbyte, hposted⟩
        rw [hslot, hs]
        simp only [Thread.buffers, ha, hl, if_true, modChunkNo_id, Bool.false_eq_true, false_and, and_false, if_false]
      | true =>
        simp only [if_true]
        refine ⟨?_, hbyte, hposted⟩
        have hcount : (s1.modCore c fun x => x.countEv 6).thr c k = t :=
          State.thr_of_slot ((State.slot_modCore s1 c c k (f := fun x => x.countEv 6) fun _ => rfl).trans (hslot.trans hs))
        rw [State.slot_modThr, hcount]
        simp only [Thread.buffers, ha, hl, if_true, modChunkNo_id, true_and, ne_eq, hne, not_false_eq_true]

/-! ### Posted operations (R160, R247) -/

/-- The thread with its posted counters risen by the operations of their classes (R122, R247). -/
def Thread.sends (t : Thread) (ps : List Posted) : Thread :=
  { t with
    psc0 := t.psc0 + (ps.filter fun x => x.cls == 0).length
    psc1 := t.psc1 + (ps.filter fun x => x.cls == 1).length
    psc2 := t.psc2 + (ps.filter fun x => x.cls == 2).length }

theorem sends_sends (t : Thread) (ps qs : List Posted) : (t.sends ps).sends qs = t.sends (ps ++ qs) := by
  simp only [Thread.sends, List.filter_append, List.length_append, Nat.add_assoc]

/-- From s to s' the thread t of a slot has sent operations, and memory is as it was. -/
structure State.Sent (s : State) (c : Nat) (k : SlotN) (t : Thread) (ps : List Posted) (s' : State) : Prop where
  slot : s'.slot c k = .thread (t.sends ps)
  byte : ∀ q, s'.byte q = s.byte q
  posted : s'.posted = s.posted ++ ps

theorem addPsc_eq_sends (t : Thread) (x : Posted) : t.addPsc x.cls = t.sends [x] := by
  obtain ⟨r, cls, dest, op, launch⟩ := x
  fin_cases cls <;> rfl

theorem slot_modRef (hs : s.slot c k = .thread t) (f : Thread → Thread) :
    (s.modRef (t.ref c) f).slot c k = .thread (f t) := by
  have hs' : (s.core c).c.slots[k] = .thread t := hs
  have h : (s.modRef (t.ref c) f).slot c k = ((s.core c).c.modSerial f t.serial).slots[k] :=
    congrArg (·.c.slots[k]) (State.core_modCore s c fun k => { k with
      c := k.c.modSerial f t.serial
      swapped := k.swapped.map fun w => if w.t.serial = t.serial then { w with t := f w.t } else w })
  rw [h]
  simp only [CoreCtx.modSerial, Fin.getElem_fin, Vector.getElem_map]
  rw [← Fin.getElem_fin, hs']
  simp only [Slot.modSerial, if_true]

theorem sent_postFor (hs : s.slot c k = .thread t) (cls : Fin 3) (dest : Nat) (op : POp) :
    s.Sent c k t [⟨t.ref c, cls, dest, op, t.launch⟩] (s.postFor c k cls dest op) := by
  rw [State.postFor, State.thr_of_slot hs]
  refine ⟨?_, fun _ => rfl, rfl⟩
  rw [← addPsc_eq_sends]
  exact slot_modRef hs fun t => t.addPsc cls

/-- Steps of which each sends operations send them all, in order. -/
theorem sent_foldl {α : Type} {f : State → α → State} {ops : α → List Posted} (t : Thread)
    (h : ∀ (s : State) (qs : List Posted) (x : α), s.slot c k = .thread (t.sends qs) → s.Sent c k (t.sends qs) (ops x) (f s x))
    (xs : List α) {qs : List Posted} (hs : s.slot c k = .thread (t.sends qs)) :
    s.Sent c k (t.sends qs) (xs.flatMap ops) (xs.foldl f s) := by
  induction xs generalizing s qs with
  | nil => exact ⟨hs, fun _ => rfl, by simp⟩
  | cons x xs ih =>
    have h1 := h s qs x hs
    have hslot := h1.slot
    rw [sends_sends] at hslot
    have h2 := ih hslot
    refine ⟨?_, fun q => (h2.byte q).trans (h1.byte q), ?_⟩
    · rw [List.foldl_cons, h2.slot, sends_sends, sends_sends, List.flatMap_cons, List.append_assoc]
    · rw [List.foldl_cons, h2.posted, h1.posted, List.flatMap_cons, List.append_assoc]

/-- Sends the cells of the places that f selects, a line at a time (R160). -/
def State.sendLines (s : State) (c : Nat) (k : SlotN) (p : Strip) (f : VPlace → Bool) (cls : Fin 3) (dest : Nat → Nat) : State :=
  (byLine (s.storeCells c k p f)).foldl (fun s g =>
    s.postFor c k cls (dest ((g.head?.map (·.1)).getD 0)) (.cells g.reverse)) s

/-- The operations that a thread sends for groups of cells (R160). -/
def Thread.lineOps (t : Thread) (c : Nat) (cls : Fin 3) (dest : Nat → Nat) (gs : List (List Host.Cell)) : List Posted :=
  gs.map fun g => ⟨t.ref c, cls, dest ((g.head?.map (·.1)).getD 0), .cells g.reverse, t.launch⟩

theorem sent_sendLines (hv : vsOf p.instr = some vr) {qs : List Posted} (hs : s.slot c k = .thread (t.sends qs))
    (f : VPlace → Bool) (cls : Fin 3) (dest : Nat → Nat) :
    s.Sent c k (t.sends qs) (t.lineOps c cls dest (byLine (p.cells t.a vr f))) (s.sendLines c k p f cls dest) := by
  have ha : (s.thr c k).a = t.a := by rw [State.thr_of_slot hs]; rfl
  rw [State.sendLines, storeCells_eq hv ha, Thread.lineOps, List.map_eq_flatMap]
  exact sent_foldl t (fun s qs g hs => sent_postFor hs cls _ _) _ hs

/-- The cores in whose scratchpads a strip has elements. -/
def Strip.cores (p : Strip) : List Nat :=
  (p.els.filterMap fun e => match e.place with | .remote d => some d | _ => none).foldl addLine []

/-- The operations that the strip of a store sends (R160, R247). -/
def Thread.stripOps (t : Thread) (c : Nat) (p : Strip) (vr : VNum) : List Posted :=
  (p.cores.flatMap fun d => t.lineOps c 0 (fun _ => d) (byLine (p.cells t.a vr fun x => x == .remote d))) ++
    t.lineOps c 1 (fun key => key / 64 * 64) (byLine (p.cells t.a vr fun x => x == .slate))

theorem sent_stripPosted (hv : vsOf p.instr = some vr) (hs : s.slot c k = .thread t) :
    s.Sent c k t (t.stripOps c p vr) (s.stripPosted c k p) := by
  have hcores := sent_foldl (c := c) (k := k) (f := fun s d => s.sendLines c k p (fun x => x == .remote d) 0 fun _ => d) t
    (fun s qs d hs => sent_sendLines hv hs (fun x => x == .remote d) 0 fun _ => d) p.cores (qs := []) (s := s) hs
  have hslate := sent_sendLines hv hcores.slot (fun x => x == .slate) 1 fun key => key / 64 * 64
  exact ⟨by rw [Thread.stripOps, ← sends_sends]; exact hslate.slot, fun q => (hslate.byte q).trans (hcores.byte q),
    hslate.posted.trans (by rw [hcores.posted, List.append_assoc]; rfl)⟩

end

end Sys2Proof.Machine
end

section
/-! The strip of a vector load or store executes (R146, R160, R240, R241, R247): the proof of O33. -/

namespace Sys2Proof.Machine

section
variable {s : State} {c : Nat} {k : SlotN} {t : Thread} {p : Strip} {vr : VNum}

/-! ### A store's three parts together -/

/-- The groups of old bytes of the own memories that a store's strip overwrites, the last stored first. -/
def State.oldGroups (s : State) (p : Strip) (cs : List Host.Cell) : List (List Host.Cell) :=
  ((logGroups p.instr cs).map s.old).reverse

theorem length_oldGroups (s : State) (p : Strip) (cs : List Host.Cell) :
    (s.oldGroups p cs).length = (logGroups p.instr cs).length := by
  rw [State.oldGroups, List.length_reverse, List.length_map]

theorem mem_oldGroups {cs : List Host.Cell} {e : Host.Cell} :
    e ∈ (s.oldGroups p cs).flatten ↔ ∃ x ∈ cs, (x.1, s.byte x.1) = e := by
  simp only [State.oldGroups, List.mem_flatten, List.mem_reverse, List.mem_map]
  constructor
  · rintro ⟨_, ⟨g, hg, rfl⟩, he⟩
    obtain ⟨x, hx, rfl⟩ := List.mem_map.1 he
    exact ⟨x, mem_logGroups.1 (List.mem_flatten.2 ⟨g, hg, hx⟩), rfl⟩
  · rintro ⟨x, hx, rfl⟩
    obtain ⟨g, hg, hxg⟩ := List.mem_flatten.1 (mem_logGroups (i := p.instr).2 hx)
    exact ⟨_, ⟨g, hg, rfl⟩, List.mem_map_of_mem hxg⟩

/-- The thread once the three parts of its store's strip are done. -/
def Thread.stored (s : State) (c : Nat) (t : Thread) (p : Strip) (vr : VNum) : Thread :=
  ((t.logs p (s.oldGroups p (p.cells t.a vr VPlace.isOwn))).buffers p (p.cells t.a vr VPlace.isGlobal)).sends
    (t.stripOps c p vr)

/-- What the three parts of a store's strip do (R160). -/
theorem strip_stores (hv : vsOf p.instr = some vr) (hs : s.slot c k = .thread t) :
    let s' := ((s.stripLocal c k p).stripGlobal c k p).stripPosted c k p
    s'.slot c k = .thread (t.stored s c p vr) ∧
      (∀ q, s'.byte q = (lastByte (p.cells t.a vr VPlace.isOwn ++ if p.alone then p.cells t.a vr VPlace.isGlobal else []) q).getD
        (s.byte q)) ∧ s'.posted = s.posted ++ t.stripOps c p vr := by
  obtain ⟨hslot1, hbyte1, hposted1⟩ := storeGroups (logGroups_apart p.instr (p.cells t.a vr VPlace.isOwn)) hs p
  rw [← stripLocal_eq hv hs] at hslot1 hbyte1 hposted1
  obtain ⟨hslot2, hbyte2, hposted2⟩ := stripGlobal_does hv hslot1
  obtain ⟨hslot3, hbyte3, hposted3⟩ := sent_stripPosted hv hslot2
  refine ⟨hslot3, fun q => ?_, hposted3.trans (by rw [hposted2, hposted1]; rfl)⟩
  rw [hbyte3, hbyte2, hbyte1, lastByte_logGroups, lastByte_append, Option.getD_or]
  cases p.alone <;> rfl

/-- The strip of a store does its three parts, and writes no register. -/
theorem exec_stripExecute_store (hk : s.subject.slot = k) (ht : s.slot s.subject.core k = .thread t)
    (hn : s.nextStrip s.subject.core k = some p) (hst : isVstore p.instr = true) :
    exec .stripExecute s = .next ((((s.stripLocal s.subject.core k p).stripGlobal s.subject.core k p).stripPosted
      s.subject.core k p).modThr s.subject.core k fun t => t.stripped p {} (s.core s.subject.core).cycle) := by
  rw [exec_stripExecute_eq, execStripExecute, onThread_eq hk ht]
  simp only [State.runStrip, hn, Strip.isStore, hst, if_true, Thread.stripped]

theorem VRes.flags_empty : ({} : VRes).flags = 0 := rfl

theorem VRes.lanes_empty : ({} : VRes).lanes = List.replicate 5 none := rfl

theorem applyRes_empty (a : Arch) : a.applyRes {} = a := rfl

/-- The three parts leave registers and queue, and count what they send and commit (R122, R160). -/
theorem stored_fields (s : State) (c : Nat) (t : Thread) (p : Strip) (vr : VNum) :
    let u := t.stored s c p vr
    u.a = t.a ∧ u.vq = t.vq ∧ u.psc0 = t.psc0 + ((t.stripOps c p vr).filter fun x => x.cls == 0).length ∧
      u.psc1 = t.psc1 + ((t.stripOps c p vr).filter fun x => x.cls == 1).length ∧
      u.cc.commit = if p.alone ∧ p.last ∧ p.cells t.a vr VPlace.isGlobal ≠ [] then t.cc.commit + 1 else t.cc.commit := by
  simp only [Thread.stored, Thread.sends, Thread.buffers, Thread.logs, Thread.modChunkNo, and_self]

theorem chunk_modChunkNo {ch : Chunk} (hch : t.chunk = some ch) (f : Chunk → Chunk) :
    (t.modChunkNo ch.no f).chunk = some (f ch) := by
  simp only [Thread.modChunkNo, hch, Option.map_some, if_true]

/-- What the strip of a store makes of the chunk it belongs to (R160, R241). -/
theorem chunk_stored {ch : Chunk} (hch : t.chunk = some ch) (hno : ch.no = p.no) (now : Nat) :
    ((t.stored s c p vr).stripped p {} now).chunk = some { ch with
      undo := (if p.logged then s.oldGroups p (p.cells t.a vr VPlace.isOwn) else []) ++ ch.undo
      buf := if p.alone then ch.buf else (p.cells t.a vr VPlace.isGlobal).reverse ++
        ch.buf.filter fun e => !(p.cells t.a vr VPlace.isGlobal).any fun x => x.1 == e.1 } := by
  generalize ho : p.cells t.a vr VPlace.isOwn = own
  generalize hg : p.cells t.a vr VPlace.isGlobal = glob
  have h1 : (t.logs p (s.oldGroups p own)).chunk = some { ch with
      undo := (if p.logged then s.oldGroups p own else []) ++ ch.undo } := by
    rw [Thread.logs, ← hno, chunk_modChunkNo hch]
    cases p.logged <;> rfl
  have h2 : (t.stored s c p vr).chunk = some { ch with
      undo := (if p.logged then s.oldGroups p own else []) ++ ch.undo
      buf := if p.alone then ch.buf else glob.reverse ++ ch.buf.filter fun e => !glob.any fun x => x.1 == e.1 } := by
    rw [Thread.stored, ho, hg]
    show ((t.logs p (s.oldGroups p own)).modChunkNo p.no _).chunk = _
    rw [← hno]
    refine (chunk_modChunkNo (ch := { ch with undo := (if p.logged then s.oldGroups p own else []) ++ ch.undo }) h1 _).trans ?_
    cases p.alone <;> rfl
  rw [Thread.stripped]
  simp only [Thread.modArchFrom, h2, Option.map_some, hno, Nat.lt_irrefl, if_false]

theorem chunk_stored_none (hch : t.chunk = none) (now : Nat) : ((t.stored s c p vr).stripped p {} now).chunk = none := by
  simp only [Thread.stripped, Thread.modArchFrom, Thread.stored, Thread.sends, Thread.buffers, Thread.logs, Thread.modChunkNo, hch,
    Option.map_none]

/-- The strip of a store executes: what it writes, posts and leaves in its chunk (R160, R240, R241, R247). -/
theorem stripStores (hk : s.subject.slot = k) (ht : s.slot s.subject.core k = .thread t)
    (hn : s.nextStrip s.subject.core k = some p) (hv : vsOf p.instr = some vr) (hst : isVstore p.instr = true) {groups : Nat}
    (hlen : (logGroups p.instr (p.cells t.a vr VPlace.isOwn)).length = groups) :
    let c := s.subject.core
    let own := p.cells t.a vr VPlace.isOwn
    let glob := p.cells t.a vr VPlace.isGlobal
    let sent := t.stripOps c p vr
    ∃ s' u, exec .stripExecute s = .next s' ∧ s'.slot c k = .thread u ∧ u.a = t.a ∧
      u.vq = markDone (fun p => { p with done := some (s.core c).cycle, flags := 0, lanes := List.replicate 5 none }) t.vq ∧
      (∀ q, s'.byte q = (lastByte (own ++ if p.alone then glob else []) q).getD (s.byte q)) ∧ s'.posted = s.posted ++ sent ∧
      u.psc0 = t.psc0 + (sent.filter fun x => x.cls == 0).length ∧ u.psc1 = t.psc1 + (sent.filter fun x => x.cls == 1).length ∧
      u.cc.commit = (if p.alone ∧ p.last ∧ glob ≠ [] then t.cc.commit + 1 else t.cc.commit) ∧
      (t.chunk = none → u.chunk = none) ∧
      (∀ ch, t.chunk = some ch → ch.no = p.no → ∃ ch' gs, u.chunk = some ch' ∧ ch'.undo = gs ++ ch.undo ∧
        (p.logged = false → gs = []) ∧
        (p.logged = true → gs.length = groups ∧
          (∀ e ∈ gs.flatten, e.2 = s.byte e.1) ∧ ∀ q, (∃ e ∈ gs.flatten, e.1 = q) ↔ ∃ e ∈ own, e.1 = q) ∧
        ∀ q, (ch'.buf.find? fun e => e.1 == q).map (·.2) =
          ((if p.alone then none else lastByte glob q).or ((ch.buf.find? fun e => e.1 == q).map (·.2)))) := by
  intro c own glob sent
  obtain ⟨hslot, hbyte, hposted⟩ := strip_stores hv ht
  have hex := exec_stripExecute_store hk ht hn hst
  generalize ((s.stripLocal c k p).stripGlobal c k p).stripPosted c k p = s3 at hex hslot hbyte hposted
  obtain ⟨ha, hvq, hpsc0, hpsc1, hcommit⟩ := stored_fields s c t p vr
  have hslot' := State.slot_modThr s3 c k fun t => t.stripped p {} (s.core c).cycle
  rw [State.thr_of_slot hslot] at hslot'
  refine ⟨_, _, hex, hslot', ?_, ?_, hbyte, hposted, hpsc0, hpsc1, hcommit, fun hch => chunk_stored_none hch _,
    fun ch hch hno => ⟨_, _, chunk_stored hch hno _, rfl, fun hl => by rw [hl]; rfl, fun hl => ?_, fun q => ?_⟩⟩
  · rw [Thread.stripped_a, applyRes_empty, ha]
  · rw [Thread.stripped_vq, VRes.flags_empty, VRes.lanes_empty, hvq]
  · rw [hl, if_pos rfl, length_oldGroups]
    refine ⟨hlen, fun e he => ?_, fun q => ⟨?_, ?_⟩⟩
    · obtain ⟨x, -, rfl⟩ := mem_oldGroups.1 he
      rfl
    · rintro ⟨e, he, rfl⟩
      obtain ⟨x, hx, rfl⟩ := mem_oldGroups.1 he
      exact ⟨x, hx, rfl⟩
    · rintro ⟨e, he, rfl⟩
      exact ⟨_, mem_oldGroups.2 ⟨e, he, rfl⟩, rfl⟩
  · cases p.alone
    · exact find_buffered glob ch.buf q
    · rfl

/-! ### How many groups enter the log (R160, R240) -/

theorem length_byLine (cs : List Host.Cell) : (byLine cs).length = (cellLines cs).length := by
  rw [byLine_eq, List.length_map]

theorem length_logGroups_lines {i : Instr} (hi : ∀ ty vr rs1, i ≠ .vstl ty vr rs1) (cs : List Host.Cell) :
    (logGroups i cs).length = (cellLines cs).length := by
  unfold logGroups
  split
  · next h => subst h; rfl
  · split
    · next ty vr rs1 => exact absurd rfl (hi ty vr rs1)
    · exact length_byLine cs

theorem length_logGroups_vstl (ty : VType) (vr : VNum) (rs1 : XReg) (cs : List Host.Cell) :
    (logGroups (.vstl ty vr rs1) cs).length = min cs.length 1 := by
  cases cs with
  | nil => rfl
  | cons e cs => exact (Nat.min_eq_right (Nat.le_add_left 1 cs.length)).symm

end

/-- What a load that extends its elements by type makes of a value (R160). -/
theorem placeLane_typed (ty : VType) (v : Nat) : placeLane ty v = match ty with
    | .bf16 | .f16 => (BitVec.ofNat 16 v).setWidth 32
    | .i8 => (BitVec.ofNat 8 v).signExtend 32
    | .u8 => (BitVec.ofNat 8 v).setWidth 32
    | _ => BitVec.ofNat 32 v := by
  have mod (n : Nat) (h : n ≤ 32) : BitVec.ofNat 32 (v % 2 ^ n) = (BitVec.ofNat n v).setWidth 32 := by
    apply BitVec.eq_of_toNat_eq
    simp only [BitVec.toNat_ofNat, BitVec.toNat_setWidth]
  cases ty
  case bf16 => exact mod 16 (by decide)
  case f16 => exact mod 16 (by decide)
  case u8 => exact mod 8 (by decide)
  all_goals rfl

/-- Settles O33: the strip of a load writes what its elements read to their lanes; the strip of a store does its local, its
translated and its posted part one after another, and each part leaves alone what the others do. -/
theorem vectorMemoryPerformed : Obligations.VectorMemoryPerformed := by
  unfold Obligations.VectorMemoryPerformed
  intro s k t p ty vr vi rs1 rs2 hk ht hn hnd hlt c reads typed own glob cells put last groups cores sent writes
  have loads (i : Instr) (placed : Nat → Word32) (hst : isVstore i = false) (hvd : vdOf i = some vr)
      (hp : ∀ v, placeLane (memType i) v = placed v) : reads i placed := by
    rintro rfl he
    exact stripRuns_load hk ht hn hst he hnd hlt hvd placed hp
  have stores (i : Instr) (hv : vsOf i = some vr) (hst : isVstore i = true)
      (hlen : (logGroups i (p.cells t.a vr VPlace.isOwn)).length = if i = .vstl ty vr rs1
        then min (p.cells t.a vr VPlace.isOwn).length 1 else (cellLines (p.cells t.a vr VPlace.isOwn)).length) : writes i := by
    rintro rfl
    exact stripStores hk ht hn hv hst hlen
  refine ⟨loads _ _ rfl rfl (placeLane_typed ty), loads _ _ rfl rfl (placeLane_typed ty), loads _ _ rfl rfl (placeLane_typed ty),
    loads _ _ rfl rfl fun _ => rfl, stores _ rfl rfl ?_, stores _ rfl rfl ?_, stores _ rfl rfl ?_, stores _ rfl rfl ?_⟩
  · rw [if_neg (by simp), length_logGroups_lines (by simp)]
  · rw [if_neg (by simp), length_logGroups_lines (by simp)]
  · rw [if_neg (by simp), length_logGroups_lines (by simp)]
  · rw [if_pos rfl, length_logGroups_vstl]

end Sys2Proof.Machine
end

section
/-! Matrix engines, and the threads beside them, after a change of an engine, a thread or a stamp source (R175, R356): parts of
O40 and O41. -/

namespace Sys2Proof.Machine

section
variable {s : State} {c d : Nat}

/-! ### Engines after other changes -/

theorem State.mx_modCore {g : Core → Core} (h : ∀ x, (g x).c.mx = x.c.mx) : (s.modCore c g).mx d = s.mx d := by
  by_cases hd : d = c
  · subst hd
    rw [State.mx, State.core_modCore, h, State.mx]
  · rw [State.mx, State.core_modCore_ne _ _ hd, State.mx]

theorem State.mx_modCtx {g : CoreCtx → CoreCtx} (h : ∀ x, (g x).mx = x.mx) : (s.modCtx c g).mx d = s.mx d :=
  State.mx_modCore fun x => h x.c

@[simp] theorem State.mx_modThr (s : State) (c : Nat) (k : SlotN) (f : Thread → Thread) (d : Nat) :
    (s.modThr c k f).mx d = s.mx d := State.mx_modCtx fun _ => rfl

@[simp] theorem State.mx_setThr (s : State) (c : Nat) (k : SlotN) (t : Thread) (d : Nat) : (s.setThr c k t).mx d = s.mx d :=
  State.mx_modCtx fun _ => rfl

/-- What `modRef` does to the core that the reference names. -/
def Core.modSerial (f : Thread → Thread) (n : Nat) (k : Core) : Core :=
  { k with
    c := k.c.modSerial f n
    swapped := k.swapped.map fun w => if w.t.serial = n then { w with t := f w.t } else w }

theorem State.core_modRef (s : State) (r : TRef) (f : Thread → Thread) (d : Nat) :
    (s.modRef r f).core d = (s.modCore r.core (Core.modSerial f r.serial)).core d := rfl

@[simp] theorem State.mx_modRef (s : State) (r : TRef) (f : Thread → Thread) (d : Nat) : (s.modRef r f).mx d = s.mx d :=
  (congrArg (·.c.mx) (s.core_modRef r f d)).trans (State.mx_modCore (g := Core.modSerial f r.serial) fun _ => rfl)

@[simp] theorem State.mx_poke (s : State) (key : Nat) (bs : List Byte) (d : Nat) : (s.poke key bs).mx d = s.mx d := rfl

/-- Steps that leave an engine alone leave it alone one after another. -/
theorem mx_foldl_same {α : Type} {g : State → α → State} (h : ∀ s x, (g s x).mx d = s.mx d) (l : List α) (s : State) :
    (l.foldl g s).mx d = s.mx d := by
  induction l generalizing s with
  | nil => rfl
  | cons x l ih => exact (ih _).trans (h s x)

/-- Steps that leave memory alone leave it alone one after another. -/
theorem mem_foldl_same {α : Type} {g : State → α → State} (h : ∀ s x, (g s x).mem = s.mem) (l : List α) (s : State) :
    (l.foldl g s).mem = s.mem := by
  induction l generalizing s with
  | nil => rfl
  | cons x l ih => exact (ih _).trans (h s x)

/-! ### Records (R356, R375) -/

@[simp] theorem State.mx_setSource (s : State) (c unit : Nat) (x : StampSrc) (d : Nat) : (s.setSource c unit x).mx d = s.mx d := by
  unfold State.setSource
  split
  case h_3 | h_8 => exact State.mx_modCore fun _ => rfl
  all_goals rfl

theorem mx_enterRec (s : State) (c : Nat) (r : TrapRec) (d : Nat) : (s.enterRec c r).mx d = s.mx d := by
  unfold State.enterRec
  dsimp only
  split
  · rw [mx_foldl_same fun _ _ => State.mx_poke ..]
    exact State.mx_modCtx fun _ => rfl
  · exact State.mx_modCtx fun _ => rfl

theorem mx_queueRec (s : State) (c : Nat) (r : TrapRec) (d : Nat) : (s.queueRec c r).mx d = s.mx d := by
  unfold State.queueRec
  dsimp only
  split
  · exact mx_enterRec s c r d
  · exact State.mx_modCtx fun _ => rfl

@[simp] theorem mx_engineRec (s : State) (c cause source : Nat) (v v2 v3 handle : Word) (d : Nat) :
    (s.engineRec c cause source v v2 v3 handle).mx d = s.mx d := by
  simp only [State.engineRec, State.unitRec, State.stampAt]
  split
  · exact (mx_queueRec _ _ _ _).trans (State.mx_setSource _ _ _ _ _)
  · rfl

/-! ### Waiting loads answered (R203) -/

/-- Answering waiting loads changes threads, one after another. -/
theorem answerFull_of {P : State → Prop} (h : ∀ s c k f, P s → P (s.modThr c k f)) (hs : P s) : P s.answerFull := by
  refine List.foldlRecOn _ _ hs fun s hs e _ => ?_
  split
  · split
    · exact hs
    split <;> exact h _ _ _ _ hs
  · exact hs

theorem mx_pokeFull (s : State) (key : Nat) (bs : List Byte) (d : Nat) : (s.pokeFull key bs).mx d = s.mx d :=
  answerFull_of (P := fun s' => s'.mx d = s.mx d) (fun s c k f h => (s.mx_modThr c k f d).trans h) rfl

theorem byte_pokeFull (s : State) (key : Nat) (bs : List Byte) (q : Nat) : (s.pokeFull key bs).byte q = (s.poke key bs).byte q :=
  answerFull_of (P := fun s' => s'.byte q = (s.poke key bs).byte q) (fun _ _ _ _ h => h) rfl

/-! ### Threads by their reference -/

/-- A thread named by its reference changes, every other thread in a slot stays. -/
theorem slot_modRef_any {k : SlotN} {t : Thread} (hs : s.slot d k = .thread t) (r : TRef) (f : Thread → Thread) :
    (s.modRef r f).slot d k = .thread (if d = r.core ∧ t.serial = r.serial then f t else t) := by
  have hs' : (s.core d).c.slots[k] = .thread t := hs
  rw [State.slot, State.core_modRef]
  by_cases hd : d = r.core
  · subst hd
    have hslot : ((s.core r.core).modSerial f r.serial).c.slots[k] = ((s.core r.core).c.slots[k]).modSerial f r.serial := by
      simp only [Core.modSerial, CoreCtx.modSerial, Fin.getElem_fin, Vector.getElem_map]
    rw [State.core_modCore, hslot, hs']
    by_cases ht : t.serial = r.serial <;> simp [Slot.modSerial, ht]
  · rw [State.core_modCore_ne _ _ hd, hs', if_neg fun h => hd h.1]

theorem thread?_modSerial (f : Thread → Thread) (n : Nat) (w : Slot) :
    (w.modSerial f n).thread? = w.thread?.map fun t => if t.serial = n then f t else t := by
  cases w with
  | thread t => simp only [Slot.modSerial]; split <;> simp [Slot.thread?, *]
  | _ => rfl

theorem withSerial_modSerial {f : Thread → Thread} (hf : ∀ t, (f t).serial = t.serial) (x : CoreCtx) (n m : Nat) :
    ((x.modSerial f n).withSerial m).isSome = (x.withSerial m).isSome := by
  have hg (t : Thread) : (if t.serial = n then f t else t).serial = t.serial := by split <;> simp [hf]
  have hslot (w : Slot) : ((w.modSerial f n).thread?.filter fun t => t.serial == m).isSome =
      (w.thread?.filter fun t => t.serial == m).isSome := by
    rw [thread?_modSerial]
    cases w.thread? with
    | none => rfl
    | some t => simp only [Option.map_some, Option.filter_some, hg]; split <;> rfl
  rw [Bool.eq_iff_iff]
  simp only [CoreCtx.withSerial, List.findSome?_isSome_iff, CoreCtx.modSerial, Fin.getElem_fin, Vector.getElem_map, hslot]

/-- A core has a thread: bound, SWAPPED, or in a context switched out. -/
theorem isSome_findRef (s : State) (q : TRef) : (s.findRef q).isSome = (((s.core q.core).c.withSerial q.serial).isSome ||
    (s.core q.core).swapped.any (fun w => w.t.serial == q.serial) ||
    s.shadow.any fun e => e.2.1 == q.core && (e.2.2.withSerial q.serial).isSome) := by
  unfold State.findRef
  split
  · next h => simp [h]
  · next h =>
    rw [h, Option.isSome_none, Bool.false_or]
    split
    · next w h =>
      have hw := List.find?_some h
      rw [List.any_eq_true.2 ⟨w, List.mem_of_find?_eq_some h, hw⟩]
      rfl
    · next h =>
      rw [List.any_eq_false.2 (List.find?_eq_none.1 h), Bool.false_or, Bool.eq_iff_iff, List.any_eq_true,
        List.findSome?_isSome_iff]
      refine exists_congr fun e => and_congr_right fun _ => ?_
      by_cases he : e.2.1 = q.core <;> simp [he]

/-- Whether a core has a thread is as before when a thread changes and keeps its serial. -/
theorem findRef_modRef {f : Thread → Thread} (hf : ∀ t, (f t).serial = t.serial) (s : State) (r q : TRef) :
    ((s.modRef r f).findRef q).isSome = (s.findRef q).isSome := by
  have hctx : (((s.modRef r f).core q.core).c.withSerial q.serial).isSome = ((s.core q.core).c.withSerial q.serial).isSome := by
    rw [State.core_modRef]
    by_cases hc : q.core = r.core
    · rw [hc, State.core_modCore]
      exact withSerial_modSerial hf _ _ _
    · rw [State.core_modCore_ne _ _ hc]
  have hswap : ((s.modRef r f).core q.core).swapped.any (fun w => w.t.serial == q.serial) =
      (s.core q.core).swapped.any fun w => w.t.serial == q.serial := by
    rw [State.core_modRef]
    by_cases hc : q.core = r.core
    · rw [hc, State.core_modCore, Core.modSerial, List.any_map]
      refine congrArg _ (funext fun w => ?_)
      by_cases hw : w.t.serial = r.serial <;> simp [hw, hf]
    · rw [State.core_modCore_ne _ _ hc]
  have hshadow : (s.modRef r f).shadow.any (fun e => e.2.1 == q.core && (e.2.2.withSerial q.serial).isSome) =
      s.shadow.any fun e => e.2.1 == q.core && (e.2.2.withSerial q.serial).isSome := by
    refine List.any_map.trans (congrArg _ (funext fun e => ?_))
    by_cases he : e.2.1 = r.core <;> simp [he, withSerial_modSerial hf]
  rw [isSome_findRef, hctx, hswap, hshadow, isSome_findRef]

/-! ### An engine changed (R175) -/

/-- The state with the matrix engine of a core changed and nothing else. -/
def State.setMx (s : State) (c : Nat) (f : Matrix → Matrix) : State := s.modCtx c fun x => { x with mx := f x.mx }

@[simp] theorem State.mx_setMx (s : State) (c : Nat) (f : Matrix → Matrix) : (s.setMx c f).mx c = f (s.mx c) := by
  simp [State.mx, State.setMx]

theorem State.mx_setMx_ne (s : State) (f : Matrix → Matrix) (h : d ≠ c) : (s.setMx c f).mx d = s.mx d := by
  rw [State.mx, State.setMx, State.modCtx, State.core_modCore_ne _ _ h, State.mx]

/-- An engine changed; where an MGANG comes to its head, the cycle at which its thread parked, too. -/
theorem modMx_cases (s : State) (c : Nat) (f : Matrix → Matrix) : s.modMx c f = s.setMx c f ∨
    ∃ r, s.modMx c f = (s.setMx c f).modRef r fun t => { t with parkedAt := (s.core c).cycle } := by
  unfold State.modMx
  dsimp only
  split
  · split
    · split
      · exact .inl rfl
      · exact .inr ⟨_, rfl⟩
    · exact .inl rfl
  · exact .inl rfl

/-- No MGANG comes to the head: the engine alone changes. -/
theorem modMx_eq {f : Matrix → Matrix}
    (h : ∀ m, (f (s.mx c)).queue.head? = some m → (s.mx c).queue.head? = some m ∨ ∀ g id, m.op ≠ .gang g id) :
    s.modMx c f = s.setMx c f := by
  have hq : ((s.modCtx c fun x => { x with mx := f x.mx }).mx c) = f (s.mx c) := s.mx_setMx c f
  unfold State.modMx
  dsimp only
  rw [hq]
  split
  · next m hm =>
    split
    · next g id hop => rw [if_pos ((h m hm).resolve_right fun hg => hg g id hop)]; rfl
    · rfl
  · rfl

@[simp] theorem State.mx_modMx (s : State) (c : Nat) (f : Matrix → Matrix) : (s.modMx c f).mx c = f (s.mx c) := by
  rcases modMx_cases s c f with h | ⟨r, h⟩ <;> simp [h]

theorem State.mx_modMx_ne (s : State) (f : Matrix → Matrix) (h : d ≠ c) : (s.modMx c f).mx d = s.mx d := by
  rcases modMx_cases s c f with h' | ⟨r, h'⟩ <;> simp [h', State.mx_setMx_ne s f h]

@[simp] theorem State.mem_modMx (s : State) (c : Nat) (f : Matrix → Matrix) : (s.modMx c f).mem = s.mem := by
  rcases modMx_cases s c f with h | ⟨r, h⟩ <;> rw [h] <;> rfl

@[simp] theorem State.full_modMx (s : State) (c : Nat) (f : Matrix → Matrix) : (s.modMx c f).full = s.full := by
  rcases modMx_cases s c f with h | ⟨r, h⟩ <;> rw [h] <;> rfl

@[simp] theorem State.curWord_modMx (s : State) (c : Nat) (f : Matrix → Matrix) : (s.modMx c f).curWord = s.curWord := by
  rcases modMx_cases s c f with h | ⟨r, h⟩ <;> rw [h] <;> rfl

theorem cycle_modCore {g : Core → Core} (h : ∀ x, (g x).cycle = x.cycle) : ((s.modCore c g).core d).cycle = (s.core d).cycle := by
  by_cases hd : d = c
  · subst hd
    rw [State.core_modCore, h]
  · rw [State.core_modCore_ne _ _ hd]

@[simp] theorem State.cycle_modMx (s : State) (c : Nat) (f : Matrix → Matrix) (d : Nat) :
    ((s.modMx c f).core d).cycle = (s.core d).cycle := by
  have hset : ((s.setMx c f).core d).cycle = (s.core d).cycle := cycle_modCore fun _ => rfl
  rcases modMx_cases s c f with h | ⟨r, h⟩ <;> rw [h]
  · exact hset
  · exact (cycle_modCore (s := s.setMx c f) (g := Core.modSerial _ r.serial) fun _ => rfl).trans hset

theorem slot_setMx (s : State) (c : Nat) (f : Matrix → Matrix) (d : Nat) (k : SlotN) : (s.setMx c f).slot d k = s.slot d k :=
  slot_modCtx s c d k fun _ => rfl

/-- A thread keeps all but the cycle at which it parked when an engine changes. -/
theorem slot_modMx {k : SlotN} {t : Thread} (hs : s.slot d k = .thread t) (c : Nat) (f : Matrix → Matrix) :
    ∃ n, (s.modMx c f).slot d k = .thread { t with parkedAt := n } := by
  have hset := (slot_setMx s c f d k).trans hs
  rcases modMx_cases s c f with h | ⟨r, h⟩ <;> rw [h]
  · exact ⟨t.parkedAt, hset⟩
  · rw [slot_modRef_any hset]
    split
    · exact ⟨_, rfl⟩
    · exact ⟨t.parkedAt, rfl⟩

theorem findRef_modMx (s : State) (c : Nat) (f : Matrix → Matrix) (q : TRef) :
    ((s.modMx c f).findRef q).isSome = (s.findRef q).isSome := by
  have hset : ((s.setMx c f).findRef q).isSome = (s.findRef q).isSome := by
    have hcore : ((s.setMx c f).core q.core).c.withSerial q.serial = (s.core q.core).c.withSerial q.serial ∧
        ((s.setMx c f).core q.core).swapped = (s.core q.core).swapped := by
      rw [State.setMx, State.modCtx]
      by_cases hc : q.core = c
      · rw [hc, State.core_modCore]
        exact ⟨rfl, rfl⟩
      · rw [State.core_modCore_ne _ _ hc]
        exact ⟨rfl, rfl⟩
    obtain ⟨hctx, hswap⟩ := hcore
    rw [isSome_findRef, hctx, hswap, isSome_findRef]
    rfl
  rcases modMx_cases s c f with h | ⟨r, h⟩ <;> rw [h]
  · exact hset
  · rw [findRef_modRef (by exact fun _ => rfl), hset]

/-! ### Steps of several engines -/

/-- A step g for x changes the engine of x's core by f, and no other. -/
structure ActsOn {α : Type} (core : α → Nat) (f : α → Matrix → Matrix) (g : State → α → State) : Prop where
  here : ∀ s x, (g s x).mx (core x) = f x (s.mx (core x))
  other : ∀ s x d, d ≠ core x → (g s x).mx d = s.mx d

theorem actsOn_modMx {α : Type} (core : α → Nat) (f : α → Matrix → Matrix) :
    ActsOn core f fun s x => s.modMx (core x) (f x) :=
  ⟨fun s _ => s.mx_modMx _ _, fun s _ _ hd => s.mx_modMx_ne _ hd⟩

section
variable {α : Type} {core : α → Nat} {f : α → Matrix → Matrix} {g : State → α → State}

/-- Engines of cores that no step is for stay. -/
theorem ActsOn.foldl_other (h : ActsOn core f g) (l : List α) (s : State) (hd : ∀ x ∈ l, core x ≠ d) :
    (l.foldl g s).mx d = s.mx d := by
  induction l generalizing s with
  | nil => rfl
  | cons x l ih =>
    rw [List.foldl_cons, ih _ fun y hy => hd y (List.mem_cons_of_mem _ hy)]
    exact h.other s x d (hd x List.mem_cons_self).symm

/-- Steps for different cores change each engine once. -/
theorem ActsOn.foldl_here (h : ActsOn core f g) (l : List α) (s : State) (hn : (l.map core).Nodup) {x : α} (hx : x ∈ l) :
    (l.foldl g s).mx (core x) = f x (s.mx (core x)) := by
  induction l generalizing s with
  | nil => exact absurd hx List.not_mem_nil
  | cons y l ih =>
    rw [List.map_cons, List.nodup_cons] at hn
    obtain ⟨hy, hn⟩ := hn
    rw [List.foldl_cons]
    rcases List.mem_cons.1 hx with rfl | hx
    · rw [h.foldl_other l _ fun z hz hc => hy (List.mem_map.2 ⟨z, hz, hc⟩), h.here]
    · rw [ih _ hn hx, h.other _ _ _ fun hc => hy (List.mem_map.2 ⟨x, hx, hc⟩)]

end

end

end Sys2Proof.Machine
end

section
/-! The matrix instructions (R171, R174 to R181): the proof of O40. -/

namespace Sys2Proof.Machine

section
variable {s s0 s1 s3 : State} {c : Nat} {k : SlotN} {t u : Thread} {f : Form} {g : Guard} {rd rs1 rs2 : XReg} {acc : Fin 4}

/-! ### Sending a command (R171) -/

/-- The state in which a command has entered the queue of a core's engine. -/
def State.entered (s : State) (c : Nat) (m : MCmd) : State := s.modMx c fun x => { x with queue := x.queue ++ [m] }

theorem mSend_full (hc : s.Commits c k t s1 u) (hq : 8 ≤ s1.mQueued c) (op : MOp) :
    mSend s c k op = .stop (s1.park c k (.cond .matrixRoom)) := by
  rw [mSend, hc.run, Got.bind_ok, decide_eq_false (Nat.not_lt.2 hq)]
  rfl

theorem mSend_room (hc : s.Commits c k t s1 u) (hq : s1.mQueued c < 8) (op : MOp) :
    mSend s c k op = .ok (s1.entered c ⟨op, t.ref c, k, t.a.pc⟩) () := by
  rw [mSend, hc.run, Got.bind_ok, decide_eq_true hq, waitFor_true, Got.bind_ok]
  simp only [State.thr_of_slot hc.slot, hc.a, Thread.ref, hc.serial]
  rfl

theorem mx_entered (s : State) (c : Nat) (m : MCmd) : (s.entered c m).mx c = { s.mx c with queue := (s.mx c).queue ++ [m] } :=
  s.mx_modMx c _

/-- A command that is no MGANG enters its queue and changes no thread. -/
theorem slot_entered (s : State) (c : Nat) {m : MCmd} (hm : ∀ g id, m.op ≠ .gang g id) (d : Nat) (k : SlotN) :
    (s.entered c m).slot d k = s.slot d k := by
  rw [State.entered, modMx_eq, slot_setMx]
  intro m' hm'
  cases hq : (s.mx c).queue with
  | nil =>
    obtain rfl : m = m' := by simpa [hq] using hm'
    exact .inr hm
  | cons a l => exact .inl (by simpa [hq] using hm')

/-- What an instruction does that sends a command: with an entry free the command enters the queue, and the thread, which is
u then, completes; with none it waits. -/
def State.Sends (s1 : State) (c : Nat) (k : SlotN) (u : Thread) (out : Out) (m : MCmd) : Prop :=
  (s1.mQueued c < 8 → ∃ s', out = .next s' ∧
    (s'.mx c).queue = (s1.mx c).queue ++ [m] ∧ (s'.mx c).acc = (s1.mx c).acc ∧
    s'.slot c k = .thread (u.finish none 4) ∧ s'.mem = s1.mem) ∧
  (8 ≤ s1.mQueued c → out = .next (s1.park c k (.cond .matrixRoom)))

/-- A ready instruction that at last sends a command which is no MGANG. -/
theorem State.Ready.sends (h : s.Ready c k t f) (hc : s0.Commits c k t s1 u) {op : MOp} (hop : ∀ g id, op ≠ .gang g id)
    {body : Body} (hb : body s c k = (mSend s0 c k op).bind fun s _ => .ok s {}) :
    s1.Sends c k u (run f body s) ⟨op, t.ref c, k, t.a.pc⟩ := by
  refine ⟨fun hq => ?_, fun hq => h.stops (by rw [hb, mSend_full hc hq, Got.bind_stop])⟩
  rw [h.runs, hb, mSend_room hc hq, Got.bind_ok, afterBody_nil, State.thr_of_slot ((slot_entered s1 c hop c k).trans hc.slot)]
  exact ⟨_, rfl, by rw [State.mx_setThr, mx_entered], by rw [State.mx_setThr, mx_entered], State.slot_setThr .., State.mem_modMx ..⟩

/-- A ready instruction whose body is to trap. -/
theorem State.Ready.traps (h : s.Ready c k t f) {body : Body} {p : Trap} (hb : body s c k = trap s c k p) (ht : t.trapReady = true) :
    run f body s = .next (s.takeTrap c k p) := h.stops (hb.trans (trap_ready h.slot ht p))

/-! ### MZERO and MSTORE (R178) -/

theorem mzero_sends (h : s.Ready c k t { guard := g }) (hc : s.Commits c k t s1 u) (acc : Fin 4) :
    s1.Sends c k u (exec (.mzero g acc) s) ⟨.zero acc, t.ref c, k, t.a.pc⟩ :=
  h.sends hc (by simp) rfl

theorem mstore_sends (h : s.Ready c k t { guard := g, src := [rs1] }) (hc : s.Commits c k t s1 u)
    (ha : (t.a.xr rs1).toNat % 64 = 0) (hp : s.tilePlace c (t.a.xr rs1).toNat ≠ none) :
    s1.Sends c k u (exec (.mstore g acc rs1) s) ⟨.store acc (t.a.xr rs1), t.ref c, k, t.a.pc⟩ := by
  refine h.sends hc (by simp) ?_
  simp only [h.thr, h.xv (r := rs1) (by simp), aligned_ok s c k 6 ha, Got.bind_ok]
  rw [if_neg (by simpa using hp)]

theorem mstore_misaligned (h : s.Ready c k t { guard := g, src := [rs1] }) (ha : (t.a.xr rs1).toNat % 64 ≠ 0)
    (ht : t.trapReady = true) : exec (.mstore g acc rs1) s = .next (s.takeTrap c k { cause := 6, val := t.a.xr rs1 }) := by
  refine h.stops ?_
  simp only [h.thr, h.xv (r := rs1) (by simp), aligned_traps h.slot 6 ha ht, Got.bind_stop, BitVec.ofNat_toNat,
    BitVec.setWidth_eq]

theorem mstore_noPlace (h : s.Ready c k t { guard := g, src := [rs1] }) (ha : (t.a.xr rs1).toNat % 64 = 0)
    (hp : s.tilePlace c (t.a.xr rs1).toNat = none) (ht : t.trapReady = true) :
    exec (.mstore g acc rs1) s = .next (s.takeTrap c k { cause := 7, val := t.a.xr rs1 }) := by
  refine h.traps ?_ ht
  simp only [h.thr, h.xv (r := rs1) (by simp), aligned_ok s c k 6 ha, Got.bind_ok, hp, Option.isNone_none, if_true]

/-! ### MBLD (R176) -/

section
variable {a n b m p : Nat} {s2 : State} {tile scaleb : Except (Nat × AccErr) (List (Nat × Nat))} {x : Trap}

/-- The failure of the lower address stops MBLD, that of the tile where both are at one. -/
theorem bldFor_traps (h1 : s.bldSpan c a n = (s2, tile)) (h2 : s2.bldSpan c b m = (s3, scaleb)) (hs : s3.slot c k = .thread t)
    (ht : t.trapReady = true) (he : (tile = .error (p, .trap x) ∧ ∀ e, scaleb = .error e → p ≤ e.1) ∨
      (scaleb = .error (p, .trap x) ∧ ∀ e, tile = .error e → p < e.1)) :
    bldFor s c k a n b m = .stop (s3.takeTrap c k x) := by
  have htrap : (accStop s3 c k (.trap x) : Got (List (Nat × Nat) × List (Nat × Nat))) = .stop (s3.takeTrap c k x) :=
    trap_ready hs ht x
  simp only [bldFor, h1, h2]
  rcases he with ⟨rfl, he⟩ | ⟨rfl, he⟩
  · cases scaleb with
    | ok _ => exact htrap
    | error e => dsimp only; rw [if_neg (Nat.not_lt.2 (he e rfl)), htrap]
  · cases tile with
    | ok _ => exact htrap
    | error e => dsimp only; rw [if_pos (he e rfl), htrap]

theorem bldFor_ok {data scales : List (Nat × Nat)} (h1 : s.bldSpan c a n = (s2, .ok data))
    (h2 : s2.bldSpan c b m = (s3, .ok scales)) : bldFor s c k a n b m = .ok s3 (data, scales) := by
  simp only [bldFor, h1, h2]

end

section
variable {fb : Nat}

theorem mbld_illegal (h : s.Ready c k t { guard := g, src := [rs1, rs2] })
    (hk : kbOk (t.a.csr.fmtsh.toNat / 256 % 256) (t.a.xr rs2).toNat = false) (ht : t.trapReady = true) :
    exec (.mbld g rs1 rs2) s =
      .next (s.takeTrap c k { cause := 2, val := s.curWord.setWidth 64, val2 := t.a.csr.fmtsh }) := by
  refine h.traps ?_ ht
  have hb : bits t.a.csr.fmtsh.toNat 8 8 = t.a.csr.fmtsh.toNat / 256 % 256 := rfl
  simp only [h.thr, h.xv (r := rs2) (by simp), hb, hk, Bool.not_false, if_true, illegal]

theorem mbld_sends {s2 s4 : State} {data scales : List (Nat × Nat)} (h : s.Ready c k t { guard := g, src := [rs1, rs2] })
    (hfb : t.a.csr.fmtsh.toNat / 256 % 256 = fb) (hk : kbOk fb (t.a.xr rs2).toNat = true) (ha : (t.a.xr rs1).toNat % 64 = 0)
    (h1 : s.bldSpan c (t.a.xr rs1).toNat (mBytes fb (t.a.xr rs2).toNat) = (s2, .ok data))
    (h2 : s2.bldSpan c t.a.csr.scaleb.toNat (mScales fb (t.a.xr rs2).toNat) = (s3, .ok scales)) (hc : s3.Commits c k t s4 u) :
    s4.Sends c k u (exec (.mbld g rs1 rs2) s)
      ⟨.bld (t.a.xr rs1) (t.a.xr rs2).toNat fb t.a.csr.scaleb data scales, t.ref c, k, t.a.pc⟩ := by
  have hb : bits t.a.csr.fmtsh.toNat 8 8 = fb := hfb
  refine h.sends hc (by simp) ?_
  simp only [h.thr, h.xv (r := rs1) (by simp), h.xv (r := rs2) (by simp), hb, hk, Bool.not_true, Bool.false_eq_true, if_false,
    aligned_ok s c k 4 ha, bldFor_ok h1 h2, Got.bind_ok]

theorem mbld_fails {s2 : State} {tile scaleb : Except (Nat × AccErr) (List (Nat × Nat))} {p : Nat} {x : Trap}
    (h : s.Ready c k t { guard := g, src := [rs1, rs2] })
    (hfb : t.a.csr.fmtsh.toNat / 256 % 256 = fb) (hk : kbOk fb (t.a.xr rs2).toNat = true) (ha : (t.a.xr rs1).toNat % 64 = 0)
    (h1 : s.bldSpan c (t.a.xr rs1).toNat (mBytes fb (t.a.xr rs2).toNat) = (s2, tile))
    (h2 : s2.bldSpan c t.a.csr.scaleb.toNat (mScales fb (t.a.xr rs2).toNat) = (s3, scaleb)) (hs : s3.slot c k = .thread t)
    (ht : t.trapReady = true) (he : (tile = .error (p, .trap x) ∧ ∀ e, scaleb = .error e → p ≤ e.1) ∨
      (scaleb = .error (p, .trap x) ∧ ∀ e, tile = .error e → p < e.1)) :
    exec (.mbld g rs1 rs2) s = .next (s3.takeTrap c k x) := by
  have hb : bits t.a.csr.fmtsh.toNat 8 8 = fb := hfb
  refine h.stops ?_
  simp only [h.thr, h.xv (r := rs1) (by simp), h.xv (r := rs2) (by simp), hb, hk, Bool.not_true, Bool.false_eq_true, if_false,
    aligned_ok s c k 4 ha, bldFor_traps h1 h2 hs ht he, Got.bind_ok, Got.bind_stop]

end

/-! ### MMA (R177) -/

section
variable {fa fb : Nat}

theorem mma_illegal (h : s.Ready c k t { guard := g, src := [rs1, rs2] }) (hfa : t.a.csr.fmtsh.toNat % 256 = fa)
    (hfb : t.a.csr.fmtsh.toNat / 256 % 256 = fb)
    (hbad : (mFormat fa).isNone = true ∨ kbOk fb (t.a.xr rs2).toNat = false ∨ mFam fa ≠ mFam fb) (ht : t.trapReady = true) :
    exec (.mma g acc rs1 rs2) s =
      .next (s.takeTrap c k { cause := 2, val := s.curWord.setWidth 64, val2 := t.a.csr.fmtsh }) := by
  have ha : bits t.a.csr.fmtsh.toNat 0 8 = fa := by simpa [bits] using hfa
  have hb : bits t.a.csr.fmtsh.toNat 8 8 = fb := hfb
  refine h.traps ?_ ht
  simp only [h.thr, h.xv (r := rs2) (by simp), ha, hb, Bool.not_eq_true', if_pos hbad, illegal]

theorem mma_sends {s4 : State} {scales : List (Nat × Nat)} (h : s.Ready c k t { guard := g, src := [rs1, rs2] })
    (hfa : t.a.csr.fmtsh.toNat % 256 = fa) (hfb : t.a.csr.fmtsh.toNat / 256 % 256 = fb) (hf : (mFormat fa).isSome = true)
    (hk : kbOk fb (t.a.xr rs2).toNat = true) (hm : mFam fa = mFam fb) (hx : (t.a.xr rs1).toNat % 64 = 0)
    (ho : s.aOutside c (t.a.xr rs1).toNat (mBytes fa ((s.mx c).gsize * (t.a.xr rs2).toNat)) = none)
    (hsc : s.spans c t.a.csr.scalea.toNat (mScales fa (16 * (t.a.xr rs2).toNat)) .load
      (spanFuel (mScales fa (16 * (t.a.xr rs2).toNat))) = (s3, .ok scales)) (hc : s3.Commits c k t s4 u) :
    s4.Sends c k u (exec (.mma g acc rs1 rs2) s)
      ⟨.mma acc (t.a.xr rs1) (t.a.xr rs2).toNat fa fb t.a.csr.scalea scales, t.ref c, k, t.a.pc⟩ := by
  have ha : bits t.a.csr.fmtsh.toNat 0 8 = fa := by simpa [bits] using hfa
  have hb : bits t.a.csr.fmtsh.toNat 8 8 = fb := hfb
  have hgood : ¬((mFormat fa).isNone = true ∨ kbOk fb (t.a.xr rs2).toNat = false ∨ mFam fa ≠ mFam fb) := by
    cases hn : mFormat fa <;> simp_all
  refine h.sends hc (by simp) ?_
  simp only [h.thr, h.xv (r := rs1) (by simp), h.xv (r := rs2) (by simp), ha, hb, Bool.not_eq_true', if_neg hgood, hx,
    ne_eq, not_true_eq_false, if_false, ho, hsc]

end

/-! ### MGANG (R175) -/

theorem gangSize_iff (n : Nat) : n ∈ [1, 2, 4, 8, 16] ↔ ¬(n ≠ 1 ∧ n ≠ 2 ∧ n ≠ 4 ∧ n ≠ 8 ∧ n ≠ 16) := by
  simp only [List.mem_cons, List.not_mem_nil, or_false]
  omega

theorem mgang_refused (h : s.Ready c k t { guard := g, src := [rs1, rs2], dst := [rd] })
    (hn : (t.a.xr rs1).toNat ∉ [1, 2, 4, 8, 16]) : exec (.mgang g rd rs1 rs2) s = .next (s.done c k (t.wx rd 2)) := by
  refine (h.runs _).trans ?_
  simp only [h.thr, h.xv (r := rs1) (by simp)]
  rw [if_pos (not_not.1 (mt (gangSize_iff _).2 hn)), h.delivers (by simp) h.slot (endsWith_nil none)]
  rfl

/-- MGANG of a size there is enters the queue, its thread parked until the gang forms. -/
theorem mgang_sends (h : s.Ready c k t { guard := g, src := [rs1, rs2], dst := [rd] }) (hc : s.Commits c k t s1 u)
    (hn : (t.a.xr rs1).toNat ∈ [1, 2, 4, 8, 16]) (hq : s1.mQueued c < 8) :
    ∃ s', exec (.mgang g rd rs1 rs2) s = .next s' ∧
      (s'.mx c).queue = (s1.mx c).queue ++ [⟨.gang (t.a.xr rs1).toNat ((t.a.xr rs2).toNat % 2 ^ 16), t.ref c, k, t.a.pc⟩] ∧
      s'.slot c k = .thread (u.parkedOn (s1.core c).cycle s1.curWord
        (.gang (t.a.xr rs1).toNat ((t.a.xr rs2).toNat % 2 ^ 16) rd)) := by
  obtain ⟨n, hslot⟩ : ∃ n, (s1.entered c ⟨.gang (t.a.xr rs1).toNat ((t.a.xr rs2).toNat % 2 ^ 16), t.ref c, k, t.a.pc⟩).slot c k =
    .thread { u with parkedAt := n } := slot_modMx hc.slot c _
  refine ⟨_, h.stops (s' := (s1.entered c ⟨.gang (t.a.xr rs1).toNat ((t.a.xr rs2).toNat % 2 ^ 16), t.ref c, k, t.a.pc⟩).park c k
    (.gang (t.a.xr rs1).toNat ((t.a.xr rs2).toNat % 2 ^ 16) rd)) ?_, ?_, ?_⟩
  · simp only [h.thr, h.xv (r := rs1) (by simp), h.xv (r := rs2) (by simp), if_neg ((gangSize_iff _).1 hn), mSend_room hc hq, Got.bind_ok]
  · rw [State.park, State.mx_modThr, mx_entered]
  · rw [State.park_thread hslot, State.slot_setThr, State.entered, State.cycle_modMx, State.curWord_modMx]
    rfl

/-! ### MCFG (R174) -/

theorem mcfgRead_own {a : Word} {off key : Nat} (hs : s.slot c k = .thread t)
    (hr : s.resolve c a.toNat .load = (s, .ok (.own off key))) (hclear : s.Clear c k t (.own off key) 8) :
    mcfgRead s c k a = .ok s (s.num key 8, true) := by
  obtain ⟨hov, hbad, hfree⟩ := hclear
  rw [mcfgRead, resolveFor_ok hr, Got.bind_ok, destWait_free hs hfree, Got.bind_ok, lockWait_free hfree, Got.bind_ok,
    overlapWait_clear hs hov, Got.bind_ok, readFor_here (by simp) hbad, Got.bind_ok]
  rfl

/-- The thread with the three registers of MCFG loaded from the doublewords w0, w2 and w3 of its image (R174). -/
def Thread.configured (t : Thread) (w0 w2 w3 : Nat) : Thread :=
  { t with a := { t.a with csr := { t.a.csr with
      fmtsh := BitVec.ofNat 64 (w0 / 2 ^ 24 % 2 ^ 16), scalea := BitVec.ofNat 64 w2, scaleb := BitVec.ofNat 64 w3 } } }

theorem mcfg_done {k0 k2 k3 o0 o2 o3 : Nat} (h : s.Ready c k t { guard := g, src := [rs1] }) (ha : (t.a.xr rs1).toNat % 8 = 0)
    (h0 : s.resolve c (t.a.xr rs1).toNat .load = (s, .ok (.own o0 k0))) (hc0 : s.Clear c k t (.own o0 k0) 8)
    (h2 : s.resolve c (t.a.xr rs1 + 16).toNat .load = (s, .ok (.own o2 k2))) (hc2 : s.Clear c k t (.own o2 k2) 8)
    (h3 : s.resolve c (t.a.xr rs1 + 24).toNat .load = (s, .ok (.own o3 k3))) (hc3 : s.Clear c k t (.own o3 k3) 8) :
    exec (.mcfg g rs1) s = .next (s.done c k (t.configured (s.num k0 8) (s.num k2 8) (s.num k3 8))) := by
  refine (h.runs _).trans ?_
  simp only [h.thr, h.xv (r := rs1) (by simp), aligned_ok s c k 4 ha, Got.bind_ok, mcfgRead_own h.slot h0 hc0,
    mcfgRead_own h.slot h2 hc2, mcfgRead_own h.slot h3 hc3, deliver, Bool.and_self, if_true]
  rw [afterBody_nil, State.thr_modThr, State.setThr_modThr, h.thr]
  rfl

/-- An address has one place. -/
theorem own_unique {a o o' key key' : Nat} {need : Need} (h : s.resolve c a need = (s, .ok (.own o key)))
    (h' : s.resolve c a need = (s, .ok (.own o' key'))) : key = key' :=
  have ⟨_, hkey⟩ : o = o' ∧ key = key' := by simpa using h.symm.trans h'
  hkey

theorem mcfg_misaligned (h : s.Ready c k t { guard := g, src := [rs1] }) (ha : (t.a.xr rs1).toNat % 8 ≠ 0)
    (ht : t.trapReady = true) : exec (.mcfg g rs1) s = .next (s.takeTrap c k { cause := 4, val := t.a.xr rs1 }) := by
  refine h.stops ?_
  simp only [h.thr, h.xv (r := rs1) (by simp), aligned_traps h.slot 4 ha ht, Got.bind_stop, BitVec.ofNat_toNat,
    BitVec.setWidth_eq]

/-! ### MSTAT and MWAIT (R180, R181) -/

theorem mstat_done (h : s.Ready c k t { guard := g, dst := [rd] }) :
    exec (.mstat g rd) s = .next (s.done c k (t.wx rd (s.mStat c))) := by
  refine (h.runs _).trans ?_
  rw [h.delivers (by simp) h.slot (endsWith_nil none)]
  rfl

/-- The status word of MSTAT, its two one-bit fields as conditions (R180). -/
theorem mStat_eq (s : State) (c : Nat) : s.mStat c = let m := s.mx c
    BitVec.ofNat 64 (m.gid * 2 ^ 32 + m.gpos * 2 ^ 24 + m.gsize * 2 ^ 16 + m.err * 2 ^ 13 +
      (if m.current.poison.isSome then 2 ^ 12 else 0) + m.poison.toNat * 2 ^ 8 + s.mQueued c * 2 +
      (if s.mStarted c then 1 else 0)) := by
  have hbit (b : Bool) (n : Nat) : b.toNat * n = if b then n else 0 := by cases b <;> simp
  have hstart (b : Bool) : b.toNat = if b then 1 else 0 := by cases b <;> rfl
  rw [State.mStat, hbit, hstart]

theorem mwait_done (h : s.Ready c k t { guard := g }) (hq : (s.mx c).queue = []) :
    exec (.mwait g) s = .next (s.done c k t) := by
  refine (h.runs _).trans ?_
  rw [Matrix.idle, hq, beq_self_eq_true, waitFor_true, Got.bind_ok, afterBody_nil, h.thr]
  rfl

theorem mwait_waits (h : s.Ready c k t { guard := g }) (hq : (s.mx c).queue ≠ []) :
    exec (.mwait g) s = .next (s.park c k (.cond .matrixIdle)) := by
  refine h.stops ?_
  rw [Matrix.idle, beq_eq_false_iff_ne.2 hq]
  rfl

end

/-- Settles O40: a command that may enter its queue enters it with what it samples, and what keeps it from there traps or waits;
the gang, configuration and status instructions by what they end in. -/
theorem matrixInstructions : Obligations.MatrixInstructions := by
  unfold Obligations.MatrixInstructions
  intro s s1 c k t u g rd rs1 rs2 acc h hc x y fa fb sendsIn sends traps bad
  have two : s.Ready c k t { guard := g, src := [rs1, rs2] } := h.of_subset (by simp) (by simp)
  have one : s.Ready c k t { guard := g, src := [rs1] } := h.of_subset (by simp) (by simp)
  have bare : s.Ready c k t { guard := g } := h.of_subset (by simp) (by simp)
  have dst : s.Ready c k t { guard := g, dst := [rd] } := h.of_subset (by simp) (by simp)
  refine ⟨mzero_sends bare hc acc, mstore_sends one hc, mstore_misaligned one, mstore_noPlace one, ?mbld, mbld_illegal two,
    ?mma, mma_illegal two rfl rfl, mgang_refused h, mgang_sends h hc, ?mcfg, mcfg_misaligned one, ?mstat, mwait_done bare,
    mwait_waits bare⟩
  case mbld =>
    intro hk hx s2 s3 tile scaleb h1 h2
    refine ⟨?_, fun a p hs ht he => mbld_fails two rfl hk hx h1 h2 hs ht he⟩
    rintro data scales s4 u' rfl rfl hc'
    exact mbld_sends two rfl hk hx h1 h2 hc'
  case mma =>
    intro scales s3 s4 u' hf hk hm hx ho hsc hc'
    exact mma_sends two rfl rfl hf hk hm hx ho hsc hc'
  case mcfg =>
    intro hx hr
    simp only [List.forall_mem_cons, List.not_mem_nil, false_imp_iff, implies_true, and_true, add_zero] at hr
    obtain ⟨⟨o0, k0, h0, hc0⟩, ⟨o2, k2, h2, hc2⟩, o3, k3, h3, hc3⟩ := hr
    refine ⟨_, mcfg_done one hx h0 hc0 h2 hc2 h3 hc3, ?_, ?_, ?_, rfl⟩
    · intro off key hk
      rw [← own_unique h0 hk]
      rfl
    · intro off key hk
      rw [← own_unique h2 hk]
      rfl
    · intro off key hk
      rw [← own_unique h3 hk]
      rfl
  case mstat =>
    rw [mstat_done dst, mStat_eq]

end Sys2Proof.Machine
end

section
/-! Tiles, operands and dot products of the matrix engine (R40, R41, R168 to R170, R177, R178): parts of O41. -/

namespace Sys2Proof.Machine

/-! ### Tiles (R178) -/

/-- A table of the nonzero values of a function at some numbers. -/
theorem Table.getD_listed (f : Nat → Word32) (l : List Nat) (n : Nat) :
    Table.getD ((l.map fun m => (m, f m)).filter fun e => e.2 != 0) n 0 = if n ∈ l then f n else 0 := by
  induction l with
  | nil => rfl
  | cons m l ih =>
    by_cases hf : f m = 0
    · rw [List.map_cons, List.filter_cons_of_neg (by simp [hf]), ih]
      by_cases hn : n = m
      · subst hn
        simp [hf]
      · simp [hn]
    · rw [List.map_cons, List.filter_cons_of_pos (p := fun e : Nat × Word32 => e.2 != 0) (bne_iff_ne.2 hf), Table.getD]
      by_cases hn : m = n
      · simp [hn]
      · rw [if_neg hn, ih]
        simp [Ne.symm hn]

/-- A word of a tile after a ring step (R177). -/
theorem getD_mStep (fa fb kb : Nat) (a b : Nat → Nat → Val) (t : Table Word32) {i j : Nat} (hi : i < 64) (hj : j < 64) :
    (mStep fa fb kb a b t).getD (64 * i + j) 0 = mDot fa fb kb (a i) (fun k => b k j) (t.getD (64 * i + j) 0) := by
  have hn : 64 * i + j ∈ List.range 4096 := List.mem_range.2 (by omega)
  rw [mStep, Table.getD_listed, if_pos hn, show (64 * i + j) / 64 = i by omega, show (64 * i + j) % 64 = j by omega]

/-- An entry of lists of one length, joined. -/
theorem getD_flatMap {α β : Type} (f : α → List β) {n : Nat} (hf : ∀ a, (f a).length = n) (l : List α) {i b : Nat} (hi : i < l.length)
    (hb : b < n) (d : β) : (l.flatMap f).getD (n * i + b) d = (f l[i]).getD b d := by
  induction l generalizing i with
  | nil => exact absurd hi (Nat.not_lt_zero _)
  | cons a l ih =>
    rw [List.flatMap_cons]
    cases i with
    | zero => rw [Nat.mul_zero, Nat.zero_add, List.getD_append _ _ _ _ (by rw [hf]; exact hb)]; rfl
    | succ i =>
      rw [List.getD_append_right _ _ _ _ (by rw [hf, Nat.mul_succ]; omega), hf,
        show n * (i + 1) + b - n = n * i + b by rw [Nat.mul_succ]; omega, ih (Nat.lt_of_succ_lt_succ hi)]
      rfl

theorem length_tileBytes (m : Matrix) (t : Fin 4) : (m.tileBytes t).length = 16384 := by
  simp only [Matrix.tileBytes, List.length_flatMap, length_leBytes, List.map_const', List.length_range, List.sum_replicate,
    smul_eq_mul]

/-- A byte of a tile's image (R178). -/
theorem getD_tileBytes (m : Matrix) (t : Fin 4) {i j b : Nat} (hi : i < 64) (hj : j < 64) (hb : b < 4) :
    (m.tileBytes t).getD (4 * (64 * i + j) + b) 0 = BitVec.ofNat 8 ((m.word t i j).toNat / 256 ^ b) := by
  have hn : 64 * i + j < (List.range 4096).length := by rw [List.length_range]; omega
  rw [Matrix.tileBytes, getD_flatMap _ (fun _ => length_leBytes 4 _) _ hn hb, List.getElem_range, leBytes_eq,
    List.getD_eq_getElem _ _ (by simpa using hb), List.getElem_map, List.getElem_range, Matrix.word, pow_mul]
  rfl

/-! ### Dot products (R40, R41) -/

theorem mDot_int {fa : Nat} (fb kb : Nat) (a b : Nat → Val) (w : Word32) (h : mFam fa = .int) : mDot fa fb kb a b w =
    BitVec.ofInt 32 (w.toInt + ((List.range kb).map fun m => ((a m).mul (b m)).units 0).sum) := if_pos h

/-- Products of a format that is not INT8 are added in groups of 16, or of 32 where a block format takes part. -/
theorem mDot_groups {fa : Nat} (fb kb : Nat) (a b : Nat → Val) (w : Word32) (h : mFam fa ≠ .int) : mDot fa fb kb a b w =
    let n := if mFam fa ∈ [.plain, .int] ∧ mFam fb ∈ [.plain, .int] then 16 else 32
    (List.range (kb / n)).foldl (fun r q => mmGroup ((List.range n).map fun m => (a (q * n + m)).mul (b (q * n + m))) r) w := by
  have hg : mGroup fa fb = if mFam fa ∈ [.plain, .int] ∧ mFam fb ∈ [.plain, .int] then 16 else 32 := by
    cases ha : mFam fa <;> cases hb : mFam fb <;> simp [mGroup, ha, hb]
  rw [mDot, if_neg h, hg]

/-! ### INT8 operands (R169) -/

theorem Memory.getD_readBytes (m : Memory) (a : Nat) {n j : Nat} (h : j < n) : (m.readBytes a n).getD j 0 = m.read (a + j) := by
  induction n generalizing a j with
  | zero => exact absurd h (Nat.not_lt_zero _)
  | succ n ih =>
    cases j with
    | zero => rfl
    | succ j =>
      rw [Memory.readBytes, List.getD_cons_succ, ih (a + 1) (Nat.lt_of_succ_lt_succ h)]
      congr 1
      omega

theorem ofNat_leNat_one (bs : List Byte) (o : Nat) : BitVec.ofNat 8 (leNat ((bs.drop o).take 1)) = bs.getD o 0 := by
  rw [List.getD_eq_getElem?_getD, ← List.head?_drop]
  cases bs.drop o with
  | nil => rfl
  | cons b _ => simp [leNat]

theorem mElem_int8 (bs scales : List Byte) (k i : Nat) : mElem 3 bs scales k i = .ofInt (bs.getD (64 * k + i) 0).toInt := by
  rw [← ofNat_leNat_one, Nat.mul_comm 64]
  rfl

theorem units_mul_ofInt (a b : Int) : ((Val.ofInt a).mul (Val.ofInt b)).units 0 = a * b := by
  have hsign (x : Int) : x = if x < 0 then -(x.natAbs : Int) else x.natAbs := by split <;> omega
  have hunits : ((Val.ofInt a).mul (Val.ofInt b)).units 0 =
      if (decide (a < 0) != decide (b < 0)) = true then -((a.natAbs : Int) * b.natAbs) else (a.natAbs : Int) * b.natAbs := by
    simp [Val.ofInt, Val.mul, Val.units]
  rw [hunits]
  conv_rhs => rw [hsign a, hsign b]
  by_cases ha : a < 0 <;> by_cases hb : b < 0 <;> simp [ha, hb]

/-! ### Operands without errors (R182, R188) -/

section
variable {s : State}

theorem spanBad_clean (h : s.bad = []) (xs : List (Nat × Nat)) : s.spanBad xs = none := by
  have go (xs : List (Nat × Nat)) (o : Nat) : State.spanBad.go s xs o = none := by
    induction xs generalizing o with
    | nil => rfl
    | cons e xs ih => rw [State.spanBad.go, h]; exact ih _
  exact go xs 0

theorem aStruck_clean (h : s.bad = []) (x : MmaAt) (k i : Nat) : s.aStruck x k i = false := by
  simp [State.aStruck, spanBad_clean h, h, badIn]

theorem mmaFails_clean (h : s.bad = []) (g j n : Nat) (x : MmaAt) : s.mmaFails g none j n x = none := by
  simp [State.mmaFails, State.aFails, aStruck_clean h, h, badIn]

/-- Element (i, m) of the block of A that the member at position j of a gang of g multiplies in ring step n (R177). -/
def State.aElem (s : State) (g j n : Nat) (x : MmaAt) (m i : Nat) : Val :=
  mElem x.fa (s.bytes (s.aKey x) (mBytes x.fa (g * x.kb))) (s.spanBytes x.scales) ((j + g - n) % g * x.kb + m) i

/-- Element (m, i) of a member's current latch. -/
def State.bElem (s : State) (x : MmaAt) (m i : Nat) : Val :=
  mElem x.fb (s.mx x.core).current.bytes (s.mx x.core).current.scales m i

/-- A ring step with all scales read and no error (R177). -/
theorem mmaTile_clean (h : s.bad = []) {g : Nat} {x : MmaAt} (hsc : mScales x.fa (g * x.kb) ≤ (s.spanBytes x.scales).length) (j n : Nat) :
    s.mmaTile g none j n x =
      mStep x.fa x.fb x.kb (fun i m => s.aElem g j n x m i) (s.bElem x) ((s.mx x.core).acc[x.acc]) := by
  simp only [State.mmaTile, aStruck_clean h, Nat.sub_eq_zero_of_le hsc, List.range_zero, List.map_nil, List.append_nil,
    Bool.or_self, Bool.false_eq_true, if_false]
  rfl

end

end Sys2Proof.Machine
end

section
/-! The commands at the head of the matrix engine's queue (R168 to R170, R175 to R179, R182): the proof of O41. -/

namespace Sys2Proof.Machine

section
variable {s : State} {c : Nat} {m : MCmd} {ms : List MCmd}

/-! ### The head of a queue -/

theorem mHead_of_queue (hs : (s.mx c).stopped = false) (hh : s.mHolds c = false) (hq : (s.mx c).queue = m :: ms) :
    s.mHead c = some m := by
  rw [State.mHead, hs, hh, hq]
  rfl

/-! ### MZERO (R178) -/

/-- An engine after MZERO of a tile. -/
def Matrix.zeroed (x : Matrix) (t : Fin 4) : Matrix :=
  { x.pop with acc := x.acc.set t [], poison := x.poison &&& ~~~(BitVec.ofNat 4 (2 ^ t.val)) }

theorem mzeroExecute_zeroes (hm : s.mHead s.subject.core = some m) {acc : Fin 4} (hop : m.op = .zero acc) :
    exec .mzeroExecute s = .next (s.modMx s.subject.core fun x => x.zeroed acc) := by
  show execMzeroExecute s = _
  simp only [execMzeroExecute, hm, hop]
  rfl

theorem word_zeroed (x : Matrix) (t : Fin 4) (i j : Nat) : (x.zeroed t).word t i j = 0 := by
  simp [Matrix.word, Matrix.zeroed, Table.getD]

theorem acc_set_ne (v : Vector (Table Word32) 4) {t b : Fin 4} (w : Table Word32) (h : b ≠ t) : (v.set t w)[b] = v[b] :=
  Vector.getElem_set_ne t.isLt b.isLt fun e => h (Fin.ext e.symm)

theorem getLsbD_poisonBit (t b : Fin 4) : (BitVec.ofNat 4 (2 ^ t.val)).getLsbD b = decide (b = t) := by decide +revert

theorem poison_zeroed (x : Matrix) (t b : Fin 4) : (x.zeroed t).poison.getLsbD b = (x.poison.getLsbD b && decide (b ≠ t)) := by
  rw [Matrix.zeroed, BitVec.getLsbD_and, BitVec.getLsbD_not, getLsbD_poisonBit, decide_not]
  simp

/-! ### MBLD (R176) -/

/-- The latch that an MBLD loads (R176, R182). -/
def State.loaded (s : State) (src : Word) (kb fmt : Nat) (scale : Word) (data scales : List (Nat × Nat)) : Latch :=
  ⟨some (fmt, kb), s.spanBytes data, s.spanBytes scales,
    ((s.spanBad data).map fun o => src + BitVec.ofNat 64 o).or ((s.spanBad scales).map fun o => scale + BitVec.ofNat 64 o)⟩

theorem mbldExecute_loads (hm : s.mHead s.subject.core = some m) {src scale : Word} {kb fmt : Nat} {data scales : List (Nat × Nat)}
    (hop : m.op = .bld src kb fmt scale data scales) : exec .mbldExecute s =
      .next (s.modMx s.subject.core fun x => { x.pop with current := s.loaded src kb fmt scale data scales }) := by
  show execMbldExecute s = _
  simp only [execMbldExecute, hm, hop, State.loaded]
  cases s.spanBad data <;> rfl

/-! ### MSTORE (R178, R179, R214) -/

theorem mstoreExecute_waits (hm : s.mHead s.subject.core = some m) {acc : Fin 4} {dst : Word} {d off key : Nat}
    (hop : m.op = .store acc dst) (hp : s.tilePlace s.subject.core dst.toNat = some (d, off, key))
    (hpoison : (s.mx s.subject.core).poison.getLsbD acc = false) (hl : (s.spanLock [(key, 16384)] none).isSome = true) :
    exec .mstoreExecute s = .next s := by
  show execMstoreExecute s = _
  simp only [execMstoreExecute, hm, hop, hpoison, hp, hl, if_true, Bool.false_eq_true, if_false]

theorem mstoreExecute_stores (hm : s.mHead s.subject.core = some m) {acc : Fin 4} {dst : Word} {d off key : Nat}
    (hop : m.op = .store acc dst) (hp : s.tilePlace s.subject.core dst.toNat = some (d, off, key))
    (hpoison : (s.mx s.subject.core).poison.getLsbD acc = false) (hl : s.spanLock [(key, 16384)] none = none) :
    exec .mstoreExecute s =
      .next ((s.modMx s.subject.core Matrix.pop).pokeFull key ((s.mx s.subject.core).tileBytes acc)) := by
  show execMstoreExecute s = _
  simp only [execMstoreExecute, hm, hop, hpoison, hp, hl, Option.isSome_none, Bool.false_eq_true, if_false]

theorem byte_stored_in {key : Nat} (acc : Fin 4) {i j b : Nat} (hi : i < 64) (hj : j < 64) (hb : b < 4) :
    ((s.modMx c Matrix.pop).pokeFull key ((s.mx c).tileBytes acc)).byte (key + 4 * (64 * i + j) + b) =
      BitVec.ofNat 8 (((s.mx c).word acc i j).toNat / 256 ^ b) := by
  rw [byte_pokeFull, Nat.add_assoc, State.byte_poke_in _ _ _ _ (by rw [length_tileBytes]; omega), getD_tileBytes _ _ hi hj hb]

theorem byte_stored_out {key q : Nat} (acc : Fin 4) (hq : q < key ∨ key + 16384 ≤ q) :
    ((s.modMx c Matrix.pop).pokeFull key ((s.mx c).tileBytes acc)).byte q = s.byte q := by
  rw [byte_pokeFull, State.byte_poke_out _ _ _ _ (by rwa [length_tileBytes])]
  exact congrArg (Memory.read · q) (State.mem_modMx ..)

theorem mstoreExecute_poisoned (hm : s.mHead s.subject.core = some m) {acc : Fin 4} {dst : Word} (hop : m.op = .store acc dst)
    (hpoison : (s.mx s.subject.core).poison.getLsbD acc = true) : exec .mstoreExecute s =
      .next ((s.modMx s.subject.core Matrix.pop).defer m.by_ 30 1 m.pc (BitVec.ofNat 64 acc)) := by
  show execMstoreExecute s = _
  simp only [execMstoreExecute, hm, hop, hpoison, if_true]

/-- A deferred trap is pending for the thread afterwards, and memory stays (R372). -/
theorem defer_pends {r : TRef} (h : (s.findRef r).isSome = true) (cause source : Nat) (v v2 : Word) :
    (s.defer r cause source v v2).mem = s.mem ∧ (s.defer r cause source v v2).full = s.full ∧
    ∀ i t, s.slot r.core i = .thread t → t.serial = r.serial →
      ∃ t', (s.defer r cause source v v2).slot r.core i = .thread t' ∧ ∃ d ∈ t'.deferred, d.cause = BitVec.ofNat 8 cause := by
  obtain ⟨w, hw⟩ := Option.isSome_iff_exists.1 h
  simp only [State.defer, hw]
  refine ⟨rfl, rfl, fun i t hs ht => ⟨_, slot_modRef_any hs r _, ?_⟩⟩
  rw [if_pos ⟨rfl, ht⟩]
  dsimp only
  split
  · next hany =>
    obtain ⟨d, hd, hc⟩ := List.any_eq_true.1 hany
    exact ⟨_, List.mem_map_of_mem hd, by rw [if_pos hc]; exact beq_iff_eq.1 hc⟩
  · exact ⟨_, List.mem_append_right _ (List.mem_singleton_self _), rfl⟩

end

/-! ### The members of a gang (R175, R177) -/

section
variable {s : State} {c g : Nat} {hs : List MmaAt} {x : MmaAt}

theorem mmaHead_core {d : Nat} (h : s.mmaHead d = some x) : x.core = d := by
  unfold State.mmaHead at h
  split at h
  · split at h
    · cases h; rfl
    · cases h
  · cases h

/-- Where every member's head is an MMA, the commands are the members' in order. -/
theorem map_core_mmaHeads (cs : List Nat) (h : (cs.filterMap s.mmaHead).length = cs.length) :
    (cs.filterMap s.mmaHead).map MmaAt.core = cs := by
  induction cs with
  | nil => rfl
  | cons d cs ih =>
    cases hd : s.mmaHead d with
    | none =>
      rw [List.filterMap_cons_none hd, List.length_cons] at h
      exact absurd (List.length_filterMap_le s.mmaHead cs) (by omega)
    | some x =>
      rw [List.filterMap_cons_some hd] at h ⊢
      rw [List.map_cons, mmaHead_core hd, ih (Nat.succ.inj h)]

/-- The commands of a gang are of different cores. -/
theorem nodup_mmaReady (h : s.mmaReady c = some hs) : (hs.map MmaAt.core).Nodup := by
  unfold State.mmaReady at h
  dsimp only at h
  split at h
  · next hready =>
    simp only [Bool.and_eq_true, beq_iff_eq] at hready
    obtain ⟨⟨-, hlen⟩, -⟩ := hready
    obtain rfl := Option.some.inj h
    rw [map_core_mmaHeads _ hlen, State.gangOf]
    exact List.nodup_range.map fun i j hij => Nat.add_left_cancel hij
  · cases h

/-- The MMA of a core that is a gang of its own. -/
theorem mmaReady_solo (hg : (s.mx c).gsize = 1) (hp : (s.mx c).gpos = 0) (hx : s.mmaHead c = some x) : s.mmaReady c = some [x] := by
  have hgang : s.gangOf c = [c] := by simp [State.gangOf, hg, hp]
  simp [State.mmaReady, hgang, hp, hx]

/-! ### A ring step (R177) -/

/-- The latch that comes to position j of a gang: that of the member before it. -/
def State.latchBefore (s : State) (hs : List MmaAt) (j : Nat) : Latch :=
  match hs[(j + hs.length - 1) % hs.length]? with
  | some y => (s.mx y.core).current
  | none => .reset

/-- The engine of a member after ring step n. -/
def State.stepped (s : State) (hs : List MmaAt) (strike : Option Strike) (n : Nat) (p : MmaAt × Nat) (m : Matrix) : Matrix :=
  { m with
    acc := m.acc.set p.1.acc (s.mmaTile hs.length strike p.2 n p.1), current := s.latchBefore hs p.2,
    incoming := s.latchBefore hs p.2, ring := some (n + 1) }

theorem mmaStep_eq (s : State) (hs : List MmaAt) (strike : Option Strike) (n : Nat) : s.mmaStep hs strike n =
    hs.zipIdx.foldl (fun s1 p => s1.modMx p.1.core (s.stepped hs strike n p)) s := rfl

theorem mx_mmaStep (hn : (hs.map MmaAt.core).Nodup) {j : Nat} (hj : hs[j]? = some x) (strike : Option Strike) (n : Nat) :
    (s.mmaStep hs strike n).mx x.core = s.stepped hs strike n (x, j) (s.mx x.core) := by
  rw [mmaStep_eq]
  refine (actsOn_modMx (fun p : MmaAt × Nat => p.1.core) (s.stepped hs strike n)).foldl_here hs.zipIdx s ?_ (x := (x, j))
    (List.mem_zipIdx_iff_getElem?.2 hj)
  have hmap : hs.zipIdx.map (fun p => p.1.core) = hs.map MmaAt.core := by
    conv_rhs => rw [← List.zipIdx_map_fst 0 hs, List.map_map]
    rfl
  rwa [hmap]

theorem mem_mmaStep (s : State) (hs : List MmaAt) (strike : Option Strike) (n : Nat) : (s.mmaStep hs strike n).mem = s.mem :=
  mem_foldl_same (fun _ _ => State.mem_modMx ..) _ s

/-- Every member's command has finished with no error. -/
def State.mmaFinish (s : State) (hs : List MmaAt) : State := hs.foldl (fun s x => s.modMx x.core fun m => { m.pop with err := 0 }) s

theorem mx_mmaFinish (hn : (hs.map MmaAt.core).Nodup) (hx : x ∈ hs) (s : State) :
    (s.mmaFinish hs).mx x.core = { (s.mx x.core).pop with err := 0 } :=
  (actsOn_modMx MmaAt.core fun _ m => { m.pop with err := 0 }).foldl_here hs s hn hx

theorem mx_mmaAbort (hn : (hs.map MmaAt.core).Nodup) (hx : x ∈ hs) (s : State) (e : Nat) : (s.mmaAbort hs e).mx x.core =
    { (s.mx x.core).pop with err := e, poison := (s.mx x.core).poison ||| BitVec.ofNat 4 (2 ^ x.acc.val) } :=
  (actsOn_modMx MmaAt.core fun x m => { m.pop with err := e, poison := m.poison ||| BitVec.ofNat 4 (2 ^ x.acc.val) }).foldl_here
    hs s hn hx

/-! ### An MMA (R177, R182) -/

/-- Nothing keeps an MMA from a ring step: it has begun, or the members agree, their latches hold what they multiply, and their
ranges lie in their scratchpads (R177). -/
def State.MmaGoes (s : State) (c : Nat) (hs : List MmaAt) : Prop :=
  (s.mx c).ring.isSome = true ∨ ((∀ x ∈ hs, ∀ y ∈ hs, x.kb = y.kb ∧ x.fa = y.fa ∧ x.fb = y.fb) ∧
    ∀ x ∈ hs, (s.mx x.core).current.tag = some (x.fb, x.kb) ∧ (s.mx x.core).current.poison = none ∧
      s.aOutside x.core x.base (mBytes x.fa (hs.length * x.kb)) = none)

theorem noError_of_goes (h : s.MmaGoes c hs) : (if (s.mx c).ring.isSome then 0 else s.mmaError hs) = 0 := by
  split
  · rfl
  · next hring =>
    obtain ⟨hsame, hok⟩ := h.resolve_left hring
    cases hs with
    | nil => rfl
    | cons y hs =>
      have hy : y ∈ y :: hs := List.mem_cons_self
      simp only [State.mmaError]
      rw [if_neg, if_neg, if_neg, if_neg]
      all_goals
        simp only [List.any_eq_true, not_exists, not_and]
        intro x hx
        obtain ⟨hkb, hfa, hfb⟩ := hsame x hx y hy
        obtain ⟨htag, hpoison, hout⟩ := hok x hx
      · simp [hpoison]
      · simpa using hout
      · simp [htag, hkb, hfb]
      · simp [hkb, hfa, hfb]

/-- An MMA whose operands no error strikes does a ring step, and finishes with its last (R177). -/
theorem mmaRun_clean (hr : s.mmaReady c = some hs) (hgo : s.MmaGoes c hs) (hbad : s.bad = []) : s.mmaRun c none =
    if (s.mx c).ring.getD 0 + 1 < hs.length then s.mmaStep hs none ((s.mx c).ring.getD 0)
    else (s.mmaStep hs none ((s.mx c).ring.getD 0)).mmaFinish hs := by
  have hno : (hs.mapIdx fun j x => (s.mmaFails hs.length none j ((s.mx c).ring.getD 0) x).isSome).any id = false := by
    simp [mmaFails_clean hbad, List.any_eq_false, List.mem_mapIdx]
  simp only [State.mmaRun, hr, noError_of_goes hgo, hno, Bool.false_eq_true, if_false]
  rfl

section
variable (hr : s.mmaReady c = some hs) (hgo : s.MmaGoes c hs) (hbad : s.bad = []) {j : Nat} (hj : hs[j]? = some x)
include hr hgo hbad

theorem mem_mmaRun_clean : (s.mmaRun c none).mem = s.mem := by
  rw [mmaRun_clean hr hgo hbad]
  split
  · exact mem_mmaStep ..
  · exact (mem_foldl_same (fun _ _ => State.mem_modMx ..) _ _).trans (mem_mmaStep ..)

include hj

/-- A member's engine after a ring step that is not the last. -/
theorem mx_mmaRun_inner (hn : (s.mx c).ring.getD 0 + 1 < hs.length) :
    (s.mmaRun c none).mx x.core = s.stepped hs none ((s.mx c).ring.getD 0) (x, j) (s.mx x.core) := by
  rw [mmaRun_clean hr hgo hbad, if_pos hn, mx_mmaStep (nodup_mmaReady hr) hj]

/-- A member's engine after the last ring step. -/
theorem mx_mmaRun_last (hn : hs.length ≤ (s.mx c).ring.getD 0 + 1) : (s.mmaRun c none).mx x.core =
    { (s.stepped hs none ((s.mx c).ring.getD 0) (x, j) (s.mx x.core)).pop with err := 0 } := by
  rw [mmaRun_clean hr hgo hbad, if_neg (Nat.not_lt.2 hn), mx_mmaFinish (nodup_mmaReady hr) (List.mem_of_getElem? hj),
    mx_mmaStep (nodup_mmaReady hr) hj]

theorem acc_mmaRun : ((s.mmaRun c none).mx x.core).acc =
    (s.mx x.core).acc.set x.acc (s.mmaTile hs.length none j ((s.mx c).ring.getD 0) x) := by
  rcases Nat.lt_or_ge ((s.mx c).ring.getD 0 + 1) hs.length with hn | hn
  · rw [mx_mmaRun_inner hr hgo hbad hj hn]; rfl
  · rw [mx_mmaRun_last hr hgo hbad hj hn]; rfl

/-- A word of a member's tile after a ring step (R40, R41, R177). -/
theorem word_mmaRun (hsc : mScales x.fa (hs.length * x.kb) ≤ (s.spanBytes x.scales).length) {i i' : Nat} (hi : i < 64)
    (hi' : i' < 64) : ((s.mmaRun c none).mx x.core).word x.acc i i' = mDot x.fa x.fb x.kb
      (fun m => s.aElem hs.length j ((s.mx c).ring.getD 0) x m i) (fun m => s.bElem x m i') ((s.mx x.core).word x.acc i i') := by
  rw [Matrix.word, acc_mmaRun hr hgo hbad hj, mmaTile_clean hbad hsc]
  simp only [Fin.getElem_fin, Vector.getElem_set_self]
  exact getD_mStep _ _ _ _ _ _ hi hi'

theorem acc_mmaRun_ne {t : Fin 4} (ht : t ≠ x.acc) : ((s.mmaRun c none).mx x.core).acc[t] = (s.mx x.core).acc[t] := by
  rw [acc_mmaRun hr hgo hbad hj, acc_set_ne _ _ ht]

end

/-- An error that strikes an operand of a core that is a gang of its own ends its MMA and poisons the tile (R182). -/
theorem mx_mmaRun_struck {strike : Strike} (hr : s.mmaReady c = some [x]) (hgo : s.MmaGoes c [x]) (hcore : strike.core = x.core) :
    ((s.mmaRun c (some strike)).mx x.core).queue = (s.mx x.core).queue.tail ∧ ((s.mmaRun c (some strike)).mx x.core).err = 1 ∧
      ((s.mmaRun c (some strike)).mx x.core).poison.getLsbD x.acc = true := by
  have hfail : (s.mmaFails 1 (some strike) 0 ((s.mx c).ring.getD 0) x).isSome = true := by
    simp [State.mmaFails, hcore]
  obtain ⟨a, ha⟩ := Option.isSome_iff_exists.1 hfail
  have hrun : s.mmaRun c (some strike) = ((s.mmaStep [x] (some strike) ((s.mx c).ring.getD 0)).mmaAbort [x] 1).engineRec
      x.core 31 1 a (BitVec.ofNat 64 x.acc) 0 0 := by
    simp only [State.mmaRun, hr, noError_of_goes hgo, List.length_singleton, List.mapIdx_cons, List.mapIdx_nil, ha,
      List.zipIdx_cons, List.zipIdx_nil, List.foldl_cons, List.foldl_nil]
    rfl
  rw [hrun, mx_engineRec, mx_mmaAbort (by simp) (List.mem_singleton_self x), mx_mmaStep (by simp) (j := 0) rfl]
  refine ⟨rfl, rfl, ?_⟩
  rw [BitVec.getLsbD_or, getLsbD_poisonBit, decide_eq_true rfl, Bool.or_true]

end

/-! ### INT8 on one core (R169, R177) -/

section
variable {s : State} {c : Nat} {x : MmaAt}

/-- INT8 operands have no scales. -/
theorem mScales_int8 (k : Nat) : mScales 3 k = 0 := if_neg (by decide)

theorem aElem_int8 (hf : x.fa = 3) (n : Nat) {m i : Nat} (hm : m < x.kb) (hi : i < 64) :
    s.aElem 1 0 n x m i = .ofInt (s.byte (s.aKey x + 64 * m + i)).toInt := by
  have hin : 64 * m + i < mBytes 3 (1 * x.kb) := by
    show 64 * m + i < 1 * x.kb * 64 * 1
    omega
  rw [State.aElem, hf, Nat.mod_one, Nat.zero_mul, Nat.zero_add, mElem_int8, State.bytes, Memory.getD_readBytes _ _ hin,
    ← Nat.add_assoc]
  rfl

theorem bElem_int8 (hf : x.fb = 3) (m i : Nat) : s.bElem x m i = .ofInt ((s.mx x.core).current.bytes.getD (64 * m + i) 0).toInt := by
  rw [State.bElem, hf, mElem_int8]

/-- A word of the tile of a core that is a gang of its own, after its MMA of INT8 operands (R41). -/
theorem word_mmaRun_int8 (hr : s.mmaReady c = some [x]) (hgo : s.MmaGoes c [x]) (hbad : s.bad = []) (hfa : x.fa = 3)
    (hfb : x.fb = 3) {i j : Nat} (hi : i < 64) (hj : j < 64) : ((s.mmaRun c none).mx x.core).word x.acc i j =
      BitVec.ofInt 32 (((s.mx x.core).word x.acc i j).toInt + ((List.range x.kb).map fun m =>
        (s.byte (s.aKey x + 64 * m + i)).toInt * ((s.mx x.core).current.bytes.getD (64 * m + j) 0).toInt).sum) := by
  rw [word_mmaRun hr hgo hbad (j := 0) rfl (by rw [hfa, mScales_int8]; exact Nat.zero_le _) hi hj,
    mDot_int _ _ _ _ _ (by rw [hfa]; rfl)]
  refine congrArg (fun l => BitVec.ofInt 32 (_ + List.sum l)) (List.map_congr_left fun m hm => ?_)
  rw [List.length_singleton, aElem_int8 hfa _ (List.mem_range.1 hm) hi, bElem_int8 hfb, units_mul_ofInt]

end

/-! ### MGANG (R175) -/

section
variable {s : State}

/-- The engine of a core whose MGANG completes as judged in s: the gang forms where all its members agree. -/
def State.ganged (s : State) (d : Nat) (x : Matrix) : Matrix :=
  match s.gangHead d with
  | some (g, id) =>
    if (spanOf d g).all fun e => s.gangHead e == some (g, id) then { x.pop with gsize := g, gid := id, gpos := colOf d % g } else x.pop
  | none => x

theorem mHead_of_gangHead {d : Nat} {p : Nat × Nat} (h : s.gangHead d = some p) : ∃ m, s.mHead d = some m := by
  unfold State.gangHead at h
  split at h
  · next m hm => exact ⟨m, hm⟩
  · cases h

theorem actsOn_gangDone (s : State) : ActsOn id s.ganged s.gangDone := by
  have hdone (s1 : State) (d e : Nat) : (s.gangDone s1 d).mx e = (if e = d then s.ganged d (s1.mx d) else s1.mx e) := by
    cases hg : s.gangHead d with
    | none =>
      simp only [State.gangDone, State.ganged, hg]
      split <;> simp [*]
    | some p =>
      obtain ⟨g, i⟩ := p
      obtain ⟨m, hm⟩ := mHead_of_gangHead hg
      simp only [State.gangDone, State.ganged, hg, hm, State.mx_modRef]
      by_cases he : e = d
      · rw [he, if_pos rfl, State.mx_modMx]
      · rw [if_neg he, State.mx_modMx_ne _ _ he]
  exact ⟨fun s1 d => by rw [hdone]; exact if_pos rfl, fun s1 d e he => by rw [hdone]; exact if_neg he⟩

theorem ganged_eq {d g i : Nat} (h : s.gangHead d = some (g, i)) (x : Matrix) : s.ganged d x =
    if ((List.range g).all fun j => s.gangHead (d - d % 16 % g + j) == some (g, i)) = true
    then { x with queue := x.queue.tail, ring := none, gsize := g, gid := i, gpos := d % 16 % g }
    else { x with queue := x.queue.tail, ring := none } := by
  have hall : (spanOf d g).all (fun e => s.gangHead e == some (g, i)) =
      (List.range g).all fun j => s.gangHead (d - d % 16 % g + j) == some (g, i) := List.all_map
  simp only [State.ganged, h, hall]
  rfl

/-- The cores of the subject's row whose MGANG completes now. -/
def State.rowGangs (s : State) : List Nat :=
  ((List.range 16).map fun j => s.subject.core / 16 * 16 + j).filter s.gangReady

theorem mem_rowGangs {d : Nat} (hd : d / 16 = s.subject.core / 16) : d ∈ s.rowGangs ↔ s.gangReady d = true := by
  rw [State.rowGangs, List.mem_filter, and_iff_right_iff_imp]
  exact fun _ => List.mem_map.2 ⟨d % 16, List.mem_range.2 (Nat.mod_lt _ (by decide)), by omega⟩

theorem nodup_rowGangs (s : State) : s.rowGangs.Nodup :=
  (List.nodup_range.map fun _ _ h => Nat.add_left_cancel h).filter _

/-- The MGANGs of a row whose spans are complete change their engines, each its own. -/
theorem mx_rowGangs {d : Nat} (hd : d / 16 = s.subject.core / 16) : (s.rowGangs.foldl s.gangDone s).mx d =
    if s.gangReady d then s.ganged d (s.mx d) else s.mx d := by
  split
  · next hr =>
    exact (actsOn_gangDone s).foldl_here s.rowGangs s (by simpa using nodup_rowGangs s) ((mem_rowGangs hd).2 hr)
  · next hr =>
    exact (actsOn_gangDone s).foldl_other s.rowGangs s fun e he h => hr ((mem_rowGangs hd).1 (h ▸ he))

end

/-- Settles O41: MZERO, MBLD and MSTORE by the engine that they leave; an MMA by the words of the tile after a ring step, of which
INT8 on one core is a case; MGANG by the row's engines, of which each completes for itself. -/
theorem matrixEngine : Obligations.MatrixEngine := by
  unfold Obligations.MatrixEngine
  refine ⟨?commands, ?int8, ?step, ?inner, ?gang⟩
  case commands =>
    intro s m ms c hs hh hq
    have hm := mHead_of_queue hs hh hq
    have htail : (s.mx c).queue.tail = ms := by rw [hq]; rfl
    refine ⟨fun acc hop => ?zero, fun src kb fmt scale data scales hop => ?load, fun acc dst d off key hop hp hpoison => ⟨?_, ?store⟩,
      fun acc dst hop hpoison hby => ?poisoned⟩
    case zero =>
      refine ⟨_, mzeroExecute_zeroes hm hop, ?_⟩
      rw [State.mx_modMx]
      refine ⟨htail, word_zeroed _ acc, ?_, fun b hb => ⟨acc_set_ne _ _ hb, ?_⟩, State.mem_modMx ..⟩
      · rw [poison_zeroed, decide_eq_false fun h => h rfl, Bool.and_false]
      · rw [poison_zeroed, decide_eq_true hb, Bool.and_true]
    case load =>
      refine ⟨_, mbldExecute_loads hm hop, ?_⟩
      rw [State.mx_modMx]
      exact ⟨htail, rfl, rfl, State.mem_modMx ..⟩
    · exact mstoreExecute_waits hm hop hp hpoison
    case store =>
      intro hl
      exact ⟨_, mstoreExecute_stores hm hop hp hpoison hl, by rw [mx_pokeFull, State.mx_modMx]; exact htail,
        fun i j b hi hj hb => byte_stored_in acc hi hj hb, fun q hq => byte_stored_out acc hq⟩
    case poisoned =>
      refine ⟨_, mstoreExecute_poisoned hm hop hpoison, ?_⟩
      obtain ⟨hmem, hfull, hpend⟩ := defer_pends (s := s.modMx c Matrix.pop) (r := m.by_)
        (by rw [findRef_modMx]; exact Option.isSome_iff_ne_none.2 hby) 30 1 m.pc (BitVec.ofNat 64 acc)
      refine ⟨hmem.trans (State.mem_modMx ..), hfull.trans (State.full_modMx ..), fun i t ht hser => ?_⟩
      obtain ⟨p, hslot⟩ := slot_modMx ht c Matrix.pop
      exact hpend i _ hslot hser
  case int8 =>
    intro s m ms acc base sc kb scales c e hs hh hq hop hg hp htag hpoison hout hbad key a b
    have htail : (s.mx c).queue.tail = ms := by rw [hq]; rfl
    obtain ⟨x, hx⟩ : ∃ x : MmaAt, x = ⟨c, acc, base.toNat, kb, 3, 3, sc, scales⟩ := ⟨_, rfl⟩
    have hcore : x.core = c := by rw [hx]
    have hr : s.mmaReady c = some [x] :=
      mmaReady_solo hg hp (by rw [State.mmaHead, mHead_of_queue hs hh hq]; simp only [hop, hx])
    have hgo : s.MmaGoes c [x] := .inr ⟨by simp, by rw [hx]; exact List.forall_mem_singleton.2 ⟨htag, hpoison, hout⟩⟩
    refine ⟨⟨_, rfl, ?_⟩, _, rfl, ?_⟩
    · have hlast := mx_mmaRun_last hr hgo hbad (j := 0) rfl (Nat.le_add_left _ _)
      have hother (t : Fin 4) (ht : t ≠ x.acc) := acc_mmaRun_ne hr hgo hbad (j := 0) rfl ht
      subst hx
      refine ⟨(congrArg Matrix.queue hlast).trans htail, congrArg Matrix.err hlast, mem_mmaRun_clean hr hgo hbad,
        fun i j hi hj => word_mmaRun_int8 hr hgo hbad rfl rfl hi hj, hother⟩
    · obtain ⟨h1, h2, h3⟩ := mx_mmaRun_struck (strike := ⟨c, s.subject.flag, s.subject.idx, s.subject.val⟩) hr hgo hcore.symm
      subst hx
      exact ⟨h1.trans htail, h2, h3⟩
  case step =>
    intro s hs hr hbad g n hgo hsc
    refine ⟨_, rfl, mem_mmaRun_clean hr hgo hbad, fun j x hj => ?_⟩
    intro e key a b w
    refine ⟨fun i i' hi hi' => ⟨fun hf => ?_, fun hf => ?_⟩, fun t ht => acc_mmaRun_ne hr hgo hbad hj ht, fun hlt => ?_, fun hge => ?_⟩
    · exact (word_mmaRun hr hgo hbad hj (hsc x (List.mem_of_getElem? hj)) hi hi').trans (mDot_int _ _ _ _ _ hf)
    · exact (word_mmaRun hr hgo hbad hj (hsc x (List.mem_of_getElem? hj)) hi hi').trans (mDot_groups _ _ _ _ _ hf)
    · rw [mx_mmaRun_inner hr hgo hbad hj hlt]
      exact ⟨rfl, rfl, fun y hy => by simp only [State.stepped, State.latchBefore]; rw [hy]⟩
    · rw [mx_mmaRun_last hr hgo hbad hj hge]
      exact ⟨rfl, rfl, rfl⟩
  case inner =>
    intro s hs n hr hn hlt hbad
    have hgo : s.MmaGoes s.subject.core hs := .inl (by rw [hn]; rfl)
    refine ⟨_, rfl, mem_mmaRun_clean hr hgo hbad, fun x hx => ?_⟩
    obtain ⟨j, hj⟩ := List.getElem?_of_mem hx
    rw [mx_mmaRun_inner hr hgo hbad hj (by rw [hn]; exact hlt), hn]
    exact ⟨rfl, rfl⟩
  case gang =>
    intro s
    refine ⟨_, rfl, fun d hd => ⟨fun hr => ?_, fun hr g i hg => ?_⟩⟩
    · exact (mx_rowGangs hd).trans (if_neg (by rw [hr]; decide))
    · have hmx := (mx_rowGangs hd).trans (if_pos hr)
      rw [ganged_eq hg] at hmx
      exact ⟨fun hall => hmx.trans (if_pos hall), fun hall => hmx.trans (if_neg hall)⟩

end Sys2Proof.Machine
end
